-- ==== Sys2Proof/Word.lean ====
section
/-! DEFINITION. The words of the machine and the two shapes of table its state is made of. -/
namespace Sys2Proof

abbrev Byte := BitVec 8
/-- A register of the management address space (R14). -/
abbrev Word := BitVec 32
abbrev DWord := BitVec 64

/-- A sparse table by number, kept sorted by strictly rising key with no entry equal to the table's
default (Machine/Tab.lean has its reads and writes). -/
abbrev Tab (α : Type) := List (Nat × α)

/-- A table by any key, at most one entry a key. -/
abbrev AMap (κ α : Type) := List (κ × α)

end Sys2Proof
end

