-- ==== Sys2Proof/Syntax.lean ====
section
/-! DEFINITION. The commands of the block, one constructor for each row of the opcode table, and the
operands they carry: frames with where they came from, register accesses with their source, instants of
the block's timers, pins and readings, and the fields of grid slot encodings. -/
namespace Sys2Proof

/-- Where a frame arrived: link l of R384 (link l is P⌊l/2⌋, half l mod 2), or the management port. -/
inductive RxVia where
  | link (l : Fin 8)
  | mp
deriving DecidableEq, Repr

/-- What R53 and R378 look at outside the KPP header. `short` says that the UDP payload holds fewer than
32 bytes, `ipOpt` that the IP header has options, extension headers or is a fragment. -/
structure Encap where
  bytes : Nat := 0
  vlanTags : Nat := 0
  ipv6 : Bool := false
  ipOpt : Bool := false
  udpCsum : BitVec 16 := 0
  udpCsumOk : Bool := true
  dscp : BitVec 6 := 0
  ce : Bool := false
  udpDst : BitVec 16 := 0xC4C3
  short : Bool := false
deriving DecidableEq, Repr

/-- The KPP header of R56 without its OPCODE byte, which the command's constructor gives. `rsvd` is the
reserved bit of bytes 6-7. FLOW_SEQ holds CUM in a TRANSPORT_ACK (R102). -/
structure KppHdr where
  version : BitVec 4 := 1
  typ : BitVec 4 := 0
  flags : BitVec 16 := 0x4000
  context : BitVec 16 := 0
  endpoint : BitVec 12 := 0
  tc : BitVec 3 := 0
  rsvd : BitVec 1 := 0
  flowSeq : BitVec 24 := 0
  alive : BitVec 8 := 0
  address : BitVec 64 := 0
  length : BitVec 32 := 0
  tag : BitVec 32 := 0
  hcrc : BitVec 32 := 0
deriving DecidableEq, Repr

/-- A KPP frame as received. -/
structure RxFrame where
  via : RxVia := .link 0
  encap : Encap := {}
  srcAddr : BitVec 128 := 0
  srcPort : BitVec 16 := 0
  hdr : KppHdr := {}
  payload : List Byte := []
deriving DecidableEq, Repr

/-- A flow's identity (R89). -/
inductive FlowId where
  | ep (index : BitVec 12) (pitch : BitVec 8) (cls : BitVec 3)
  | sess (addr : BitVec 128) (port : BitVec 16) (cls : BitVec 3)
deriving DecidableEq, Repr

/-- Who makes a register access (R463). `image` is a CONFIG record of the image during boot (R441). -/
inductive MgmtSource where
  | session (number : BitVec 32)
  | jtag
  | sc (k : Fin 4)
  | image
deriving DecidableEq, Repr

/-- What a read of a parity-protected store met (R305): no error, an error that the single re-read cleared, or a second one. -/
inductive Reread where
  | good | passed | failed
deriving DecidableEq, Repr

/-- What a read-out of a line found (R163): good, a parity failure, or a tag or key-slot failure. -/
inductive ReadOut where
  | good | parity | tag
deriving DecidableEq, Repr

/-- What boot training found for a channel (R153, R160, R176): the modules' capacity in use in GiB, the highest of the
mode's rates that they declare (3 where no SPD was read), and the DRAM times in ns. -/
structure Trained where
  rowBits : BitVec 5 := 0
  rankBits : BitVec 3 := 0
  x8 : Bool := false
  rate : BitVec 2 := 3
  gib : Nat := 0
  tRc : Nat := 0
  tRp : Nat := 0
  tRfc : Nat := 0
deriving DecidableEq, Repr

/-- The KLR header (R361). -/
structure KlrHdr where
  ver : BitVec 4 := 1
  typ : BitVec 4 := 0
  tc : BitVec 3 := 0
  av : Bool := true
  rq : Bool := false
  seq : BitVec 24 := 0
  ack : BitVec 24 := 0
  crTc : BitVec 3 := 0
  cv : Bool := false
  want : BitVec 8 := 0
  crLimit : BitVec 24 := 0
  hcrc : BitVec 32 := 0
deriving DecidableEq, Repr

/-- A KLR frame as received. `bytes` is its length from the destination address through the FCS; `body` is the
body of a control frame. The frame that a DATA frame carries is a command of its own. -/
structure KlrRx where
  link : Fin 8 := 0
  bytes : Nat := 64
  hdr : KlrHdr := {}
  body : List Byte := []
deriving DecidableEq, Repr

/-- PTP message types that the chip handles (R357). -/
inductive PtpKind where
  | sync | followUp | delayReq | delayResp | pdelayReq | pdelayResp | pdelayRespFollowUp | announce
deriving DecidableEq, Repr

/-- A PTP message: `stamp` is the timestamp it carries, `corr` its correction in ns, `source` its port
identity; the priority fields are those of an Announce. -/
structure PtpMsg where
  kind : PtpKind := .sync
  domain : BitVec 8 := 0
  seq : BitVec 16 := 0
  source : BitVec 80 := 0
  requester : BitVec 80 := 0
  twoStep : Bool := false
  stamp : Nat := 0
  corr : Int := 0
  prio1 : BitVec 8 := 128
  quality : BitVec 32 := 0xF8FEFFFF
  prio2 : BitVec 8 := 128
  grandmaster : BitVec 64 := 0
  steps : BitVec 16 := 0
deriving DecidableEq, Repr

/-- The commands (spec/opcode_table.json). -/
inductive Instr where
  /-- AGT_INTENT_WRITE (R8): A write of a unit's intent is checked against R5 and, if accepted, moves the unit along the transition table of R8 in the cycle of the write. -/
  | agtIntentWrite (src : MgmtSource) (agent : BitVec 16) (unit : BitVec 9) (value : BitVec 4)
  /-- AUDIT (R6): Every 10 µs each agent compares the intent of each unit with its actual state and records agreement or disagreement. -/
  | audit
  /-- BRING_UP_COMPLETE (R8): A unit in TRAINING completes bring-up and becomes UP, admitting work. -/
  | bringUpComplete (agent : BitVec 16) (unit : BitVec 9)
  /-- BRING_UP_FAIL (R8): A unit's bring-up fails or passes its deadline, and the unit becomes FENCED with a fault record of cause 02h. -/
  | bringUpFail (agent : BitVec 16) (unit : BitVec 9)
  /-- PITCH_CREATE (R22): An authenticated PITCH_CREATE is checked and, if accepted, reserves granules, contexts, key slot and quads and moves the pitch from EMPTY to PITCHING. -/
  | pitchCreate (f : RxFrame)
  /-- PITCH_INSTALL_DONE (R22): Installation of a PITCHING pitch's resources completes and, with its mirror role fixed where required, the pitch becomes UP and the create is answered OK. -/
  | pitchInstallDone (pitch : BitVec 8)
  /-- PITCH_CREATE_TIMEOUT (R22): No mirror role is fixed within 50 ms of acceptance, so every resource is released, the pitch returns to EMPTY and the create is answered DENIED FLY_REFUSED. -/
  | pitchCreateTimeout (pitch : BitVec 8)
  /-- PITCH_INSTALL_FAIL (R22): Installation of a PITCHING pitch fails, every resource is released and the create is answered DENIED APPLY_FAILED. -/
  | pitchInstallFail (pitch : BitVec 8)
  /-- PITCH_STRIKE (R27): An accepted PITCH_STRIKE closes admission, sets the pitch STRUCK with DRAINING, ends its kernel and collective sessions and starts the drain. -/
  | pitchStrike (f : RxFrame)
  /-- STRIKE_DRAIN_END (R27): Every admitted operation and recall of a strike completes, DRAINING clears and the strike response carries OK with the completed and failed counts. -/
  | strikeDrainEnd (pitch : BitVec 8)
  /-- STRIKE_DRAIN_DEADLINE (R27): The drain deadline t0 + D passes, operations still holding trackers fail with PITCH_DOWN and the strike response follows. -/
  | strikeDrainDeadline (pitch : BitVec 8)
  /-- PITCH_REPITCH (R31): An accepted PITCH_REPITCH checks its complete settings record against the template and free resources, refuses on the first failure, or starts applying the settings with admission closed. -/
  | pitchRepitch (f : RxFrame)
  /-- REPITCH_APPLIED (R32): Every target confirms the new settings, admission reopens on all ports in one TMG cycle, the pitch becomes UP and GENERATION increments. -/
  | repitchApplied (pitch : BitVec 8)
  /-- REPITCH_APPLY_TIMEOUT (R32): A target fails to confirm within 2 ms, the previous settings are restored at every target and the repitch is refused APPLY_FAILED. -/
  | repitchApplyTimeout (pitch : BitVec 8)
  /-- PITCH_FOLD (R36): An accepted PITCH_FOLD runs the strike sequence if UP, then destroys the key slot, detaches endpoints and starts the sweep of every granule. -/
  | pitchFold (f : RxFrame)
  /-- KEY_SLOT_REFRESH (R197): New keys are generated and loaded into every MCE for a destroyed slot, which becomes FREE within 100 µs. -/
  | keySlotRefresh (slot : BitVec 8)
  /-- SWEEP_GRANULE_DONE (R36): The last line of a swept granule is written and the granule returns to the free list; when every granule has returned the pitch becomes EMPTY. -/
  | sweepGranuleDone (granule : BitVec 14)
  /-- PITCH_ADJUST (R26): PITCH_ADJUST changes one live setting of an UP pitch, a class rate or the drain deadline, at all four ports in the same TMG cycle. -/
  | pitchAdjust (f : RxFrame)
  /-- ATTACH (R40): ATTACH is checked in the order of R41 and, if accepted, writes the master-table entries, TPT's copy and the source-table entry for one endpoint. -/
  | attach (f : RxFrame)
  /-- DETACH (R42): DETACH invalidates an endpoint's source entry or removes the named pitch's context words, and frees its handles at once. -/
  | detach (f : RxFrame)
  /-- PITCH_QUERY (R50): PITCH_QUERY returns the pitch's SVC_PITCH_STATE value and the number of granules it holds, in any state. -/
  | pitchQuery (f : RxFrame)
  /-- MGMT_SESSION_OPEN (R43): A session OPEN request is answered with a nonce, a session number and a session key wrapped to the operator key, or DENIED beyond 4 sessions. -/
  | mgmtSessionOpen (f : RxFrame)
  /-- MGMT_SESSION_PROOF (R43): A PROOF carrying an RSA-PSS signature over the nonce and session number is verified against the operator key and opens the session. -/
  | mgmtSessionProof (f : RxFrame)
  /-- MGMT_SESSION_CLOSE (R44): An authenticated CLOSE closes the management session and destroys its flows. -/
  | mgmtSessionClose (f : RxFrame)
  /-- MGMT_SESSION_EXPIRE (R44): A session closes after 600 s without a valid message, and its flows are destroyed. -/
  | mgmtSessionExpire (number : BitVec 32)
  /-- MGMT_ACCESS (R79): MGMT_ACCESS executes 1 to 64 register read and write entries in order, contiguously, and returns one value and status per entry. -/
  | mgmtAccess (f : RxFrame)
  /-- REGISTER_WRITE (R14): A write to a register without behaviour of its own updates its RW fields, ignoring RO fields and RWL fields after the configuration lock. -/
  | registerWrite (src : MgmtSource) (addr : BitVec 32) (value : BitVec 32)
  /-- READ (R81): READ translates and checks its range and returns the data as response segments of MAX_SEG bytes, sealed when X is set. -/
  | read (f : RxFrame)
  /-- WRITE (R131): WRITE checks every owner tag of its lines before writing any byte, then writes the data and answers once the lines enter the write buffer. -/
  | write (f : RxFrame)
  /-- WRITE_NOTIFY (R68): WRITE_NOTIFY writes its data and then adds 1 to the 64-bit notify word, returning the new notify value. -/
  | writeNotify (f : RxFrame)
  /-- A_ADD (R69): A_ADD indivisibly adds v to the target modulo 2^32 or 2^64 and returns the old value. -/
  | aAdd (f : RxFrame)
  /-- A_SWAP (R69): A_SWAP indivisibly replaces the target with v and returns the old value. -/
  | aSwap (f : RxFrame)
  /-- A_CAS (R69): A_CAS indivisibly writes v if the old value equals c and always answers OK with the old value. -/
  | aCas (f : RxFrame)
  /-- A_AND (R69): A_AND indivisibly writes the AND of the old value and v and returns the old value. -/
  | aAnd (f : RxFrame)
  /-- A_OR (R69): A_OR indivisibly writes the OR of the old value and v and returns the old value. -/
  | aOr (f : RxFrame)
  /-- A_XOR (R69): A_XOR indivisibly writes the XOR of the old value and v and returns the old value. -/
  | aXor (f : RxFrame)
  /-- A_SMIN (R69): A_SMIN indivisibly writes the signed minimum of the old value and v and returns the old value. -/
  | aSmin (f : RxFrame)
  /-- A_SMAX (R69): A_SMAX indivisibly writes the signed maximum of the old value and v and returns the old value. -/
  | aSmax (f : RxFrame)
  /-- A_UMIN (R69): A_UMIN indivisibly writes the unsigned minimum of the old value and v and returns the old value. -/
  | aUmin (f : RxFrame)
  /-- A_UMAX (R69): A_UMAX indivisibly writes the unsigned maximum of the old value and v and returns the old value. -/
  | aUmax (f : RxFrame)
  /-- A_FADD32 (R69): A_FADD32 indivisibly adds FP32 elements with round-to-nearest-even and returns the old values. -/
  | aFadd32 (f : RxFrame)
  /-- A_FADDBF16 (R69): A_FADDBF16 indivisibly adds BF16 elements, rounded once to BF16, and returns the old values. -/
  | aFaddbf16 (f : RxFrame)
  /-- BULK_GET (R71): BULK_GET translates its whole descriptor range when queued and streams the data as response segments by transfer offset. -/
  | bulkGet (f : RxFrame)
  /-- BULK_PUT (R72): BULK_PUT opens a transfer, translates its descriptor, and waits for BULK_DATA frames until their received count equals LENGTH. -/
  | bulkPut (f : RxFrame)
  /-- BULK_COPY (R71): BULK_COPY translates both non-overlapping descriptors and copies LENGTH bytes from source to destination, answering with A2h. -/
  | bulkCopy (f : RxFrame)
  /-- BULK_DATA (R72): BULK_DATA is written into its open BULK_PUT and counted, waits for it, or is answered RETRY or LENGTH when no BULK_PUT is open. -/
  | bulkData (f : RxFrame)
  /-- BULK_IDLE_TIMEOUT (R72): BULK_IDLE passes with no accepted BULK_DATA, so the BULK_PUT is answered TIMEOUT and its range is undefined. -/
  | bulkIdleTimeout (flow : FlowId) (tag : BitVec 32)
  /-- XLATE (R140): XLATE on a HELD pitch translates ADDRESS and issues a handle with COVER and PAGE, evicting the endpoint's oldest handle beyond its quota. -/
  | xlate (f : RxFrame)
  /-- XLATE_RELEASE (R141): XLATE_RELEASE frees the handle entries it names, ignoring invalid handles, and answers OK. -/
  | xlateRelease (f : RxFrame)
  /-- XLATE_INVAL_RESPONSE (R142): A holder's B1h frees its recalled entries on OK, causes a resend on RETRY, or revokes the holder on any other status. -/
  | xlateInvalResponse (f : RxFrame)
  /-- RESERVED_OPCODE_REQUEST (R67): A request carrying a reserved opcode or one defined only towards an endpoint is answered UNSUPPORTED at check 9. -/
  | reservedOpcodeRequest (op : BitVec 8) (f : RxFrame)
  /-- SW_READ_SHARED (R230): SW_READ_SHARED is ordered at SWN and served by data from home or a forward to the owner according to the home state. -/
  | swReadShared (f : RxFrame)
  /-- SW_READ_OWN (R230): SW_READ_OWN is ordered at SWN and grants M after invalidating sharers or forwarding to the owner. -/
  | swReadOwn (f : RxFrame)
  /-- SW_UPGRADE (R230): SW_UPGRADE is served exactly as SW_READ_OWN, always supplying data. -/
  | swUpgrade (f : RxFrame)
  /-- SW_WRITEBACK (R235): SW_WRITEBACK is accepted, held or discarded according to R235 and answered C3h with its disposal. -/
  | swWriteback (f : RxFrame)
  /-- SW_EVICT (R236): SW_EVICT from the owner of a line in HX turns it to HI; from any other agent it is answered C4h and changes nothing. -/
  | swEvict (f : RxFrame)
  /-- SW_DONE (R230): SW_DONE from the requester counts towards completing the line's transaction and clearing BUSY. -/
  | swDone (f : RxFrame)
  /-- SW_FORWARD_RESPONSE (R235): A C5h from a forward target reports the data sent and kept state, completing or advancing the transaction and disposing of held write-backs. -/
  | swForwardResponse (f : RxFrame)
  /-- SW_INVALIDATE_RESPONSE (R233): A C6h from an invalidation target reports whether a write-back was sent and counts towards the transaction's completion. -/
  | swInvalidateResponse (f : RxFrame)
  /-- SW_DONE_TIMEOUT (R242): No SW_DONE arrives within DONE_LIMIT after SW_DATA was sent, so SWN sends SW_INVALIDATE to the requester. -/
  | swDoneTimeout (line : BitVec 38)
  /-- COLL_OPEN (R259): COLL_OPEN is checked in the order of R259 and, if accepted, creates a session record WAITING or RUNNING and answers D0h with the ID. -/
  | collOpen (f : RxFrame)
  /-- COLL_CONTRIB (R264): A COLL_CONTRIB frame from a local rank is checked and its units are combined in the fixed order or added to the exact accumulator. -/
  | collContrib (f : RxFrame)
  /-- COLL_PARTIAL (R264): A COLL_PARTIAL frame from a child chip is checked and its units are combined as the partner operand of its node. -/
  | collPartial (f : RxFrame)
  /-- COLL_RESULT (R266): A COLL_RESULT frame from the parent chip is forwarded to child chips and applied to this chip's destinations. -/
  | collResult (f : RxFrame)
  /-- COLL_CLOSE (R261): COLL_CLOSE without ABORT is held until the record ends; with ABORT it fails a WAITING or RUNNING record and passes the abort on. -/
  | collClose (f : RxFrame)
  /-- COLL_QUERY (R260): COLL_QUERY returns the record's state, cause and CHUNKS_DONE, or NONE for an ID with no record. -/
  | collQuery (f : RxFrame)
  /-- COLL_FRAME_RESPONSE (R264): A response of RETRY or SESSION_FAILED to a COLL_PARTIAL or COLL_RESULT the controller sent schedules a resend or fails the record with cause TRANSPORT. -/
  | collFrameResponse (op : BitVec 8) (f : RxFrame)
  /-- COLL_START_TIME (R260): PTP time reaches a WAITING record's START, and the record becomes RUNNING with pacing and deadline started. -/
  | collStartTime (pitch : BitVec 8) (id : BitVec 24)
  /-- COLL_PACE_SLOT (R271): The slot START + k·PERIOD arrives, releasing the ready partial or result frames of chunk k. -/
  | collPaceSlot (pitch : BitVec 8) (id : BitVec 24) (chunk : BitVec 16)
  /-- COLL_CHUNK_FINISHED (R266): A chunk's partial is acknowledged, its destinations written and its results acknowledged, so CHUNKS_DONE counts it and the record becomes DONE after the last. -/
  | collChunkFinished (pitch : BitVec 8) (id : BitVec 24) (chunk : BitVec 16)
  /-- COLL_DEADLINE (R273): The session deadline passes before the record is DONE, so the record fails with cause DEADLINE and aborts its neighbours. -/
  | collDeadline (pitch : BitVec 8) (id : BitVec 24)
  /-- COLL_RECORD_EXPIRE (R260): 100 ms after a record ends without its opener's close being answered, the record and its CLX windows are freed. -/
  | collRecordExpire (pitch : BitVec 8) (id : BitVec 24)
  /-- COLL_ABORT_ID_EXPIRE (R273): An ID remembered for an ABORT with no record is forgotten 1 s later. -/
  | collAbortIdExpire (pitch : BitVec 8) (id : BitVec 24)
  /-- KERNEL_LAUNCH (R290): KERNEL_LAUNCH is checked in the order of R290 and, if accepted, enters LOADING or the launch queue with its deadline started. -/
  | kernelLaunch (f : RxFrame)
  /-- KERNEL_QUERY (R293): KERNEL_QUERY returns the session's state, cause, CLK_STEPS and CYCLES, or NONE for a session of another pitch. -/
  | kernelQuery (f : RxFrame)
  /-- KERNEL_ABORT (R293): KERNEL_ABORT fails a RUNNING session with cause ABORT and is always answered OK. -/
  | kernelAbort (f : RxFrame)
  /-- KERNEL_EVENT_RESPONSE (R293): The endpoint's E3h answer to a KERNEL_EVENT completes that controller request. -/
  | kernelEventResponse (f : RxFrame)
  /-- KERNEL_DEQUEUE (R291): A queued launch's cores become free with no earlier queued launch needing them, so it reserves them and enters LOADING. -/
  | kernelDequeue (session : BitVec 16)
  /-- KERNEL_LOAD_DONE (R292): The object reads end, GRD checks digest, allow list and routes, installs windows and registers, and the session becomes RUNNING with the launch answered. -/
  | kernelLoadDone (session : BitVec 16)
  /-- KERNEL_LOAD_FAIL (R291): A load read ends in NOT_MAPPED, MEDIA or INTEGRITY, the launch is answered with that status and the cores are cleared. -/
  | kernelLoadFail (session : BitVec 16)
  /-- KERNEL_SESSION_DONE (R291): Every core has halted and every stage command is complete, so the session becomes DONE and KERNEL_EVENT is sent if NOTIFY. -/
  | kernelSessionDone (session : BitVec 16)
  /-- KERNEL_DEADLINE (R305): A launch or session's deadline passes, ending a queued or loading launch with SESSION_FAILED or failing a running session with cause DEADLINE. -/
  | kernelDeadline (session : BitVec 16)
  /-- KERNEL_CLEAR_DONE (R294): Clearing of an ended session's cores and engines completes and they return to the free set. -/
  | kernelClearDone (session : BitVec 16)
  /-- KERNEL_RECORD_EXPIRE (R284): A session record that ended 1 s ago is freed. -/
  | kernelRecordExpire (session : BitVec 16)
  /-- STAGE_COMMAND_DONE (R296): A stage command's last byte reaches its target or write buffer, updating its tag's completion count and releasing waiting gates. -/
  | stageCommandDone (quad : BitVec 4)
  /-- NOP (R313): NOP does nothing in any slot. -/
  | nop (core : BitVec 6)
  /-- ADD (R322): SALU ADD writes sa + sb to sd. -/
  | add (core : BitVec 6) (sd : BitVec 5) (sa : BitVec 5) (sb : BitVec 5)
  /-- SUB (R322): SALU SUB writes sa − sb to sd. -/
  | sub (core : BitVec 6) (sd : BitVec 5) (sa : BitVec 5) (sb : BitVec 5)
  /-- AND (R322): SALU AND writes the bitwise AND of sa and sb to sd. -/
  | and (core : BitVec 6) (sd : BitVec 5) (sa : BitVec 5) (sb : BitVec 5)
  /-- OR (R322): SALU OR writes the bitwise OR of sa and sb to sd. -/
  | or (core : BitVec 6) (sd : BitVec 5) (sa : BitVec 5) (sb : BitVec 5)
  /-- XOR (R322): SALU XOR writes the bitwise XOR of sa and sb to sd. -/
  | xor (core : BitVec 6) (sd : BitVec 5) (sa : BitVec 5) (sb : BitVec 5)
  /-- SHL (R322): SALU SHL shifts sa left by sb[5:0]. -/
  | shl (core : BitVec 6) (sd : BitVec 5) (sa : BitVec 5) (sb : BitVec 5)
  /-- SHR (R322): SALU SHR shifts sa right logically by sb[5:0]. -/
  | shr (core : BitVec 6) (sd : BitVec 5) (sa : BitVec 5) (sb : BitVec 5)
  /-- SRA (R322): SALU SRA shifts sa right arithmetically by sb[5:0]. -/
  | sra (core : BitVec 6) (sd : BitVec 5) (sa : BitVec 5) (sb : BitVec 5)
  /-- MIN (R322): SALU MIN writes the signed minimum of sa and sb. -/
  | min (core : BitVec 6) (sd : BitVec 5) (sa : BitVec 5) (sb : BitVec 5)
  /-- MAX (R322): SALU MAX writes the signed maximum of sa and sb. -/
  | max (core : BitVec 6) (sd : BitVec 5) (sa : BitVec 5) (sb : BitVec 5)
  /-- MINU (R322): SALU MINU writes the unsigned minimum of sa and sb. -/
  | minu (core : BitVec 6) (sd : BitVec 5) (sa : BitVec 5) (sb : BitVec 5)
  /-- MAXU (R322): SALU MAXU writes the unsigned maximum of sa and sb. -/
  | maxu (core : BitVec 6) (sd : BitVec 5) (sa : BitVec 5) (sb : BitVec 5)
  /-- CEQ (R322): SALU CEQ writes 1 if sa equals sb, else 0. -/
  | ceq (core : BitVec 6) (sd : BitVec 5) (sa : BitVec 5) (sb : BitVec 5)
  /-- CNE (R322): SALU CNE writes 1 if sa differs from sb, else 0. -/
  | cne (core : BitVec 6) (sd : BitVec 5) (sa : BitVec 5) (sb : BitVec 5)
  /-- CLT (R322): SALU CLT writes 1 if sa is signed-less than sb. -/
  | clt (core : BitVec 6) (sd : BitVec 5) (sa : BitVec 5) (sb : BitVec 5)
  /-- CLTU (R322): SALU CLTU writes 1 if sa is unsigned-less than sb. -/
  | cltu (core : BitVec 6) (sd : BitVec 5) (sa : BitVec 5) (sb : BitVec 5)
  /-- CLE (R322): SALU CLE writes 1 if sa is signed-less than or equal to sb. -/
  | cle (core : BitVec 6) (sd : BitVec 5) (sa : BitVec 5) (sb : BitVec 5)
  /-- CLEU (R322): SALU CLEU writes 1 if sa is unsigned-less than or equal to sb. -/
  | cleu (core : BitVec 6) (sd : BitVec 5) (sa : BitVec 5) (sb : BitVec 5)
  /-- MUL (R321): SMUL MUL writes the low 64 bits of sa · sb with latency 3. -/
  | mul (core : BitVec 6) (sd : BitVec 5) (sa : BitVec 5) (sb : BitVec 5)
  /-- MULH (R321): SMUL MULH writes the signed high 64 bits of sa · sb. -/
  | mulh (core : BitVec 6) (sd : BitVec 5) (sa : BitVec 5) (sb : BitVec 5)
  /-- MULHU (R321): SMUL MULHU writes the unsigned high 64 bits of sa · sb. -/
  | mulhu (core : BitVec 6) (sd : BitVec 5) (sa : BitVec 5) (sb : BitVec 5)
  /-- FADD (R321): SFP FADD adds FP32 values in bits [31:0] and zeroes bits [63:32]. -/
  | fadd (core : BitVec 6) (sd : BitVec 5) (sa : BitVec 5) (sb : BitVec 5)
  /-- FSUB (R321): SFP FSUB subtracts FP32 values. -/
  | fsub (core : BitVec 6) (sd : BitVec 5) (sa : BitVec 5) (sb : BitVec 5)
  /-- FMUL (R321): SFP FMUL multiplies FP32 values. -/
  | fmul (core : BitVec 6) (sd : BitVec 5) (sa : BitVec 5) (sb : BitVec 5)
  /-- FDIV (R322): SFP FDIV divides FP32 values, correctly rounded, with latency 24. -/
  | fdiv (core : BitVec 6) (sd : BitVec 5) (sa : BitVec 5) (sb : BitVec 5)
  /-- FSQRT (R322): SFP FSQRT takes the correctly rounded FP32 square root of sa. -/
  | fsqrt (core : BitVec 6) (sd : BitVec 5) (sa : BitVec 5)
  /-- FMIN (R321): SFP FMIN writes the FP32 minimum under the rules of R324. -/
  | fmin (core : BitVec 6) (sd : BitVec 5) (sa : BitVec 5) (sb : BitVec 5)
  /-- FMAX (R321): SFP FMAX writes the FP32 maximum under the rules of R324. -/
  | fmax (core : BitVec 6) (sd : BitVec 5) (sa : BitVec 5) (sb : BitVec 5)
  /-- I2F (R321): SFP I2F converts a signed 64-bit integer to FP32. -/
  | i2f (core : BitVec 6) (sd : BitVec 5) (sa : BitVec 5)
  /-- F2I (R321): SFP F2I converts FP32 to signed 64-bit toward zero, saturating, with NaN to 0. -/
  | f2i (core : BitVec 6) (sd : BitVec 5) (sa : BitVec 5)
  /-- ADDI (R321): ADDI writes sa plus the sign-extended IMM16 to sd. -/
  | addi (core : BitVec 6) (sd : BitVec 5) (sa : BitVec 5) (imm : BitVec 16)
  /-- ANDI (R321): ANDI writes sa AND the zero-extended IMM16. -/
  | andi (core : BitVec 6) (sd : BitVec 5) (sa : BitVec 5) (imm : BitVec 16)
  /-- ORI (R321): ORI writes sa OR the zero-extended IMM16. -/
  | ori (core : BitVec 6) (sd : BitVec 5) (sa : BitVec 5) (imm : BitVec 16)
  /-- XORI (R321): XORI writes sa XOR the zero-extended IMM16. -/
  | xori (core : BitVec 6) (sd : BitVec 5) (sa : BitVec 5) (imm : BitVec 16)
  /-- LUI (R321): LUI writes the sign-extended IMM21 times 2^16 to sd. -/
  | lui (core : BitVec 6) (sd : BitVec 5) (imm : BitVec 21)
  /-- SLD (R321): SLD loads 8 bytes of hold at sa plus IMM16 into sd with latency 5. -/
  | sld (core : BitVec 6) (sd : BitVec 5) (sa : BitVec 5) (imm : BitVec 16)
  /-- SST (R321): SST stores sd into 8 bytes of hold at sa plus IMM16. -/
  | sst (core : BitVec 6) (sd : BitVec 5) (sa : BitVec 5) (imm : BitVec 16)
  /-- BR (R318): BR branches to PC + OFF16 after two delay bundles. -/
  | br (core : BitVec 6) (off : BitVec 16)
  /-- BZ (R318): BZ branches after two delay bundles if sa is zero. -/
  | bz (core : BitVec 6) (sa : BitVec 5) (off : BitVec 16)
  /-- BNZ (R318): BNZ branches after two delay bundles if sa is non-zero. -/
  | bnz (core : BitVec 6) (sa : BitVec 5) (off : BitVec 16)
  /-- BNZD (R321): BNZD decrements sa and branches if the new value is non-zero. -/
  | bnzd (core : BitVec 6) (sa : BitVec 5) (off : BitVec 16)
  /-- HALT (R321): HALT stops the core issuing bundles; later flits to its receive slots are discarded. -/
  | halt (core : BitVec 6)
  /-- VADD (R324): VFP VADD adds governed elements in the element type with round-to-nearest-even. -/
  | vadd (core : BitVec 6) (vd : BitVec 5) (va : BitVec 5) (vb : BitVec 5) (pg : BitVec 3) (ty : BitVec 3)
  /-- VSUB (R324): VFP VSUB subtracts governed elements. -/
  | vsub (core : BitVec 6) (vd : BitVec 5) (va : BitVec 5) (vb : BitVec 5) (pg : BitVec 3) (ty : BitVec 3)
  /-- VMUL (R324): VFP VMUL multiplies governed elements. -/
  | vmul (core : BitVec 6) (vd : BitVec 5) (va : BitVec 5) (vb : BitVec 5) (pg : BitVec 3) (ty : BitVec 3)
  /-- VFMA (R324): VFP VFMA computes va · vb + vd with one rounding. -/
  | vfma (core : BitVec 6) (vd : BitVec 5) (va : BitVec 5) (vb : BitVec 5) (pg : BitVec 3) (ty : BitVec 3)
  /-- VFMS (R324): VFP VFMS computes vd − va · vb with one rounding. -/
  | vfms (core : BitVec 6) (vd : BitVec 5) (va : BitVec 5) (vb : BitVec 5) (pg : BitVec 3) (ty : BitVec 3)
  /-- VMIN (R324): VFP VMIN writes the minimum, canonical NaN if either operand is NaN. -/
  | vmin (core : BitVec 6) (vd : BitVec 5) (va : BitVec 5) (vb : BitVec 5) (pg : BitVec 3) (ty : BitVec 3)
  /-- VMAX (R324): VFP VMAX writes the maximum, canonical NaN if either operand is NaN. -/
  | vmax (core : BitVec 6) (vd : BitVec 5) (va : BitVec 5) (vb : BitVec 5) (pg : BitVec 3) (ty : BitVec 3)
  /-- VABS (R323): VFP VABS writes the absolute value of va. -/
  | vabs (core : BitVec 6) (vd : BitVec 5) (va : BitVec 5) (pg : BitVec 3) (ty : BitVec 3)
  /-- VNEG (R323): VFP VNEG writes the negation of va. -/
  | vneg (core : BitVec 6) (vd : BitVec 5) (va : BitVec 5) (pg : BitVec 3) (ty : BitVec 3)
  /-- VDIV (R323): VFP VDIV divides FP32 elements with latency 24. -/
  | vdiv (core : BitVec 6) (vd : BitVec 5) (va : BitVec 5) (vb : BitVec 5) (pg : BitVec 3)
  /-- VSQRT (R323): VFP VSQRT takes FP32 element square roots with latency 24. -/
  | vsqrt (core : BitVec 6) (vd : BitVec 5) (va : BitVec 5) (pg : BitVec 3)
  /-- VRSUM (R325): VRSUM sums governed elements in the fixed pairwise order into element 0 and zeroes the rest. -/
  | vrsum (core : BitVec 6) (vd : BitVec 5) (va : BitVec 5) (pg : BitVec 3) (ty : BitVec 3)
  /-- VIADD (R323): VINT VIADD adds integer elements modulo 2^(8w). -/
  | viadd (core : BitVec 6) (vd : BitVec 5) (va : BitVec 5) (vb : BitVec 5) (pg : BitVec 3) (ty : BitVec 3)
  /-- VISUB (R323): VINT VISUB subtracts integer elements modulo 2^(8w). -/
  | visub (core : BitVec 6) (vd : BitVec 5) (va : BitVec 5) (vb : BitVec 5) (pg : BitVec 3) (ty : BitVec 3)
  /-- VAND (R323): VINT VAND writes the element-wise AND. -/
  | vand (core : BitVec 6) (vd : BitVec 5) (va : BitVec 5) (vb : BitVec 5) (pg : BitVec 3) (ty : BitVec 3)
  /-- VOR (R323): VINT VOR writes the element-wise OR. -/
  | vor (core : BitVec 6) (vd : BitVec 5) (va : BitVec 5) (vb : BitVec 5) (pg : BitVec 3) (ty : BitVec 3)
  /-- VXOR (R323): VINT VXOR writes the element-wise XOR. -/
  | vxor (core : BitVec 6) (vd : BitVec 5) (va : BitVec 5) (vb : BitVec 5) (pg : BitVec 3) (ty : BitVec 3)
  /-- VSHL (R323): VINT VSHL shifts elements left by the low bits of vb. -/
  | vshl (core : BitVec 6) (vd : BitVec 5) (va : BitVec 5) (vb : BitVec 5) (pg : BitVec 3) (ty : BitVec 3)
  /-- VSHR (R323): VINT VSHR shifts elements right logically. -/
  | vshr (core : BitVec 6) (vd : BitVec 5) (va : BitVec 5) (vb : BitVec 5) (pg : BitVec 3) (ty : BitVec 3)
  /-- VSRA (R323): VINT VSRA shifts elements right arithmetically. -/
  | vsra (core : BitVec 6) (vd : BitVec 5) (va : BitVec 5) (vb : BitVec 5) (pg : BitVec 3) (ty : BitVec 3)
  /-- VIMIN (R323): VINT VIMIN writes the signed element minimum. -/
  | vimin (core : BitVec 6) (vd : BitVec 5) (va : BitVec 5) (vb : BitVec 5) (pg : BitVec 3) (ty : BitVec 3)
  /-- VIMAX (R323): VINT VIMAX writes the signed element maximum. -/
  | vimax (core : BitVec 6) (vd : BitVec 5) (va : BitVec 5) (vb : BitVec 5) (pg : BitVec 3) (ty : BitVec 3)
  /-- VCMP_EQ (R323): VCMP EQ writes predicate bits for elements where va equals vb. -/
  | vcmpEq (core : BitVec 6) (pd : BitVec 3) (va : BitVec 5) (vb : BitVec 5) (pg : BitVec 3) (ty : BitVec 3)
  /-- VCMP_NE (R323): VCMP NE writes predicate bits for elements where va differs from vb. -/
  | vcmpNe (core : BitVec 6) (pd : BitVec 3) (va : BitVec 5) (vb : BitVec 5) (pg : BitVec 3) (ty : BitVec 3)
  /-- VCMP_LT (R323): VCMP LT writes predicate bits for elements where va is less than vb. -/
  | vcmpLt (core : BitVec 6) (pd : BitVec 3) (va : BitVec 5) (vb : BitVec 5) (pg : BitVec 3) (ty : BitVec 3)
  /-- VCMP_LE (R323): VCMP LE writes predicate bits for elements where va is at most vb. -/
  | vcmpLe (core : BitVec 6) (pd : BitVec 3) (va : BitVec 5) (vb : BitVec 5) (pg : BitVec 3) (ty : BitVec 3)
  /-- VSEL (R323): VSEL selects va or vb per element by pg. -/
  | vsel (core : BitVec 6) (vd : BitVec 5) (va : BitVec 5) (vb : BitVec 5) (pg : BitVec 3) (ty : BitVec 3)
  /-- PAND (R323): VPRED PAND writes the AND of two predicates. -/
  | pand (core : BitVec 6) (pd : BitVec 3) (pa : BitVec 3) (pb : BitVec 3)
  /-- POR (R323): VPRED POR writes the OR of two predicates. -/
  | por (core : BitVec 6) (pd : BitVec 3) (pa : BitVec 3) (pb : BitVec 3)
  /-- PXOR (R323): VPRED PXOR writes the XOR of two predicates. -/
  | pxor (core : BitVec 6) (pd : BitVec 3) (pa : BitVec 3) (pb : BitVec 3)
  /-- PNOT (R323): VPRED PNOT writes the complement of a predicate. -/
  | pnot (core : BitVec 6) (pd : BitVec 3) (pa : BitVec 3)
  /-- VBCAST (R323): VBCAST writes the low bits of a scalar into every governed element. -/
  | vbcast (core : BitVec 6) (vd : BitVec 5) (sa : BitVec 5) (pg : BitVec 3) (ty : BitVec 3)
  /-- VEXT (R323): VEXT writes one element of va, zero-extended, to a scalar register. -/
  | vext (core : BitVec 6) (sd : BitVec 5) (va : BitVec 5) (sb : BitVec 5) (ty : BitVec 3)
  /-- VTR_RCP (R330): VTR RCP computes reciprocals bit-exactly from the image tables. -/
  | vtrRcp (core : BitVec 6) (vd : BitVec 5) (va : BitVec 5) (pg : BitVec 3)
  /-- VTR_RSQ (R330): VTR RSQ computes reciprocal square roots from the image tables. -/
  | vtrRsq (core : BitVec 6) (vd : BitVec 5) (va : BitVec 5) (pg : BitVec 3)
  /-- VTR_EXP2 (R330): VTR EXP2 computes base-2 exponentials from the image tables. -/
  | vtrExp2 (core : BitVec 6) (vd : BitVec 5) (va : BitVec 5) (pg : BitVec 3)
  /-- VTR_LOG2 (R330): VTR LOG2 computes base-2 logarithms from the image tables. -/
  | vtrLog2 (core : BitVec 6) (vd : BitVec 5) (va : BitVec 5) (pg : BitVec 3)
  /-- VCVT (R326): VCVT converts va from SRC to DST with a deterministic rounding mode, writing the part PART selects. -/
  | vcvt (core : BitVec 6) (vd : BitVec 5) (va : BitVec 5) (srcT : BitVec 4) (dstT : BitVec 4) (rm : BitVec 3) (sat : Bool) (part : BitVec 2)
  /-- VCVT_SR (R327): VCVT with RM stochastic rounds FP32 elements using four Philox blocks and advances SRCTR by 4. -/
  | vcvtSr (core : BitVec 6) (vd : BitVec 5) (va : BitVec 5) (dstT : BitVec 4) (sat : Bool) (part : BitVec 2)
  /-- VMX (R329): VMX encodes 32 FP32 elements as an MX block, writing the scale to a scalar and the packed elements into vd. -/
  | vmx (core : BitVec 6) (vd : BitVec 5) (va : BitVec 5) (elt : BitVec 4) (part : BitVec 3) (sd : BitVec 5)
  /-- VLD (R332): VLD loads one 128-byte hold row into a vector register with latency 5. -/
  | vld (core : BitVec 6) (v : BitVec 5) (sa : BitVec 5) (off : BitVec 13) (again : Reread)
  /-- VST (R332): VST stores a vector register to a hold row under the byte predicate. -/
  | vst (core : BitVec 6) (v : BitVec 5) (sa : BitVec 5) (pg : BitVec 3) (off : BitVec 13)
  /-- SEND (R335): SEND puts 256 bits of a vector on a fixed route, occupying each hop's link in its fixed cycle. -/
  | send (core : BitVec 6) (vs : BitVec 5) (q : BitVec 2) (route : BitVec 12)
  /-- RECV (R335): RECV takes the flit from the receive slot of its direction into 256 bits of a vector, failing on underrun. -/
  | recv (core : BitVec 6) (vd : BitVec 5) (q : BitVec 2) (dir : BitVec 2)
  /-- MX_MUL (R337): MX.MUL issues a matrix command that multiplies A by B from the operand buffer into an accumulator. -/
  | mxMul (core : BitVec 6) (ad : BitVec 3) (ty : BitVec 3) (z : Bool) (sa : BitVec 5) (sb : BitVec 5) (sk : BitVec 5)
  /-- MX_MUL_START (R338): A matrix command starts at t + 1 or in the cycle after the engine's previous command ends, and reads its accumulator. -/
  | mxMulStart (quad : BitVec 4) (again : Reread)
  /-- MX_MUL_DONE (R338): A matrix command writes the whole accumulator at the end of cycle t0 + D + 39. -/
  | mxMulDone (quad : BitVec 4)
  /-- ACC_RD (R337): ACC.RD reads 32 FP32 elements of an accumulator row into a vector with latency 6. -/
  | accRd (core : BitVec 6) (v : BitVec 5) (an : BitVec 3) (sr : BitVec 5) (h : Bool)
  /-- ACC_WR (R337): ACC.WR writes 32 elements of an accumulator row from a vector. -/
  | accWr (core : BitVec 6) (v : BitVec 5) (an : BitVec 3) (sr : BitVec 5) (h : Bool)
  /-- ACC_ZERO (R337): ACC.ZERO sets every element of an accumulator to +0. -/
  | accZero (core : BitVec 6) (an : BitVec 3)
  /-- STG_IN (R339): STG.IN issues a stage-in command from a four-register descriptor, checking local fields and windows. -/
  | stgIn (core : BitVec 6) (sn : BitVec 5)
  /-- STG_OUT (R339): STG.OUT issues a stage-out command from a four-register descriptor. -/
  | stgOut (core : BitVec 6) (sn : BitVec 5)
  /-- GATE_T (R296): GATE.T pauses the session until every earlier command of the masked tags has completed. -/
  | gateT (core : BitVec 6) (mask : BitVec 16)
  /-- GATE_C (R296): GATE.C pauses the session until the linked collective record has posted at least the given number of chunks. -/
  | gateC (core : BitVec 6) (sa : BitVec 5) (sb : BitVec 5)
  /-- REQUEST_TIMEOUT_RETRANSMIT (R108): A controller request's retransmission timer expires, resending it if unacknowledged, doubling the timer and failing it at RTX_LIMIT. -/
  | requestTimeoutRetransmit (flow : FlowId) (seq : BitVec 24)
  /-- RETRY_RESEND (R108): A controller request answered RETRY is sent again with its original FLOW_SEQ every RTO_INIT. -/
  | retryResend (flow : FlowId) (seq : BitVec 24)
  /-- TRANSPORT_ACK (R105): A received ACK or NACK acknowledges the numbers it reports received and triggers resends of NACKed numbers. -/
  | transportAck (f : RxFrame)
  /-- ACK_DELAY_EXPIRE (R104): ACK_DELAY passes after the earliest uncovered new request, and an ACK is sent on the flow. -/
  | ackDelayExpire (flow : FlowId)
  /-- NACK_DELAY_EXPIRE (R104): A missing number becomes due after NACK_DELAY, and a NACK listing due numbers is sent. -/
  | nackDelayExpire (flow : FlowId)
  /-- FLOW_RATE_RAISE (R115): After 50 µs without congestion signals a controller flow's rate rises by 1 GB/s. -/
  | flowRateRaise (flow : FlowId)
  /-- KLR_HANDOFF_DONE (R116): KLR finishes handing its held frames to TPT, the spill region is released and ADMIT_CLOSED clears where IN_USE falls. -/
  | klrHandoffDone (port : BitVec 2)
  /-- MISS_SERVICE_DONE (R138): Firmware answers a translation miss, filling the slice's cache or failing waiting requests NOT_MAPPED. -/
  | missServiceDone (slice : BitVec 4) (pitch : BitVec 8) (page : BitVec 27)
  /-- MISS_TIMEOUT (R138): A miss is unanswered after 20 µs, so waiting requests get RETRY and a fault record is charged to SVC. -/
  | missTimeout (slice : BitVec 4) (pitch : BitVec 8) (page : BitVec 27)
  /-- PAGE_TABLE_CHANGE_DONE (R135): Every slice confirms that changed pages are dropped from its cache, completing the change and starting recall of covering handles. -/
  | pageTableChangeDone (pitch : BitVec 8)
  /-- RECALL_DEADLINE (R142): RECALL_DEADLINE passes with a holder silent, so the holder's context is revoked and its entries freed. -/
  | recallDeadline (endpoint : BitVec 12) (context : BitVec 16)
  /-- LINE_READ_DONE (R163): A line read completes and MCE applies parity, tag, key-slot and owner checks, re-reading or ending the access MEDIA or INTEGRITY. -/
  | lineReadDone (chan : BitVec 4) (sub : Bool) (entryBad : Bool) (outs : List ReadOut)
  /-- WRITE_BUFFER_ISSUE (R180): A line leaves the write buffer to the DRAM, checked for buffer parity and written poisoned if the re-read still fails. -/
  | writeBufferIssue (chan : BitVec 4) (sub : Bool) (bad : BitVec 16)
  /-- REFRESH_INSTANT (R173): At each tREFI instant all 16 channels precharge and refresh all banks, adjusting tREFI for module temperature. -/
  | refreshInstant
  /-- AGE_PROMOTION (R167): A request waits longer than DMC_AGE_LIMIT and is promoted with the requests ahead of it in an in-order bank. -/
  | agePromotion (chan : BitVec 4)
  /-- PAGE_IDLE_PRECHARGE (R171): A bank with no access for DMC_PAGE_CFG.IDLE is precharged. -/
  | pageIdlePrecharge (chan : BitVec 4) (sub : Bool) (rank : BitVec 4) (bank : BitVec 5)
  /-- CA_ALERT (R181): ALERT_n is sampled asserted, the DMC stops the subchannel, clears the parity log and replays or retrains. -/
  | caAlert (chan : BitVec 4) (sub : Bool)
  /-- CA_REPLAY_DONE (R181): The command/address replay completes and normal scheduling resumes. -/
  | caReplayDone (chan : BitVec 4) (sub : Bool)
  /-- CA_CONSEC_RESET (R181): 64 commands issue on the subchannel after a replay without an alert, and the consecutive-alert count resets. -/
  | caConsecReset (chan : BitVec 4) (sub : Bool)
  /-- RETRAIN_DONE (R182): A retraining ends, returning the channel to its previous state and replaying deferred commands, or retiring the group on failure. -/
  | retrainDone (chan : BitVec 4) (ok : Bool)
  /-- RETRAIN_TIMEOUT (R182): A retraining passes 20 ms without success and the group is retired. -/
  | retrainTimeout (chan : BitVec 4)
  /-- CHANNEL_TRAINING_DONE (R183): A channel completes boot training steps 1 to 6 or fails one, retiring its group. -/
  | channelTrainingDone (chan : BitVec 4) (ok : Bool) (tr : Trained)
  /-- INIT_GRANULE_DONE (R185): SWP writes the last line of a granule at initialisation and the granule enters the free list. -/
  | initGranuleDone (granule : BitVec 14)
  /-- GATE_LIST_COMMIT (R388): Writing TMG_GL_COMMIT.GO checks the shadow list and, if it passes, makes it PENDING for take-over at T. -/
  | gateListCommit (src : MgmtSource) (list : BitVec 4)
  /-- GATE_LIST_TAKEOVER (R389): A committed list takes over at the first end of the running cycle at or after T, exchanging banks. -/
  | gateListTakeover (list : BitVec 4)
  /-- GATE_INTERVAL_BOUNDARY (R391): A gate-list interval begins, judging its OWNER, opening or closing classes and precharging memory at window boundaries. -/
  | gateIntervalBoundary (list : BitVec 4)
  /-- TMG_PCFG_WRITE (R383): A write of TMG_PCFG_n is accepted only while the pitch is EMPTY or STRUCK, otherwise ignored and counted. -/
  | tmgPcfgWrite (src : MgmtSource) (pitch : BitVec 8) (value : BitVec 32)
  /-- LINK_FRAME_START (R385): A free link starts the oldest eligible TC7, then TC6, head, or the fair-queueing choice among TC0–TC5, giving a KLR DATA frame its SEQ. -/
  | linkFrameStart (link : Fin 9)
  /-- LANE_SOFT_FAULT (R352): A lane's corrected-symbol count reaches THRESHOLD within WINDOW, failing it and starting the LMAP swap. -/
  | laneSoftFault (port : BitVec 2) (lane : Fin 9) (symbols : BitVec 32)
  /-- LANE_HARD_FAULT (R354): A lane loses signal or lock while UP, the link goes down and the port retrains or is retired. -/
  | laneHardFault (port : BitVec 2) (lane : Fin 9)
  /-- LMAP_REQ (R352): A received LMAP REQ is checked against the spare and answered ACK followed by SWITCH, or REFUSE. -/
  | lmapReq (rx : KlrRx)
  /-- LMAP_ACK (R352): A received LMAP ACK causes the side that requested to send SWITCH and switch its transmitter. -/
  | lmapAck (rx : KlrRx)
  /-- LMAP_SWITCH (R352): A received LMAP SWITCH starts the count of 256 idle codewords before the receiver switches map. -/
  | lmapSwitch (rx : KlrRx)
  /-- LMAP_SWITCH_POINT (R352): The 256 codewords after SWITCH pass, the receiver takes the next codeword under the new map and sends DONE. -/
  | lmapSwitchPoint (port : BitVec 2)
  /-- LMAP_DONE (R352): A received LMAP DONE, with DONE sent, resumes DATA frames and makes the port DEGRADED. -/
  | lmapDone (rx : KlrRx)
  /-- LMAP_REFUSE (R353): A received LMAP REFUSE retires the port. -/
  | lmapRefuse (rx : KlrRx)
  /-- LMAP_SWAP_TIMEOUT (R352): A swap is not complete 50 µs after detection, so the link goes down and retrains with the lane squelched. -/
  | lmapSwapTimeout (port : BitVec 2)
  /-- LANE_BRINGUP_TIMEOUT (R354): A lane does not lock or train within 200 ms of retraining and is failed. -/
  | laneBringupTimeout (port : BitVec 2) (dark : BitVec 9)
  /-- PEER_ABSENT_RETRY (R354): With all lanes dark the port repeats lane bring-up every 100 ms. -/
  | peerAbsentRetry (port : BitVec 2)
  /-- PCS_LINK_UP (R362): The PCS link comes up and the link enters PLAIN or HELLO by KLR_CFG.MODE. -/
  | pcsLinkUp (link : Fin 8)
  /-- PCS_LINK_DOWN (R362): The PCS link goes down, KLR holds everything and the port becomes TRAINING. -/
  | pcsLinkDown (link : Fin 8)
  /-- HELLO (R362): A received HELLO advances the handshake to UP, resets credit, releases frames up to NEXT − 1, or renumbers on a new incarnation. -/
  | hello (rx : KlrRx)
  /-- HELLO_SEND_TIMER (R362): Every 1 µs in HELLO state the link sends a HELLO. -/
  | helloSendTimer (link : Fin 8)
  /-- HELLO_TIMEOUT (R362): No HELLO arrives within 1 ms, so the link goes PLAIN, stays HELLO, or fails bring-up by MODE. -/
  | helloTimeout (link : Fin 8)
  /-- KLR_DATA (R364): A received KLR DATA frame is accepted in order with credit, or discarded as Ahead or Behind. -/
  | klrData (rx : KlrRx)
  /-- KLR_STATUS (R366): A received STATUS releases acknowledged frames, updates credit limits and starts a replay when RQ is set. -/
  | klrStatus (rx : KlrRx)
  /-- KLR_ACK_DELAY_EXPIRE (R365): NEXT has advanced and no frame has left for ACK_DELAY, so a STATUS is sent. -/
  | klrAckDelayExpire (link : Fin 8)
  /-- KLR_STATUS_PERIOD (R365): REPLAY / 4 passes while UP and a periodic STATUS is sent. -/
  | klrStatusPeriod (link : Fin 8)
  /-- KLR_REPLAY_TIMER (R366): The replay timer expires, unacknowledged frames are replayed, and the link goes DOWN at REPLAY_LIMIT. -/
  | klrReplayTimer (link : Fin 8)
  /-- KLR_DOWN_RETIRE (R370): All links of a port have been DOWN for DOWN_RETIRE and the port is retired. -/
  | klrDownRetire (port : BitVec 2)
  /-- PTP_FRAME_RX (R357): A PTP event or general frame is timestamped and processed by the PTP engine. -/
  | ptpFrameRx (link : Fin 8) (msg : PtpMsg)
  /-- PTP_SYNC_TIMEOUT (R473): No Sync arrives for 3 s and LOCKED is cleared. -/
  | ptpSyncTimeout
  /-- ARP_ND_REQUEST (R347): An ARP or neighbour-discovery request for the chip's addresses is answered with the link's MAC address. -/
  | arpNdRequest (link : Fin 9) (nd : Bool) (target : BitVec 128)
  /-- PAUSE_FRAME_RX (R344): A received frame with EtherType 8808h is dropped and counted in PRT_CNT_PAUSE. -/
  | pauseFrameRx (via : RxVia)
  /-- MAC_FRAME_REJECT (R344): A frame that is runt, oversize, fails its FCS or breaks encapsulation is dropped and counted. -/
  | macFrameReject (via : RxVia) (encap : Encap) (fcsOk : Bool) (uncorr : BitVec 16)
  /-- FAB_REFLECT_REINJECT (R401): HOLD cycles after a reflection the source re-injects the packet with REFL and RSP cleared. -/
  | fabReflectReinject (hdr : BitVec 128) (payload : BitVec 512) (plane : BitVec 1) (fails : BitVec 2)
  /-- FAB_STARVE (R403): An injector waiting 128 cycles asserts STARVE, stopping other injectors on the plane. -/
  | fabStarve (router : BitVec 6) (plane : BitVec 2)
  /-- FAB_RT_WRITE (R404): A routing-table entry write is ignored and counted if it targets the current bank or the old epoch has not drained. -/
  | fabRtWrite (src : MgmtSource) (router : BitVec 6) (bank : BitVec 1) (plane : BitVec 2) (dest : BitVec 6) (value : BitVec 32)
  /-- FAB_EPOCH_GO (R406): Writing FAB_EPOCH_GO checks T, drain state and the bank and accepts the switch as PENDING or refuses it. -/
  | fabEpochGo (src : MgmtSource)
  /-- FAB_EPOCH_SWITCH (R406): Fabric time reaches T, injectors stamp the new epoch and CURRENT flips. -/
  | fabEpochSwitch
  /-- FAB_DRAIN_CHECK (R406): Every 64 cycles FAB0 compares old-epoch injections and ejections and sets OLD_DRAINED when equal. -/
  | fabDrainCheck
  /-- HEARTBEAT_TX (R425): At each multiple of HB_PERIOD and half a period later MIR sends HEARTBEAT on the two guy lines. -/
  | heartbeatTx (peer : BitVec 4) (mpLine : Bool)
  /-- HEARTBEAT (R426): A received heartbeat is validated, revives its guy line and updates confirmation from its ACTIVE bits. -/
  | heartbeat (f : RxFrame)
  /-- GUY_LINE_LOST (R426): No valid beat arrives on a guy line for 5 · HB_PERIOD and the line is lost, an ALARM. -/
  | guyLineLost (peer : BitVec 4) (mpLine : Bool)
  /-- MIRROR_SELF_FENCE (R428): An active pitch with a confirmed fly self-fences at t_L + 5 · HB_PERIOD with both guy lines lost, failing unmirrored writes and sending RELEASE. -/
  | mirrorSelfFence (pitch : BitVec 8)
  /-- MIRROR_TAKEOVER (R429): A confirmed standby takes over at t_L + 7 · HB_PERIOD with both guy lines lost, serving UP and DEGRADED. -/
  | mirrorTakeover (pitch : BitVec 8)
  /-- PROBE_TIMER (R420): A PITCHING pitch with FLY_REQ 01h sends a PROBE to its partner every 1 ms. -/
  | probeTimer (pitch : BitVec 8)
  /-- PROBE (R420): A received PROBE is answered OK, MOVED or DENIED, fixing mirror roles. -/
  | probe (f : RxFrame)
  /-- PROBE_RESPONSE (R420): An OK or MOVED answer to a PROBE fixes this pitch's role as active or standby. -/
  | probeResponse (f : RxFrame)
  /-- RELEASE (R429): A received RELEASE makes a confirmed standby take over and is answered OK. -/
  | release (f : RxFrame)
  /-- RELEASE_RESPONSE (R430): The OK answer to RELEASE makes the takeover known, so the self-fenced pitch answers MOVED. -/
  | releaseResponse (f : RxFrame)
  /-- MIRROR_DATA (R423): A mirror DATA frame on the fly is executed by MIR under its mirror rights, keeping CARRY and C. -/
  | mirrorData (op : BitVec 8) (f : RxFrame)
  /-- MIRROR_RESPONSE (R422): The fly's answer to a mirror frame completes the operation on OK or loses the fly otherwise. -/
  | mirrorResponse (op : BitVec 8) (f : RxFrame)
  /-- RESYNC_DONE (R432): The last resynchronisation line is acknowledged and the fly becomes confirmed. -/
  | resyncDone (pitch : BitVec 8)
  /-- POWER_ON (R448): PWR_GOOD rises and the boot sequence starts at step 1. -/
  | powerOn
  /-- BOOT_STEP_COMPLETE (R448): A boot step completes and the next step of the boot sequence begins. -/
  | bootStepComplete (flashOk : Bool) (badAddr : BitVec 29) (slots : BitVec 32)
  /-- BOOT_STEP_TIMEOUT (R449): A boot step passes its limit and the chip enters ROM recovery with cause TIMEOUT. -/
  | bootStepTimeout
  /-- SVN_BURN (R445): Within 1 s after serving BOOT blows SVN fuses up to the image's SVN. -/
  | svnBurn
  /-- FLASH_READ (R454): BOOT_FLASH_CMD OP 01b reads 256 bytes into the buffer. -/
  | flashRead (src : MgmtSource)
  /-- FLASH_PROGRAM (R454): BOOT_FLASH_CMD OP 10b programs a 256-byte page from the buffer. -/
  | flashProgram (src : MgmtSource)
  /-- FLASH_ERASE (R454): BOOT_FLASH_CMD OP 11b erases a 64 KiB sector. -/
  | flashErase (src : MgmtSource)
  /-- FLASH_CMD_DONE (R454): A flash command finishes, clearing BUSY and setting ERROR on failure. -/
  | flashCmdDone (ok : Bool)
  /-- BOOT_CHECK (R454): Writing BOOT_CHECK.GO starts or restarts a check of the flash image without applying it. -/
  | bootCheck (src : MgmtSource)
  /-- BOOT_CHECK_DONE (R454): An image check ends, reporting passed or failed with cause and address. -/
  | bootCheckDone (flashOk : Bool) (badAddr : BitVec 29)
  /-- CHIP_RESET_CMD (R457): BOOT_RESET KIND 01b with KEY 9416h starts a chip reset once any flash command ends. -/
  | chipResetCmd (src : MgmtSource) (key : BitVec 16)
  /-- RECOVERY_RESET (R457): BOOT_RESET KIND 10b with KEY 9416h runs steps 1–3 and enters ROM recovery with cause FORCED. -/
  | recoveryReset (src : MgmtSource) (key : BitVec 16)
  /-- RESET_N_PIN (R505): RESET_N low for at least 1 µs starts a chip reset. -/
  | resetNPin (ns : BitVec 32)
  /-- POWER_DOWN (R512): PWR_GOOD low for 100 ns or more turns off transmitters, asserts module resets and floats board outputs. -/
  | powerDown (ns : BitVec 32)
  /-- TAP_RESET (R457): TRST_N or the TAP's own reset resets the TAP only. -/
  | tapReset
  /-- RECOVERY_ACCESS (R456): In ROM recovery an unauthenticated MGMT_ACCESS reaches only the flash, status and reset registers. -/
  | recoveryAccess (f : RxFrame)
  /-- SVC_MGMT_SCOPE_WRITE (R466): A write of SVC_MGMT_SCOPE sets the carrying session's scope for the entries that follow. -/
  | svcMgmtScopeWrite (src : MgmtSource) (value : BitVec 32)
  /-- AGT_CNT_READ (R470): A read of AGT_CNT_LO captures all 64 bits of the selected counter for the source. -/
  | agtCntRead (src : MgmtSource) (agent : BitVec 16)
  /-- FUM_MR5_EXTEND (R203): Writing FUM_MR5_EXTEND.GO extends MR5 with the data registers and zeroes them. -/
  | fumMr5Extend (src : MgmtSource)
  /-- CVU_INIT (R474): Writing CVU_CTRL with INIT 1b loads the selected polynomial's initial value into VALUE. -/
  | cvuInit (sc : Fin 4) (poly : BitVec 2)
  /-- CVU_CTRL_POLY (R476): Writing CVU_CTRL with INIT 0b changes POLY and leaves VALUE unchanged. -/
  | cvuCtrlPoly (sc : Fin 4) (poly : BitVec 2)
  /-- CVU_FEED_B (R476): CVU_FEED_B feeds one byte into the running CRC. -/
  | cvuFeedB (sc : Fin 4) (data : BitVec 8)
  /-- CVU_FEED_H (R476): CVU_FEED_H feeds two bytes into the running CRC. -/
  | cvuFeedH (sc : Fin 4) (data : BitVec 16)
  /-- CVU_FEED_W (R476): CVU_FEED_W feeds four bytes into the running CRC. -/
  | cvuFeedW (sc : Fin 4) (data : BitVec 32)
  /-- CVU_VALUE_WRITE (R476): Writing CVU_VALUE replaces the running register after every earlier feed. -/
  | cvuValueWrite (sc : Fin 4) (data : BitVec 32)
  /-- SVC_WDOG_KICK (R477): A service core writes SVC_WDOG_KICK and restarts its watchdog period. -/
  | svcWdogKick (sc : Fin 4)
  /-- WATCHDOG_EXPIRE (R478): A service core misses its kick or SRAM fails parity, and a service complex restart begins, or a chip stop on the third in 10 minutes. -/
  | watchdogExpire (sram : Bool)
  /-- SVC_RESTART_DONE (R478): The chip manager rebuilds its state, resumes lifecycle work and clears RESTARTING. -/
  | svcRestartDone (firmwareOk : Bool)
  /-- SC_CACHE_PARITY (R413): A service-core cache parity error is refetched once, then causes a watchdog restart. -/
  | scCacheParity (sc : Fin 4) (again : Bool)
  /-- DBG_MEM_READ (R481): Writing DBG_MEM_CTRL.GO starts a debug read of one line as system master. -/
  | dbgMemRead (src : MgmtSource)
  /-- DBG_MEM_READ_DONE (R481): The debug line read completes, returning plaintext for slot 00h or ciphertext otherwise. -/
  | dbgMemReadDone
  /-- DBG_STORE_CAPTURE (R482): Writing DBG_STORE_ADDR captures 128 bytes of a grid store through the stage port. -/
  | dbgStoreCapture (src : MgmtSource) (addr : BitVec 22)
  /-- TRACE_SAMPLE (R483): At each multiple of PERIOD each enabled selector writes a SAMPLE trace record. -/
  | traceSample
  /-- JTAG_MGMT_ACCESS (R485): Update-DR of the MGMT data register starts a register read or write unless one is running. -/
  | jtagMgmtAccess (op : BitVec 2) (addr : BitVec 32) (data : BitVec 32)
  /-- IDCODE (R484): The IDCODE instruction selects the 32-bit IDCODE register. -/
  | idcode
  /-- SAMPLE_PRELOAD (R484): The SAMPLE/PRELOAD instruction samples or preloads the boundary scan register. -/
  | samplePreload (bits : List Bool)
  /-- EXTEST (R484): The EXTEST instruction drives balls from the boundary scan register. -/
  | extest (bits : List Bool)
  /-- CLAMP (R484): The CLAMP instruction holds outputs from the boundary register and selects bypass. -/
  | clamp
  /-- HIGHZ (R484): The HIGHZ instruction floats outputs and selects bypass. -/
  | highz
  /-- BYPASS (R484): The BYPASS instruction, or any unlisted value, selects the 1-bit bypass register. -/
  | bypass (ir : BitVec 8)
  /-- ATTEST_QUOTE (R204): ATTEST_QUOTE binds or reuses the pitch's ephemeral key and starts signing a quote over the nonce and measurements. -/
  | attestQuote (f : RxFrame)
  /-- ATTEST_QUOTE_SIGNED (R204): Quote signing completes and the 1,312-byte quote is returned. -/
  | attestQuoteSigned (flow : FlowId) (seq : BitVec 24)
  /-- EPH_KEY_GENERATED (R205): FUM finishes generating an ephemeral RSA key into the pool of 4. -/
  | ephKeyGenerated
  /-- KEY_DELIVER (R208): KEY_DELIVER unwraps the content and session keys inside FUM, consumes the ephemeral key and resets SEAL_EXEC. -/
  | keyDeliver (f : RxFrame)
  /-- COCOON_LOAD (R211): COCOON_LOAD is checked, marks the cocoon LOADING and starts FUM's decryption of the blob into the cocoon lines. -/
  | cocoonLoad (f : RxFrame)
  /-- COCOON_LOAD_DONE (R212): FUM compares the GCM tag at the end of a load, making the cocoon READY or FAILED. -/
  | cocoonLoadDone (pitch : BitVec 8)
  /-- CERT_GET (R201): CERT_GET returns the device certificate and device CA certificate in DER. -/
  | certGet (f : RxFrame)
  /-- ADC_FRAME (R486): An ADC frame of 32 conversions completes, updating input values, feed presence and board power. -/
  | adcFrame (codes : List (BitVec 12))
  /-- FEED_RETURN (R490): A lost feed's voltage stays above OK for 1 ms and the feed is present again. -/
  | feedReturn (feedB : Bool)
  /-- FEED_OFF_WRITE (R489): A BRD_FEED_CTRL write drives a feed's enable low unless it would leave no feed present and on. -/
  | feedOffWrite (src : MgmtSource) (value : BitVec 32)
  /-- DIE_TEMP_READ (R492): Every 10 µs the 32 die sensors are read and the hottest die temperature updated. -/
  | dieTempRead (temps : List (BitVec 11))
  /-- MODULE_POLL (R493): Every 8 ms BRD reads each module's temperature sensors and PMIC power over I3C, marking UNKNOWN after three failures. -/
  | modulePoll (reads : List (Option (BitVec 12 × BitVec 16)))
  /-- FAN_UPDATE (R496): Every 100 ms BRD computes the source temperature and sets every enabled fan's duty. -/
  | fanUpdate
  /-- FAN_TACH_COUNT (R497): Every 1 s BRD converts tachometer pulses to speed and marks fans LOW or not. -/
  | fanTachCount (pulses : List (BitVec 32))
  /-- CAP_DECISION (R498): Every 1 ms BRD decides the grid frequency from power and temperature and starts a clock step if it changes. -/
  | capDecision
  /-- CLOCK_STEP_RELOCK (R499): PLL_GRID and PLL_MTX relock at the new frequency and paused sessions resume with CLK_STEPS incremented. -/
  | clockStepRelock
  /-- PLL_UNLOCK (R504): A PLL loses lock outside a step, gating its domains' clocks until relock. -/
  | pllUnlock (pll : Fin 8)
  /-- PLL_RELOCK (R504): An unlocked PLL relocks and its domains' clocks run again. -/
  | pllRelock (pll : Fin 8)
  /-- COLL_CLOSE_RESPONSE (R273): The D4h answer of a neighbour chip to a COLL_CLOSE with ABORT that this chip sent completes that controller request and releases its tracker. -/
  | collCloseResponse (f : RxFrame)
  /-- PTP_MESSAGE_INTERVAL (R357): At each Sync, Announce and Delay_Req or Pdelay_Req interval set by LOG_SYNC, LOG_ANNOUNCE and LOG_DELAY_REQ, the PTP engine sends its message on each PTP port and judges announce receipt. -/
  | ptpMessageInterval (link : Fin 8) (kind : PtpKind)
  /-- TOKEN_REFILL_TICK (R378): At every 125 ns tick of CD10 each policer bucket and each class shaper bucket gains its rate in eighths of a byte, stopping at its depth. -/
  | tokenRefillTick
  /-- DBG_STORE_CAPTURE_DONE (R482): A grid store capture completes within 1 µs and the captured bytes become readable, releasing later entries of the same source that wait for it. -/
  | dbgStoreCaptureDone (src : MgmtSource)
deriving DecidableEq, Repr

end Sys2Proof
end

