-- ==== Sys2Proof/Decode.lean ====
section
/-! DEFINITION. The words of the opcode table: its rows are commands and carry no bits, so that no word spells one. -/
namespace Sys2Proof

/-- The command that a word of the opcode table spells: none, whatever the word. -/
def decodeTableWord (_nbits _w : Nat) : Option Instr := none

end Sys2Proof
end

