-- ==== Sys2Proof/Machine/Tab.lean ====
section
/-! DEFINITION. Reads and writes of the two shapes of table, and the byte-order and bit-field helpers
the whole model uses (R13, R55). -/
namespace Sys2Proof.Machine

/-- The entry of key `a`, or the default. -/
def tget {α : Type} (d : α) : Tab α → Nat → α
  | [], _ => d
  | (k, v) :: t, a => if k = a then v else tget d t a

/-- The entry of key `a`, if the table holds one. -/
def tfind {α : Type} : Tab α → Nat → Option α
  | [], _ => none
  | (k, v) :: t, a => if k = a then some v else tfind t a

/-- Put `v` at key `a`, keeping the table sorted. -/
def tins {α : Type} : Tab α → Nat → α → Tab α
  | [], a, v => [(a, v)]
  | (k, w) :: t, a, v =>
    if a < k then (a, v) :: (k, w) :: t
    else if a = k then (a, v) :: t
    else (k, w) :: tins t a v

/-- Remove the entry of key `a`. -/
def tdel {α : Type} (t : Tab α) (a : Nat) : Tab α := t.filter (fun e => e.1 ≠ a)

/-- Put `v` at key `a`, keeping the table sorted and free of default entries. -/
def tset {α : Type} [DecidableEq α] (d : α) (t : Tab α) (a : Nat) (v : α) : Tab α :=
  if v = d then tdel t a else tins t a v

/-- Change the entry of key `a`, if the table holds one. -/
def tmod {α : Type} (f : α → α) : Tab α → Nat → Tab α
  | [], _ => []
  | (k, w) :: t, a => if k = a then (k, f w) :: t else (k, w) :: tmod f t a

/-- The entry of a key in a table by any key. -/
def aget {κ α : Type} [DecidableEq κ] : AMap κ α → κ → Option α
  | [], _ => none
  | (k, v) :: t, a => if k = a then some v else aget t a

/-- Replace the entry of a key in place, or append it. -/
def aput {κ α : Type} [DecidableEq κ] : AMap κ α → κ → α → AMap κ α
  | [], a, v => [(a, v)]
  | (k, w) :: t, a, v => if k = a then (k, v) :: t else (k, w) :: aput t a v

/-- Remove the entries of a key. -/
def adel {κ α : Type} [DecidableEq κ] (m : AMap κ α) (a : κ) : AMap κ α :=
  m.filter (fun e => e.1 ≠ a)

/-- Change the entry of a key, if there is one. -/
def amod {κ α : Type} [DecidableEq κ] (m : AMap κ α) (a : κ) (f : α → α) : AMap κ α :=
  m.map (fun e => if e.1 = a then (e.1, f e.2) else e)

/-- Sorted by strictly rising key, every key below `hi` where one is given. -/
def tsorted {α : Type} : Tab α → Bool
  | [] => true
  | [_] => true
  | (a, _) :: (b, w) :: t => decide (a < b) && tsorted ((b, w) :: t)

/-- The canonical form: sorted, and no entry holds the default. -/
def tcanon {α : Type} [DecidableEq α] (d : α) (t : Tab α) : Bool :=
  tsorted t && t.all (fun e => decide (e.2 ≠ d))

/-- Bits `lo` to `lo + n - 1` of `x`. -/
def bitsOf {w : Nat} (x : BitVec w) (lo n : Nat) : Nat := (x.toNat >>> lo) % 2 ^ n

/-- One bit of `x`. -/
def bitOf {w : Nat} (x : BitVec w) (i : Nat) : Bool := x.getLsbD i

/-- `x` with bits `lo` to `lo + n - 1` replaced by `v`. -/
def setBits {w : Nat} (x : BitVec w) (lo n v : Nat) : BitVec w :=
  BitVec.ofNat w ((x.toNat >>> (lo + n)) <<< (lo + n) + ((v % 2 ^ n) <<< lo) + x.toNat % 2 ^ lo)

/-- 1 for true. -/
def b2n (b : Bool) : Nat := if b then 1 else 0

/-- A number that stops at its ceiling instead of wrapping. -/
def satAdd (cap a b : Nat) : Nat := min cap (a + b)

/-- Big-endian bytes to a number (the wire's order, R13). -/
def beNat (bs : List Byte) : Nat := bs.foldl (fun a b => a * 256 + b.toNat) 0

/-- Little-endian bytes to a number (memory's order, R13). -/
def leNat : List Byte → Nat
  | [] => 0
  | b :: bs => b.toNat + 256 * leNat bs

/-- `n` little-endian bytes of a number. -/
def leBytes : Nat → Nat → List Byte
  | 0, _ => []
  | n + 1, v => BitVec.ofNat 8 v :: leBytes n (v / 256)

/-- `n` big-endian bytes of a number. -/
def beBytes (n v : Nat) : List Byte := (leBytes n v).reverse

/-- Big-endian field of `n` bytes at byte `off`. -/
def beAt (bs : List Byte) (off n : Nat) : Nat := beNat ((bs.drop off).take n)

/-- `n` zero bytes. -/
def zeros (n : Nat) : List Byte := List.replicate n 0

/-- The byte at an index, 0 beyond the end. -/
def byteAt (bs : List Byte) (i : Nat) : Byte := bs.getD i 0

/-- The list whose first `n` naturals satisfy nothing in particular: 0 to `n - 1`. -/
def upto (n : Nat) : List Nat := List.range n

/-- Fold over 0 to `n - 1`. -/
def foldN {σ : Type} (n : Nat) (f : σ → Nat → σ) (s : σ) : σ := (List.range n).foldl f s

/-- Fold a state over a list. -/
def foldS {σ α : Type} (l : List α) (s : σ) (f : σ → α → σ) : σ := l.foldl f s

/-- Replace element `i` of a list, if there is one. -/
def lset {α : Type} : List α → Nat → α → List α
  | [], _, _ => []
  | _ :: t, 0, v => v :: t
  | a :: t, i + 1, v => a :: lset t i v

/-- Change element `i` of a list, if there is one. -/
def lmod {α : Type} (f : α → α) : List α → Nat → List α
  | [], _ => []
  | a :: t, 0 => f a :: t
  | a :: t, i + 1 => a :: lmod f t i

/-- Does a list hold the same value twice? -/
def hasDup {α : Type} [DecidableEq α] : List α → Bool
  | [] => false
  | a :: t => decide (a ∈ t) || hasDup t

/-- Index of the first element that satisfies a test. -/
def firstIdx {α : Type} (p : α → Bool) : List α → Nat → Option Nat
  | [], _ => none
  | a :: t, i => if p a then some i else firstIdx p t (i + 1)

/-- Bits set in the low `n` bits of a number. -/
def popN (n x : Nat) : Nat := ((List.range n).filter (fun i => x.testBit i)).length

/-- Two's complement value of a bit vector. -/
def sint {w : Nat} (x : BitVec w) : Int := x.toInt

end Sys2Proof.Machine
end

