-- ==== Sys2Proof/Machine/Float.lean ====
section
/-! DEFINITION. IEEE 754 arithmetic as the spec uses it (R69, R252, R324 to R331): values are exact dyadic
numbers, rounded once, to nearest even, with subnormals kept. -/
namespace Sys2Proof.Machine

/-- A binary format: exponent bits and mantissa bits. -/
structure Fmt where
  eb : Nat
  mb : Nat
deriving DecidableEq, Repr

def fp32 : Fmt := ⟨8, 23⟩
def bf16 : Fmt := ⟨8, 7⟩
def fp16 : Fmt := ⟨5, 10⟩
def fp64 : Fmt := ⟨11, 52⟩
def e5m2 : Fmt := ⟨5, 2⟩

def Fmt.bias (f : Fmt) : Int := 2 ^ (f.eb - 1) - 1
def Fmt.width (f : Fmt) : Nat := 1 + f.eb + f.mb

/-- A number: NaN, an infinity, or the sign and the exact magnitude m · 2^e. -/
inductive Num where
  | nan
  | inf (neg : Bool)
  | fin (neg : Bool) (m : Nat) (e : Int)
deriving DecidableEq, Repr

/-- Decode a bit pattern. -/
def decodeF (f : Fmt) (x : Nat) : Num :=
  let neg := (x >>> (f.eb + f.mb)) % 2 = 1
  let ex := (x >>> f.mb) % 2 ^ f.eb
  let fr := x % 2 ^ f.mb
  if ex = 2 ^ f.eb - 1 then (if fr = 0 then .inf neg else .nan)
  else if ex = 0 then .fin neg fr (1 - f.bias - f.mb)
  else .fin neg (fr + 2 ^ f.mb) (ex - f.bias - f.mb)

/-- Number of bits of a natural number. -/
def nbits (n : Nat) : Nat := if n = 0 then 0 else Nat.log2 n + 1

/-- m · 2^k for k ≥ 0, or ⌊m / 2^-k⌋. -/
def shiftI (m : Nat) (k : Int) : Nat := if 0 ≤ k then m * 2 ^ k.toNat else m / 2 ^ (-k).toNat

/-- Does a right shift by k drop a non-zero bit? -/
def dropped (m : Nat) (k : Int) : Bool := if 0 ≤ k then false else decide (m % 2 ^ (-k).toNat ≠ 0)

/-- Round m · 2^e (and a non-zero tail below it if `sticky`) to an integer count of units 2^u, to nearest
even. -/
def roundUnits (m : Nat) (e u : Int) (sticky : Bool) : Nat :=
  let k := u - e
  if k ≤ 0 then m * 2 ^ (-k).toNat
  else
    let q := m / 2 ^ k.toNat
    let r := m % 2 ^ k.toNat
    let half := 2 ^ (k.toNat - 1)
    if half < r ∨ (r = half ∧ (sticky ∨ q % 2 = 1)) then q + 1 else q

/-- Exponent of the unit in the last place of a value of magnitude about m · 2^e. -/
def ulpExp (f : Fmt) (m : Nat) (e : Int) : Int :=
  max (e + nbits m - (f.mb + 1)) (1 - f.bias - f.mb)

def signBit (f : Fmt) (neg : Bool) : Nat := if neg then 2 ^ (f.eb + f.mb) else 0
def infBits (f : Fmt) (neg : Bool) : Nat := signBit f neg + (2 ^ f.eb - 1) * 2 ^ f.mb
/-- The quiet NaN that results are written as (R69): sign 0, top mantissa bit set. -/
def nanBits (f : Fmt) : Nat := (2 ^ f.eb - 1) * 2 ^ f.mb + 2 ^ (f.mb - 1)

/-- Pack `q` units 2^u, q below 2^(mb+2), into a format; overflow is an infinity. -/
def packUnits (f : Fmt) (neg : Bool) (q : Nat) (u : Int) : Nat :=
  -- q may have carried into one more bit
  let q1 := if 2 ^ (f.mb + 1) ≤ q then q / 2 else q
  let u1 := if 2 ^ (f.mb + 1) ≤ q then u + 1 else u
  if q1 < 2 ^ f.mb then signBit f neg + q1
  else
    let ex := u1 + f.mb + f.bias
    if 2 ^ f.eb - 1 ≤ ex then infBits f neg
    else signBit f neg + ex.toNat * 2 ^ f.mb + (q1 - 2 ^ f.mb)

/-- Round an exact magnitude to a format, to nearest even. -/
def roundF (f : Fmt) (neg : Bool) (m : Nat) (e : Int) (sticky : Bool) : Nat :=
  if m = 0 then signBit f neg
  else
    let u := ulpExp f m e
    packUnits f neg (roundUnits m e u sticky) u

/-- Encode a number. -/
def encodeF (f : Fmt) : Num → Nat
  | .nan => nanBits f
  | .inf n => infBits f n
  | .fin n m e => roundF f n m e false

def numNeg : Num → Num
  | .nan => .nan
  | .inf n => .inf (!n)
  | .fin n m e => .fin (!n) m e

/-- Signed mantissa at a common exponent. -/
def signedAt (n : Bool) (m : Nat) (e dest : Int) : Int :=
  let v : Int := (m * 2 ^ (e - dest).toNat : Nat)
  if n then -v else v

/-- Exact sum (R69). An exact zero sum of opposite signs is +0. -/
def numAdd : Num → Num → Num
  | .nan, _ => .nan
  | _, .nan => .nan
  | .inf a, .inf b => if a = b then .inf a else .nan
  | .inf a, _ => .inf a
  | _, .inf b => .inf b
  | .fin a m e, .fin b k g =>
    if m = 0 ∧ k = 0 then .fin (a && b) 0 0
    else if m = 0 then .fin b k g
    else if k = 0 then .fin a m e
    else
      let dest := min e g
      let v := signedAt a m e dest + signedAt b k g dest
      if v = 0 then .fin false 0 0 else .fin (decide (v < 0)) v.natAbs dest

/-- Exact product. -/
def numMul : Num → Num → Num
  | .nan, _ => .nan
  | _, .nan => .nan
  | .inf a, .inf b => .inf (a != b)
  | .inf a, .fin b m _ => if m = 0 then .nan else .inf (a != b)
  | .fin a m _, .inf b => if m = 0 then .nan else .inf (a != b)
  | .fin a m e, .fin b k g => .fin (a != b) (m * k) (e + g)

/-- IEEE addition in a format. -/
def addF (f : Fmt) (a b : Nat) : Nat := encodeF f (numAdd (decodeF f a) (decodeF f b))
def mulF (f : Fmt) (a b : Nat) : Nat := encodeF f (numMul (decodeF f a) (decodeF f b))
/-- a · b + c rounded once. -/
def fmaF (f : Fmt) (a b c : Nat) : Nat :=
  encodeF f (numAdd (numMul (decodeF f a) (decodeF f b)) (decodeF f c))

/-- Division rounded once. -/
def divF (f : Fmt) (a b : Nat) : Nat :=
  match decodeF f a, decodeF f b with
  | .nan, _ => nanBits f
  | _, .nan => nanBits f
  | .inf _, .inf _ => nanBits f
  | .inf x, .fin y _ _ => infBits f (x != y)
  | .fin x _ _, .inf y => signBit f (x != y)
  | .fin x m e, .fin y k g =>
    if k = 0 then (if m = 0 then nanBits f else infBits f (x != y))
    else if m = 0 then signBit f (x != y)
    else
      let sh := 2 * f.mb + 6 + nbits k
      let q := m * 2 ^ sh / k
      roundF f (x != y) q (e - g - sh) (decide (m * 2 ^ sh % k ≠ 0))

/-- Integer square root, bit by bit from bit `k - 1` down. -/
def isqrtFrom (n : Nat) : Nat → Nat → Nat
  | 0, r => r
  | k + 1, r => if (r + 2 ^ k) * (r + 2 ^ k) ≤ n then isqrtFrom n k (r + 2 ^ k) else isqrtFrom n k r

def isqrt (n : Nat) : Nat := isqrtFrom n (nbits n / 2 + 1) 0

/-- Square root rounded once; of a negative number NaN, of −0 −0. -/
def sqrtF (f : Fmt) (a : Nat) : Nat :=
  match decodeF f a with
  | .nan => nanBits f
  | .inf n => if n then nanBits f else infBits f false
  | .fin n m e =>
    if m = 0 then signBit f n
    else if n then nanBits f
    else
      -- make the exponent even and the radicand long enough for a full mantissa
      let sh : Nat := 2 * (f.mb + 4) + (if (e - 2 * (f.mb + 4 : Nat)) % 2 = 0 then 0 else 1)
      let r := m * 2 ^ sh
      let q := isqrt r
      roundF f false q ((e - sh) / 2) (decide (q * q ≠ r))

/-- A total comparison of non-NaN values: negative, zero or positive as a is below, equal to or above b. -/
def cmpNum : Num → Num → Int
  | .inf a, .inf b => if a = b then 0 else if a then -1 else 1
  | .inf a, _ => if a then -1 else 1
  | _, .inf b => if b then 1 else -1
  | .fin a m e, .fin b k g =>
    let dest := min e g
    let x := signedAt a m e dest
    let y := signedAt b k g dest
    if x < y then -1 else if x = y then 0 else 1
  | _, _ => 0

def isNanF (f : Fmt) (a : Nat) : Bool :=
  match decodeF f a with
  | .nan => true
  | _ => false

/-- Add BF16 elements exactly and round once (R69). -/
def addBf16 (a b : Nat) : Nat := addF bf16 a b
def addF32 (a b : Nat) : Nat := addF fp32 a b

end Sys2Proof.Machine
end

