-- ==== Sys2Proof/Machine/Crc.lean ====
section
/-! DEFINITION. The check values: CRC-32C (R60, R475), CRC-32 and CRC-8/SMBus (R475). -/
namespace Sys2Proof.Machine

/-- One bit of a reflected CRC whose reflected polynomial is `p`. -/
def crcBit (p c : BitVec 32) : BitVec 32 := if c.getLsbD 0 then (c >>> 1) ^^^ p else c >>> 1

/-- Feed one byte to a reflected CRC. -/
def crcFeed (p : BitVec 32) (c : BitVec 32) (b : Byte) : BitVec 32 :=
  (List.range 8).foldl (fun a _ => crcBit p a) (c ^^^ b.zeroExtend 32)

/-- Reflection of 1EDC_6F41h. -/
def poly32c : BitVec 32 := 0x82F63B78
/-- Reflection of 04C1_1DB7h. -/
def poly32 : BitVec 32 := 0xEDB88320

/-- CRC-32C of a string of bytes (R60). -/
def crc32c (bs : List Byte) : BitVec 32 := bs.foldl (crcFeed poly32c) 0xFFFFFFFF ^^^ 0xFFFFFFFF

/-- One bit of CRC-8/SMBus, not reflected (R475). -/
def crc8Bit (c : Byte) : Byte := if c.getLsbD 7 then (c <<< 1) ^^^ 0x07 else c <<< 1

def crc8Feed (c b : Byte) : Byte := (List.range 8).foldl (fun a _ => crc8Bit a) (c ^^^ b)

/-- Feed one byte to a check-value unit under POLY (R475). -/
def cvuFeed (poly : BitVec 2) (v : BitVec 32) (b : Byte) : BitVec 32 :=
  if poly = 0 then crcFeed poly32c v b
  else if poly = 1 then crcFeed poly32 v b
  else (crc8Feed (v.truncate 8) b).zeroExtend 32

/-- Initial value under POLY (R475). -/
def cvuInitial (poly : BitVec 2) : BitVec 32 := if poly = 2 then 0 else 0xFFFFFFFF

/-- CVU_RESULT (R474). -/
def cvuResult (poly : BitVec 2) (v : BitVec 32) : BitVec 32 :=
  if poly = 2 then v &&& 0xFF else v ^^^ 0xFFFFFFFF

end Sys2Proof.Machine
end

