-- ==== Sys2Proof/Config.lean ====
section
/-! DEFINITION. What a part fixes, and the values the spec leaves open: constants without a body, so that
no proof can lean on one. -/
namespace Sys2Proof.Config

/-- STEP_MAJOR and STEP_MINOR of the part (R17, log 7). -/
opaque stepMajor : BitVec 4
opaque stepMinor : BitVec 4
/-- GRADE of the part: 1Bh or 17h (R17, log 7). -/
opaque grade : BitVec 8
/-- Chip serial number (R80, log 7). -/
opaque serial : BitVec 64
/-- The n-th value drawn from the FUM generator or left open by the spec (R193, log 5). -/
opaque freeValue : Nat → BitVec 512
/-- SHA-512 of a string of bytes (log 4). -/
opaque sha512 : List Byte → BitVec 512
/-- HMAC-SHA-512 of a message under a key (R45, log 4). -/
opaque hmac : BitVec 512 → List Byte → BitVec 512
/-- Does an RSA-PSS signature of a message verify under a public key (R43, R204, R438, log 4)? -/
opaque rsaVerify : List Byte → List Byte → List Byte → Bool
/-- RSA-PSS signature of a message under the identity key (R204, log 4). -/
opaque rsaSign : List Byte → BitVec 4096
/-- RSA-OAEP wrapping of a message under a public key (R43, log 4). -/
opaque rsaWrap : List Byte → List Byte → BitVec 4096
/-- RSA-OAEP unwrapping under the private half of the numbered ephemeral key (R207, log 4). -/
opaque rsaUnwrap : Nat → List Byte → Option (List Byte)
/-- Modulus of the numbered ephemeral key (R205, log 5). -/
opaque ephModulus : Nat → BitVec 4096
/-- Ciphertext of a line: key slot, key generation, PPA, plaintext (R192, log 4). -/
opaque lineCipher : Nat → Nat → Nat → List Byte → BitVec 512
/-- Line tag: key slot, key generation, PPA, owner, ciphertext (R194, log 4). -/
opaque lineTag : Nat → Nat → Nat → BitVec 16 → BitVec 512 → BitVec 64
/-- AES-256-CTR keystream block under a session key for a counter block (R214, log 4). -/
opaque ctrBlock : BitVec 256 → List Byte → BitVec 128
/-- AES-256-GCM opening of a ciphertext: key, IV, authenticated data, ciphertext, tag (R210, log 4):
the plaintext, and whether the tag matches. -/
opaque gcmPlain : BitVec 256 → List Byte → List Byte → List Byte
opaque gcmOk : BitVec 256 → List Byte → List Byte → List Byte → List Byte → Bool
/-- The device certificate and the device CA certificate (R201, log 7). -/
opaque certChain : List Byte
/-- Root of a pitch's page table, PPA[43:16], as firmware places it (R133, log 10). -/
opaque ptRoot : Nat → BitVec 28
/-- ADDR of a page-table pointer entry, as firmware places the table (R133, log 10). -/
opaque ptPlace : Nat → Nat → Nat → BitVec 36
/-- The 20-bit hash of a flow's identity (R53, R91, log 14). -/
opaque flowHash : List Byte → BitVec 20

/-- Bytes of the board's flash (R436, R454, log 7). -/
opaque flashBytes : Nat

/-- Population count of the SVN fuses as made, and the fused hash of the root key (R443, R445, log 7). -/
opaque fuseSvn : Nat
opaque rootKeyHash : BitVec 512

/-- Offset of the trace ring within the first 2 GiB of the system region, in 4 KiB units (R480, log 7). -/
opaque traceOffset : BitVec 19

/-- The base MAC address in fuses (R347, log 7). -/
opaque macBase : BitVec 48

end Sys2Proof.Config
end

