-- ==== Sys2Proof/Machine/Counters.lean ====
section
/-! DEFINITION. The counters of the chip by name, with the block that keeps each and whether a pitch has
its own copy (R51, R120, R150, R191, R217, R246, R276, R309, R342, R374, R395, R408, R435, R460, R470, R502). -/
namespace Sys2Proof.Machine

/-- A counter; the name's spelling is BLOCK_CNT_EVENT (R12). -/
inductive Cnt where
  | svcCreate | svcRepitch | svcRefused | svcDrainFail | svcAuthFail | svcAuthStale | svcFault 
  | svcFaultLost | swpLines | prtOversize | prtVlan | prtIpOpt | prtFcs | prtRunt | prtPause 
  | prtFecUncorr | prtLinkDown | prtLaneFail | prtSwap | prtPtpTs | prtFecSym | tptUdpCsum 
  | tptShort | tptType | tptAliveGap | tptStale | tptHcrc | tptVersion | tptNoTracker | tptFlowFull 
  | tptHandoff | tptSrcUnbound | tptSrcMismatch | tptCtxUnheld | tptStatus | tptSeqAhead | tptDupInflight 
  | tptDupReexec | tptDupCached | tptDupLate | tptDupAckonly | tptAckTx | tptNackTx | tptAckRx 
  | tptNackRx | tptRtx | tptRtxFail | tptCe | tptRetryTrk | tptSealedExec | actMiss | actMissMerged 
  | actMissFull | actNotMapped | actDeniedSlot | actDeniedAttr | actDeniedOwner | actSealed 
  | actXlate | actXlateEvict | actRecall | actRevoke | actDescInval | actMissTimeout | dmcRdS 
  | dmcWrS | dmcRmwRd | dmcWinHold | dmcRowHit | dmcRowMiss | dmcPromote | dmcInorder | dmcLockWait 
  | dmcRefresh | dmcWinPrecharge | dmcCaAlert | dmcCaReplay | dmcRetrain | dmcPageRetire | mceParity 
  | mceReread | mceTagFail | mceMedia | mceIntegrity | mceFreeClaim | fumQuote | fumEphEmpty 
  | fumUnwrapFail | fumCocoonOk | fumCocoonFail | fumAllowRefused | fumSlotDestroy | swnReqShared 
  | swnReqOwn | swnReqUpgrade | swnForward | swnInval | swnWbAccept | swnWbStale | swnWbUnexpected 
  | swnWbOver | swnNoncaching | swnRetry | swnLost | swnDirEvict | clxOpen | clxOpenRefused 
  | clxDone | clxFailed | clxAbortRx | clxDup | clxEarly | clxNotOpen | clxChunks | clxBytesIn 
  | clxOutSpecial | clxStageWait | grdLaunch | grdLaunchRefused | grdDone | grdFailed | grdCollision 
  | grdHoldParity | grdStageIn | grdStageOut | grdSessionCycles | grdPauseCycles | grdQueueFull 
  | grdHoldOor | grdNetFlits | grdSrBlocks | grdHoldReread | grdRetire | mtxReread | mtxParity 
  | klrHcrc | klrGap | klrDup | klrProto | klrStatusTx | klrRqTx | klrReplayTimer | klrReplayRq 
  | klrReplayFrames | klrSpillOut | klrSpillIn | klrWindowStall | klrCreditStall | klrIncarnation 
  | klrTc7Drop | tmgGreen | tmgYellow | tmgRed | tmgPrivDrop | tmgTxFrames | tmgTxBytes | tmgGateWait 
  | tmgShapeWait | tmgGlTake | tmgGlRefused | tmgGlReplaced | tmgCfgRefused | fabInjE | fabEjE 
  | fabDeflect | fabReflect | fabStarve | fabParityReplay | fabRtRefused | mirHbTx | mirHbRx 
  | mirGuyLost | mirMirrorFrames | mirSelfFence | mirTakeover | mirFlyLost | mirResyncBytes 
  | bootEarlyRx | bootFlashRefused | bootFlashError | bootCheckPass | bootCheckFail | brdFeedLossA 
  | brdFeedLossB | brdFeedRefused | brdAdcCal | brdI3cFail | brdFanLow | brdStepDown | brdStepUp 
  | brdThrottle | crgUnlock 
deriving DecidableEq, Repr

/-- How a counter is divided: `one`, or one entry for each lane, status, service class, class, link half,
(link, class) or epoch (R470). -/
inductive CntDiv where
  | one | lane | status | svc | class | half | linkClass | epoch
deriving DecidableEq, Repr

/-- What the directory says of a counter. -/
structure CntInfo where
  cnt : Cnt
  name : String
  domain : Nat
  block : Nat
  perPitch : Bool
  div : CntDiv
deriving DecidableEq, Repr

/-- The directory's row of a counter. -/
def cntInfo : Cnt → CntInfo
  | .svcCreate => ⟨.svcCreate, "SVC_CNT_CREATE", 0, 0, false, .one⟩
  | .svcRepitch => ⟨.svcRepitch, "SVC_CNT_REPITCH", 0, 0, false, .one⟩
  | .svcRefused => ⟨.svcRefused, "SVC_CNT_REFUSED", 0, 0, false, .one⟩
  | .svcDrainFail => ⟨.svcDrainFail, "SVC_CNT_DRAIN_FAIL", 0, 0, false, .one⟩
  | .svcAuthFail => ⟨.svcAuthFail, "SVC_CNT_AUTH_FAIL", 0, 0, false, .one⟩
  | .svcAuthStale => ⟨.svcAuthStale, "SVC_CNT_AUTH_STALE", 0, 0, false, .one⟩
  | .svcFault => ⟨.svcFault, "SVC_CNT_FAULT", 0, 0, false, .one⟩
  | .svcFaultLost => ⟨.svcFaultLost, "SVC_CNT_FAULT_LOST", 0, 0, false, .one⟩
  | .swpLines => ⟨.swpLines, "SWP_CNT_LINES", 2, 4, false, .one⟩
  | .prtOversize => ⟨.prtOversize, "PRT_CNT_OVERSIZE", 1, 1, false, .one⟩
  | .prtVlan => ⟨.prtVlan, "PRT_CNT_VLAN", 1, 1, false, .one⟩
  | .prtIpOpt => ⟨.prtIpOpt, "PRT_CNT_IP_OPT", 1, 1, false, .one⟩
  | .prtFcs => ⟨.prtFcs, "PRT_CNT_FCS", 1, 1, false, .one⟩
  | .prtRunt => ⟨.prtRunt, "PRT_CNT_RUNT", 1, 1, false, .one⟩
  | .prtPause => ⟨.prtPause, "PRT_CNT_PAUSE", 1, 1, false, .one⟩
  | .prtFecUncorr => ⟨.prtFecUncorr, "PRT_CNT_FEC_UNCORR", 1, 1, false, .one⟩
  | .prtLinkDown => ⟨.prtLinkDown, "PRT_CNT_LINK_DOWN", 1, 1, false, .one⟩
  | .prtLaneFail => ⟨.prtLaneFail, "PRT_CNT_LANE_FAIL", 1, 1, false, .one⟩
  | .prtSwap => ⟨.prtSwap, "PRT_CNT_SWAP", 1, 1, false, .one⟩
  | .prtPtpTs => ⟨.prtPtpTs, "PRT_CNT_PTP_TS", 1, 1, false, .one⟩
  | .prtFecSym => ⟨.prtFecSym, "PRT_CNT_FEC_SYM", 1, 1, false, .lane⟩
  | .tptUdpCsum => ⟨.tptUdpCsum, "TPT_CNT_UDP_CSUM", 1, 3, false, .one⟩
  | .tptShort => ⟨.tptShort, "TPT_CNT_SHORT", 1, 3, false, .one⟩
  | .tptType => ⟨.tptType, "TPT_CNT_TYPE", 1, 3, false, .one⟩
  | .tptAliveGap => ⟨.tptAliveGap, "TPT_CNT_ALIVE_GAP", 1, 3, false, .one⟩
  | .tptStale => ⟨.tptStale, "TPT_CNT_STALE", 1, 3, false, .one⟩
  | .tptHcrc => ⟨.tptHcrc, "TPT_CNT_HCRC", 1, 3, false, .one⟩
  | .tptVersion => ⟨.tptVersion, "TPT_CNT_VERSION", 1, 3, false, .one⟩
  | .tptNoTracker => ⟨.tptNoTracker, "TPT_CNT_NO_TRACKER", 1, 3, false, .one⟩
  | .tptFlowFull => ⟨.tptFlowFull, "TPT_CNT_FLOW_FULL", 1, 3, false, .one⟩
  | .tptHandoff => ⟨.tptHandoff, "TPT_CNT_HANDOFF", 1, 3, false, .one⟩
  | .tptSrcUnbound => ⟨.tptSrcUnbound, "TPT_CNT_SRC_UNBOUND", 1, 3, false, .one⟩
  | .tptSrcMismatch => ⟨.tptSrcMismatch, "TPT_CNT_SRC_MISMATCH", 1, 3, false, .one⟩
  | .tptCtxUnheld => ⟨.tptCtxUnheld, "TPT_CNT_CTX_UNHELD", 1, 3, false, .one⟩
  | .tptStatus => ⟨.tptStatus, "TPT_CNT_STATUS", 1, 3, false, .status⟩
  | .tptSeqAhead => ⟨.tptSeqAhead, "TPT_CNT_SEQ_AHEAD", 1, 3, true, .one⟩
  | .tptDupInflight => ⟨.tptDupInflight, "TPT_CNT_DUP_INFLIGHT", 1, 3, true, .one⟩
  | .tptDupReexec => ⟨.tptDupReexec, "TPT_CNT_DUP_REEXEC", 1, 3, true, .one⟩
  | .tptDupCached => ⟨.tptDupCached, "TPT_CNT_DUP_CACHED", 1, 3, true, .one⟩
  | .tptDupLate => ⟨.tptDupLate, "TPT_CNT_DUP_LATE", 1, 3, true, .one⟩
  | .tptDupAckonly => ⟨.tptDupAckonly, "TPT_CNT_DUP_ACKONLY", 1, 3, true, .one⟩
  | .tptAckTx => ⟨.tptAckTx, "TPT_CNT_ACK_TX", 1, 3, true, .one⟩
  | .tptNackTx => ⟨.tptNackTx, "TPT_CNT_NACK_TX", 1, 3, true, .one⟩
  | .tptAckRx => ⟨.tptAckRx, "TPT_CNT_ACK_RX", 1, 3, true, .one⟩
  | .tptNackRx => ⟨.tptNackRx, "TPT_CNT_NACK_RX", 1, 3, true, .one⟩
  | .tptRtx => ⟨.tptRtx, "TPT_CNT_RTX", 1, 3, true, .one⟩
  | .tptRtxFail => ⟨.tptRtxFail, "TPT_CNT_RTX_FAIL", 1, 3, true, .one⟩
  | .tptCe => ⟨.tptCe, "TPT_CNT_CE", 1, 3, true, .one⟩
  | .tptRetryTrk => ⟨.tptRetryTrk, "TPT_CNT_RETRY_TRK", 1, 3, true, .one⟩
  | .tptSealedExec => ⟨.tptSealedExec, "TPT_CNT_SEALED_EXEC", 1, 3, true, .one⟩
  | .actMiss => ⟨.actMiss, "ACT_CNT_MISS", 2, 1, true, .one⟩
  | .actMissMerged => ⟨.actMissMerged, "ACT_CNT_MISS_MERGED", 2, 1, true, .one⟩
  | .actMissFull => ⟨.actMissFull, "ACT_CNT_MISS_FULL", 2, 1, true, .one⟩
  | .actNotMapped => ⟨.actNotMapped, "ACT_CNT_NOT_MAPPED", 2, 1, true, .one⟩
  | .actDeniedSlot => ⟨.actDeniedSlot, "ACT_CNT_DENIED_SLOT", 2, 1, true, .one⟩
  | .actDeniedAttr => ⟨.actDeniedAttr, "ACT_CNT_DENIED_ATTR", 2, 1, true, .one⟩
  | .actDeniedOwner => ⟨.actDeniedOwner, "ACT_CNT_DENIED_OWNER", 2, 1, true, .one⟩
  | .actSealed => ⟨.actSealed, "ACT_CNT_SEALED", 2, 1, true, .one⟩
  | .actXlate => ⟨.actXlate, "ACT_CNT_XLATE", 2, 1, true, .one⟩
  | .actXlateEvict => ⟨.actXlateEvict, "ACT_CNT_XLATE_EVICT", 2, 1, true, .one⟩
  | .actRecall => ⟨.actRecall, "ACT_CNT_RECALL", 2, 1, true, .one⟩
  | .actRevoke => ⟨.actRevoke, "ACT_CNT_REVOKE", 2, 1, true, .one⟩
  | .actDescInval => ⟨.actDescInval, "ACT_CNT_DESC_INVAL", 2, 1, true, .one⟩
  | .actMissTimeout => ⟨.actMissTimeout, "ACT_CNT_MISS_TIMEOUT", 2, 1, false, .one⟩
  | .dmcRdS => ⟨.dmcRdS, "DMC_CNT_RD_S", 2, 2, true, .svc⟩
  | .dmcWrS => ⟨.dmcWrS, "DMC_CNT_WR_S", 2, 2, true, .svc⟩
  | .dmcRmwRd => ⟨.dmcRmwRd, "DMC_CNT_RMW_RD", 2, 2, true, .one⟩
  | .dmcWinHold => ⟨.dmcWinHold, "DMC_CNT_WIN_HOLD", 2, 2, true, .one⟩
  | .dmcRowHit => ⟨.dmcRowHit, "DMC_CNT_ROW_HIT", 2, 2, false, .one⟩
  | .dmcRowMiss => ⟨.dmcRowMiss, "DMC_CNT_ROW_MISS", 2, 2, false, .one⟩
  | .dmcPromote => ⟨.dmcPromote, "DMC_CNT_PROMOTE", 2, 2, false, .one⟩
  | .dmcInorder => ⟨.dmcInorder, "DMC_CNT_INORDER", 2, 2, false, .one⟩
  | .dmcLockWait => ⟨.dmcLockWait, "DMC_CNT_LOCK_WAIT", 2, 2, false, .one⟩
  | .dmcRefresh => ⟨.dmcRefresh, "DMC_CNT_REFRESH", 2, 2, false, .one⟩
  | .dmcWinPrecharge => ⟨.dmcWinPrecharge, "DMC_CNT_WIN_PRECHARGE", 2, 2, false, .one⟩
  | .dmcCaAlert => ⟨.dmcCaAlert, "DMC_CNT_CA_ALERT", 2, 2, false, .one⟩
  | .dmcCaReplay => ⟨.dmcCaReplay, "DMC_CNT_CA_REPLAY", 2, 2, false, .one⟩
  | .dmcRetrain => ⟨.dmcRetrain, "DMC_CNT_RETRAIN", 2, 2, false, .one⟩
  | .dmcPageRetire => ⟨.dmcPageRetire, "DMC_CNT_PAGE_RETIRE", 2, 2, false, .one⟩
  | .mceParity => ⟨.mceParity, "MCE_CNT_PARITY", 2, 3, false, .one⟩
  | .mceReread => ⟨.mceReread, "MCE_CNT_REREAD", 2, 3, false, .one⟩
  | .mceTagFail => ⟨.mceTagFail, "MCE_CNT_TAG_FAIL", 2, 3, false, .one⟩
  | .mceMedia => ⟨.mceMedia, "MCE_CNT_MEDIA", 2, 3, true, .one⟩
  | .mceIntegrity => ⟨.mceIntegrity, "MCE_CNT_INTEGRITY", 2, 3, true, .one⟩
  | .mceFreeClaim => ⟨.mceFreeClaim, "MCE_CNT_FREE_CLAIM", 2, 3, true, .one⟩
  | .fumQuote => ⟨.fumQuote, "FUM_CNT_QUOTE", 5, 1, true, .one⟩
  | .fumEphEmpty => ⟨.fumEphEmpty, "FUM_CNT_EPH_EMPTY", 5, 1, true, .one⟩
  | .fumUnwrapFail => ⟨.fumUnwrapFail, "FUM_CNT_UNWRAP_FAIL", 5, 1, true, .one⟩
  | .fumCocoonOk => ⟨.fumCocoonOk, "FUM_CNT_COCOON_OK", 5, 1, true, .one⟩
  | .fumCocoonFail => ⟨.fumCocoonFail, "FUM_CNT_COCOON_FAIL", 5, 1, true, .one⟩
  | .fumAllowRefused => ⟨.fumAllowRefused, "FUM_CNT_ALLOW_REFUSED", 5, 1, true, .one⟩
  | .fumSlotDestroy => ⟨.fumSlotDestroy, "FUM_CNT_SLOT_DESTROY", 5, 1, false, .one⟩
  | .swnReqShared => ⟨.swnReqShared, "SWN_CNT_REQ_SHARED", 2, 5, true, .one⟩
  | .swnReqOwn => ⟨.swnReqOwn, "SWN_CNT_REQ_OWN", 2, 5, true, .one⟩
  | .swnReqUpgrade => ⟨.swnReqUpgrade, "SWN_CNT_REQ_UPGRADE", 2, 5, true, .one⟩
  | .swnForward => ⟨.swnForward, "SWN_CNT_FORWARD", 2, 5, true, .one⟩
  | .swnInval => ⟨.swnInval, "SWN_CNT_INVAL", 2, 5, true, .one⟩
  | .swnWbAccept => ⟨.swnWbAccept, "SWN_CNT_WB_ACCEPT", 2, 5, true, .one⟩
  | .swnWbStale => ⟨.swnWbStale, "SWN_CNT_WB_STALE", 2, 5, true, .one⟩
  | .swnWbUnexpected => ⟨.swnWbUnexpected, "SWN_CNT_WB_UNEXPECTED", 2, 5, true, .one⟩
  | .swnWbOver => ⟨.swnWbOver, "SWN_CNT_WB_OVER", 2, 5, true, .one⟩
  | .swnNoncaching => ⟨.swnNoncaching, "SWN_CNT_NONCACHING", 2, 5, true, .one⟩
  | .swnRetry => ⟨.swnRetry, "SWN_CNT_RETRY", 2, 5, true, .one⟩
  | .swnLost => ⟨.swnLost, "SWN_CNT_LOST", 2, 5, true, .one⟩
  | .swnDirEvict => ⟨.swnDirEvict, "SWN_CNT_DIR_EVICT", 2, 5, false, .one⟩
  | .clxOpen => ⟨.clxOpen, "CLX_CNT_OPEN", 3, 3, true, .one⟩
  | .clxOpenRefused => ⟨.clxOpenRefused, "CLX_CNT_OPEN_REFUSED", 3, 3, true, .one⟩
  | .clxDone => ⟨.clxDone, "CLX_CNT_DONE", 3, 3, true, .one⟩
  | .clxFailed => ⟨.clxFailed, "CLX_CNT_FAILED", 3, 3, true, .one⟩
  | .clxAbortRx => ⟨.clxAbortRx, "CLX_CNT_ABORT_RX", 3, 3, true, .one⟩
  | .clxDup => ⟨.clxDup, "CLX_CNT_DUP", 3, 3, true, .one⟩
  | .clxEarly => ⟨.clxEarly, "CLX_CNT_EARLY", 3, 3, true, .one⟩
  | .clxNotOpen => ⟨.clxNotOpen, "CLX_CNT_NOT_OPEN", 3, 3, true, .one⟩
  | .clxChunks => ⟨.clxChunks, "CLX_CNT_CHUNKS", 3, 3, true, .one⟩
  | .clxBytesIn => ⟨.clxBytesIn, "CLX_CNT_BYTES_IN", 3, 3, true, .one⟩
  | .clxOutSpecial => ⟨.clxOutSpecial, "CLX_CNT_OUT_SPECIAL", 3, 3, true, .one⟩
  | .clxStageWait => ⟨.clxStageWait, "CLX_CNT_STAGE_WAIT", 3, 3, false, .one⟩
  | .grdLaunch => ⟨.grdLaunch, "GRD_CNT_LAUNCH", 3, 1, true, .one⟩
  | .grdLaunchRefused => ⟨.grdLaunchRefused, "GRD_CNT_LAUNCH_REFUSED", 3, 1, true, .one⟩
  | .grdDone => ⟨.grdDone, "GRD_CNT_DONE", 3, 1, true, .one⟩
  | .grdFailed => ⟨.grdFailed, "GRD_CNT_FAILED", 3, 1, true, .one⟩
  | .grdCollision => ⟨.grdCollision, "GRD_CNT_COLLISION", 3, 1, true, .one⟩
  | .grdHoldParity => ⟨.grdHoldParity, "GRD_CNT_HOLD_PARITY", 3, 1, true, .one⟩
  | .grdStageIn => ⟨.grdStageIn, "GRD_CNT_STAGE_IN", 3, 1, true, .one⟩
  | .grdStageOut => ⟨.grdStageOut, "GRD_CNT_STAGE_OUT", 3, 1, true, .one⟩
  | .grdSessionCycles => ⟨.grdSessionCycles, "GRD_CNT_SESSION_CYCLES", 3, 1, true, .one⟩
  | .grdPauseCycles => ⟨.grdPauseCycles, "GRD_CNT_PAUSE_CYCLES", 3, 1, true, .one⟩
  | .grdQueueFull => ⟨.grdQueueFull, "GRD_CNT_QUEUE_FULL", 3, 1, true, .one⟩
  | .grdHoldOor => ⟨.grdHoldOor, "GRD_CNT_HOLD_OOR", 3, 1, true, .one⟩
  | .grdNetFlits => ⟨.grdNetFlits, "GRD_CNT_NET_FLITS", 3, 1, true, .one⟩
  | .grdSrBlocks => ⟨.grdSrBlocks, "GRD_CNT_SR_BLOCKS", 3, 1, true, .one⟩
  | .grdHoldReread => ⟨.grdHoldReread, "GRD_CNT_HOLD_REREAD", 3, 1, false, .one⟩
  | .grdRetire => ⟨.grdRetire, "GRD_CNT_RETIRE", 3, 1, false, .one⟩
  | .mtxReread => ⟨.mtxReread, "MTX_CNT_REREAD", 3, 2, false, .one⟩
  | .mtxParity => ⟨.mtxParity, "MTX_CNT_PARITY", 3, 2, true, .one⟩
  | .klrHcrc => ⟨.klrHcrc, "KLR_CNT_HCRC", 1, 2, false, .half⟩
  | .klrGap => ⟨.klrGap, "KLR_CNT_GAP", 1, 2, false, .half⟩
  | .klrDup => ⟨.klrDup, "KLR_CNT_DUP", 1, 2, false, .half⟩
  | .klrProto => ⟨.klrProto, "KLR_CNT_PROTO", 1, 2, false, .half⟩
  | .klrStatusTx => ⟨.klrStatusTx, "KLR_CNT_STATUS_TX", 1, 2, false, .half⟩
  | .klrRqTx => ⟨.klrRqTx, "KLR_CNT_RQ_TX", 1, 2, false, .half⟩
  | .klrReplayTimer => ⟨.klrReplayTimer, "KLR_CNT_REPLAY_TIMER", 1, 2, false, .half⟩
  | .klrReplayRq => ⟨.klrReplayRq, "KLR_CNT_REPLAY_RQ", 1, 2, false, .half⟩
  | .klrReplayFrames => ⟨.klrReplayFrames, "KLR_CNT_REPLAY_FRAMES", 1, 2, false, .half⟩
  | .klrSpillOut => ⟨.klrSpillOut, "KLR_CNT_SPILL_OUT", 1, 2, false, .half⟩
  | .klrSpillIn => ⟨.klrSpillIn, "KLR_CNT_SPILL_IN", 1, 2, false, .half⟩
  | .klrWindowStall => ⟨.klrWindowStall, "KLR_CNT_WINDOW_STALL", 1, 2, false, .half⟩
  | .klrCreditStall => ⟨.klrCreditStall, "KLR_CNT_CREDIT_STALL", 1, 2, false, .half⟩
  | .klrIncarnation => ⟨.klrIncarnation, "KLR_CNT_INCARNATION", 1, 2, false, .half⟩
  | .klrTc7Drop => ⟨.klrTc7Drop, "KLR_CNT_TC7_DROP", 1, 2, false, .half⟩
  | .tmgGreen => ⟨.tmgGreen, "TMG_CNT_GREEN", 1, 4, true, .class⟩
  | .tmgYellow => ⟨.tmgYellow, "TMG_CNT_YELLOW", 1, 4, true, .class⟩
  | .tmgRed => ⟨.tmgRed, "TMG_CNT_RED", 1, 4, true, .class⟩
  | .tmgPrivDrop => ⟨.tmgPrivDrop, "TMG_CNT_PRIV_DROP", 1, 4, true, .class⟩
  | .tmgTxFrames => ⟨.tmgTxFrames, "TMG_CNT_TX_FRAMES", 1, 4, true, .linkClass⟩
  | .tmgTxBytes => ⟨.tmgTxBytes, "TMG_CNT_TX_BYTES", 1, 4, true, .linkClass⟩
  | .tmgGateWait => ⟨.tmgGateWait, "TMG_CNT_GATE_WAIT", 1, 4, true, .linkClass⟩
  | .tmgShapeWait => ⟨.tmgShapeWait, "TMG_CNT_SHAPE_WAIT", 1, 4, false, .linkClass⟩
  | .tmgGlTake => ⟨.tmgGlTake, "TMG_CNT_GL_TAKE", 1, 4, false, .one⟩
  | .tmgGlRefused => ⟨.tmgGlRefused, "TMG_CNT_GL_REFUSED", 1, 4, false, .one⟩
  | .tmgGlReplaced => ⟨.tmgGlReplaced, "TMG_CNT_GL_REPLACED", 1, 4, false, .one⟩
  | .tmgCfgRefused => ⟨.tmgCfgRefused, "TMG_CNT_CFG_REFUSED", 1, 4, false, .one⟩
  | .fabInjE => ⟨.fabInjE, "FAB_CNT_INJ_E", 4, 1, false, .epoch⟩
  | .fabEjE => ⟨.fabEjE, "FAB_CNT_EJ_E", 4, 1, false, .epoch⟩
  | .fabDeflect => ⟨.fabDeflect, "FAB_CNT_DEFLECT", 4, 1, false, .one⟩
  | .fabReflect => ⟨.fabReflect, "FAB_CNT_REFLECT", 4, 1, false, .one⟩
  | .fabStarve => ⟨.fabStarve, "FAB_CNT_STARVE", 4, 1, false, .one⟩
  | .fabParityReplay => ⟨.fabParityReplay, "FAB_CNT_PARITY_REPLAY", 4, 1, false, .one⟩
  | .fabRtRefused => ⟨.fabRtRefused, "FAB_CNT_RT_REFUSED", 4, 1, false, .one⟩
  | .mirHbTx => ⟨.mirHbTx, "MIR_CNT_HB_TX", 6, 2, false, .one⟩
  | .mirHbRx => ⟨.mirHbRx, "MIR_CNT_HB_RX", 6, 2, false, .one⟩
  | .mirGuyLost => ⟨.mirGuyLost, "MIR_CNT_GUY_LOST", 6, 2, false, .one⟩
  | .mirMirrorFrames => ⟨.mirMirrorFrames, "MIR_CNT_MIRROR_FRAMES", 6, 2, true, .one⟩
  | .mirSelfFence => ⟨.mirSelfFence, "MIR_CNT_SELF_FENCE", 6, 2, true, .one⟩
  | .mirTakeover => ⟨.mirTakeover, "MIR_CNT_TAKEOVER", 6, 2, true, .one⟩
  | .mirFlyLost => ⟨.mirFlyLost, "MIR_CNT_FLY_LOST", 6, 2, true, .one⟩
  | .mirResyncBytes => ⟨.mirResyncBytes, "MIR_CNT_RESYNC_BYTES", 6, 2, true, .one⟩
  | .bootEarlyRx => ⟨.bootEarlyRx, "BOOT_CNT_EARLY_RX", 6, 4, false, .one⟩
  | .bootFlashRefused => ⟨.bootFlashRefused, "BOOT_CNT_FLASH_REFUSED", 6, 4, false, .one⟩
  | .bootFlashError => ⟨.bootFlashError, "BOOT_CNT_FLASH_ERROR", 6, 4, false, .one⟩
  | .bootCheckPass => ⟨.bootCheckPass, "BOOT_CNT_CHECK_PASS", 6, 4, false, .one⟩
  | .bootCheckFail => ⟨.bootCheckFail, "BOOT_CNT_CHECK_FAIL", 6, 4, false, .one⟩
  | .brdFeedLossA => ⟨.brdFeedLossA, "BRD_CNT_FEED_LOSS_A", 6, 1, false, .one⟩
  | .brdFeedLossB => ⟨.brdFeedLossB, "BRD_CNT_FEED_LOSS_B", 6, 1, false, .one⟩
  | .brdFeedRefused => ⟨.brdFeedRefused, "BRD_CNT_FEED_REFUSED", 6, 1, false, .one⟩
  | .brdAdcCal => ⟨.brdAdcCal, "BRD_CNT_ADC_CAL", 6, 1, false, .one⟩
  | .brdI3cFail => ⟨.brdI3cFail, "BRD_CNT_I3C_FAIL", 6, 1, false, .one⟩
  | .brdFanLow => ⟨.brdFanLow, "BRD_CNT_FAN_LOW", 6, 1, false, .one⟩
  | .brdStepDown => ⟨.brdStepDown, "BRD_CNT_STEP_DOWN", 6, 1, false, .one⟩
  | .brdStepUp => ⟨.brdStepUp, "BRD_CNT_STEP_UP", 6, 1, false, .one⟩
  | .brdThrottle => ⟨.brdThrottle, "BRD_CNT_THROTTLE", 6, 1, false, .one⟩
  | .crgUnlock => ⟨.crgUnlock, "CRG_CNT_UNLOCK", 6, 3, false, .one⟩

/-- Is a copy kept for each pitch? -/
def cntPerPitch (c : Cnt) : Bool := (cntInfo c).perPitch

/-- Every counter, in the order of the directory (log 12). -/
def cntAll : List Cnt :=
  List.flatten [
  [.svcCreate, .svcRepitch, .svcRefused, .svcDrainFail, .svcAuthFail, .svcAuthStale, .svcFault, .svcFaultLost, .swpLines, .prtOversize, .prtVlan, .prtIpOpt],
  [.prtFcs, .prtRunt, .prtPause, .prtFecUncorr, .prtLinkDown, .prtLaneFail, .prtSwap, .prtPtpTs, .prtFecSym, .tptUdpCsum, .tptShort, .tptType],
  [.tptAliveGap, .tptStale, .tptHcrc, .tptVersion, .tptNoTracker, .tptFlowFull, .tptHandoff, .tptSrcUnbound, .tptSrcMismatch, .tptCtxUnheld, .tptStatus, .tptSeqAhead],
  [.tptDupInflight, .tptDupReexec, .tptDupCached, .tptDupLate, .tptDupAckonly, .tptAckTx, .tptNackTx, .tptAckRx, .tptNackRx, .tptRtx, .tptRtxFail, .tptCe],
  [.tptRetryTrk, .tptSealedExec, .actMiss, .actMissMerged, .actMissFull, .actNotMapped, .actDeniedSlot, .actDeniedAttr, .actDeniedOwner, .actSealed, .actXlate, .actXlateEvict],
  [.actRecall, .actRevoke, .actDescInval, .actMissTimeout, .dmcRdS, .dmcWrS, .dmcRmwRd, .dmcWinHold, .dmcRowHit, .dmcRowMiss, .dmcPromote, .dmcInorder],
  [.dmcLockWait, .dmcRefresh, .dmcWinPrecharge, .dmcCaAlert, .dmcCaReplay, .dmcRetrain, .dmcPageRetire, .mceParity, .mceReread, .mceTagFail, .mceMedia, .mceIntegrity],
  [.mceFreeClaim, .fumQuote, .fumEphEmpty, .fumUnwrapFail, .fumCocoonOk, .fumCocoonFail, .fumAllowRefused, .fumSlotDestroy, .swnReqShared, .swnReqOwn, .swnReqUpgrade, .swnForward],
  [.swnInval, .swnWbAccept, .swnWbStale, .swnWbUnexpected, .swnWbOver, .swnNoncaching, .swnRetry, .swnLost, .swnDirEvict, .clxOpen, .clxOpenRefused, .clxDone],
  [.clxFailed, .clxAbortRx, .clxDup, .clxEarly, .clxNotOpen, .clxChunks, .clxBytesIn, .clxOutSpecial, .clxStageWait, .grdLaunch, .grdLaunchRefused, .grdDone],
  [.grdFailed, .grdCollision, .grdHoldParity, .grdStageIn, .grdStageOut, .grdSessionCycles, .grdPauseCycles, .grdQueueFull, .grdHoldOor, .grdNetFlits, .grdSrBlocks, .grdHoldReread],
  [.grdRetire, .mtxReread, .mtxParity, .klrHcrc, .klrGap, .klrDup, .klrProto, .klrStatusTx, .klrRqTx, .klrReplayTimer, .klrReplayRq, .klrReplayFrames],
  [.klrSpillOut, .klrSpillIn, .klrWindowStall, .klrCreditStall, .klrIncarnation, .klrTc7Drop, .tmgGreen, .tmgYellow, .tmgRed, .tmgPrivDrop, .tmgTxFrames, .tmgTxBytes],
  [.tmgGateWait, .tmgShapeWait, .tmgGlTake, .tmgGlRefused, .tmgGlReplaced, .tmgCfgRefused, .fabInjE, .fabEjE, .fabDeflect, .fabReflect, .fabStarve, .fabParityReplay],
  [.fabRtRefused, .mirHbTx, .mirHbRx, .mirGuyLost, .mirMirrorFrames, .mirSelfFence, .mirTakeover, .mirFlyLost, .mirResyncBytes, .bootEarlyRx, .bootFlashRefused, .bootFlashError],
  [.bootCheckPass, .bootCheckFail, .brdFeedLossA, .brdFeedLossB, .brdFeedRefused, .brdAdcCal, .brdI3cFail, .brdFanLow, .brdStepDown, .brdStepUp, .brdThrottle, .crgUnlock]]

end Sys2Proof.Machine
end

