-- ==== Sys2Proof/Machine/State.lean ====
section
/-! DEFINITION. The state of the block: plain data, everything the spec gives the controller, and the
state right after reset. Times are in nanoseconds since the last chip-level reset (log 1). -/
namespace Sys2Proof.Machine

/-- A step of the block never stops on a command: an error is a status, a dropped frame, a fault record,
a unit state or a chip stop, all of them next states (R411). No step raises a fault. -/
inductive Fault where
deriving DecidableEq, Repr

/-- Why a step refuses. -/
inductive Refusal where
  /-- A command whose meaning the model does not hold; raised by its arm of `exec` alone. Safe. -/
  | notModelled (mnemonic : String)
deriving DecidableEq, Repr

/-! ## Units (R4 to R11) -/

/-- Actual state of a unit (R4), in the order of its encoding. -/
inductive Actual where
  | off | training | up | degraded | fenced | retired
deriving DecidableEq, Repr

/-- Intent of a unit (R5). -/
inductive Intent where
  | off | up | retired
deriving DecidableEq, Repr

/-- One unit. `disagree` is what its last audit found (R6); `record` its latest fault record (R415). `prior` is
the state a retraining took it from (R11). -/
structure UnitSt where
  intent : Intent := .off
  actual : Actual := .off
  disagree : Bool := false
  record : List Word := []
  prior : Option Actual := none
deriving DecidableEq, Repr

/-! ## Pitches (R18 to R51) -/

/-- Lifecycle state (R20), in the order of its encoding. -/
inductive Life where
  | empty | pitching | up | struck | sweeping
deriving DecidableEq, Repr

/-- Bounds of a class's rates in a template, MB/s (R18). -/
structure RateBounds where
  cMin : Nat := 0
  cMax : Nat := 0
  pMin : Nat := 0
  pMax : Nat := 0
deriving DecidableEq, Repr

/-- A pitch template of the image (R18); `bytes` is its record, whose digest quotes carry (R19). -/
structure Template where
  walled : Bool := false
  held : Bool := false
  capMin : Nat := 1
  capMax : Nat := 1
  groupMask : BitVec 4 := 0
  ctxMin : Nat := 1
  ctxMax : Nat := 1
  rates : List RateBounds := []
  quadMin : Nat := 0
  quadMax : Nat := 0
  syncMin : Nat := 0
  syncMax : Nat := 0
  fly : Nat := 0
  cocoon : Bool := false
  drainMin : Nat := 100
  drainMax : Nat := 100
  attMin : Nat := 1
  attMax : Nat := 1
  bytes : List Byte := []
deriving DecidableEq, Repr

/-- The settings record of a pitch (R75) as applied. -/
structure Settings where
  template : Nat := 0
  capacity : Nat := 0
  contexts : List (BitVec 16) := []
  quadMask : BitVec 16 := 0
  syncSize : Nat := 0
  drain : Nat := 0
  attachMax : Nat := 0
  flyReq : Bool := false
  flyAddr : BitVec 128 := 0
  flyPort : BitVec 16 := 0
  rates : List (Nat × Nat) := []
  /-- The record's bytes with FLY_ADDR and FLY_PORT zeroed, for CFG_DIGEST (R421). -/
  digestBytes : List Byte := []
deriving DecidableEq, Repr

/-- What the controller keeps of a request while it holds it (R110). -/
structure Req where
  op : Byte := 0
  flow : FlowId := .ep 0 0 0
  seq : BitVec 24 := 0
  flags : BitVec 16 := 0
  context : BitVec 16 := 0
  endpoint : BitVec 12 := 0
  tc : BitVec 3 := 0
  address : BitVec 64 := 0
  length : BitVec 32 := 0
  tag : BitVec 32 := 0
  payload : List Byte := []
  ce : Bool := false
  via : RxVia := .link 0
  srcAddr : BitVec 128 := 0
  srcPort : BitVec 16 := 0
  pitch : BitVec 8 := 0
  /-- The management session that authenticated it (R45). -/
  sess : Option (BitVec 32) := none
  counter : Nat := 0
  /-- Coloured yellow by its policer (R380). -/
  yellow : Bool := false
deriving DecidableEq, Repr

/-- Lifecycle work in progress for a pitch (R22, R27, R32). A repitch holds the granules it has taken from the free list (R33). -/
inductive Work where
  | create (req : Req) (at_ : Nat)
  | strike (req : Req) (deadline total failed : Nat) (fold : Bool)
  | repitch (req : Req) (new : Settings) (release taken : List Nat) (at_ : Nat)
deriving DecidableEq, Repr

/-- A pitch (R20 to R50). -/
structure PitchSt where
  life : Life := .empty
  template : Nat := 0
  settings : Settings := {}
  draining : Bool := false
  generation : BitVec 8 := 0
  /-- Identifiers a repitch removed, still bound (R34). -/
  removed : List (BitVec 16) := []
  /-- Held slots, each with its granule (R121). -/
  slots : Tab Nat := []
  work : Option Work := none
  /-- A drained strike whose response waits for the end of a service complex restart (R479). -/
  drained : Bool := false
deriving DecidableEq, Repr

/-- A management session, open or in its handshake (R43 to R45), with its scope (R466). -/
structure MgmtSess where
  number : BitVec 32 := 0
  isOpen : Bool := false
  nonce : BitVec 512 := 0
  key : BitVec 512 := 0
  lastCounter : Nat := 0
  respCounter : Nat := 1
  lastValid : Nat := 0
  addr : BitVec 128 := 0
  port : BitVec 16 := 0
  scopeOn : Bool := false
  scopePitch : BitVec 8 := 0
deriving DecidableEq, Repr

/-! ## Frames sent -/

/-- A stream of headers (R61): by endpoint index, or by address and port. -/
inductive StreamId where
  | ep (index : BitVec 12) (cls : BitVec 3)
  | sess (addr : BitVec 128) (port : BitVec 16) (cls : BitVec 3)
deriving DecidableEq, Repr

/-- A frame other than KPP that the controller sends: an answer to ARP or neighbour discovery with the link's MAC
address (R347), or a PTP message (R357). -/
inductive RawFrame where
  | neighbour (nd : Bool) (target : BitVec 128) (mac : BitVec 48)
  | ptp (msg : PtpMsg)
deriving DecidableEq, Repr

/-- A KPP frame the controller sends, before ALIVE and HCRC are given to it (R56, R61). `release` names the
tracker its hand-over frees (R110), `refusal` the port whose refusal slot it holds (R112), `stamp` its age. -/
structure TxFrame where
  opcode : Byte := 0
  typ : BitVec 4 := 1
  flags : BitVec 16 := 0x4000
  context : BitVec 16 := 0
  endpoint : BitVec 12 := 0
  tc : BitVec 3 := 0
  flowSeq : BitVec 24 := 0
  address : BitVec 64 := 0
  length : BitVec 32 := 0
  tag : BitVec 32 := 0
  payload : List Byte := []
  stream : StreamId := .ep 0 0
  dstAddr : BitVec 128 := 0
  dstPort : BitVec 16 := 0
  pitch : BitVec 8 := 0
  flow : Option FlowId := none
  isReq : Bool := false
  release : Option (FlowId × BitVec 24) := none
  refusal : Option Nat := none
  /-- Pool-physical pieces (address, length) the segment's bytes were read from, for R82. -/
  lines : List (Nat × Nat) := []
  stamp : Nat := 0
  /-- Not a KPP frame. -/
  raw : Option RawFrame := none
deriving DecidableEq, Repr

/-! ## Transport (R89 to R120) -/

/-- One kept response of a result cache (R97), with the counter of its request (R98). -/
structure CacheEnt where
  seq : BitVec 24 := 0
  counter : Nat := 0
  frame : TxFrame := {}
deriving DecidableEq, Repr

/-- A missing number of a flow (R104). -/
structure Missing where
  seq : BitVec 24 := 0
  since : Nat := 0
  lastNack : Option Nat := none
deriving DecidableEq, Repr

/-- What a fly keeps of a flow, and the carry-over record it opens at takeover (R119). -/
structure Carry where
  cm : BitVec 24 := 0xFFFFFF
  cache : List CacheEnt := []
  openRec : Bool := false
  arrived : List (BitVec 24) := []
deriving DecidableEq, Repr

/-- An open BULK_PUT (R72); `got` is its received count, `last` the instant BULK_IDLE counts from. -/
structure BulkPut where
  req : Req := {}
  passed : Bool := false
  got : Nat := 0
  last : Nat := 0
  waiting : List Req := []
  moved : Bool := false
deriving DecidableEq, Repr

/-- Responder side of a flow (R90 to R105). `c` is the cumulative point, `bits` the numbers above it whose
window bit is set; `ackDue` is when an ACK falls due. -/
structure FlowSt where
  c : BitVec 24 := 0xFFFFFF
  bits : List (BitVec 24) := []
  egress : Option RxVia := none
  cache : List CacheEnt := []
  fresh : Nat := 0
  ackDue : Option Nat := none
  ce : Nat := 0
  missing : List Missing := []
  /-- Numbers answered RETRY or MOVED, which are never NACKed (R94). -/
  excused : List (BitVec 24) := []
  carry : Option Carry := none
  bulk : List BulkPut := []
deriving DecidableEq, Repr

/-- Which block sent a controller request, for its answer and its failure (R108). -/
inductive Origin where
  | xlateInval (endpoint : BitVec 12) (context : BitVec 16)
  | swForward (line : Nat)
  | swInvalidate (line : Nat) (endpoint : BitVec 12)
  | swData (line : Nat)
  | kernelEvent (session : Nat)
  | collFrame (id : Nat) (pitch : BitVec 8) (chunk : Nat)
  | collClose (id : Nat) (pitch : BitVec 8)
  | mirror (pitch : BitVec 8) (ticket : Nat)
  | resync (pitch : BitVec 8) (line : Nat)
  | probe (pitch : BitVec 8)
  | release (pitch : BitVec 8)
deriving DecidableEq, Repr

/-- A request of the controller's own, held until answered or failed (R108). Times in ns. -/
structure CtlReq where
  seq : BitVec 24 := 0
  frame : TxFrame := {}
  origin : Origin := .probe 0
  acked : Bool := false
  retrying : Bool := false
  timer : Nat := 0
  due : Nat := 0
  count : Nat := 0
  port : Nat := 0
  reserve : Bool := false
  /-- Next resend of a request answered RETRY. -/
  resendAt : Nat := 0
deriving DecidableEq, Repr

/-- Requester side of a flow (R108, R115). -/
structure CtlFlow where
  next : BitVec 24 := 0
  egress : Option RxVia := none
  reqs : List CtlReq := []
  /-- MB/s (R115). -/
  rate : Nat := 200000
  lastCut : Option Nat := none
  lastSignal : Nat := 0
  lastCum : Option (BitVec 24) := none
deriving DecidableEq, Repr

/-- A tracker held by a request of the network (R110); `reserve` says that it came from its class's
reserve. -/
structure Tracker where
  req : Req := {}
  port : Nat := 0
  reserve : Bool := false
deriving DecidableEq, Repr

/-- Transport. -/
structure Tpt where
  flows : AMap FlowId FlowSt := []
  ctl : AMap FlowId CtlFlow := []
  trackers : List Tracker := []
  /-- Refusal slots in use, per port (R112). -/
  refusals : Tab Nat := []
  /-- ADMIT_CLOSED, per port (R113). -/
  closed : List Nat := []
  rxAlive : AMap StreamId (BitVec 8) := []
  txAlive : AMap StreamId (BitVec 8) := []
  sessions : List MgmtSess := []
  /-- Controller requests that wait for a tracker or a serving port (R91, R112). -/
  held : List (FlowId × TxFrame × Origin) := []
  /-- Frames of flows that have no serving port (R91). -/
  parked : List TxFrame := []
  /-- Lifecycle, trust and management admission closed by a chip stop or open after boot (R417, R451). -/
  admitting : Bool := false
deriving DecidableEq, Repr

/-! ## Addressing (R121 to R150) -/

/-- A VALID entry of the source table (R125). -/
structure SrcEntry where
  addr : BitVec 128 := 0
  port : BitVec 16 := 0
  maxSeg : BitVec 2 := 0
deriving DecidableEq, Repr

/-- An entry of a translation cache (R137): a leaf of level 2, 1 or 0. -/
structure TlbEnt where
  pitch : BitVec 8 := 0
  level : Nat := 0
  page : Nat := 0
  entry : DWord := 0
deriving DecidableEq, Repr

/-- An outstanding miss and the requests that wait for it (R138). -/
structure Miss where
  slice : Nat := 0
  pitch : BitVec 8 := 0
  page : Nat := 0
  sent : Nat := 0
  waiting : List Req := []
deriving DecidableEq, Repr

/-- An entry of a handle table (R140). -/
structure Handle where
  used : Bool := false
  recalled : Bool := false
  endpoint : BitVec 12 := 0
  context : BitVec 16 := 0
  pitch : BitVec 8 := 0
  pva : Nat := 0
  ppa : Nat := 0
  cover : Nat := 0
  level : Nat := 0
  gen : BitVec 16 := 0
  born : Nat := 0
deriving DecidableEq, Repr

/-- A recall in progress for one holder (R142). -/
structure Recall where
  endpoint : BitVec 12 := 0
  context : BitVec 16 := 0
  pitch : BitVec 8 := 0
  keys : List Nat := []
  start : Nat := 0
deriving DecidableEq, Repr

/-- A change of page tables that the slices have not all confirmed (R135). -/
structure PtChange where
  pitch : BitVec 8 := 0
  base : Nat := 0
  size : Nat := 0
deriving DecidableEq, Repr

/-- Access control and translation. Page-table entries are held by pitch, level and PVA index (log 10). -/
structure Act where
  src : Tab SrcEntry := []
  /-- Master-table entries of 16 words (R128, R129); the targets' copies agree between commands. -/
  mt : Tab (List Word) := []
  pt : AMap (Nat × Nat × Nat) DWord := []
  tlb : Tab (List TlbEnt) := []
  misses : List Miss := []
  handles : Tab Handle := []
  recalls : List Recall := []
  changes : List PtChange := []
  born : Nat := 0
deriving DecidableEq, Repr

/-! ## Traffic manager (R375 to R395) -/

/-- A queue of a link (R384, R385): responses ahead of requests; S and F with 32 fraction bits. -/
structure Queue where
  resp : List TxFrame := []
  reqs : List TxFrame := []
  start : Nat := 0
  finish : Nat := 0
  /-- Stamps of the heads counted as held by a gate, by a shaper and by KLR (R363, R395). -/
  gateHeld : Option Nat := none
  shapeHeld : Option Nat := none
  klrHeld : Option Nat := none
deriving DecidableEq, Repr

/-- A two-rate policer's buckets in eighths of a byte (R378). -/
structure Bucket where
  c : Nat := 0
  p : Nat := 0
deriving DecidableEq, Repr

/-- A gate list (R387): banks of (W0, W1) entries, T in ns of CD10, the commit that is pending with its T and
entries, and the run: `start` is the CD10 instant at which the running interval began, none while no list runs. -/
structure GateList where
  active : List (Word × Word) := []
  shadow : Tab (Word × Word) := []
  len : Nat := 0
  tSec : Nat := 0
  tNs : Nat := 0
  pending : Option (Nat × List (Word × Word)) := none
  start : Option Nat := none
  entry : Nat := 0
  status : Byte := 0
  /-- Owner in force in the running interval (R391), 0 for OPEN. -/
  owner : Nat := 0
deriving DecidableEq, Repr

structure Tmg where
  queues : AMap (Nat × Nat × Nat) Queue := []
  vtime : Tab Nat := []
  policers : AMap (Nat × Nat) Bucket := []
  /-- Per-port TC6 (port) and TC7 (port + 8) single-rate buckets (R381). -/
  privs : Tab Nat := []
  /-- Shaper bucket of (link, class) at 8 · link + class (R386). -/
  shapers : Tab Nat := []
  lists : Tab GateList := []
  /-- TMG_PCFG values in force since the pitch's creation or repitch (R383). -/
  pcfg : Tab Bool := []
  stamp : Nat := 0
deriving DecidableEq, Repr

/-! ## Memory channels (R151 to R191) -/

/-- Metadata of a line (R161) without its computed parity and tag: OWNER, KEY_SLOT, the generation of that
slot's keys, and the words whose parity bit was written inverted (R180). -/
structure LineMeta where
  owner : BitVec 16 := 0xFFFF
  keySlot : Nat := 0
  keyGen : Nat := 0
  poison : BitVec 16 := 0
deriving DecidableEq, Repr

/-- State of a granule in the granule table (R190), in the order of its encoding. -/
inductive GrState where
  | absent | init | free | held | sweeping | system | retired
deriving DecidableEq, Repr

/-- An entry of the granule table (R190). -/
structure Granule where
  group : Nat := 0
  localIx : Nat := 0
  state : GrState := .absent
  pitch : BitVec 8 := 0
  retired : Nat := 0
  /-- Pages of the granule retired, as page numbers PPA[43:16] (R187). -/
  pages : List Nat := []
deriving DecidableEq, Repr

/-- An entry of a channel's retired-page list (R189). -/
structure RpEntry where
  page : Nat := 0
  cause : Nat := 0
  at_ : Nat := 0
deriving DecidableEq, Repr

/-- A line access that waits in a channel's queue or for it (R166 to R171). `held` marks one that waits at
the slice for its pitch's window (R176); `who` is the request it serves. -/
structure DmcReq where
  line : Nat := 0
  cls : Nat := 0
  pitch : BitVec 8 := 0
  check : Bool := false
  arrived : Nat := 0
  promoted : Bool := false
  held : Bool := false
  who : Option (FlowId × BitVec 24) := none
deriving DecidableEq, Repr

/-- A line in a write buffer (R169). -/
structure WbLine where
  line : Nat := 0
  cls : Nat := 0
  pitch : BitVec 8 := 0
  arrived : Nat := 0
  promoted : Bool := false
deriving DecidableEq, Repr

/-- Geometry that training found (R160), and the DRAM times it found, ns (R176). -/
structure Geom where
  rowBits : Nat := 0
  rankBits : Nat := 0
  twoSlots : Bool := false
  x8 : Bool := false
  share : Nat := 0
  tRc : Nat := 0
  tRp : Nat := 0
  tRfc : Nat := 0
deriving DecidableEq, Repr

/-- A subchannel's command/address retry state (R181): commands issued since the last observed completion,
consecutive alerts, commands since the last replay, stopped by an alert, replay deferred to a retraining. -/
structure SubCh where
  buffered : Nat := 0
  consec : Nat := 0
  since : Nat := 0
  stopped : Bool := false
  deferred : Bool := false
deriving DecidableEq, Repr

/-- A memory channel. `banks` holds the open row of each open bank and its last access; `inorder` the
banks in in-order mode (R170). -/
structure Chan where
  geom : Geom := {}
  queue : List DmcReq := []
  wbuf : List WbLine := []
  drainWrites : Bool := false
  banks : AMap (Nat × Nat × Nat) (Nat × Nat) := []
  inorder : List (Nat × Nat × Nat) := []
  subA : SubCh := {}
  subB : SubCh := {}
  pages : List RpEntry := []
  retrainTimer : Option Nat := none
  initDone : Bool := false
deriving DecidableEq, Repr

/-- The memory system: bytes and line metadata by pool-physical address, the granule table, the channels,
and what all channels share. -/
structure Dmc where
  mem : Tab Byte := []
  meta_ : Tab LineMeta := []
  gran : Tab Granule := []
  chans : List Chan := List.replicate 16 {}
  /-- Start of the last retraining of each group (R182). -/
  retrains : Tab Nat := []
  hot : Bool := false
  hotNext : Bool := false
  coolSince : Option Nat := none
  refreshNext : Option Nat := none
deriving DecidableEq, Repr

/-! ## Root of trust (R192 to R217) -/

/-- State of a key slot (R197, R199), in the order of its encoding. -/
inductive SlotState where
  | free | held | destroyed | system
deriving DecidableEq, Repr

/-- A key slot; `gen` numbers its keys, which no register returns (R193). -/
structure KeySlot where
  state : SlotState := .free
  pitch : BitVec 8 := 0
  refreshes : Nat := 0
  gen : Nat := 0
deriving DecidableEq, Repr

/-- State of a cocoon (R212). -/
inductive CocoonState where
  | loading | ready | failed
deriving DecidableEq, Repr

/-- A cocoon of a pitch (R211 to R213). -/
structure Cocoon where
  base : Nat := 0
  len : Nat := 0
  state : CocoonState := .loading
  allow : List (BitVec 512) := []
  blob : Nat := 0
  req : Req := {}
deriving DecidableEq, Repr

/-- What FUM and TPT hold for a pitch: ephemeral key, content and session keys with the context of the
KEY_DELIVER that brought them, SEAL_EXEC, and the cocoons (R205, R208, R212, R214). -/
structure PitchKeys where
  slot : Option Nat := none
  eph : Option (BitVec 32 × Nat) := none
  content : Option (BitVec 256) := none
  session : Option (BitVec 256) := none
  owner : BitVec 16 := 0
  sealExec : Nat := 0
  cocoons : List Cocoon := []
deriving DecidableEq, Repr

/-- A quote being signed (R204). -/
structure Quote where
  req : Req := {}
  eph : Option (BitVec 32 × Nat) := none
deriving DecidableEq, Repr

structure Fum where
  slots : Tab KeySlot := []
  mr : List (BitVec 512) := List.replicate 6 0
  mr5data : List Word := List.replicate 16 0
  ephPool : List (BitVec 32 × Nat) := []
  ephNext : BitVec 32 := 1
  pk : Tab PitchKeys := []
  quotes : List Quote := []
deriving DecidableEq, Repr

/-! ## Faults and mirroring (R411 to R435) -/

/-- A slot of the fault log (R415). -/
structure FaultRec where
  words : List Word := []
  seen : Bool := false
deriving DecidableEq, Repr

/-- Role of a mirrored pitch (R434), in the order of its encoding. -/
inductive Role where
  | none_ | active | standby
deriving DecidableEq, Repr

/-- An operation at the active that waits for its mirror frames (R422); `left` counts the unanswered ones. -/
structure MirWait where
  ticket : Nat := 0
  left : Nat := 0
  req : Option Req := none
  payload : List Byte := []
  stage : Option (Nat × Nat) := none
  chunk : Option (Nat × Nat) := none
deriving DecidableEq, Repr

/-- Mirror state of a pitch (R419 to R434). -/
structure MirPitch where
  role : Role := .none_
  confirmed : Bool := false
  selfFenced : Bool := false
  byLines : Bool := false
  takeoverKnown : Bool := false
  resync : Bool := false
  resyncAt : Nat := 0
  peer : Nat := 0
  probing : Bool := false
  acceptNs : Nat := 0
  zeros : Nat := 0
  waits : List MirWait := []
deriving DecidableEq, Repr

/-- A partner of the image's table with its guy lines (R419, R425, R426). -/
structure Peer where
  addr : BitVec 128 := 0
  port : BitVec 16 := 0
  mpAddr : BitVec 128 := 0
  direct : Option Nat := none
  localBase : Nat := 0
  remoteBase : Nat := 0
  serial : BitVec 64 := 0
  alive : List Bool := [false, false]
  lastBeat : List Nat := [0, 0]
  lastAt : List (Option Nat) := [none, none]
  txBeat : List Nat := [0, 0]
deriving DecidableEq, Repr

structure Mir where
  peers : Tab Peer := []
  pitch : Tab MirPitch := []
  ticket : Nat := 0
deriving DecidableEq, Repr

/-- Fault log, trace ring and chip stop (R414, R415, R417, R483). -/
structure Flt where
  log : Tab FaultRec := []
  next : BitVec 32 := 0
  stopped : Bool := false
  traceHead : BitVec 32 := 0
  /-- PPA of the trace ring (R480), as BOOT places it. -/
  traceBase : Nat := 0
  /-- Latest record of an agent that holds no unit, by agent address. -/
  agentRec : Tab (List Word) := []
  /-- Refused intent writes by agent (R5, R468). -/
  refused : Tab Nat := []
deriving DecidableEq, Repr

/-- Service complex (R472 to R479). -/
structure Svc where
  restarts : Nat := 0
  restartTimes : List Nat := []
  restarting : Bool := false
  kicks : List Nat := [0, 0, 0, 0]
  cacheErr : Tab Nat := []
  chief : Nat := 0
  /-- Recalls whose deadline passed during a restart (R479). -/
  lateRecalls : List (BitVec 12 × BitVec 16) := []
  /-- Granules whose sweep ended during a restart (R479). -/
  lateGranules : List Nat := []
deriving DecidableEq, Repr

/-- A check-value unit of a service core (R474). -/
structure Cvu where
  poly : BitVec 2 := 0
  value : Word := 0xFFFFFFFF
deriving DecidableEq, Repr

/-- Debug (R480 to R485). `jtagIr` is the TAP's instruction, `jtagDr` what its data register captures, `jtagData`,
`jtagStatus` and `jtagAddr` the result of the last MGMT access, `boundary` the boundary register as last loaded. -/
structure Dbg where
  memState : Nat := 0
  memPlain : Bool := false
  memStatus : Byte := 0
  memData : List Byte := List.replicate 64 0
  memMeta : List Word := [0, 0, 0, 0]
  memAddr : Nat := 0
  captures : AMap MgmtSource (List Byte) := []
  capturing : List (MgmtSource × Nat × Nat) := []
  jtagIr : Byte := 0x01
  jtagDr : BitVec 68 := 0
  jtagData : Word := 0
  jtagStatus : Nat := 0
  jtagAddr : Word := 0
  boundary : List Bool := []
deriving DecidableEq, Repr
/-! ## Sync window (R218 to R246) -/

/-- Home state of a line (R226), in the order of its encoding. -/
inductive HomeState where
  | hi | hs | hx | ho | hh
deriving DecidableEq, Repr

/-- What a transaction of a line serves: an agent's request, a non-caching access, or a recall of the entry. -/
inductive TxnKind where
  | agent (req : Req) (own : Bool)
  | access (req : Req) (write : Bool)
  | recall
deriving DecidableEq, Repr

/-- A transaction (R227, R230): the completions it waits for, the home data it owes, what the line was
before it. `fwdAns` is what C5h said of the forward: RESULT, KEPT, WB. -/
structure SwTxn where
  kind : TxnKind := .recall
  inval : List Nat := []
  wbs : List Nat := []
  got : List Nat := []
  fwd : Option Nat := none
  fwdAns : Option (Nat × Nat × Nat) := none
  dataDue : Bool := false
  needDone : Bool := false
  sentAt : Option Nat := none
  /-- The requester was invalidated for want of SW_DONE (R242). -/
  dropped : Bool := false
  obtained : Bool := false
  prior : HomeState × Option Nat × BitVec 64 := (.hi, none, 0)
deriving DecidableEq, Repr

/-- A directory entry (R245) with its line's transaction and queue. Owners are master indices. -/
structure SwEnt where
  line : Nat := 0
  pva : Nat := 0
  pitch : Nat := 0
  state : HomeState := .hi
  owner : Option Nat := none
  sharers : BitVec 64 := 0
  sc : BitVec 4 := 0
  stale : Option Nat := none
  stamp : Nat := 0
  txn : Option SwTxn := none
  queue : List Req := []
  /-- A strike recalls the line once its transaction ends (R243). -/
  recallNext : Bool := false
deriving DecidableEq, Repr

/-- The home agent: the directory by entry number, write-backs held in reserves (R234), and requests whose
lines came free. -/
structure Swn where
  dir : Tab SwEnt := []
  held : List (Nat × Req) := []
  ready : List Req := []
  stamp : Nat := 0
deriving DecidableEq, Repr


/-! ## Reproducible collectives (R247 to R276) -/

/-- A NEIGHBOUR entry of a descriptor (R249). -/
structure CollNeigh where
  position : Nat := 0
  endpoint : BitVec 12 := 0
  context : BitVec 16 := 0
deriving DecidableEq, Repr

/-- A session descriptor (R248, R249). START is in ns of CD10; times in ns. -/
structure CollDesc where
  id : Nat := 0
  exact : Bool := false
  op : Nat := 0
  inT : Nat := 0
  outT : Nat := 0
  size : Nat := 0
  ranks : Nat := 1
  levels : Nat := 1
  localLevels : Nat := 0
  fanin : List Nat := []
  dclass : DWord := 0
  start : Option Nat := none
  period : Nat := 0
  deadline : Option Nat := none
  sat : Bool := false
  scopeAll : Bool := false
  position : Nat := 0
  locals : Nat := 1
  toEndpoints : Bool := false
  toMemory : Bool := false
  toKernel : Bool := false
  neigh : List CollNeigh := []
  deliver : List (BitVec 12) := []
  contrib : List (BitVec 12) := []
  workBase : Nat := 0
  workSize : Nat := 0
  destBase : Nat := 0
  ksession : Nat := 0
deriving DecidableEq, Repr

/-- State of a session record (R260), in the order of its encoding. -/
inductive CollState where
  | waiting | running | done | failed
deriving DecidableEq, Repr

/-- An exact accumulator (R265): units of its least significant bit, or a special value. -/
inductive ExAcc where
  | fin (v : Int)
  | inf (neg : Bool)
  | nan
deriving DecidableEq, Repr

/-- An operand that waits: unit, contributor (a rank, or a child chip's position), FP32 values. -/
structure CollOp where
  unit : Nat := 0
  child : Bool := false
  who : Nat := 0
  vals : List Nat := []
deriving DecidableEq, Repr

/-- A chunk (R262 to R267). `exact` holds the accumulators of exact mode by unit, `result` the rounded bytes
by unit, `parts` the unacknowledged frames to the parent, `down` those to child chips and endpoints. -/
structure CollChunk where
  ops : List CollOp := []
  seen : List (Nat × Bool × Nat) := []
  exact : Tab (List ExAcc) := []
  result : Tab (List Byte) := []
  ready : Bool := false
  sent : Bool := false
  resulted : Bool := false
  parts : Nat := 0
  down : Nat := 0
  written : Bool := false
  mirroring : Bool := false
  posted : Bool := false
  closed : Bool := false
  finished : Bool := false
deriving DecidableEq, Repr

/-- A session record. `slot` is its register slot, `openTo` the chunks opened so far, `waited` those
whose wait for staging is counted. -/
structure CollRec where
  slot : Nat := 0
  pitch : BitVec 8 := 0
  context : BitVec 16 := 0
  opener : BitVec 12 := 0
  desc : CollDesc := {}
  state : CollState := .waiting
  cause : Nat := 0
  accepted : Nat := 0
  ended : Nat := 0
  closes : List Req := []
  chunks : Tab CollChunk := []
  openTo : Nat := 0
  waited : Nat := 0
  posted : Nat := 0
  done : Nat := 0
deriving DecidableEq, Repr

/-- CLX: the records by slot, and IDs remembered after an ABORT without a record (R273). -/
structure Clx where
  recs : Tab CollRec := []
  aborted : List (BitVec 8 × Nat × Nat) := []
  dclass : DWord := 0
deriving DecidableEq, Repr

/-! ## Kernel grid (R277 to R342) -/

/-- State of a session (R291), in the order of its encoding. -/
inductive KState where
  | queued | loading | running | done | failed
deriving DecidableEq, Repr

/-- A route of a kernel object (R334): the sending rank and the hops, 0 to 3 for +x, −x, +y, −y. -/
structure Route where
  src : Nat := 0
  hops : List Nat := []
deriving DecidableEq, Repr

/-- A window of an argument block (R288). -/
structure KWindow where
  first : Nat := 0
  last : Nat := 0
  r : Bool := false
  w : Bool := false
deriving DecidableEq, Repr

/-- A stage command (R295, R339). Target 0 to 3 is the hold of a quad's core, 4 the operand buffer. `moved`
says that its data has moved and only its mirror frames are out (R422). -/
structure StageCmd where
  session : Nat := 0
  ticket : Nat := 0
  quad : Nat := 0
  out : Bool := false
  base : Nat := 0
  rowLen : Nat := 0
  rows : Nat := 0
  stride : Nat := 0
  target : Nat := 0
  loc : Nat := 0
  tag : Nat := 0
  moved : Bool := false
deriving DecidableEq, Repr

/-- A local range that is pending (R298): quad, target, bytes, written by a stage-in, and its tag with its
number among the tag's commands. -/
structure Pend where
  quad : Nat := 0
  target : Nat := 0
  loc : Nat := 0
  len : Nat := 0
  out : Bool := false
  tag : Nat := 0
  num : Nat := 0
deriving DecidableEq, Repr

/-- What a core waits for at a gate (R296): the counts that the masked tags must reach, or an ID and a
count. -/
inductive Gate where
  | tags (need : List (Nat × Nat))
  | coll (id count : Nat)
deriving DecidableEq, Repr

/-- A write on its way (R316): it lands at the end of session cycle `at_`. -/
inductive LandTo where
  | sreg (r : Nat) (v : DWord)
  | vreg (r : Nat) (mask v : BitVec 1024)
  | pred (r : Nat) (v : BitVec 128)
  | hold (addr : Nat) (mask : BitVec 128) (bytes : List Byte)
  | acc (first : Nat) (words : List Word)
deriving DecidableEq, Repr

structure Land where
  at_ : Nat := 0
  core : Nat := 0
  dest : LandTo
deriving DecidableEq, Repr

/-- A flit on the net: the core it is at, the hops before it, and whether it left its sender's core. -/
structure Flit where
  at_ : Nat := 0
  hops : List Nat := []
  fresh : Bool := true
  data : BitVec 256 := 0
deriving DecidableEq, Repr

/-- A core (R277, R310). `pc` is the bundle that issues in the present cycle, `next1` and `next2` those of the
two cycles after it, `target` the target of a branch taken in this cycle (R318). -/
structure Core where
  code : List (BitVec 128) := []
  s : Tab DWord := []
  v : Tab (BitVec 1024) := []
  p : Tab (BitVec 128) := []
  hold : Tab Byte := []
  srctr : DWord := 0
  pc : Nat := 0
  next1 : Nat := 1
  next2 : Nat := 2
  target : Option Nat := none
  halted : Option Nat := none
  rx : Tab (BitVec 256) := []
  taken : List Nat := []
  gate : Option Gate := none
deriving DecidableEq, Repr

/-- A matrix command (R337, R338): issued, then running with its result known, then written. -/
structure MxCmd where
  acc : Nat := 0
  ty : Nat := 0
  zero : Bool := false
  a : Nat := 0
  b : Nat := 0
  k : Nat := 64
  issued : Nat := 0
  start : Option Nat := none
  result : List Word := []
deriving DecidableEq, Repr

/-- A quad (R277): stage queue, operand buffer, accumulators at 4096 · a + 64 · row + column, matrix
commands of the session that holds the engine; `busyTo` is the session cycle after its last command. -/
structure Quad where
  queue : List StageCmd := []
  opbuf : Tab Byte := []
  acc : Tab Word := []
  mx : List MxCmd := []
  busyTo : Nat := 0
deriving DecidableEq, Repr

/-- A session record (R284 to R308). `cores` are in rank order, `engines` the quads whose matrix engine it
holds, `reserved` the cores it keeps without running them; `windows` the windows its stage
engines hold, `pendingWindows` those the argument block gives; `inCycle` says that the bundles of session
cycle `cycles` have issued and the cycle has not ended. -/
structure KSess where
  number : Nat := 0
  slot : Nat := 0
  pitch : BitVec 8 := 0
  context : BitVec 16 := 0
  endpoint : BitVec 12 := 0
  cls : BitVec 3 := 0
  state : KState := .queued
  cause : Nat := 0
  clkSteps : Nat := 0
  cycles : Nat := 0
  inCycle : Bool := false
  req : Option Req := none
  notify : Bool := false
  deadline : Option Nat := none
  quadMask : BitVec 16 := 0
  coreMask : BitVec 4 := 0
  width : Nat := 1
  height : Nat := 1
  cores : List Nat := []
  reserved : List Nat := []
  engines : List Nat := []
  object : DWord := 0
  argWords : List DWord := []
  windows : List KWindow := []
  pendingWindows : List KWindow := []
  seed : DWord := 0
  routes : List Route := []
  issuing : List StageCmd := []
  issued : Tab Nat := []
  completed : Tab Nat := []
  pend : List Pend := []
  lands : List Land := []
  flits : List Flit := []
  stageStatus : Nat := 0
  faultCore : Option Nat := none
  ended : Nat := 0
  cleared : Bool := false
deriving DecidableEq, Repr

/-- GRD: session records by slot, the launch queue in order of acceptance, cores, quads. -/
structure Grd where
  sess : Tab KSess := []
  queue : List Nat := []
  cores : Tab Core := []
  quads : Tab Quad := []
  next : BitVec 16 := 1
  ticket : Nat := 0
  /-- Failures charged to cores and engines (R306): unit and time. -/
  parity : List (Nat × Nat) := []
deriving DecidableEq, Repr

/-- An entry of the image's section table (R436). -/
structure ImgSec where
  typ : Nat := 0
  off : Nat := 0
  len : Nat := 0
  digest : BitVec 512 := 0
deriving DecidableEq, Repr

/-- What the image gave (R436 to R442): its section table, SVN and SVN_BURN, the CONFIG records, the function tables with
their identity, the kernels of the library by ID and its version. -/
structure Img where
  secs : List ImgSec := []
  svn : Nat := 0
  burn : Bool := false
  config : List (Nat × Word) := []
  tables : List (Int × Int × Int) := []
  tablesId : BitVec 16 := 0
  lib : Tab (List Byte) := []
  libVersion : BitVec 16 := 0
  /-- The NETWORK section (R438) and the operator's public key (R43, R437), as the image gives them. -/
  net : List Byte := []
  operatorKey : List Byte := []
  /-- SHA-512 of the signed image as the ROM measured it (R204). -/
  hash : BitVec 512 := 0
deriving DecidableEq, Repr


/-! ## Ports, link retry and precision time (R343 to R374) -/

/-- A lane-map exchange in progress (R352). -/
structure LmapSwap where
  asker : Bool := false
  lane : Nat := 0
  phys : Nat := 0
  map : Word := 0
  epoch : Byte := 0
  since : Nat := 0
  sentSwitch : Bool := false
  gotSwitch : Bool := false
  sentDone : Bool := false
  gotDone : Bool := false
deriving DecidableEq, Repr

/-- A data port (R343 to R356). `fromOff` says that its bring-up started from OFF (R362), `since` when its lanes' bring-up
began, `absent` that every lane was dark (R354). -/
structure Prt where
  failed : List Nat := []
  map : Word := 0x76543210
  epoch : Byte := 0
  spareUsed : Bool := false
  peerLmap : Bool := false
  swap : Option LmapSwap := none
  fromOff : Bool := false
  since : Nat := 0
  absent : Bool := false
deriving DecidableEq, Repr

/-- State of a link (R362), in the order of its encoding. -/
inductive KlrState where
  | off | down | hello | up | plain
deriving DecidableEq, Repr

/-- An unacknowledged DATA frame (R363), in the replay buffer or in spill (R367). -/
structure KlrEnt where
  seq : BitVec 24 := 0
  frame : TxFrame := {}
  alive : Byte := 0
  hcrc : Word := 0
  bytes : Nat := 0
  spilled : Bool := false
  /-- Renumbered for a new peer: its next start is that of a new frame (R371). -/
  fresh : Bool := false
deriving DecidableEq, Repr

/-- A frame in a receive pool: its class and the units it holds (R368). -/
structure PoolEnt where
  cls : Nat := 0
  units : Nat := 0
deriving DecidableEq, Repr

/-- A KLR link (R360 to R372). Lists by class hold TC0 to TC6: `held` counts the
reserve units in use, `granted` the shared units granted and not used; `shared` counts the shared units granted
or in use. Times in ns. -/
structure Klr where
  state : KlrState := .off
  next : BitVec 24 := 0
  unacked : List KlrEnt := []
  heldAck : BitVec 24 := 0xFFFFFF
  sent : List (BitVec 24) := List.replicate 7 0
  limit : List (Option (BitVec 24)) := List.replicate 7 none
  replay : List (BitVec 24) := []
  replayFrom : BitVec 24 := 0
  renum : Bool := false
  replayDue : Option Nat := none
  expiries : Nat := 0
  rxNext : BitVec 24 := 0
  rcvd : List (BitVec 24) := List.replicate 7 0
  pool : List PoolEnt := []
  held : List Nat := List.replicate 7 0
  granted : List Nat := List.replicate 7 0
  shared : Nat := 0
  lastGrant : Nat := 6
  peerWant : BitVec 8 := 0
  ackDue : Option Nat := none
  statusDue : Nat := 0
  rqAt : Option Nat := none
  incarnation : BitVec 64 := 0
  peerInc : Option (BitVec 64) := none
  peerNext : BitVec 24 := 0
  helloRx : Bool := false
  helloSeen : Bool := false
  peerSeen : Bool := false
  helloSince : Nat := 0
  helloSent : Nat := 0
  downSince : Nat := 0
deriving DecidableEq, Repr

/-- State of a PTP port (R472), in the order of its encoding. -/
inductive PtpState where
  | disabled | initializing | listening | master | passive | uncalibrated | slave | faulty
deriving DecidableEq, Repr

/-- A PTP port: the best Announce heard, the Sync and delay exchange in progress, the mean path delay. -/
structure PtpPort where
  state : PtpState := .disabled
  best : Option PtpMsg := none
  heard : Nat := 0
  syncSeq : BitVec 16 := 0
  syncRx : Option (BitVec 16 × Nat × Int) := none
  lastSync : Option (Nat × Nat) := none
  reqSeq : BitVec 16 := 0
  reqTx : Option Nat := none
  pResp : Option (Nat × Nat × Int) := none
  delay : Int := 0
  offset : Int := 0
deriving DecidableEq, Repr

/-- The PTP engine (R357, R473). -/
structure Ptp where
  on : Bool := false
  ports : Tab PtpPort := []
  locked : Bool := false
  good : Nat := 0
  lastSync : Nat := 0
  annSeq : BitVec 16 := 0
deriving DecidableEq, Repr


/-! ## Fabric (R396 to R407) -/

/-- A packet on the mesh (R398): header and payload, with the router that it reaches next, or where it waits to be
injected, and its plane (0 RQ0, 1 RQ1, 2 RS0, 3 RS1). `wait` counts the cycles it has waited, `starve` that its injector
asserts STARVE. -/
structure FabPkt where
  router : Nat := 0
  plane : Nat := 0
  hdr : BitVec 128 := 0
  payload : BitVec 512 := 0
  wait : Nat := 0
  starve : Bool := false
deriving DecidableEq, Repr

/-- FAB: routing entries at ((router · 2 + bank) · 4 + plane) · 48 + destination, packets on links, packets that wait for
injection. -/
structure Fab where
  rt : Tab (BitVec 6) := []
  current : Bool := false
  pending : Bool := false
  /-- T of the accepted switch (R406). -/
  switchAt : Nat := 0
  oldDrained : Bool := true
  status : Nat := 0
  flight : List FabPkt := []
  waiting : List FabPkt := []
deriving DecidableEq, Repr

/-! ## Xanzen image and start-up (R436 to R460) -/

/-- What a check or a boot found (R446): the cause and the flash address of the first failing byte. -/
structure BootFail where
  cause : Nat := 0
  addr : Nat := 0
deriving DecidableEq, Repr

/-- BOOT. `step` is 1 to 9, or 15 in ROM recovery; `svn` what this state has burned of
the SVN fuses; `haltHeat` and `haltFeeds` hold the chip in reset until the condition of R449 has cleared, `powered` is off
after a power-down. `flashOp` is the flash command that runs, with its address; `resetKind` a reset that waits for it (R458). -/
structure Boot where
  step : Nat := 1
  serving : Bool := false
  cause : Nat := 0
  failAddr : Nat := 0
  haltHeat : Bool := false
  haltFeeds : Bool := false
  powered : Bool := true
  locked : Bool := false
  flash : Tab Byte := []
  svn : Nat := 0
  flashBuf : List Byte := List.replicate 256 0
  flashOp : Option (Nat × Nat) := none
  flashError : Bool := false
  check : Nat := 0
  checkFail : BootFail := {}
  lastReset : Nat := 0
  resets : Nat := 0
  resetKind : Option Nat := none
  /-- Channels whose training has ended (R183). -/
  trained : List Nat := []
  /-- Module slots that are fitted: bit 2c + j is slot Dj of channel Cc. -/
  slots : BitVec 32 := 0
deriving DecidableEq, Repr

/-! ## Platform (R486 to R505) -/

/-- A memory module's readings (R493, R494): temperature in 0.25 °C, PMIC power in 0.1 W. -/
structure Module where
  present : Bool := false
  temp : Int := 0
  power : Nat := 0
  fails : Nat := 0
  unknown : Bool := false
  excess : Nat := 0
deriving DecidableEq, Repr

/-- A fan (R496, R497): duty in percent, FAN_LOW, RPM, and the runs of readings `below` MIN_RPM, and `above` it. -/
structure Fan where
  duty : Nat := 100
  low : Bool := false
  rpm : Nat := 0
  below : Nat := 0
  above : Nat := 0
deriving DecidableEq, Repr

/-- A power feed (R489, R490): samples in a row below UV, and since when its voltage has stayed above OK. -/
structure Feed where
  present : Bool := false
  on : Bool := true
  lowRun : Nat := 0
  okSince : Option Nat := none
deriving DecidableEq, Repr

/-- BRD: VALUE and CODE of the inputs, die temperatures in 0.125 °C, frame powers of the last WINDOW ms with their
times, and what R498 keeps: the instant of the last step and quiet_ms. -/
structure Brd where
  ain : List (Int × Nat) := List.replicate 24 (0, 0)
  die : List Nat := List.replicate 32 0
  dieOver : Nat := 0
  feedA : Feed := {}
  feedB : Feed := {}
  powers : List (Nat × Int) := []
  mods : Tab Module := []
  fans : List Fan := List.replicate 8 {}
  tripped : Bool := false
  throttling : Bool := false
  capFloor : Bool := false
  stepAt : Option Nat := none
  quiet : Nat := 0
deriving DecidableEq, Repr

/-- CRG: bit i of `lock` is PLL i of CRG_PLL_STATUS, bit 7 the memory PLL; `freq` and `target` are none at the grade
maximum. -/
structure Crg where
  lock : BitVec 8 := 0
  freq : Option Nat := none
  target : Option Nat := none
  steps : Nat := 0
  stepping : Bool := false
  /-- Frequency of CD20 to CD35 in MHz (R503, R504). -/
  memMhz : Nat := 0
deriving DecidableEq, Repr

/-- What the UART prints (R448, R452, R455). -/
inductive Uart where
  | k1 | k2 | k9
  | cause (n : Nat)
  | stop (words : List Word)
deriving DecidableEq, Repr


/-! ## The whole state -/

/-- A frame or message put on a link, port or bus, in the order they leave (log 6). -/
inductive WireItem where
  | kpp (link : Nat) (frame : TxFrame) (alive : Byte) (hcrc : Word)
  /-- An ARP, neighbour-discovery or PTP frame outside KLR. -/
  | raw (link : Nat) (frame : RawFrame)
  /-- A KLR DATA frame and the frame it carries. -/
  | klrData (link : Nat) (hdr : KlrHdr) (frame : TxFrame) (alive : Byte) (hcrc : Word)
  /-- A KLR control frame: STATUS, HELLO or LMAP. -/
  | klrCtl (link : Nat) (hdr : KlrHdr) (body : List Byte)
  /-- What the UART prints. -/
  | uart (u : Uart)
deriving DecidableEq, Repr

/-- The machine. -/
structure State where
  pending : List Instr := []
  now : Nat := 0
  /-- The CD10 time counter (R357): seconds, nanoseconds, fraction of a nanosecond. -/
  cd10Sec : BitVec 48 := 0
  cd10Ns : Nat := 0
  cd10Frac : BitVec 16 := 0
  /-- Last instants of the periodic events, by event (log 1). -/
  ticks : Tab Nat := []
  /-- How many free values have been drawn (log 5). -/
  freeCtr : Nat := 0
  wire : List WireItem := []
  units : Tab UnitSt := []
  /-- Counters by (counter, block instance number, division), over all pitches and for each pitch. -/
  cnt : AMap (Cnt × Nat × Nat) DWord := []
  cntPitch : AMap (Cnt × Nat × Nat × Nat) DWord := []
  /-- Registers that hold a value other than their reset value, by management address. -/
  csr : Tab Word := []
  /-- Selector registers by source and management address (R465), and captured counters (R470). -/
  sel : AMap (MgmtSource × Nat) Word := []
  cntCap : AMap MgmtSource DWord := []
  pitches : Tab PitchSt := []
  templates : Tab Template := []
  /-- SWP work: granules being swept (R36), with the pitch they leave. -/
  sweeping : List Nat := []
  tpt : Tpt := {}
  act : Act := {}
  tmg : Tmg := {}
  prt : Tab Prt := []
  klr : Tab Klr := []
  ptp : Ptp := {}
  dmc : Dmc := {}
  fum : Fum := {}
  swn : Swn := {}
  clx : Clx := {}
  grd : Grd := {}
  img : Img := {}
  mir : Mir := {}
  flt : Flt := {}
  svc : Svc := {}
  cvus : List Cvu := List.replicate 4 {}
  dbg : Dbg := {}
  fab : Fab := {}
  boot : Boot := {}
  brd : Brd := {}
  crg : Crg := {}
deriving DecidableEq, Repr

/-- Right after reset (R457): nothing listed, every field at its reset value. PT0 is UP (R50); key slots
000h and 100h are SYSTEM (R199). Values the spec does not give are named in log 2. -/
def State.reset : State where
  pitches := [(0, { life := .up })]
  units := [(0, { intent := .up, actual := .up })]
  fum := { slots := [(0, { state := .system }), (256, { state := .system })] }

end Sys2Proof.Machine
end

