-- ==== Sys2Proof/Machine/Ops.lean ====
section
/-! DEFINITION. Operations every family shares: encodings of states, units, counters, registers and their
selectors, free values, memory bytes, trace and fault records. -/
namespace Sys2Proof.Machine

/-! ## Parts of the state -/

def tptMod (s : State) (f : Tpt → Tpt) : State := { s with tpt := f s.tpt }
def actMod (s : State) (f : Act → Act) : State := { s with act := f s.act }
def tmgMod (s : State) (f : Tmg → Tmg) : State := { s with tmg := f s.tmg }
def dmcMod (s : State) (f : Dmc → Dmc) : State := { s with dmc := f s.dmc }
def fumMod (s : State) (f : Fum → Fum) : State := { s with fum := f s.fum }
def mirMod (s : State) (f : Mir → Mir) : State := { s with mir := f s.mir }
def fltMod (s : State) (f : Flt → Flt) : State := { s with flt := f s.flt }
def svcMod (s : State) (f : Svc → Svc) : State := { s with svc := f s.svc }
def dbgMod (s : State) (f : Dbg → Dbg) : State := { s with dbg := f s.dbg }

/-! ## Encodings -/

/-- R4. -/
def actCode : Actual → Nat
  | .off => 0 | .training => 1 | .up => 2 | .degraded => 3 | .fenced => 4 | .retired => 5

/-- R5. -/
def intCode : Intent → Nat
  | .off => 0 | .up => 2 | .retired => 5

/-- R20. -/
def lifeCode : Life → Nat
  | .empty => 0 | .pitching => 1 | .up => 2 | .struck => 3 | .sweeping => 4

/-- R190. -/
def grCode : GrState → Nat
  | .absent => 0 | .init => 1 | .free => 2 | .held => 3 | .sweeping => 4 | .system => 5 | .retired => 6

/-- R199. -/
def slotCode : SlotState → Nat
  | .free => 0 | .held => 1 | .destroyed => 2 | .system => 3

/-- R434. -/
def roleCode : Role → Nat
  | .none_ => 0 | .active => 1 | .standby => 2

/-! ## Agents and units (R14, R461, R469) -/

/-- Management address [31:16] of an agent. -/
def agentKey (domain block inst : Nat) : Nat := domain * 4096 + block * 64 + inst

def svcAgent : Nat := agentKey 0 0 0
def prtAgent (p : Nat) : Nat := agentKey 1 1 p
def klrAgent (p : Nat) : Nat := agentKey 1 2 p
def tptAgent : Nat := agentKey 1 3 0
def tmgAgent : Nat := agentKey 1 4 0
def actAgent (c : Nat) : Nat := agentKey 2 1 c
def dmcAgent (c : Nat) : Nat := agentKey 2 2 c
def swpAgent : Nat := agentKey 2 4 0
def swnAgent : Nat := agentKey 2 5 0
def grdAgent : Nat := agentKey 3 1 0
def mtxAgent (q : Nat) : Nat := agentKey 3 2 q
def clxAgent : Nat := agentKey 3 3 0
def fabAgent (r : Nat) : Nat := agentKey 4 1 r
def fumAgent : Nat := agentKey 5 1 0
def cvuAgent (k : Nat) : Nat := agentKey 5 2 k
def brdAgent : Nat := agentKey 6 1 0
def mirAgent : Nat := agentKey 6 2 0
def crgAgent : Nat := agentKey 6 3 0
def bootAgent : Nat := agentKey 6 4 0
def dbgAgent : Nat := agentKey 6 5 0

/-- The key of UNIT `u` of an agent. -/
def unitKey (agent u : Nat) : Nat := agent * 512 + u

def uPitch (n : Nat) : Nat := unitKey svcAgent n
def uSc (k : Nat) : Nat := unitKey svcAgent (0x100 + k)
def uLane (p l : Nat) : Nat := unitKey (prtAgent p) l
def uPort (p : Nat) : Nat := unitKey (prtAgent p) 0x1FF
def uSlice (c : Nat) : Nat := unitKey (actAgent c) 0x1FF
def uChan (c : Nat) : Nat := unitKey (dmcAgent c) 0x1FF
def uGroup (g : Nat) : Nat := unitKey (dmcAgent (4 * g)) 0x100
def uCore (n : Nat) : Nat := unitKey grdAgent n
def uQuad (q : Nat) : Nat := unitKey grdAgent (0x100 + q)
def uEngine (q : Nat) : Nat := unitKey (mtxAgent q) 0x1FF

/-- Instances of a block that exist (R461). -/
def blockCount (domain block : Nat) : Nat :=
  if domain = 0 ∧ block = 0 then 1
  else if domain = 1 then (if block = 1 then 5 else if block = 2 then 4 else if block = 3 ∨ block = 4 then 1 else 0)
  else if domain = 2 then (if block = 1 ∨ block = 2 ∨ block = 3 then 16 else if block = 4 ∨ block = 5 then 1 else 0)
  else if domain = 3 then (if block = 1 ∨ block = 3 then 1 else if block = 2 then 16 else 0)
  else if domain = 4 then (if block = 1 then 48 else 0)
  else if domain = 5 then (if block = 1 then 1 else if block = 2 then 8 else 0)
  else if domain = 6 then (if 1 ≤ block ∧ block ≤ 5 then 1 else 0)
  else 0

def agentDomain (agent : Nat) : Nat := agent / 4096
def agentBlock (agent : Nat) : Nat := agent / 64 % 64
def agentInst (agent : Nat) : Nat := agent % 64

/-- Does the agent exist? -/
def agentOk (agent : Nat) : Bool :=
  decide (agentInst agent < blockCount (agentDomain agent) (agentBlock agent))

/-- The UNIT values an agent holds (R469). -/
def agentUnits (agent : Nat) : List Nat :=
  let d := agentDomain agent
  let b := agentBlock agent
  let i := agentInst agent
  if !agentOk agent then []
  else if d = 1 ∧ b = 1 then (if i < 4 then upto 9 ++ [0x1FF] else [0x1FF])
  else if d = 2 ∧ b = 1 then [0x1FF]
  else if d = 2 ∧ b = 2 then (if i % 4 = 0 then [0x100, 0x1FF] else [0x1FF])
  else if d = 3 ∧ b = 1 then upto 64 ++ (upto 16).map (· + 0x100)
  else if d = 3 ∧ b = 2 then [0x1FF]
  else if d = 0 ∧ b = 0 then upto 256 ++ (upto 4).map (· + 0x100)
  else []

def unitOk (agent u : Nat) : Bool := decide (u ∈ agentUnits agent)

/-- Every agent that exists and holds units, in ascending order. -/
def unitAgents : List Nat :=
  [svcAgent] ++ (upto 5).map prtAgent ++ (upto 16).map actAgent ++ (upto 16).map dmcAgent ++ [grdAgent] ++
    (upto 16).map mtxAgent

def uGet (s : State) (k : Nat) : UnitSt := tget {} s.units k
def uSet (s : State) (k : Nat) (u : UnitSt) : State := { s with units := tset {} s.units k u }
def uAct (s : State) (k : Nat) : Actual := (uGet s k).actual

/-- Serving: UP or DEGRADED (R91). -/
def serving (a : Actual) : Bool := decide (a = .up ∨ a = .degraded)

/-- A pitch unit of a unit key, if it is one. -/
def keyPitch (k : Nat) : Option Nat := if k < 256 then some k else none

/-! ## Counters (R470) -/

/-- The count over all pitches. -/
def cntGet (s : State) (c : Cnt) (inst sub : Nat) : DWord := (aget s.cnt (c, inst, sub)).getD 0

/-- A pitch's copy. -/
def cntGetP (s : State) (c : Cnt) (inst sub pitch : Nat) : DWord :=
  (aget s.cntPitch (c, inst, sub, pitch)).getD 0

/-- Add `n` to a counter, and to the copy of a tenant pitch where one is kept. -/
def bumpN (s : State) (c : Cnt) (inst sub pitch n : Nat) : State :=
  let s1 := { s with cnt := aput s.cnt (c, inst, sub) (cntGet s c inst sub + BitVec.ofNat 64 n) }
  if cntPerPitch c ∧ pitch ≠ 0 then
    { s1 with cntPitch := aput s1.cntPitch (c, inst, sub, pitch) (cntGetP s c inst sub pitch + BitVec.ofNat 64 n) }
  else s1

def bump (s : State) (c : Cnt) (inst sub pitch : Nat) : State := bumpN s c inst sub pitch 1

/-- A counter of a block with one copy, of no pitch. -/
def bump0 (s : State) (c : Cnt) : State := bump s c 0 0 0

/-- Zero a pitch's copies of its counters (R470). -/
def zeroPitchCounters (s : State) (pitch : Nat) : State :=
  { s with cntPitch := s.cntPitch.filter (fun e => e.1.2.2.2 ≠ pitch) }

/-! ## Free values (log 5) -/

/-- The next value of the FUM generator, or of what the spec leaves open. -/
def draw (s : State) : BitVec 512 × State := (Config.freeValue s.freeCtr, { s with freeCtr := s.freeCtr + 1 })

/-! ## CD10 time (R357) -/

def cd10Total (s : State) : Nat := s.cd10Sec.toNat * 1000000000 + s.cd10Ns

def cd10Put (s : State) (t : Nat) : State :=
  { s with cd10Sec := BitVec.ofNat 48 (t / 1000000000), cd10Ns := t % 1000000000 }

/-- Some nanoseconds pass (log 1). -/
def elapse (s : State) (ns : Nat) : State := cd10Put { s with now := s.now + ns } (cd10Total s + ns)

/-- An event at an instant: time moves to it if it has not come (log 1). -/
def nowTo (s : State) (t : Nat) : State := elapse s (t - s.now)

/-- An event at an instant of CD10. -/
def cd10To (s : State) (t : Nat) : State := elapse s (t - cd10Total s)

/-- The next multiple of a period that an event has not had: the present instant, if it is one (log 1). -/
def periodNext (t period last : Nat) : Nat :=
  let m := (t + period - 1) / period * period
  if m = last then m + period else m

/-- A periodic event of the chip: time moves to its next instant. Events: 0 audit, 1 frame of the ADC, 3 die sensors,
4 fans, 5 tachometers, 6 grid clock decision, 7 token refill, 8 trace samples, 9 module poll. -/
def periodic (s : State) (event period : Nat) : State :=
  let t := periodNext s.now period (tget 0 s.ticks event)
  nowTo { s with ticks := tset 0 s.ticks event t } t

/-- The same at multiples of CD10 time. -/
def periodicCd10 (s : State) (event period : Nat) : State :=
  let t := periodNext (cd10Total s) period (tget 0 s.ticks event)
  cd10To { s with ticks := tset 0 s.ticks event t } t

/-! ## Stored registers -/

/-- Management address of an offset of an agent. -/
def regAddr (agent off : Nat) : Nat := agent * 65536 + off

/-- A stored register's reset value (the RWL and RW registers of R471 whose reset value is not 0). -/
def regReset (a : Nat) : Word :=
  let agent := a / 65536
  let off := a % 65536
  let d := agentDomain agent
  let b := agentBlock agent
  if agent = svcAgent then (if off = 0x100 then 0x64 else 0)
  else if d = 1 ∧ b = 1 then
    (if off = 0x100 then 0x10 else if off = 0x104 then 0x000A0850 else 0)
  else if d = 1 ∧ b = 2 then (if off = 0x100 then 0x000188B5 else if off = 0x104 then 0x10190014 else 0)
  else if agent = tptAgent then
    (if off = 0x100 then 0x0641C4C3 else if off = 0x104 then 0x0A282014 else if off = 0x108 then 0x27108032 else 0)
  else if agent = tmgAgent then
    (if off = 0x100 then 0x1A120A08 else if off = 0x104 then 0x38302822
     else if off = 0x110 then 0x21000000 else if off = 0x114 then 0x21002100 else if off = 0x118 then 0x00002100
     else if off = 0x120 ∨ off = 0x124 then 0x0A0A0A0A else if off = 0x128 then 0x006403E8
     else if off = 0x12C then 0x14 else if 0x400 ≤ off ∧ off < 0x500 then 0xFFFF0000 else 0)
  else if d = 2 ∧ b = 1 then (if off = 0x100 then 0x000403E8 else 0)
  else if d = 2 ∧ b = 2 then
    (if off = 0x100 then 0x00000404 else if off = 0x108 then 0x28 else if off = 0x10C then 0x14 else 0)
  else if agent = swpAgent then (if off = 0x100 then 0x14 else 0)
  else if agent = swnAgent then (if off = 0x100 then 0x3E8 else 0)
  else if agent = mirAgent then (if off = 0x100 then 0x00005064 else 0)
  else if agent = fabAgent 0 then (if off = 0x118 then 0x20 else 0)
  else if agent = brdAgent then
    (if off = 0x100 then 0xC350B798 else if off = 0x110 then 0x0A508000 else if off = 0x114 then 0x001F0A04
     else if off = 0x118 then 0x005F7064 else if 0x300 ≤ off ∧ off < 0x360 then 0x1000
     else if off = 0x500 then 0x0050281E else if 0x510 ≤ off ∧ off < 0x530 then 0x03E80002 else 0)
  else if agent = dbgAgent then (if off = 0x100 then 1 else if off = 0x104 then 0xFF00 else 0)
  else 0

/-- The value a stored register holds. -/
def regGet (s : State) (agent off : Nat) : Word :=
  (tfind s.csr (regAddr agent off)).getD (regReset (regAddr agent off))

def regSet (s : State) (agent off : Nat) (v : Word) : State :=
  let a := regAddr agent off
  { s with csr := if v = regReset a then tdel s.csr a else tins s.csr a v }

/-- A field of a stored register. -/
def regField (s : State) (agent off lo n : Nat) : Nat := bitsOf (regGet s agent off) lo n

/-- A selector of a source (R465). -/
def selGet (s : State) (src : MgmtSource) (agent off : Nat) : Word :=
  (aget s.sel (src, regAddr agent off)).getD (if off = 4 then 0x1FF else 0)

def selSet (s : State) (src : MgmtSource) (agent off : Nat) (v : Word) : State :=
  { s with sel := aput s.sel (src, regAddr agent off) v }

/-! Often used settings. -/

def kppPort (s : State) : Nat := regField s tptAgent 0x100 0 16
def bulkIdleNs (s : State) : Nat := regField s tptAgent 0x100 20 8 * 1000000
def ackDelayNs (s : State) : Nat := regField s tptAgent 0x104 0 8 * 100
def ackCount (s : State) : Nat := regField s tptAgent 0x104 8 8
def nackDelayNs (s : State) : Nat := regField s tptAgent 0x104 16 8 * 100
def nackHoldNs (s : State) : Nat := regField s tptAgent 0x104 24 8 * 1000
def rtoInitNs (s : State) : Nat := regField s tptAgent 0x108 0 12 * 1000
def rtxLimit (s : State) : Nat := regField s tptAgent 0x108 12 4
def rtoMaxNs (s : State) : Nat := regField s tptAgent 0x108 16 16 * 1000
def recallDeadlineNs (s : State) : Nat := regField s (actAgent 0) 0x100 0 16 * 1000
def handleQuota (s : State) : Nat := regField s (actAgent 0) 0x100 16 3
def hbPeriodNs (s : State) : Nat := regField s mirAgent 0x100 0 10 * 1000
def sysGroupA (s : State) : Nat := regField s (dmcAgent 0) 0x100 8 2
def sysGroupB (s : State) : Nat := regField s (dmcAgent 0) 0x100 10 2
/-- Is a port in 2 × 800 Gbit/s mode (PRT_CFG.MODE 01b, R346)? -/
def portSplit (s : State) (p : Nat) : Bool := decide (regField s (prtAgent p) 0x100 0 2 = 1)

/-! ## Memory bytes -/

/-- The byte at a pool-physical address; a byte nothing has written reads 0 (log 3). -/
def memByte (s : State) (a : Nat) : Byte := tget 0 s.dmc.mem a

/-- `n` bytes from an address. -/
def memBytes (s : State) (a : Nat) : Nat → List Byte
  | 0 => []
  | n + 1 => memByte s a :: memBytes s (a + 1) n

/-- Put bytes into a memory from an address upward. -/
def putBytes : Tab Byte → Nat → List Byte → Tab Byte
  | m, _, [] => m
  | m, a, b :: bs => putBytes (tset 0 m a b) (a + 1) bs

def memPut (s : State) (a : Nat) (bs : List Byte) : State :=
  { s with dmc := { s.dmc with mem := putBytes s.dmc.mem a bs } }

/-- Metadata of the line that holds an address (R161). -/
def metaGet (s : State) (a : Nat) : LineMeta := tget {} s.dmc.meta_ (a / 64)

def metaPut (s : State) (a : Nat) (m : LineMeta) : State :=
  { s with dmc := { s.dmc with meta_ := tset {} s.dmc.meta_ (a / 64) m } }

def granGet (s : State) (g : Nat) : Granule := tget {} s.dmc.gran g
def granPut (s : State) (g : Nat) (e : Granule) : State :=
  { s with dmc := { s.dmc with gran := tset {} s.dmc.gran g e } }

/-- The same place in the other copy of the system region (R156), if the address lies in one. -/
def sysTwin (s : State) (a : Nat) : Option Nat :=
  let g := granGet s (a / 0x40000000)
  if g.state = .system then
    ((s.dmc.gran.find? (fun e => e.2.state = .system ∧ e.2.localIx = g.localIx ∧ e.2.group ≠ g.group)).map
      (fun e => e.1 * 0x40000000 + a % 0x40000000))
  else none

/-- A write by a system master (R130, R132): the owner tag stays, and a place of the system region is
written in both copies (R156). -/
def sysWrite (s : State) (a : Nat) (bs : List Byte) : State :=
  let s1 := memPut s a bs
  match sysTwin s a with
  | some b => memPut s1 b bs
  | none => s1

/-- The copy a system master reads (R156): that in SYS_GROUP_A while the group is not RETIRED. -/
def sysPlace (s : State) (a : Nat) : Nat :=
  let g := granGet s (a / 0x40000000)
  if g.state = .system ∧ uAct s (uGroup g.group) = .retired then (sysTwin s a).getD a else a

/-! ## Trace (R483) -/

/-- Write a trace record of a KIND if trace is on and the KIND is enabled. -/
def trace (s : State) (kind pitch agent unit : Nat) (data : List Byte) : State :=
  let cfg := regGet s dbgAgent 0x104
  if bitOf cfg 0 ∧ cfg.toNat.testBit (8 + (kind - 1)) then
    let r := leBytes 4 s.cd10Ns ++ leBytes 6 s.cd10Sec.toNat ++ [BitVec.ofNat 8 kind, BitVec.ofNat 8 pitch] ++
      leBytes 2 agent ++ leBytes 2 unit ++ (data ++ zeros 16).take 16
    let s1 := sysWrite s (s.flt.traceBase + (s.flt.traceHead.toNat % 524288) * 32) r
    { s1 with flt := { s1.flt with traceHead := s1.flt.traceHead + 1 } }
  else s

/-- A trace record of KIND UNIT for a unit whose actual state changed (R11, R483). -/
def traceUnit (s : State) (k : Nat) (old new : Actual) (i : Intent) : State :=
  trace s 2 ((keyPitch k).getD 0) (k / 512) (k % 512)
    [BitVec.ofNat 8 (actCode old), BitVec.ofNat 8 (actCode new), BitVec.ofNat 8 (intCode i)]

/-- Move a unit to an actual state, with its trace record. -/
def uMove (s : State) (k : Nat) (a : Actual) : State :=
  let u := uGet s k
  let s1 := uSet s k { u with actual := a }
  if u.actual = a then s1 else traceUnit s1 k u.actual a u.intent

/-! ## Fault records (R411 to R415) -/

/-- What a fault record says beyond its number and time. -/
structure FaultInfo where
  agent : Nat := 0
  sub : Nat := 0
  cause : Nat := 0
  cls : Nat := 0
  state : Nat := 0
  pitch : Option Nat := none
  status : Nat := 0
  lo : Nat := 0
  hi : Nat := 0
  /-- The unit whose latest record it becomes. -/
  unit : Option Nat := none

/-- Classes of R411. -/
def clsTransient : Nat := 0
def clsFailed : Nat := 1
def clsDegrading : Nat := 2
def clsPermanent : Nat := 3
def clsFencing : Nat := 4
def clsAlarm : Nat := 5
def clsStop : Nat := 6

/-- The eight words of a record (R414). -/
def faultWords (s : State) (i : FaultInfo) : List Word :=
  let pv := match i.pitch with
    | some p => if p = 0 then (0, 0) else (p, 1)
    | none => (0, 0)
  [s.flt.next, BitVec.ofNat 32 s.cd10Sec.toNat, BitVec.ofNat 32 (s.cd10Sec.toNat / 4294967296),
   BitVec.ofNat 32 s.cd10Ns,
   BitVec.ofNat 32 (i.agent * 65536 + i.sub * 256 + i.cause),
   BitVec.ofNat 32 (i.cls + i.state * 16 + pv.1 * 256 + pv.2 * 65536 + i.status * 16777216),
   BitVec.ofNat 32 i.lo, BitVec.ofNat 32 i.hi]

/-- Write a fault record to the log slot SEQ mod 4,096 and to the reporting agent's header (R414, R415). -/
def faultRec (s : State) (i : FaultInfo) : State :=
  let w := faultWords s i
  let slot := s.flt.next.toNat % 4096
  let lost := match tfind s.flt.log slot with
    | some r => !r.seen
    | none => false
  let s1 := { s with flt := { s.flt with log := tins s.flt.log slot { words := w }, next := s.flt.next + 1 } }
  let s2 := match i.unit with
    | some k => uSet s1 k { uGet s1 k with record := w }
    | none => { s1 with flt := { s1.flt with agentRec := tins s1.flt.agentRec i.agent w } }
  let s3 := bump0 s2 .svcFault
  let s4 := if lost then bump0 s3 .svcFaultLost else s3
  trace s4 1 (i.pitch.getD 0) i.agent (match i.unit with | some k => k % 512 | none => 0)
    ((w.drop 4).flatMap (fun x => leBytes 4 x.toNat))

/-- A record about a unit, with its state after the event. SUB holds a lane, core or service-core number
(R414). -/
def faultUnit (s : State) (k cause cls : Nat) (pitch : Option Nat) (lo hi : Nat) : State :=
  let u := k % 512
  let sub := if keyPitch k ≠ none ∨ u = 0x1FF ∨ (0x100 ≤ u ∧ k / 512 ≠ svcAgent) then 0 else u % 256
  faultRec s { agent := k / 512, sub := sub, cause := cause, cls := cls, state := actCode (uAct s k),
               pitch := (match keyPitch k with | some p => some p | none => pitch), lo := lo, hi := hi,
               unit := some k }

/-! ## Sorted lists of numbers -/

def insertNat (n : Nat) : List Nat → List Nat
  | [] => [n]
  | m :: t => if n < m then n :: m :: t else if n = m then m :: t else m :: insertNat n t

end Sys2Proof.Machine
end

