-- ==== Sys2Proof/Machine/Wire.lean ====
section
/-! DEFINITION. Frames the controller sends: header bytes, egress queues, responses, the controller's own
requests and their trackers (R52 to R62, R77, R81, R89 to R97, R108 to R112, R384, R385). -/
namespace Sys2Proof.Machine

/-! ## Header (R56) -/

/-- Header bytes 0–27 (R56). -/
def hdrBytes (version typ : BitVec 4) (op : Byte) (flags context : BitVec 16) (endpoint : BitVec 12)
    (tc : BitVec 3) (rsvd : BitVec 1) (seq : BitVec 24) (alive : Byte) (address : BitVec 64)
    (length tag : BitVec 32) : List Byte :=
  [BitVec.ofNat 8 (version.toNat * 16 + typ.toNat), op] ++ beBytes 2 flags.toNat ++ beBytes 2 context.toNat ++
    beBytes 2 (endpoint.toNat * 16 + tc.toNat * 2 + rsvd.toNat) ++ beBytes 4 (seq.toNat * 256 + alive.toNat) ++
    beBytes 8 address.toNat ++ beBytes 4 length.toNat ++ beBytes 4 tag.toNat

/-- Header bytes 0–27 of a received frame. -/
def rxHdrBytes (op : Byte) (h : KppHdr) : List Byte :=
  hdrBytes h.version h.typ op h.flags h.context h.endpoint h.tc h.rsvd h.flowSeq h.alive h.address h.length h.tag

/-- Header bytes 0–27 of a frame to send, with an ALIVE value. -/
def txHdrBytes (f : TxFrame) (alive : Byte) : List Byte :=
  hdrBytes 1 f.typ f.opcode f.flags f.context f.endpoint f.tc 0 f.flowSeq alive f.address f.length f.tag

/-! ## Flags and status codes (R58, R87) -/

def flagH (fl : BitVec 16) : Bool := fl.getLsbD 15
def flagL (fl : BitVec 16) : Bool := fl.getLsbD 14
def flagE (fl : BitVec 16) : Bool := fl.getLsbD 13
def flagX (fl : BitVec 16) : Bool := fl.getLsbD 12
def flagA (fl : BitVec 16) : Bool := fl.getLsbD 11

def stOk : Nat := 0x00
def stRetry : Nat := 0x01
def stNotMapped : Nat := 0x02
def stDenied : Nat := 0x03
def stLength : Nat := 0x04
def stAlign : Nat := 0x05
def stPitchDown : Nat := 0x06
def stSweeping : Nat := 0x07
def stMedia : Nat := 0x08
def stMoved : Nat := 0x09
def stUnsupported : Nat := 0x0A
def stDclass : Nat := 0x0B
def stSessFailed : Nat := 0x0C
def stSealed : Nat := 0x0D
def stFenced : Nat := 0x0E
def stTimeout : Nat := 0x0F
def stIntegrity : Nat := 0x10

/-! ## Pitches -/

def pGet (s : State) (n : Nat) : PitchSt := tget {} s.pitches n
def pSet (s : State) (n : Nat) (p : PitchSt) : State := { s with pitches := tset {} s.pitches n p }
def tmplOf (s : State) (p : PitchSt) : Template := tget {} s.templates p.template
def pWalled (s : State) (n : Nat) : Bool := (tmplOf s (pGet s n)).walled
def pHeld (s : State) (n : Nat) : Bool := (tmplOf s (pGet s n)).held
def pCocoon (s : State) (n : Nat) : Bool := (tmplOf s (pGet s n)).cocoon

/-- The pitch that an identifier is bound to, current or removed (R124, R34). -/
def ctxPitch (s : State) (c : BitVec 16) : Option Nat :=
  (s.pitches.find? (fun e => decide (e.2.life ≠ .empty) && (decide (c ∈ e.2.settings.contexts) ||
    decide (c ∈ e.2.removed)))).map (·.1)

/-- Data class of a pitch (R66): TC2 if walled, TC1 if shared. -/
def dataClass (s : State) (n : Nat) : BitVec 3 := if pWalled s n then 2 else 1

/-- Committed and peak rate of a pitch's class, MB/s. -/
def pRate (s : State) (n cls : Nat) : Nat × Nat := ((pGet s n).settings.rates[cls]?).getD (0, 0)

/-! ## Ports, links and egress (R91) -/

/-- Link number of where a frame arrived; 8 is MP. -/
def viaLink : RxVia → Nat
  | .link l => l.val
  | .mp => 8

/-- Port number of a link; 4 is MP. -/
def linkPort (l : Nat) : Nat := l / 2

def viaPort (v : RxVia) : Nat := linkPort (viaLink v)

/-- Data ports that serve (R91), ascending. -/
def servingPorts (s : State) : List Nat := (upto 4).filter (fun p => serving (uAct s (uPort p)))

/-- Bytes of a flow's identity, for its hash (R53). -/
def flowBytes : FlowId → List Byte
  | .ep i p c => [0] ++ beBytes 2 i.toNat ++ beBytes 1 p.toNat ++ beBytes 1 c.toNat
  | .sess a p c => [1] ++ beBytes 16 a.toNat ++ beBytes 2 p.toNat ++ beBytes 1 c.toNat

/-- The link a flow's frames leave on: where its most recent accepted frame arrived, or the hash over the
serving data ports; none while no data port serves (R91). -/
def egressLink (s : State) (id : FlowId) (known : Option RxVia) : Option Nat :=
  match known with
  | some .mp => some 8
  | some (.link l) =>
    if uAct s (uPort (l.val / 2)) = .retired then
      match servingPorts s with
      | [] => none
      | ps => (ps[(Config.flowHash (flowBytes id)).toNat % ps.length]?).map (· * 2)
    else some l.val
  | none =>
    match servingPorts s with
    | [] => none
    | ps => (ps[(Config.flowHash (flowBytes id)).toNat % ps.length]?).map (· * 2)

def flowGet (s : State) (id : FlowId) : Option FlowSt := aget s.tpt.flows id
def flowPut (s : State) (id : FlowId) (f : FlowSt) : State :=
  { s with tpt := { s.tpt with flows := aput s.tpt.flows id f } }

def flowLink (s : State) (id : FlowId) : Option Nat :=
  egressLink s id ((flowGet s id).bind (·.egress))

/-- Is an address IPv4-mapped? -/
def isV4 (a : BitVec 128) : Bool := decide (a.toNat / 2 ^ 32 = 0xFFFF)

/-! ## Egress queues (R384, R385) -/

def klrGet (s : State) (l : Nat) : Klr := tget {} s.klr l
def klrPut (s : State) (l : Nat) (k : Klr) : State := { s with klr := tset {} s.klr l k }
def klrMod (s : State) (l : Nat) (f : Klr → Klr) : State := klrPut s l (f (klrGet s l))

/-- Is KLR UP on a link (R362)? PLAIN and down links carry no KLR header. -/
def linkKlr (s : State) (l : Nat) : Bool := decide (l < 8) && decide ((klrGet s l).state = .up)

/-- May a link send frames: a data link that is UP or PLAIN, or MP. -/
def linkOpen (s : State) (l : Nat) : Bool :=
  decide (8 ≤ l) || decide ((klrGet s l).state = .up ∨ (klrGet s l).state = .plain)

/-- TPT takes in or drops the oldest frame of a class that a link's receive pool holds; its units go back to the class's
reserve first (R368, R369). -/
def poolTake (s : State) (v : RxVia) (tc : Nat) : State :=
  match v with
  | .mp => s
  | .link l =>
    let k := klrGet s l.val
    match firstIdx (fun (e : PoolEnt) => decide (e.cls = tc)) k.pool 0 with
    | none => s
    | some i =>
      let u := ((k.pool[i]?).map (·.units)).getD 0
      let used := (k.held[tc]?).getD 0
      let back := min u used
      klrPut s l.val { k with pool := k.pool.eraseIdx i, held := lset k.held tc (used - back), shared := k.shared - (u - back) }

/-- Length of a frame that is not KPP, at least 64 bytes. -/
def rawLen (transport : Nat) : RawFrame → Nat
  | .neighbour nd _ _ => if nd then 90 else 64
  | .ptp m =>
    let body := match m.kind with
      | .announce => 64
      | .sync => 44
      | .followUp => 44
      | .delayReq => 44
      | _ => 54
    max 64 (14 + (if transport = 0 then 0 else if transport = 1 then 28 else 48) + body + 4)

/-- Length of a frame on its link from the destination address through the FCS, with KLR header and VLAN
tag (R385). -/
def frameLen (s : State) (l : Nat) (f : TxFrame) : Nat :=
  (match f.raw with
   | some r => rawLen (byteAt s.img.net 101).toNat r
   | none => 14 + (if isV4 f.dstAddr then 20 else 40) + 8 + 32 + f.payload.length + 4) +
    (if linkKlr s l ∧ f.tc ≠ 7 then 22 else 0) +
    (if l < 8 ∧ bitOf (regGet s (prtAgent (l / 2)) 0x100) 5 then 4 else 0)

def overhead (s : State) : Nat := regField s tmgAgent 0x12C 0 6

def qHead (q : Queue) : Option TxFrame :=
  match q.resp with
  | f :: _ => some f
  | [] => q.reqs.head?

def qGet (s : State) (k : Nat × Nat × Nat) : Queue := (aget s.tmg.queues k).getD {}
def qPut (s : State) (k : Nat × Nat × Nat) (q : Queue) : State :=
  { s with tmg := { s.tmg with queues := aput s.tmg.queues k q } }

/-- A frame becomes the head of a queue: S = max(V, F), F = S + L / W, 32 fraction bits (R385). -/
def qHeadSet (s : State) (k : Nat × Nat × Nat) (q : Queue) : Queue :=
  match qHead q with
  | none => q
  | some f =>
    let st := max (tget 0 s.tmg.vtime k.1) q.finish
    let w := max 1 (pRate s k.2.1 k.2.2).1
    { q with start := st, finish := st + ((frameLen s k.1 f + overhead s) * 2 ^ 32) / w }

/-- A frame joins the queue of its pitch and class on a link (R384). A TC7 frame whose link is down is dropped
(R359). -/
def enqueue (s : State) (l : Nat) (f : TxFrame) : State :=
  if f.tc = 7 ∧ !linkOpen s l then bump s .klrTc7Drop (l / 2) (l % 2) 0 else
  let k := (l, f.pitch.toNat, f.tc.toNat)
  let q := qGet s k
  let f1 := { f with stamp := s.tmg.stamp }
  let q1 := if f.isReq then { q with reqs := q.reqs ++ [f1] } else { q with resp := q.resp ++ [f1] }
  let q2 := if (qHead q).map (·.stamp) = (qHead q1).map (·.stamp) then q1 else qHeadSet s k q1
  let s1 := qPut s k q2
  { s1 with tmg := { s1.tmg with stamp := s1.tmg.stamp + 1 } }

/-- Hand a frame of a flow to its egress port, or hold it in TPT while no data port serves (R91). -/
def sendFrame (s : State) (id : FlowId) (f : TxFrame) : State :=
  match flowLink s id with
  | some l => enqueue s l f
  | none => { s with tpt := { s.tpt with parked := s.tpt.parked ++ [f] } }

/-! ## Trackers (R110, R112) -/

/-- Trackers held at a port: requests of the network and the controller's own. -/
def trkInUse (s : State) (p : Nat) : Nat :=
  (s.tpt.trackers.filter (fun t => t.port = p)).length +
    (s.tpt.ctl.map (fun e => (e.2.reqs.filter (fun r => r.port = p)).length)).sum

/-- Trackers of a class's reserve in use at a port. -/
def trkReserve (s : State) (p : Nat) (tc : BitVec 3) : Nat :=
  (s.tpt.trackers.filter (fun t => t.port = p ∧ t.reserve ∧ t.req.tc = tc)).length +
    (s.tpt.ctl.map (fun e => (e.2.reqs.filter (fun r => r.port = p ∧ r.reserve ∧ r.frame.tc = tc)).length)).sum

/-- Trackers of the shared part in use at a port. -/
def trkShared (s : State) (p : Nat) : Nat :=
  (s.tpt.trackers.filter (fun t => t.port = p ∧ !t.reserve)).length +
    (s.tpt.ctl.map (fun e => (e.2.reqs.filter (fun r => r.port = p ∧ !r.reserve)).length)).sum

/-- What a request finds (R110): `some true` a tracker of its class's reserve, `some false` one of the
shared part, none if both are in use or admission at the port is closed. -/
def trkAvail (s : State) (p : Nat) (tc : BitVec 3) : Option Bool :=
  if p ∈ s.tpt.closed then none
  else if trkReserve s p tc < 64 then some true
  else if trkShared s p < 3584 then some false
  else none

def trkFind (s : State) (id : FlowId) (seq : BitVec 24) : Option Tracker :=
  s.tpt.trackers.find? (fun t => decide (t.req.flow = id) && decide (t.req.seq = seq))

/-- ADMIT_CLOSED clears once IN_USE falls below 4,096 (R116 step 4). -/
def trkReopen (s : State) : State :=
  { s with tpt := { s.tpt with closed := s.tpt.closed.filter (fun p => 4096 ≤ trkInUse s p) } }

def trkRelease (s : State) (id : FlowId) (seq : BitVec 24) : State :=
  trkReopen (tptMod s (fun t => { t with trackers := t.trackers.filter (fun k => !(decide (k.req.flow = id) &&
    decide (k.req.seq = seq))) }))

def trkAdd (s : State) (r : Req) (reserve : Bool) : State :=
  tptMod s (fun t => { t with trackers := t.trackers ++ [{ req := r, port := viaPort r.via, reserve := reserve }] })

/-! ## Opcode groups and execution classes (R67, R95) -/

/-- Execution class of an opcode (R95). -/
inductive ExecClass where
  | repeatable | once | ackOnly
deriving DecidableEq, Repr

/-- Opcodes the controller accepts from a requester (R67). -/
def opKnown (op : Byte) : Bool :=
  let n := op.toNat
  decide ((1 ≤ n ∧ n ≤ 3) ∨ (0x10 ≤ n ∧ n ≤ 0x1B) ∨ (0x20 ≤ n ∧ n ≤ 0x23) ∨ n = 0x30 ∨ n = 0x32 ∨
    (0x40 ≤ n ∧ n ≤ 0x44) ∨ n = 0x48 ∨ (0x50 ≤ n ∧ n ≤ 0x55) ∨ (0x60 ≤ n ∧ n ≤ 0x62) ∨
    (0x70 ≤ n ∧ n ≤ 0x7D))

/-- R95; a reserved opcode, or one not accepted from a requester, counts as repeatable. -/
def execClass (op : Byte) : ExecClass :=
  let n := op.toNat
  if !opKnown op then .repeatable
  else if n = 0x01 ∨ n = 0x20 ∨ n = 0x30 ∨ n = 0x55 ∨ n = 0x61 ∨ n = 0x77 ∨ n = 0x7B then .repeatable
  else if n = 0x23 ∨ n = 0x51 ∨ n = 0x52 ∨ n = 0x53 then .ackOnly
  else .once

/-- Session-bound (R64). -/
def sessBound (op : Byte) (flags : BitVec 16) : Bool :=
  decide (op.toNat = 0x7C ∨ op.toNat = 0x7D) || (decide (0x70 ≤ op.toNat ∧ op.toNat ≤ 0x77) && flagA flags)

/-! ## Flows: window, acknowledgement state (R93, R94, R104) -/

/-- Distance of a number above the cumulative point (R93). -/
def seqDist (c q : BitVec 24) : Nat := (q - c).toNat

/-- Advance C over every consecutive number whose bit is set (R94). -/
def advance : Nat → BitVec 24 → List (BitVec 24) → BitVec 24 × List (BitVec 24)
  | 0, c, bits => (c, bits)
  | n + 1, c, bits =>
    if c + 1 ∈ bits then advance n (c + 1) (bits.filter (fun b => b ≠ c + 1)) else (c, bits)

/-- Set a number's window bit (R94). -/
def setWindow (f : FlowSt) (q : BitVec 24) : FlowSt :=
  let d := seqDist f.c q
  if 1 ≤ d ∧ d ≤ 0x10000 ∧ q ∉ f.bits then
    let bits := q :: f.bits
    let r := advance bits.length f.c bits
    { f with c := r.1, bits := r.2, missing := f.missing.filter (fun m => m.seq ≠ q),
             excused := f.excused.filter (fun e => e ≠ q) }
  else f

/-- Numbers received above C, in ascending order of distance. -/
def received (f : FlowSt) : List Nat :=
  f.bits.foldl (fun acc b => insertNat (seqDist f.c b) acc) []

/-- The highest distance received. -/
def topDist (f : FlowSt) : Nat := (f.bits.map (seqDist f.c)).foldl max 0

/-- Numbers between C + 1 and the highest received that are missing now, each with when it was first seen
missing (R104). A number answered RETRY or MOVED is excused and never listed (R94). -/
def noteMissing (now : Nat) (f : FlowSt) (q : BitVec 24) : FlowSt :=
  let d := seqDist f.c q
  if d = 0 ∨ 0x10000 < d then f
  else
    let gaps := ((upto (d - 1)).map (fun i => f.c + BitVec.ofNat 24 (i + 1))).filter
      (fun g => g ∉ f.bits ∧ g ∉ f.excused ∧ !(f.missing.any (fun m => m.seq = g)))
    { f with missing := f.missing ++ gaps.map (fun g => { seq := g, since := now }) }

/-- A number answered RETRY or MOVED is not NACKed (R94). -/
def excuse (s : State) (id : FlowId) (q : BitVec 24) : State :=
  match flowGet s id with
  | none => s
  | some f =>
    if q ∈ f.excused then s
    else flowPut s id { f with excused := q :: f.excused, missing := f.missing.filter (fun m => m.seq ≠ q) }

/-- Set a request's window bit and note the numbers below it that are missing. -/
def markWindow (s : State) (r : Req) : State :=
  match flowGet s r.flow with
  | none => s
  | some f => flowPut s r.flow (setWindow (noteMissing s.now f r.seq) r.seq)

/-! ## Responses (R77, R81, R87) -/

def mgmtFind (s : State) (n : BitVec 32) : Option MgmtSess := s.tpt.sessions.find? (fun m => m.number = n)

def mgmtMod (s : State) (n : BitVec 32) (g : MgmtSess → MgmtSess) : State :=
  { s with tpt := { s.tpt with sessions := s.tpt.sessions.map (fun m => if m.number = n then g m else m) } }

/-- The bytes a tag is computed over (R45): session number, counter, header bytes 0–27 with ALIVE as 00h,
payload before the trailer. -/
def tagInput (number : BitVec 32) (counter : Nat) (hdr payload : List Byte) : List Byte :=
  beBytes 4 number.toNat ++ beBytes 8 counter ++ hdr ++ payload

/-- First 16 bytes of a 64-byte digest. -/
def first16 (d : BitVec 512) : List Byte := (beBytes 64 d.toNat).take 16

/-- The partner whose local indices hold an endpoint index (R66, R419). -/
def partnerOf (s : State) (i : Nat) : Option (Nat × Peer) :=
  s.mir.peers.find? (fun e => e.2.localBase ≤ i ∧ i < e.2.localBase + 16)

/-- ENDPOINT of a frame towards an index: the index itself, or the one the partner binds to this chip
(R421, R425). -/
def wireIndex (s : State) (i : BitVec 12) : BitVec 12 :=
  match partnerOf s i.toNat with
  | some p => BitVec.ofNat 12 (p.2.remoteBase + (i.toNat - p.2.localBase))
  | none => i

/-- A response frame to a request, without a trailer: `status`, payload and ADDRESS. -/
def respFrame (s : State) (r : Req) (status : Nat) (payload : List Byte) (address : BitVec 64) (last : Bool) :
    TxFrame :=
  let dst : BitVec 128 × BitVec 16 := match r.flow with
    | .ep i _ _ => (match tfind s.act.src i.toNat with
      | some e => (e.addr, e.port)
      | none => (r.srcAddr, r.srcPort))
    | .sess a p _ => (a, p)
  { opcode := r.op + 0x80, typ := 1
    flags := BitVec.ofNat 16 ((if last then 0x4000 else 0) + (if r.ce then 0x2000 else 0) + status)
    context := r.context, endpoint := wireIndex s r.endpoint, tc := r.tc, flowSeq := r.seq, address := address
    length := BitVec.ofNat 32 payload.length, tag := r.tag, payload := payload
    stream := (match r.flow with
      | .ep i _ c => .ep i c
      | .sess a p c => .sess a p c)
    dstAddr := dst.1, dstPort := dst.2, pitch := r.pitch, flow := some r.flow
    release := if last then some (r.flow, r.seq) else none }

/-- Add the authentication trailer of a response to an A-flagged message (R77). -/
def addTrailer (s : State) (r : Req) (f : TxFrame) : State × TxFrame :=
  match r.sess.bind (mgmtFind s) with
  | none => (s, f)
  | some m =>
    let f1 := { f with flags := f.flags ||| 0x0800, length := BitVec.ofNat 32 (f.payload.length + 28) }
    let tag := first16 (Config.hmac m.key (tagInput m.number m.respCounter (txHdrBytes f1 0) f.payload))
    (mgmtMod s m.number (fun m => { m with respCounter := m.respCounter + 1 }),
     { f1 with payload := f.payload ++ beBytes 4 m.number.toNat ++ beBytes 8 m.respCounter ++ tag })

/-- Entries and bytes a result cache holds (R97). -/
def cacheCap (tc : BitVec 3) : Nat := if tc = 6 then 16 else 64
def cacheBytes (tc : BitVec 3) : Nat := if tc = 6 then 2076 else 64

/-- Keep a final response in its flow's result cache, evicting the oldest entry (R97). -/
def cacheStore (s : State) (r : Req) (f : TxFrame) : State :=
  if execClass r.op = .once ∧ f.payload.length ≤ cacheBytes r.tc then
    match flowGet s r.flow with
    | none => s
    | some fl =>
      let kept := fl.cache.filter (fun e => e.seq ≠ r.seq)
      let kept1 := if cacheCap r.tc ≤ kept.length then kept.drop (kept.length + 1 - cacheCap r.tc) else kept
      flowPut s r.flow { fl with cache := kept1 ++ [{ seq := r.seq, counter := r.counter, frame := f }] }
  else s

/-- Send a response on its flow's egress port, or where the request arrived when it has no flow (R99). -/
def respSend (s : State) (r : Req) (f : TxFrame) : State :=
  match flowGet s r.flow with
  | some _ => sendFrame s r.flow f
  | none => enqueue s (viaLink r.via) f

/-- Statuses that leave the window bit clear (R94). -/
def openStatus (status : Nat) : Bool := decide (status = stRetry ∨ status = stMoved)

/-- Send the one-frame response of a request: counted, kept in the result cache, its tracker freed when
the frame is handed to the port. A RETRY or MOVED ran nothing, so it is not cached. An
acknowledgement-only request answered OK gets no frame: its ACK covers it (R67, R95). -/
def respondAt (s : State) (r : Req) (status : Nat) (payload : List Byte) (address : BitVec 64) : State :=
  if execClass r.op = .ackOnly ∧ status = stOk then trkRelease s r.flow r.seq
  else
    let f := respFrame s r status payload address true
    let t := addTrailer s r f
    let s1 := bump t.1 .tptStatus 0 status 0
    let s2 := if openStatus status then s1 else cacheStore s1 r t.2
    respSend s2 r t.2

def respond (s : State) (r : Req) (status : Nat) (payload : List Byte) : State :=
  respondAt s r status payload r.address

/-- Set the window bit unless the status leaves it clear, then answer (R94). A number answered RETRY or
MOVED is not missing: it is never NACKed. -/
def answer (s : State) (r : Req) (status : Nat) (payload : List Byte) : State :=
  let s1 := if openStatus status then excuse s r.flow r.seq else markWindow s r
  respond s1 r status payload

/-! ## Segmented data (R81, R215) -/

def maxSegBytes (m : BitVec 2) : Nat := 1024 * 2 ^ m.toNat

/-- Largest segment towards a requester: MAX_SEG of its source entry, 8,192 bytes between chips (R81). -/
def segSize (s : State) (r : Req) : Nat :=
  match r.flow with
  | .ep i _ _ =>
    if (partnerOf s i.toNat).isSome then 8192
    else match tfind s.act.src i.toNat with
      | some e => maxSegBytes e.maxSeg
      | none => 8192
  | .sess _ _ _ => 8192

/-- Bytes `off` to `off + len - 1` of a list of pieces (address, length). -/
def subPieces : List (Nat × Nat) → Nat → Nat → List (Nat × Nat)
  | [], _, _ => []
  | (a, n) :: t, off, len =>
    if len = 0 then []
    else if n ≤ off then subPieces t (off - n) len
    else
      let here := min (n - off) len
      (a + off, here) :: subPieces t 0 (len - here)

/-- Send data as segments of at most `seg` bytes from ADDRESS `address` upward, the last one with L (R81).
`ps` gives the pool-physical pieces of the data, `tail` the seal block of every segment (R215). -/
def sendSegs : Nat → State → Req → Nat → Nat → List Byte → List (Nat × Nat) → List Byte → State
  | 0, s, _, _, _, _, _, _ => s
  | n + 1, s, r, seg, address, data, ps, tail =>
    let here := data.take seg
    let rest := data.drop seg
    let f0 := respFrame s r stOk (here ++ tail) (BitVec.ofNat 64 address) rest.isEmpty
    let f1 := { f0 with lines := subPieces ps 0 here.length }
    let s1 := respSend (bump s .tptStatus 0 stOk 0) r f1
    if rest.isEmpty then s1 else sendSegs n s1 r seg (address + seg) rest (subPieces ps here.length rest.length) tail

/-! ## The controller's own requests (R108) -/

def ctlGet (s : State) (id : FlowId) : CtlFlow := (aget s.tpt.ctl id).getD {}
def ctlPut (s : State) (id : FlowId) (c : CtlFlow) : State :=
  { s with tpt := { s.tpt with ctl := aput s.tpt.ctl id c } }

/-- The link the controller's own requests of a flow leave on (R91). -/
def ctlLink (s : State) (id : FlowId) : Option Nat :=
  match (ctlGet s id).egress with
  | some v => egressLink s id (some v)
  | none => flowLink s id

/-- Send a request of the controller's own on a flow (R89, R108): the next FLOW_SEQ, a tracker at the
egress port, the timer at RTO_INIT. With no serving port or no tracker it waits (R91, R112). -/
def ctlSend (s : State) (id : FlowId) (f : TxFrame) (o : Origin) : State :=
  match ctlLink s id with
  | none => { s with tpt := { s.tpt with held := s.tpt.held ++ [(id, f, o)] } }
  | some l =>
    match trkAvail s (linkPort l) f.tc with
    | none => { s with tpt := { s.tpt with held := s.tpt.held ++ [(id, f, o)] } }
    | some reserve =>
      let c := ctlGet s id
      let f1 := { f with flowSeq := c.next, isReq := true, typ := 0, flow := some id }
      let q : CtlReq := { seq := c.next, frame := f1, origin := o, timer := rtoInitNs s,
                          due := s.now + rtoInitNs s, port := linkPort l, reserve := reserve }
      enqueue (ctlPut s id { c with next := c.next + 1, reqs := c.reqs ++ [q] }) l f1

/-- A frame towards an attached endpoint or a partner index, before its number. -/
def toEndpoint (s : State) (op : Byte) (index : BitVec 12) (pitch : BitVec 8) (tc : BitVec 3)
    (context : BitVec 16) (address : BitVec 64) (payload : List Byte) : TxFrame :=
  let e := (tfind s.act.src index.toNat).getD {}
  { opcode := op, typ := 0, flags := 0x4000, context := context, endpoint := wireIndex s index, tc := tc,
    address := address, length := BitVec.ofNat 32 payload.length, payload := payload,
    stream := .ep index tc, dstAddr := e.addr, dstPort := e.port, pitch := pitch, isReq := true }

def ctlFind (s : State) (id : FlowId) (seq : BitVec 24) : Option CtlReq :=
  (ctlGet s id).reqs.find? (fun q => q.seq = seq)

def ctlDrop (s : State) (id : FlowId) (seq : BitVec 24) : State :=
  let c := ctlGet s id
  trkReopen (ctlPut s id { c with reqs := c.reqs.filter (fun q => q.seq ≠ seq) })

def ctlMod (s : State) (id : FlowId) (seq : BitVec 24) (g : CtlReq → CtlReq) : State :=
  let c := ctlGet s id
  ctlPut s id { c with reqs := c.reqs.map (fun q => if q.seq = seq then g q else q) }

/-- Frames of a released tracker or port find their way again: held requests are sent, parked frames are
queued (R91, R112). -/
def sendHeld (s : State) : State :=
  let h := s.tpt.held
  let p := s.tpt.parked
  let s1 := { s with tpt := { s.tpt with held := [], parked := [] } }
  let s2 := foldS h s1 (fun s e => ctlSend s e.1 e.2.1 e.2.2)
  foldS p s2 (fun s f => match f.flow with
    | some id => sendFrame s id f
    | none => s)

end Sys2Proof.Machine
end

