-- ==== Sys2Proof/Machine/Memory.lean ====
section
/-! DEFINITION. Where a pool-physical byte lands, what a line read checks, what a line write does, and the
queues of the channels (R123, R155 to R171, R180, R192 to R198). -/
namespace Sys2Proof.Machine

/-! ## Interleave (R157 to R159) -/

def granOf (ppa : Nat) : Nat := ppa / 0x40000000

/-- Channel within its group (R157). -/
def chanInGroup (ppa : Nat) : Nat :=
  ((ppa / 2 ^ 12 % 4) ^^^ (ppa / 2 ^ 20 % 4)) ^^^ (ppa / 2 ^ 28 % 4)

/-- Channel of a pool-physical byte. -/
def chanOf (s : State) (ppa : Nat) : Nat := 4 * (granGet s (granOf ppa)).group + chanInGroup ppa

/-- Channel-local address (R158). -/
def claOf (localIx ppa : Nat) : Nat :=
  localIx * 0x10000000 + (ppa / 2 ^ 14 % 2 ^ 16) * 0x1000 + ppa % 0x1000

/-- Bank index (R159). -/
def bankOf (cla : Nat) : Nat := ((cla / 2 ^ 14 % 32) ^^^ (cla / 2 ^ 19 % 32)) ^^^ (cla / 2 ^ 24 % 32)

/-- Subchannel: 0 A, 1 B. -/
def subOf (cla : Nat) : Nat := cla / 64 % 2

def rowOf (g : Geom) (cla : Nat) : Nat := cla / 2 ^ 19 % 2 ^ g.rowBits
/-- Rank and slot together. -/
def rankOf (g : Geom) (cla : Nat) : Nat := cla / 2 ^ (19 + g.rowBits) % 2 ^ (g.rankBits + b2n g.twoSlots)
/-- Line within the row (R159). -/
def lineInRow (cla : Nat) : Nat := cla / 2 ^ 7 % 32 + (cla / 2 ^ 12 % 4) * 32

def chGet (s : State) (c : Nat) : Chan := (s.dmc.chans[c]?).getD {}
def chMod (s : State) (c : Nat) (f : Chan → Chan) : State :=
  dmcMod s (fun d => { d with chans := lmod f d.chans c })

/-- CLA of a pool-physical byte. -/
def claAt (s : State) (ppa : Nat) : Nat := claOf (granGet s (granOf ppa)).localIx ppa

/-- The bank (subchannel, rank, bank) and row of a pool-physical byte. -/
def bankRow (s : State) (ppa : Nat) : (Nat × Nat × Nat) × Nat :=
  let g := (chGet s (chanOf s ppa)).geom
  let cla := claAt s ppa
  ((subOf cla, rankOf g cla, bankOf cla), rowOf g cla)

/-! ## Key slots (R196 to R199) -/

def slotGet (s : State) (k : Nat) : KeySlot := tget {} s.fum.slots k
def slotPut (s : State) (k : Nat) (v : KeySlot) : State :=
  fumMod s (fun f => { f with slots := tset {} f.slots k v })
def pkGet (s : State) (n : Nat) : PitchKeys := tget {} s.fum.pk n
def pkPut (s : State) (n : Nat) (v : PitchKeys) : State :=
  fumMod s (fun f => { f with pk := tset {} f.pk n v })

/-! ## Line checks (R163) -/

inductive LineVerdict where
  | good | media | integrity
deriving DecidableEq, Repr

/-- Checks 1 to 3 of R163 on the line as stored: a poisoned word fails parity; the tag verifies under the
keys the line was written with; KEY_SLOT is 00h for SYSTEM and FREE and the owning pitch's slot
otherwise. -/
def lineVerdict (s : State) (ppa : Nat) : LineVerdict :=
  let m := metaGet s ppa
  if m.poison ≠ 0 then .media
  else if m.owner = 0 ∨ m.owner = 0xFFFF then (if m.keySlot = 0 then .good else .integrity)
  else
    match ctxPitch s m.owner with
    | none => .integrity
    | some n =>
      if (pkGet s n).slot = some m.keySlot ∧ (slotGet s m.keySlot).state = .held ∧
         (slotGet s m.keySlot).gen = m.keyGen then .good else .integrity

/-- Check 4 for a remote master (R131): the owner tag is the request's context, or FREE. -/
def ownerOk (s : State) (ppa : Nat) (ctx : BitVec 16) : Bool :=
  decide ((metaGet s ppa).owner = ctx ∨ (metaGet s ppa).owner = 0xFFFF)

/-- Plain bytes a remote or pitch master reads of a line (R164). -/
def linePlain (s : State) (ppa : Nat) : List Byte :=
  if (metaGet s ppa).owner = 0xFFFF then zeros 64 else memBytes s (ppa / 64 * 64) 64

/-- The 64 ciphertext bytes of a line as stored (R192). -/
def lineCipherBytes (s : State) (ppa : Nat) : List Byte :=
  let m := metaGet s ppa
  leBytes 64 (Config.lineCipher m.keySlot m.keyGen (ppa / 64 * 64) (memBytes s (ppa / 64 * 64) 64)).toNat

/-- PARITY of the ciphertext (R162): bit i is the inverse of the XOR of word i's bits, inverted once more
where the word is poisoned. -/
def lineParity (cipher : List Byte) (poison : BitVec 16) : Nat :=
  ((upto 16).map (fun i =>
    let ones := ((upto 4).map (fun j => popN 8 (byteAt cipher (4 * i + j)).toNat)).sum
    let p := if ones % 2 = 0 then 1 else 0
    (if poison.getLsbD i then 1 - p else p) * 2 ^ i)).sum

/-- The 128 metadata bits of a line as stored (R161). -/
def lineMetaBits (s : State) (ppa : Nat) : Nat :=
  let m := metaGet s ppa
  let c := lineCipherBytes s ppa
  let tag := Config.lineTag m.keySlot m.keyGen (ppa / 64 * 64) m.owner (BitVec.ofNat 512 (leNat c))
  lineParity c m.poison + m.owner.toNat * 2 ^ 16 + tag.toNat * 2 ^ 32 + m.keySlot * 2 ^ 96

/-! ## Line writes (R164, R132) -/

/-- The key slot and key generation a pitch's lines are encrypted under (R197). -/
def pitchKey (s : State) (n : Nat) : Nat × Nat :=
  match (pkGet s n).slot with
  | some k => (k, (slotGet s k).gen)
  | none => (0, 0)

/-- Write bytes at `ppa`, all of them inside one line, for pitch `n` with OWNER `ctx` (R164): a FREE line is
merged with zero bytes and claimed. -/
def lineWrite (s : State) (n : Nat) (ctx : BitVec 16) (ppa : Nat) (bs : List Byte) : State :=
  let base := ppa / 64 * 64
  let free := (metaGet s ppa).owner = 0xFFFF
  let s1 := if free then bump (memPut s base (zeros 64)) .mceFreeClaim (chanOf s ppa) 0 n else s
  let k := pitchKey s n
  metaPut (memPut s1 ppa bs) ppa { owner := ctx, keySlot := k.1, keyGen := k.2 }

/-- SWP's write of a line (R36): zero plaintext under the system key, owner FREE. -/
def lineFree (s : State) (ppa : Nat) : State :=
  metaPut (memPut s (ppa / 64 * 64) (zeros 64)) ppa {}

/-- Remove every entry of a table between two keys. -/
def tclear {α : Type} (t : Tab α) (lo hi : Nat) : Tab α := t.filter (fun e => e.1 < lo ∨ hi ≤ e.1)

/-- Every line of a granule as SWP leaves it (R36 step 4, R185). -/
def granuleFree (s : State) (g : Nat) : State :=
  dmcMod s (fun d => { d with mem := tclear d.mem (g * 0x40000000) ((g + 1) * 0x40000000),
                              meta_ := tclear d.meta_ (g * 0x1000000) ((g + 1) * 0x1000000) })

/-! ## Channel queues (R166 to R171) -/

/-- Service class of a pitch's traffic (R166), one lower when coloured yellow. -/
def svcClass (s : State) (n : Nat) (yellow : Bool) : Nat :=
  (if n = 0 then 0 else if pWalled s n then 1 else 2) + b2n yellow

/-- The memory gate list of a group runs and its interval is owned (R175); 0 is OPEN. -/
def windowOwner (s : State) (group : Nat) : Nat := (tget {} s.tmg.lists (8 + group)).owner

/-- Does a walled pitch hold memory windows in a group (R176)? -/
def hasWindows (s : State) (n group : Nat) : Bool :=
  let l := tget {} s.tmg.lists (8 + group)
  l.start.isSome && l.active.any (fun e => e.2.toNat % 256 = n)

/-- Refresh instants before a time (R173). -/
def refreshesBefore (s : State) (t : Nat) : Nat :=
  match s.dmc.refreshNext with
  | none => 0
  | some r => if t ≤ r then 0 else (t - r - 1) / (if s.dmc.hot then 1950 else 3900) + 1

/-- Time until the running interval of a group's memory gate list closes. -/
def windowLeft (s : State) (group : Nat) : Nat :=
  let l := tget {} s.tmg.lists (8 + group)
  match l.start with
  | none => 0
  | some t => t + (((l.active[l.entry]?).map (fun e => bitsOf e.1 0 24)).getD 0) * 8 - cd10Total s

/-- May one more request of the owner enter the window reserve (R176)? -/
def windowAdmits (s : State) (c n : Nat) : Bool :=
  let ch := chGet s c
  let left := windowLeft s (c / 4)
  let waiting := (ch.queue.filter (fun q => q.pitch.toNat = n ∧ !q.held)).length
  decide ((waiting + 1) * ch.geom.tRc + ch.geom.tRp + refreshesBefore s (s.now + left) * ch.geom.tRfc ≤ left)

/-- Two accesses of a bank in conflict put it in in-order mode (R170). -/
def noteInorder (s : State) (c line : Nat) (write : Bool) : State :=
  let ch := chGet s c
  let br := bankRow s line
  let clash := if write then ch.queue.any (fun q => bankRow s q.line = br)
               else ch.wbuf.any (fun w => bankRow s w.line = br)
  if clash ∧ br.1 ∉ ch.inorder then
    bump (chMod s c (fun ch => { ch with inorder := ch.inorder ++ [br.1] })) .dmcInorder c 0 0
  else s

/-- A line read enters its channel's queue, or waits at the slice for its pitch's window (R176). -/
def dmcRead (s : State) (line cls n : Nat) (check : Bool) (who : Option (FlowId × BitVec 24)) : State :=
  let c := chanOf s line
  let hold := decide (n ≠ 0) && hasWindows s n (c / 4) && !(decide (windowOwner s (c / 4) = n) && windowAdmits s c n)
  let s0 := noteInorder s c line false
  let s1 := if (chGet s c).queue.any (fun q => q.check && decide (q.line = line)) then bump s0 .dmcLockWait c 0 0 else s0
  let s2 := if check then bump s1 .dmcRmwRd c 0 n else s1
  let s3 := if hold then bump s2 .dmcWinHold c 0 n else s2
  let q : DmcReq :=
    { line := line, cls := cls, pitch := BitVec.ofNat 8 n, check := check, arrived := s.now, held := hold,
      who := who }
  chMod s3 c (fun ch => { ch with queue := ch.queue ++ [q] })

/-- A line write enters its channel's write buffer; from 48 lines on, writes go before reads until 16 are
left (R167, R169). -/
def dmcWrite (s : State) (line cls n : Nat) : State :=
  let c := chanOf s line
  let s1 := noteInorder s c line true
  chMod s1 c (fun ch =>
    let e : WbLine := { line := line, cls := cls, pitch := BitVec.ofNat 8 n, arrived := s.now }
    let w := ch.wbuf ++ [e]
    { ch with wbuf := w, drainWrites := ch.drainWrites || decide (48 ≤ w.length) })

/-- Lines of 64 bytes that a range touches. -/
def linesOf (ppa len : Nat) : List Nat :=
  if len = 0 then []
  else (upto ((ppa + len - 1) / 64 - ppa / 64 + 1)).map (fun i => (ppa / 64 + i) * 64)

end Sys2Proof.Machine
end

