-- ==== Sys2Proof/Machine/Translate.lean ====
section
/-! DEFINITION. Contexts, master tables, page tables, translation caches and handles (R121 to R145). -/
namespace Sys2Proof.Machine

/-! ## Master tables (R127 to R130) -/

def mtDefault (i : Nat) : List Word :=
  if (4128 ≤ i ∧ i ≤ 4131) ∨ (4133 ≤ i ∧ i ≤ 4144 ∧ i ≠ 4132) then 1 :: List.replicate 15 0
  else List.replicate 16 0

/-- The 16 words of an entry; a number above 4,223 reads as an entry with every field 0 (R149). -/
def mtGet (s : State) (i : Nat) : List Word := (tfind s.act.mt i).getD (mtDefault i)

def mtPut (s : State) (i : Nat) (w : List Word) : State := actMod s (fun a => { a with mt := tins a.mt i w })

/-- Word of a remote entry that holds a context (R128). -/
def mtWord (ctx : BitVec 16) (groups : Byte) : Word :=
  BitVec.ofNat 32 (ctx.toNat + groups.toNat * 65536 + 16777216)

def wordValid (w : Word) : Bool := bitOf w 24
def wordCtx (w : Word) : BitVec 16 := BitVec.ofNat 16 (bitsOf w 0 16)
def wordGroups (w : Word) : Byte := BitVec.ofNat 8 (bitsOf w 16 8)

/-- The VALID word of an endpoint that holds a context. -/
def ctxWord (s : State) (i : Nat) (ctx : BitVec 16) : Option Word :=
  (mtGet s i).find? (fun w => wordValid w && decide (wordCtx w = ctx))

/-- Clear the words of an entry whose context satisfies a test. -/
def mtRemove (s : State) (i : Nat) (p : BitVec 16 → Bool) : State :=
  let w := (mtGet s i).map (fun w => if wordValid w && p (wordCtx w) then 0 else w)
  actMod s (fun a => { a with mt := if w.all (fun x => x = 0) then tdel a.mt i else tins a.mt i w })

/-- Endpoints with an entry in the master table. -/
def mtEndpoints (s : State) : List Nat := (s.act.mt.filter (fun e => e.1 < 4096)).map (·.1)

/-- Opcode group bit of GROUPS (R76): memory, atomics, bulk, translation, sync, collectives, kernels,
trust. -/
def groupBit (op : Byte) : Nat := if 0x78 ≤ op.toNat then 7 else op.toNat / 16

/-- Does an endpoint's entry hold a context with an opcode's group? -/
def groupOk (s : State) (i : Nat) (ctx : BitVec 16) (op : Byte) : Bool :=
  match ctxWord s i ctx with
  | some w => (wordGroups w).getLsbD (groupBit op)
  | none => false

/-- A window of an internal entry (R129). -/
structure Window where
  pitch : Nat := 0
  r : Bool := false
  w : Bool := false
  a : Bool := false
  first : Nat := 0
  last : Nat := 0
deriving DecidableEq, Repr

def windowWords (v : Window) : List Word :=
  [BitVec.ofNat 32 (v.pitch + b2n v.r * 256 + b2n v.w * 512 + b2n v.a * 1024 + 2048),
   BitVec.ofNat 32 (v.first + v.last * 65536)]

/-- Write the windows of an internal entry, at most four (R129). -/
def setWindows (s : State) (i : Nat) (vs : List Window) : State :=
  let w0 := (mtDefault i).take 1
  mtPut s i ((w0 ++ (vs.take 4).flatMap windowWords ++ List.replicate 16 0).take 16)

def clearWindows (s : State) (i : Nat) : State := actMod s (fun a => { a with mt := tdel a.mt i })

/-- Windows in use of an internal entry. -/
def windowsOf (s : State) (i : Nat) : List Window :=
  (upto 4).filterMap (fun k =>
    let a := ((mtGet s i)[1 + 2 * k]?).getD 0
    let b := ((mtGet s i)[2 + 2 * k]?).getD 0
    if bitOf a 11 then
      some { pitch := bitsOf a 0 8, r := bitOf a 8, w := bitOf a 9, a := bitOf a 10,
             first := bitsOf b 0 13, last := bitsOf b 16 13 }
    else none)

/-- May a pitch master reach a range (R130)? -/
def windowOk (s : State) (i n pva len : Nat) (write : Bool) : Bool :=
  decide (0 < len) && (windowsOf s i).any (fun v => decide (v.pitch = n) && (if write then v.w else v.r) &&
    decide (v.first * 0x40000000 ≤ pva) && decide (pva + len ≤ (v.last + 1) * 0x40000000))

/-! ## Page tables (R133 to R135) -/

/-- Entry of a pitch at a level: key PVA >> 36, 30, 21, 16 for levels 3, 2, 1, 0. -/
def ptGet (s : State) (n level ix : Nat) : DWord := (aget s.act.pt (n, level, ix)).getD 0
def ptPut (s : State) (n level ix : Nat) (e : DWord) : State :=
  actMod s (fun a => { a with pt := if e = 0 then adel a.pt (n, level, ix) else aput a.pt (n, level, ix) e })

def levelShift (level : Nat) : Nat :=
  if level = 3 then 36 else if level = 2 then 30 else if level = 1 then 21 else 16

def pageSize (level : Nat) : Nat := 2 ^ levelShift level

def entV (e : DWord) : Bool := e.getLsbD 0
def entLeaf (e : DWord) : Bool := e.getLsbD 1
def entRo (e : DWord) : Bool := e.getLsbD 2
def entCocoon (e : DWord) : Bool := e.getLsbD 3
def entSync (e : DWord) : Bool := e.getLsbD 4
/-- PPA of a leaf or table. -/
def entAddr (e : DWord) : Nat := bitsOf e 8 36 * 256

/-- A leaf for a page at a PPA with the attribute bits RO, COCOON, SYNC (R134). -/
def mkLeaf (ppa : Nat) (ro cocoon sync : Bool) : DWord :=
  BitVec.ofNat 64 (3 + b2n ro * 4 + b2n cocoon * 8 + b2n sync * 16 + ppa / 256 * 256)

/-- A pointer to a table at the next level, where firmware places it (log 10). -/
def mkPointer (n level ix : Nat) : DWord :=
  BitVec.ofNat 64 (1 + (Config.ptPlace n level ix).toNat * 256)

/-- A malformed entry (R134) at a level for a PVA. -/
def entBad (level pva : Nat) (e : DWord) : Bool :=
  entV e && ((entLeaf e && decide (level = 3)) || (!entLeaf e && decide (level = 0)) ||
    decide (bitsOf e 5 3 ≠ 0) || decide (bitsOf e 44 20 ≠ 0) ||
    (entLeaf e && (decide (entAddr e % pageSize level ≠ 0) ||
      decide (entAddr e / 65536 % 2 ^ 14 ≠ pva / pageSize level * pageSize level / 65536 % 2 ^ 14))))

/-- What a table walk finds for a PVA. -/
inductive Walk where
  | leaf (level : Nat) (e : DWord)
  | unmapped
  | malformed
deriving DecidableEq, Repr

/-- Walk from a level downward (R133). -/
def walkFrom (s : State) (n pva : Nat) : Nat → Walk
  | 0 =>
    let e := ptGet s n 0 (pva / 65536)
    if !entV e then .unmapped else if entBad 0 pva e then .malformed else .leaf 0 e
  | l + 1 =>
    let e := ptGet s n (l + 1) (pva / pageSize (l + 1))
    if !entV e then .unmapped
    else if entBad (l + 1) pva e then .malformed
    else if entLeaf e then .leaf (l + 1) e
    else walkFrom s n pva l

def walk (s : State) (n pva : Nat) : Walk := walkFrom s n pva 3

/-- Map a slot as a 1 GiB leaf (R135). -/
def mapSlot (s : State) (n slot gran : Nat) (sync : Bool) : State :=
  ptPut (ptPut s n 3 (slot / 64) (mkPointer n 3 (slot / 64))) n 2 slot (mkLeaf (gran * 0x40000000) false false sync)

/-- Remove every entry of a slot (R135). -/
def unmapSlot (s : State) (n slot : Nat) : State :=
  actMod s (fun a => { a with pt := a.pt.filter (fun e =>
    !(decide (e.1.1 = n) && ((decide (e.1.2.1 = 2) && decide (e.1.2.2 = slot)) ||
      (decide (e.1.2.1 = 1) && decide (e.1.2.2 / 512 = slot)) ||
      (decide (e.1.2.1 = 0) && decide (e.1.2.2 / 16384 = slot))))) })

/-- Split the leaf over a PVA down to 64 KiB leaves with its attributes: the new lower tables first, the
upper entry last (R135). -/
def splitPage (s : State) (n pva : Nat) : State :=
  let split1 (s : State) (e : DWord) : State :=
    -- a 1 GiB leaf into 512 leaves of 2 MiB
    let slot := pva / 0x40000000
    let s1 := foldN 512 (fun s i => ptPut s n 1 (slot * 512 + i)
      (mkLeaf (entAddr e + i * 0x200000) (entRo e) (entCocoon e) (entSync e))) s
    ptPut s1 n 2 slot (mkPointer n 2 slot)
  let split0 (s : State) (e : DWord) : State :=
    let p := pva / 0x200000
    let s1 := foldN 32 (fun s i => ptPut s n 0 (p * 32 + i)
      (mkLeaf (entAddr e + i * 0x10000) (entRo e) (entCocoon e) (entSync e))) s
    ptPut s1 n 1 p (mkPointer n 1 p)
  match walk s n pva with
  | .leaf 2 e =>
    let s1 := split1 s e
    split0 s1 (ptGet s1 n 1 (pva / 0x200000))
  | .leaf 1 e => split0 s e
  | _ => s

/-- A change of a pitch's pages that the slices must confirm (R135). -/
def ptChanged (s : State) (n base size : Nat) : State :=
  actMod s (fun a => { a with changes := a.changes ++ [{ pitch := BitVec.ofNat 8 n, base := base, size := size }] })

/-- Set attributes on every 64 KiB page of a range (R135): COCOON and RO of a cocoon, SYNC of a region. -/
def setPageAttrs (s : State) (n base len : Nat) (ro cocoon sync : Bool) : State :=
  foldN (len / 65536) (fun s i =>
    let pva := base + i * 65536
    let s1 := splitPage s n pva
    match walk s1 n pva with
    | .leaf 0 e => ptPut s1 n 0 (pva / 65536)
        (mkLeaf (entAddr e) (entRo e || ro) (entCocoon e || cocoon) (entSync e || sync))
    | _ => s1) s

/-! ## Translation (R136 to R139) -/

/-- A piece of a range in one page. -/
structure Piece where
  pva : Nat := 0
  ppa : Nat := 0
  len : Nat := 0
  entry : DWord := 0
deriving DecidableEq, Repr

/-- The cached leaf of a slice that covers a PVA (R137). -/
def tlbFind (s : State) (slice n pva : Nat) : Option TlbEnt :=
  (tget [] s.act.tlb slice).find? (fun e => decide (e.pitch.toNat = n) && decide (e.page = pva / pageSize e.level))

/-- Cache a leaf; the oldest of 8,192 leaves goes (R137, log 11). -/
def tlbInsert (s : State) (slice : Nat) (e : TlbEnt) : State :=
  let l := tget [] s.act.tlb slice
  let l1 := if 8192 ≤ l.length then l.drop 1 else l
  actMod s (fun a => { a with tlb := tset [] a.tlb slice (l1 ++ [e]) })

/-- Pieces of a range from the lead slice's cache, or the 64 KiB page of the first miss in each page that
misses. -/
def pieces (s : State) (slice n : Nat) : Nat → Nat → Nat → List Piece × List Nat
  | 0, _, _ => ([], [])
  | fuel + 1, pva, len =>
    if len = 0 then ([], [])
    else
      match tlbFind s slice n pva with
      | some e =>
        let room := pageSize e.level - pva % pageSize e.level
        let here := min room len
        let r := pieces s slice n fuel (pva + here) (len - here)
        ({ pva := pva, ppa := entAddr e.entry + pva % pageSize e.level, len := here, entry := e.entry } :: r.1, r.2)
      | none =>
        let here := min (65536 - pva % 65536) len
        let r := pieces s slice n fuel (pva + here) (len - here)
        (r.1, pva / 65536 :: r.2)

def translate (s : State) (slice n pva len : Nat) : List Piece × List Nat :=
  pieces s slice n (len / 65536 + 2) pva len

/-- Channels that a pool-physical range touches. -/
def chansOfRange (s : State) (ppa len : Nat) : List Nat :=
  let blocks := (ppa + len - 1) / 4096 - ppa / 4096 + 1
  (upto (min blocks 8)).foldl (fun acc i => insertNat (chanOf s ((ppa / 4096 + i) * 4096)) acc) []

/-- Step 2 of R139 on the units of a translated range: NOT_MAPPED before FENCED before RETRY. An OFF unit
does not serve and is answered as a FENCED one (log 15). -/
def unitsVerdict (s : State) (ps : List Piece) : Option Nat :=
  let cs := ps.flatMap (fun p => chansOfRange s p.ppa p.len)
  let some_ (c : Nat) (a : Actual) : Bool := decide (uAct s (uChan c) = a) || decide (uAct s (uSlice c) = a)
  if cs.any (fun c => decide (uAct s (uGroup (c / 4)) = .retired) || some_ c .retired) then some stNotMapped
  else if cs.any (fun c => some_ c .fenced || some_ c .off || decide (uAct s (uGroup (c / 4)) = .fenced)) then some stFenced
  else if cs.any (fun c => some_ c .training) then some stRetry
  else none

/-- Slot of a PVA held by a pitch, with its granule (R121). -/
def slotGran (s : State) (n pva : Nat) : Option Nat :=
  if pva < 2 ^ 43 then tfind (pGet s n).slots (pva / 0x40000000) else none

/-- Lead slice of a range: the slice that owns its first byte (R136). -/
def leadSlice (s : State) (n pva : Nat) : Nat :=
  match slotGran s n pva with
  | some g => chanOf s (g * 0x40000000 + pva % 0x40000000)
  | none => 0

/-! ## Handles (R140 to R143) -/

def handleKey (slice entry : Nat) : Nat := slice * 16384 + entry
def hGet (s : State) (k : Nat) : Handle := tget {} s.act.handles k
def hPut (s : State) (k : Nat) (h : Handle) : State :=
  actMod s (fun a => { a with handles := tset {} a.handles k h })

/-- A handle's 64 bits (R140). -/
def handleBits (gen : BitVec 16) (key offset : Nat) : Nat :=
  gen.toNat * 2 ^ 48 + key / 16384 * 2 ^ 44 + key % 16384 * 2 ^ 30 + offset

/-- The entry a handle names if it is valid for an endpoint and context (R141): in use, not recalled, GEN
matches. -/
def handleFind (s : State) (h : Nat) (ep : BitVec 12) (ctx : BitVec 16) : Option (Nat × Handle) :=
  let key := h / 2 ^ 30 % 2 ^ 18
  let e := hGet s key
  if e.used ∧ !e.recalled ∧ e.gen.toNat = h / 2 ^ 48 ∧ e.endpoint = ep ∧ e.context = ctx then some (key, e)
  else none

/-- Mark entries invalid: GEN increases by 1 each time (R143). -/
def hInvalidate (s : State) (k : Nat) : State :=
  let e := hGet s k
  if e.recalled then s else hPut s k { e with recalled := true, gen := e.gen + 1 }

/-- Free an entry for reuse. -/
def hFree (s : State) (k : Nat) : State :=
  let e := hGet s k
  hPut s k { gen := if e.used && !e.recalled then e.gen + 1 else e.gen }

/-- Entries in use that satisfy a test. -/
def hWhere (s : State) (p : Handle → Bool) : List Nat :=
  (s.act.handles.filter (fun e => e.2.used && p e.2)).map (·.1)

/-- Invalidate and free at once, with no recall (DETACH, fold: R142). -/
def hDropWhere (s : State) (p : Handle → Bool) : State :=
  let ks := hWhere s p
  let s1 := foldS ks s hFree
  actMod s1 (fun a => { a with recalls := (a.recalls.map (fun r =>
    { r with keys := r.keys.filter (fun k => k ∉ ks) })).filter (fun r => !r.keys.isEmpty) })

/-- Split a list of handles into messages of at most 64 (R142 step 2). -/
def chunk64 : Nat → List Nat → List (List Nat)
  | 0, _ => []
  | n + 1, l => if l.isEmpty then [] else l.take 64 :: chunk64 n (l.drop 64)

/-- Start a recall of entries (R142 steps 1 and 2): mark them invalid and send XLATE_INVAL to each holder,
at most 64 handles a message, in the data class of the pitch (R66). -/
def recallStart (s : State) (keys : List Nat) : State :=
  let ks := keys.filter (fun k => (hGet s k).used && !(hGet s k).recalled)
  let holders := (ks.map (fun k => ((hGet s k).endpoint, (hGet s k).context))).foldl
    (fun acc h => if h ∈ acc then acc else acc ++ [h]) []
  foldS holders s (fun s h =>
    let mine := ks.filter (fun k => (hGet s k).endpoint = h.1 ∧ (hGet s k).context = h.2)
    let n := match mine with
      | k :: _ => (hGet s k).pitch
      | [] => 0
    let bits := mine.map (fun k => handleBits (hGet s k).gen k 0)
    let s1 := foldS mine s (fun s k => bump (hInvalidate s k) .actRecall (k / 16384) 0 n.toNat)
    let s2 := actMod s1 (fun a => { a with recalls := a.recalls ++
      [{ endpoint := h.1, context := h.2, pitch := n, keys := mine, start := s.now }] })
    let tc := dataClass s n.toNat
    foldS (chunk64 (bits.length + 1) bits) s2 (fun s l =>
      ctlSend s (.ep h.1 n tc)
        (toEndpoint s 0x31 h.1 n tc h.2 0 (l.flatMap (fun b => beBytes 8 b))) (.xlateInval h.1 h.2)))

/-- Revoke (R142 step 4): stop resending, take the context from the holder's entry, free the entries, write
record 35h. -/
def revoke (s : State) (ep : BitVec 12) (ctx : BitVec 16) : State :=
  match s.act.recalls.find? (fun r => decide (r.endpoint = ep) && decide (r.context = ctx)) with
  | none => s
  | some r =>
    let id := FlowId.ep ep r.pitch (dataClass s r.pitch.toNat)
    let c := ctlGet s id
    let s1 := ctlPut s id { c with reqs := c.reqs.filter (fun q => q.origin ≠ .xlateInval ep ctx) }
    let s2 := mtRemove s1 ep.toNat (fun x => x = ctx)
    let s3 := foldS (s2.act.recalls.filter (fun q => q.endpoint = ep ∧ q.context = ctx)) s2
      (fun s q => foldS q.keys s hFree)
    let s4 := actMod s3 (fun a => { a with recalls := a.recalls.filter (fun q => !(decide (q.endpoint = ep) &&
      decide (q.context = ctx))) })
    let s5 := bump s4 .actRevoke (match r.keys with | k :: _ => k / 16384 | [] => 0) 0 r.pitch.toNat
    faultRec (trkReopen s5) { agent := tptAgent, cause := 0x35, cls := clsFailed, pitch := some r.pitch.toNat, lo := ep.toNat }

/-- One change is confirmed by every slice (R135): the pages leave the caches, handles over them are
recalled. -/
def changeConfirmed (s : State) (c : PtChange) : State :=
  let hit (base size : Nat) : Bool := decide (base < c.base + c.size) && decide (c.base < base + size)
  let s1 := actMod s (fun a => { a with tlb := (a.tlb.map (fun e => (e.1, e.2.filter (fun t =>
    !(decide (t.pitch = c.pitch) && hit (t.page * pageSize t.level) (pageSize t.level)))))).filter (fun e => !e.2.isEmpty) })
  recallStart s1 (hWhere s1 (fun h => decide (h.pitch = c.pitch) && !h.recalled && hit h.pva h.cover))

end Sys2Proof.Machine
end

