-- ==== Sys2Proof/Machine/GridLib.lean ====
section
/-! DEFINITION. Sessions of the kernel grid as other blocks see them: their records, their end, KERNEL_EVENT, the
clearing of their cores, completed stage commands (R284 to R308). -/
namespace Sys2Proof.Machine

def grdMod (s : State) (f : Grd → Grd) : State := { s with grd := f s.grd }
def sessGet (s : State) (ix : Nat) : KSess := tget {} s.grd.sess ix
def sessPut (s : State) (ix : Nat) (k : KSess) : State := grdMod s (fun g => { g with sess := tset {} g.sess ix k })
def coreGet (s : State) (c : Nat) : Core := tget {} s.grd.cores c
def corePut (s : State) (c : Nat) (k : Core) : State := grdMod s (fun g => { g with cores := tset {} g.cores c k })
def quadGet (s : State) (q : Nat) : Quad := tget {} s.grd.quads q
def quadPut (s : State) (q : Nat) (k : Quad) : State := grdMod s (fun g => { g with quads := tset {} g.quads q k })

/-- R291. -/
def kCode : KState → Nat
  | .queued => 1 | .loading => 2 | .running => 3 | .done => 4 | .failed => 5

/-- Slot of the record that holds a session number. -/
def sessFind (s : State) (number : Nat) : Option Nat :=
  (s.grd.sess.find? (fun e => e.2.number = number)).map (·.1)

/-! ## Positions (R277, R286) -/

/-- Column and row of core GCn: the index is 8 · row + column (R12). -/
def coreX (n : Nat) : Nat := n % 8
def coreY (n : Nat) : Nat := n / 8
/-- The core at a column and row. -/
def coreAt (x y : Nat) : Nat := 8 * y + x
/-- The quad of a core (R12), and the core's number in its quad (R277). -/
def quadOf (n : Nat) : Nat := 4 * (coreY n / 2) + coreX n / 2
def coreIn (n : Nat) : Nat := 2 * (coreY n % 2) + coreX n % 2
/-- Core i of quad q (R277). -/
def quadCore (q i : Nat) : Nat := coreAt (2 * (q % 4) + i % 2) (2 * (q / 4) + i / 2)

/-- Quads of a session, ascending. -/
def sessQuads (k : KSess) : List Nat := k.cores.foldl (fun acc c => insertNat (quadOf c) acc) []

/-- Cores that some session holds (R291): from LOADING until they are cleared. -/
def heldCores (s : State) : List Nat :=
  s.grd.sess.flatMap (fun e => if e.2.state = .queued ∨ e.2.cleared then [] else e.2.cores ++ e.2.reserved)

/-- Is a session in LOADING or RUNNING? -/
def sessLive (k : KSess) : Bool := decide (k.state = .loading ∨ k.state = .running)

/-! ## Ends (R291, R293, R294, R305) -/

/-- STATE of KERNEL_QUERY (R293). -/
def kStateWord (k : KSess) : Nat := kCode k.state + k.cause * 256 + k.clkSteps * 65536

/-- KERNEL_EVENT to the launching endpoint (R293). -/
def sendKernelEvent (s : State) (k : KSess) : State :=
  let status := if k.state = .done then 0x00 else stSessFailed
  let pay := beBytes 2 k.number ++ [BitVec.ofNat 8 status, 0] ++ beBytes 8 k.cycles
  ctlSend s (.ep k.endpoint k.pitch k.cls) (toEndpoint s 0x63 k.endpoint k.pitch k.cls k.context 0 pay) (.kernelEvent k.number)

/-- The windows of stage engines that a session wrote are cleared (R129). -/
def clearStageWindows (s : State) (k : KSess) : State :=
  foldS (sessQuads k) s (fun s q =>
    setWindows s (4096 + q) ((windowsOf s (4096 + q)).filter (fun w => !(decide (w.pitch = k.pitch.toNat) &&
      k.windows.any (fun v => decide (v.first = w.first) && decide (v.last = w.last))))))

/-- Trace record of KIND SESSION of a session that ended (R483): state, number, CYCLES. -/
def traceSess (s : State) (k : KSess) : State :=
  trace s 6 k.pitch.toNat grdAgent 0
    ([0, BitVec.ofNat 8 (kCode k.state), 0, 0] ++ leBytes 4 k.number ++ leBytes 8 k.cycles)

/-- Commands of a session leave the stage queues (R305). -/
def dropStage (s : State) (k : KSess) : State :=
  foldS (sessQuads k) s (fun s q => quadPut s q { quadGet s q with queue := (quadGet s q).queue.filter (fun c => c.session ≠ k.number) })

/-- Fault code of a failure cause (R413): 22h for a collision, hazard or illegal encoding, 00h where the
table has none (log 18). -/
def kCauseCode (cause : Nat) : Nat :=
  if cause = 4 ∨ cause = 8 ∨ cause = 9 then 0x22 else if cause = 5 then 0x20 else if cause = 6 then 0x21 else 0

/-- A RUNNING session ends, DONE (cause 0) or FAILED: its record, event, counters and windows. -/
def endSessBase (s : State) (ix cause : Nat) (core : Option Nat) (status : Nat) : State :=
  let k := sessGet s ix
  if k.state ≠ .running then s
  else
    let n := k.pitch.toNat
    let k1 : KSess :=
      { k with state := if cause = 0 then .done else .failed, cause := cause, ended := s.now, stageStatus := status,
               faultCore := core, lands := [], flits := [], issuing := [] }
    let s1 := clearStageWindows (dropStage (sessPut s ix k1) k1) k1
    let s2 := traceSess (bump s1 (if cause = 0 then .grdDone else .grdFailed) 0 0 n) k1
    let s3 := if cause = 4 then bump s2 .grdCollision 0 0 n else s2
    let s4 := if cause = 0 then s3 else
      faultRec s3 { agent := grdAgent, sub := core.getD 0, cause := kCauseCode cause, cls := clsFailed, pitch := some n, lo := k.number }
    if k1.notify then sendKernelEvent s4 k1 else s4

/-- A queued or loading launch ends without a record: answered, its cores to be cleared (R291). A deadline
or a strike does not count as a refusal. -/
def dropLaunch (s : State) (ix status : Nat) : State :=
  let k := sessGet s ix
  let s1 := match k.req with
    | some r => answer (if status = stSessFailed ∨ status = stPitchDown then s
                        else bump s .grdLaunchRefused 0 0 k.pitch.toNat) r status []
    | none => s
  let s2 := grdMod (clearStageWindows s1 k) (fun g => { g with queue := g.queue.filter (fun x => x ≠ ix) })
  let keep (c : Nat) : Bool := decide (k.state = .queued) || decide (c ∉ k.cores)
  grdMod s2 (fun g => { g with sess := tdel g.sess ix, cores := g.cores.filter (fun e => keep e.1) })

/-- Clear what an ended session left in its cores and engines (R294). -/
def clearSess (s : State) (ix : Nat) : State :=
  let k := sessGet s ix
  let s1 := grdMod s (fun g => { g with cores := g.cores.filter (fun e => e.1 ∉ k.cores) })
  let s2 := foldS k.engines s1 (fun s q => quadPut s q { quadGet s q with opbuf := [], acc := [], mx := [], busyTo := 0 })
  sessPut s2 ix { sessGet s2 ix with cleared := true }

/-! ## Stage commands (R295, R296) -/

/-- A stage command completes: its tag's count. -/
def stageComplete (s : State) (ix : Nat) (c : StageCmd) : State :=
  let k := sessGet s ix
  let n := k.pitch.toNat
  let len := c.rows * c.rowLen
  let s1 := quadPut s c.quad { quadGet s c.quad with queue := (quadGet s c.quad).queue.filter (fun x => x.ticket ≠ c.ticket) }
  let s2 := bumpN s1 (if c.out then .grdStageOut else .grdStageIn) 0 0 n len
  sessPut s2 ix { k with completed := tset 0 k.completed c.tag (tget 0 k.completed c.tag + 1) }

/-- The mirror frames of a stage-out are answered (R422): the command completes. -/
def stageDone (s : State) (session ticket : Nat) : State :=
  match sessFind s session with
  | none => s
  | some ix =>
    match ((sessQuads (sessGet s ix)).flatMap (fun q => (quadGet s q).queue)).find? (fun c => c.ticket = ticket ∧ c.moved) with
    | some c => stageComplete s ix c
    | none => s

end Sys2Proof.Machine
end

