-- ==== Sys2Proof/Machine/CollLib.lean ====
section
/-! DEFINITION. Collective records as other blocks see them, and the failures that pass between a record and its
kernel session (R258 to R274, R300). -/
namespace Sys2Proof.Machine

def clxMod (s : State) (f : Clx → Clx) : State := { s with clx := f s.clx }
def recGet (s : State) (ix : Nat) : CollRec := tget {} s.clx.recs ix
def recPut (s : State) (ix : Nat) (r : CollRec) : State := clxMod s (fun c => { c with recs := tins c.recs ix r })

/-- R260. -/
def collCode : CollState → Nat
  | .waiting => 1 | .running => 2 | .done => 3 | .failed => 4

def collOpen (r : CollRec) : Bool := decide (r.state = .waiting ∨ r.state = .running)

/-- Record of a pitch with an ID (R247). -/
def recFind (s : State) (n id : Nat) : Option Nat :=
  (s.clx.recs.find? (fun e => e.2.pitch.toNat = n ∧ e.2.desc.id = id)).map (·.1)

/-- Bytes of an element type (R250). -/
def typeBytes (t : Nat) : Nat := if t = 0 then 4 else if t = 1 ∨ t = 2 then 2 else 1

def isMx (t : Nat) : Bool := decide (0x10 ≤ t)

/-- Bytes a record writes at DEST_BASE (R253, R259). -/
def destBytes (d : CollDesc) : Nat :=
  let e := d.size / typeBytes d.inT
  if isMx d.outT then (if d.outT = 0x12 then e / 2 else e) + e / 32 else e * typeBytes d.outT

/-- Windows of the CLX lanes (R129): the work and destination ranges of the open records whose slot falls on
the lane (log 19). -/
def clxWindows (s : State) (lane : Nat) : State :=
  let mine := s.clx.recs.filter (fun e => e.1 % 16 = lane)
  let win (n base len : Nat) : Window :=
    { pitch := n, r := true, w := true, first := base / 0x40000000, last := (base + len - 1) / 0x40000000 }
  let vs := mine.flatMap (fun e =>
    let d := e.2.desc
    (if d.workSize = 0 then [] else [win e.2.pitch.toNat d.workBase d.workSize]) ++
      (if d.toMemory ∨ d.toKernel then [win e.2.pitch.toNat d.destBase (destBytes d)] else []))
  if vs.isEmpty then clearWindows s (4112 + lane) else setWindows s (4112 + lane) vs

/-- A record is freed with its windows (R260). -/
def freeRec (s : State) (ix : Nat) : State :=
  clxWindows (clxMod s (fun c => { c with recs := tdel c.recs ix })) (ix % 16)

/-- COLL_CLOSE with ABORT to a neighbour (R257, R273). -/
def sendAbort (s : State) (r : CollRec) (g : CollNeigh) : State :=
  ctlSend s (.ep g.endpoint r.pitch 4)
    (toEndpoint s 0x54 g.endpoint r.pitch 4 g.context 0 (beBytes 4 (r.desc.id + 2 ^ 31))) (.collClose r.desc.id r.pitch)

/-- The held COLL_CLOSE requests of a record that has ended are answered; an answered close of the opener
frees it (R260, R261). -/
def answerCloses (s : State) (ix : Nat) : State :=
  let r := recGet s ix
  let st := if r.state = .done then stOk else stSessFailed
  let s1 := foldS r.closes s (fun s q => answer s q st [])
  let s2 := recPut s1 ix { r with closes := [] }
  if r.closes.any (fun q => q.endpoint = r.opener) then freeRec s2 ix else s2

/-- Trace record of KIND SESSION of a record that ended (R483). -/
def traceColl (s : State) (r : CollRec) : State :=
  trace s 6 r.pitch.toNat clxAgent 0
    ([1, BitVec.ofNat 8 (collCode r.state), 0, 0] ++ leBytes 4 r.desc.id ++ leBytes 8 r.done)

/-- A record fails with a cause (R273): ABORT to every neighbour but one, its record, its held closes. -/
def failRecBase (s : State) (ix cause : Nat) (but : Option (BitVec 12)) : State :=
  let r := recGet s ix
  if !collOpen r then s
  else
    let n := r.pitch.toNat
    let r1 := { r with state := .failed, cause := cause, ended := s.now, chunks := [] }
    let s1 := traceColl (bump (recPut s ix r1) .clxFailed 0 0 n) r1
    let s2 := foldS (r.desc.neigh.filter (fun g => some g.endpoint ≠ but)) s1 (fun s g => sendAbort s r g)
    let s3 := faultRec s2 { agent := clxAgent, cause := 0, cls := clsFailed, pitch := some n }
    answerCloses s3 ix

/-- Records that are open and linked to a kernel session (R259, R267). -/
def linkedRecs (s : State) (n number : Nat) : List Nat :=
  (s.clx.recs.filter (fun e => collOpen e.2 ∧ e.2.pitch.toNat = n ∧ e.2.desc.toKernel ∧ e.2.desc.ksession = number)).map (·.1)

/-- A session ends; records that still had chunks to post fail with cause DEST (R268). -/
def endSess (s : State) (ix cause : Nat) (core : Option Nat) (status : Nat) : State :=
  let k := sessGet s ix
  if k.state ≠ .running then s
  else
    let s1 := endSessBase s ix cause core status
    foldS (linkedRecs s1 k.pitch.toNat k.number) s1 (fun s r => failRecBase s r 6 none)

/-- A record fails; the session it is linked to fails with cause COLLECTIVE (R267, R300). -/
def failRec (s : State) (ix cause : Nat) (but : Option (BitVec 12)) : State :=
  let r := recGet s ix
  let s1 := failRecBase s ix cause but
  if collOpen r ∧ r.desc.toKernel then
    match sessFind s1 r.desc.ksession with
    | some k => if (sessGet s1 k).pitch = r.pitch then endSess s1 k 0x0A none 0 else s1
    | none => s1
  else s1

/-- A strike ends the pitch's sessions and launches (R291, R305). -/
def strikeGrid (s : State) (n : Nat) : State :=
  foldS ((s.grd.sess.filter (fun e => e.2.pitch.toNat = n)).map (·.1)) s (fun s ix =>
    match (sessGet s ix).state with
    | .queued => dropLaunch s ix stPitchDown
    | .loading => dropLaunch s ix stPitchDown
    | .running => endSess s ix 2 none 0
    | _ => s)

/-- A strike fails the pitch's records (R273). -/
def strikeColl (s : State) (n : Nat) : State :=
  foldS ((s.clx.recs.filter (fun e => e.2.pitch.toNat = n)).map (·.1)) s (fun s ix => failRec s ix 2 none)

/-- After a strike the records are freed when DRAINING clears (R273). -/
def collFree (s : State) (n : Nat) : State :=
  foldS ((s.clx.recs.filter (fun e => e.2.pitch.toNat = n)).map (·.1)) s (fun s ix => freeRec (answerCloses s ix) ix)

/-- An endpoint that a record names was detached or revoked (R268). -/
def collLostEndpoint (s : State) (i n : Nat) : State :=
  let names (r : CollRec) : Bool := r.desc.contrib.any (fun e => e.toNat = i) || r.desc.deliver.any (fun e => e.toNat = i) ||
    r.desc.neigh.any (fun g => g.endpoint.toNat = i)
  foldS ((s.clx.recs.filter (fun e => e.2.pitch.toNat = n ∧ names e.2)).map (·.1)) s (fun s ix => failRec s ix 6 none)

/-- A page of a record's work or destination range changes (R268). -/
def collPageChange (s : State) (n base size : Nat) : State :=
  let hit (r : CollRec) : Bool :=
    let d := r.desc
    (decide (0 < d.workSize) && decide (d.workBase < base + size) && decide (base < d.workBase + d.workSize)) ||
      ((d.toMemory || d.toKernel) && decide (d.destBase < base + size) && decide (base < d.destBase + destBytes d))
  foldS ((s.clx.recs.filter (fun e => e.2.pitch.toNat = n ∧ hit e.2)).map (·.1)) s (fun s ix => failRec s ix 6 none)

/-- A COLL_CLOSE that is held is forgotten. -/
def collForget (s : State) (r : Req) : State :=
  let isNot (q : Req) : Bool := !(decide (q.flow = r.flow) && decide (q.seq = r.seq))
  clxMod s (fun c => { c with recs := c.recs.map (fun e => (e.1, { e.2 with closes := e.2.closes.filter isNot })) })

/-- The mirror frames of a chunk's lines are answered (R422). -/
def chunkMirrored (s : State) (ix chunk : Nat) : State :=
  match tfind s.clx.recs ix with
  | none => s
  | some r => recPut s ix { r with chunks := tmod (fun c => { c with mirroring := false, written := true }) r.chunks chunk }

/-- A core, quad or engine left UP and DEGRADED: the session that holds it fails (R305). -/
def gridUnitLost (s : State) (k : Nat) : State :=
  let agent := k / 512
  let u := k % 512
  let uses (e : KSess) : Bool :=
    if agent = grdAgent then (if u < 64 then decide (u ∈ e.cores ++ e.reserved) else decide ((u - 0x100) ∈ sessQuads e))
    else if agentDomain agent = 3 ∧ agentBlock agent = 2 then decide (agentInst agent ∈ e.engines)
    else false
  if serving (uAct s k) then s
  else foldS ((s.grd.sess.filter (fun e => e.2.state = .running ∧ uses e.2)).map (·.1)) s (fun s ix =>
    endSess s ix 0x0B (if agent = grdAgent ∧ u < 64 then some u else none) 0)

end Sys2Proof.Machine
end

