-- ==== Sys2Proof/Machine/SyncLib.lean ====
section
/-! DEFINITION. The sync window's home agent: directory, transactions, forwards, invalidations, write-backs and
the accesses of non-caching requesters (R225 to R243). -/
namespace Sys2Proof.Machine

def swnMod (s : State) (f : Swn → Swn) : State := { s with swn := f s.swn }
def dirGet (s : State) (ix : Nat) : SwEnt := tget {} s.swn.dir ix
def dirPut (s : State) (ix : Nat) (e : SwEnt) : State := swnMod s (fun w => { w with dir := tset {} w.dir ix e })
def dirDel (s : State) (ix : Nat) : State := swnMod s (fun w => { w with dir := tdel w.dir ix })

/-- Encoding of a home state (R226). -/
def homeCode : HomeState → Nat
  | .hi => 0 | .hs => 1 | .hx => 2 | .ho => 3 | .hh => 4

/-- Answer a request that waits at SWN. An access of a master of the chip (opcode 00h) has no response. -/
def answerAccess (s : State) (r : Req) (status : Nat) : State := if r.op = 0 then s else answer s r status []

/-- The directory entry of a line (R241). -/
def dirFind (s : State) (line : Nat) : Option Nat := (s.swn.dir.find? (fun e => e.2.line = line)).map (·.1)

/-- Set of a line: 4,096 sets of 16 entries (R241, log 17). -/
def dirSet (line : Nat) : Nat := line / 64 % 4096

/-- Transaction slots in use (R244). -/
def txnUsed (s : State) : Nat := (s.swn.dir.filter (fun e => e.2.txn.isSome)).length

/-- A context of the pitch that an endpoint holds with opcode group bit 4 (R222). -/
def agentCtx (s : State) (i n : Nat) : Option (BitVec 16) :=
  let p := pGet s n
  ((mtGet s i).find? (fun w => wordValid w && (wordGroups w).getLsbD 4 &&
    decide (wordCtx w ∈ p.settings.contexts ++ p.removed))).map wordCtx

/-- Endpoints under the sharer bits of a line that may hold it (R230). -/
def sharerAgents (s : State) (e : SwEnt) : List Nat :=
  (mtEndpoints s).filter (fun i => e.sharers.getLsbD (i / 64) && (agentCtx s i e.pitch).isSome && (partnerOf s i).isNone)

def swFlow (i n : Nat) : FlowId := .ep (BitVec.ofNat 12 i) (BitVec.ofNat 8 n) 5

/-- Send SW_INVALIDATE for a line to an agent. -/
def sendInval (s : State) (ix i : Nat) : State :=
  let e := dirGet s ix
  bump (ctlSend s (swFlow i e.pitch) (toEndpoint s 0x46 (BitVec.ofNat 12 i) (BitVec.ofNat 8 e.pitch) 5
    ((agentCtx s i e.pitch).getD 0) (BitVec.ofNat 64 e.pva) (zeros 8)) (.swInvalidate e.line (BitVec.ofNat 12 i)))
    .swnInval 0 0 e.pitch

/-- Send SW_FORWARD for a line to its owner (R228): requester and requested state. -/
def sendForward (s : State) (ix owner requester : Nat) (own : Bool) : State :=
  let e := dirGet s ix
  let arg := beBytes 2 requester ++ [if own then 2 else 1, 0, 0, 0, 0, 0]
  bump (ctlSend s (swFlow owner e.pitch) (toEndpoint s 0x45 (BitVec.ofNat 12 owner) (BitVec.ofNat 8 e.pitch) 5
    ((agentCtx s owner e.pitch).getD 0) (BitVec.ofNat 64 e.pva) arg) (.swForward e.line)) .swnForward 0 0 e.pitch

/-- Send SW_DATA from the home with a GRANT (R228, R58). A FREE line reads as zeros. -/
def sendHomeData (s : State) (ix i grant : Nat) : State :=
  let e := dirGet s ix
  let f := toEndpoint s 0x47 (BitVec.ofNat 12 i) (BitVec.ofNat 8 e.pitch) 5 ((agentCtx s i e.pitch).getD 0)
    (BitVec.ofNat 64 e.pva) (linePlain s e.line)
  ctlSend s (swFlow i e.pitch) { f with flags := BitVec.ofNat 16 (0x4000 + grant) } (.swData e.line)

/-- Write a line's data with OWNER unchanged (R234). -/
def lineStore (s : State) (n ppa : Nat) (bs : List Byte) : State :=
  let m := metaGet s ppa
  let k := pitchKey s n
  metaPut (memPut s (ppa / 64 * 64) bs) ppa { m with keySlot := k.1, keyGen := k.2, poison := 0 }

/-- A bit of the coarse vector. -/
def sharerBit (i : Nat) : BitVec 64 := BitVec.ofNat 64 (2 ^ (i / 64))

/-- State of a line with these sharers and no owner. -/
def restState (sharers : BitVec 64) (sc : BitVec 4) : HomeState := if sharers = 0 ∧ sc = 0 then .hi else .hs

/-- A line's transaction has ended: its entry stays unless the line is in HI, and what waited for it is ready
to be ordered (R227). -/
def lineFreed (s : State) (ix : Nat) (first : List Req) : State :=
  let e := dirGet s ix
  let s1 := swnMod s (fun w => { w with ready := w.ready ++ first ++ e.queue })
  if e.state = .hi then dirDel s1 ix else dirPut s1 ix { e with txn := none, queue := [] }

/-- Agents to which a recall of an entry goes. -/
def holders (s : State) (e : SwEnt) : List Nat :=
  let o := match e.owner with
    | some a => [a]
    | none => []
  o ++ (sharerAgents s e).filter (fun i => some i ≠ e.owner)

/-- Give an entry a transaction that invalidates agents. -/
def startInvals (s : State) (ix : Nat) (t : SwTxn) (agents : List Nat) : State :=
  let e := dirGet s ix
  let s1 := dirPut s ix { e with txn := some { t with inval := agents, prior := (e.state, e.owner, e.sharers) } }
  foldS agents s1 (fun s i => sendInval s ix i)

/-- Advance a line's transaction as far as the completions it has allow (R230, R237, R241). -/
def txnStep (s : State) (ix : Nat) : State :=
  let e := dirGet s ix
  match e.txn with
  | none => s
  | some t =>
    if !t.inval.isEmpty ∨ !t.wbs.isEmpty ∨ t.fwd.isSome then s
    else
      match t.kind with
      | .recall => lineFreed (dirPut s ix { e with state := .hi, owner := none, sharers := 0, sc := 0 }) ix []
      | .access r write =>
        if write then
          swnMod (dirPut s ix { e with state := .hh, owner := none, sharers := 0, sc := 0, txn := some { t with obtained := true } })
            (fun w => { w with ready := w.ready ++ [r] })
        else lineFreed (dirPut s ix { e with state := restState e.sharers e.sc, owner := none }) ix [r]
      | .agent r own =>
        let a := r.endpoint.toNat
        if t.dataDue then
          -- ownership claims a FREE line for the request's context (R229)
          let s1 := if own ∧ (metaGet s e.line).owner = 0xFFFF then lineWrite s e.pitch r.context e.line (zeros 64) else s
          let grant := if own then 3 else if t.fwdAns.isSome then (if e.sharers = 0 then 2 else 1)
                       else if e.state = .hi then 2 else 1
          dirPut (sendHomeData s1 ix a grant) ix { e with txn := some { t with dataDue := false, sentAt := some s.now } }
        else if t.needDone then s
        else
          let e1 : SwEnt := match t.dropped, own, t.fwdAns with
            | true, true, _ => { e with state := .hi, owner := none, sharers := 0 }
            | true, false, some (0, 4, _) => { e with state := .ho }
            | true, false, some (0, 1, _) =>
              { e with state := .hs, sharers := e.sharers ||| sharerBit ((e.owner).getD 0), owner := none }
            | true, false, _ => { e with state := restState e.sharers e.sc, owner := none }
            | false, true, _ => { e with state := .hx, owner := some a, sharers := 0 }
            | false, false, none =>
              if e.state = .hs then { e with sharers := e.sharers ||| sharerBit a } else { e with state := .hx, owner := some a }
            | false, false, some (0, 4, _) => { e with state := .ho, sharers := e.sharers ||| sharerBit a }
            | false, false, some (0, 1, _) =>
              { e with state := .hs, sharers := e.sharers ||| sharerBit ((e.owner).getD 0) ||| sharerBit a, owner := none }
            | false, false, some (0, _, _) => { e with state := .ho, owner := some a }
            | false, false, some _ =>
              if e.sharers = 0 then { e with state := .hx, owner := some a }
              else { e with state := .hs, owner := none, sharers := e.sharers ||| sharerBit a }
          if e1.recallNext ∧ e1.state ≠ .hi then
            startInvals (dirPut s ix { e1 with txn := none }) ix { kind := .recall } (holders s e1)
          else lineFreed (dirPut s ix e1) ix []

/-- Recall an entry (R241, R243). -/
def recallEntry (s : State) (ix : Nat) : State :=
  let e := dirGet s ix
  if e.txn.isSome then dirPut s ix { e with recallNext := true }
  else txnStep (startInvals s ix { kind := .recall } (holders s e)) ix

/-- What the search for a directory entry finds (R241). -/
inductive DirSlot where
  | free (ix : Nat)
  /-- Wait in the queue of an entry that is recalled. -/
  | evict (ix : Nat)
  | full
deriving DecidableEq, Repr

def dirAlloc (s : State) (line : Nat) : DirSlot :=
  let base := dirSet line * 16
  match (upto 16).find? (fun w => (tfind s.swn.dir (base + w)).isNone) with
  | some w => .free (base + w)
  | none =>
    let idle := ((upto 16).map (base + ·)).filter (fun ix => (dirGet s ix).txn.isNone)
    match idle.foldl (fun (b : Option Nat) ix => match b with
      | none => some ix
      | some x => if (dirGet s ix).stamp < (dirGet s x).stamp then some ix else b) none with
    | some ix => .evict ix
    | none => .full

/-- Put a new entry for a line in HI. -/
def dirNew (s : State) (ix line pva n : Nat) : State :=
  let s1 := dirPut s ix { line := line, pva := pva, pitch := n, stamp := s.swn.stamp + 1 }
  swnMod s1 (fun w => { w with stamp := w.stamp + 1 })

/-- Wait in a line's queue; the request has passed check 14 (R94, R227). -/
def dirWait (s : State) (ix : Nat) (r : Req) : State :=
  let e := dirGet s ix
  markWindow (dirPut s ix { e with queue := e.queue ++ [r] }) r

/-- An entry for a line, an eviction to wait for, or RETRY (R241). -/
def withEntry (s : State) (r : Req) (line pva : Nat) (go : State → Nat → State) : State :=
  if 4096 ≤ txnUsed s then answer (bump s .swnRetry 0 0 r.pitch.toNat) r stRetry []
  else
    match dirFind s line with
    | some ix => go s ix
    | none =>
      match dirAlloc s line with
      | .free ix => go (dirNew s ix line pva r.pitch.toNat) ix
      | .evict ix => recallEntry (dirWait (bump0 s .swnDirEvict) ix r) ix
      | .full => answer (bump s .swnRetry 0 0 r.pitch.toNat) r stRetry []

/-! ## Requests of caching agents (R229, R230) -/

/-- Order a request for a line that is not BUSY. -/
def orderAgent (s : State) (ix : Nat) (r : Req) (own : Bool) : State :=
  let e := dirGet s ix
  let n := r.pitch.toNat
  let a := r.endpoint.toNat
  let s1 := bump s (if r.op = 0x40 then .swnReqShared else if r.op = 0x41 then .swnReqOwn else .swnReqUpgrade) 0 0 n
  let owner := (e.owner).getD 0
  let fwd := decide (e.state = .hx ∨ e.state = .ho)
  let src := if fwd then [1, 0] ++ beBytes 2 owner else zeros 4
  let s2 := answer s1 r stOk (src ++ zeros 4)
  let t : SwTxn :=
    { kind := .agent r own, needDone := true, dataDue := !fwd, fwd := if fwd then some owner else none }
  let targets := if own ∧ (e.state = .hs ∨ e.state = .ho) then
      (sharerAgents s e).filter (fun i => i ≠ a ∧ !(fwd && decide (i = owner))) else []
  let s3 := startInvals s2 ix t targets
  let s4 := if fwd then
      dirPut (sendForward s3 ix owner a own) ix { dirGet s3 ix with txn := ((dirGet s3 ix).txn).map (fun t => { t with sentAt := some s.now }) }
    else s3
  txnStep s4 ix

/-- A request of a caching agent that has passed its checks. -/
def agentRequest (s : State) (r : Req) (line pva : Nat) (own : Bool) : State :=
  match dirFind s line with
  | some ix =>
    if (dirGet s ix).txn.isSome then dirWait s ix r
    else withEntry s r line pva (fun s ix => orderAgent s ix r own)
  | none => withEntry s r line pva (fun s ix => orderAgent s ix r own)

/-! ## Non-caching accesses (R237, R239) -/

/-- Does a request hold a line obtained for it? -/
def holdsLine (e : SwEnt) (r : Req) : Bool :=
  match e.txn with
  | some t => t.obtained && (match t.kind with
    | .access q _ => decide (q.flow = r.flow) && decide (q.seq = r.seq)
    | _ => false)
  | none => false

/-- Lines in ascending pool-virtual address, each once. -/
def insertLine (x : Nat × Nat) : List (Nat × Nat) → List (Nat × Nat)
  | [] => [x]
  | y :: t => if x.1 < y.1 then x :: y :: t else if x.1 = y.1 then y :: t else y :: insertLine x t

def sortLines (ls : List (Nat × Nat)) : List (Nat × Nat) := ls.foldl (fun acc x => insertLine x acc) []

/-- Is a line ready for an access: in HI (or HS for a read), or held by it? -/
def lineReady (s : State) (r : Req) (write : Bool) (line : Nat) : Bool :=
  match dirFind s line with
  | none => true
  | some ix =>
    let e := dirGet s ix
    holdsLine e r || (!write && e.txn.isNone && decide (e.state = .hs))

/-- What taking a line gives: the line, a wait, or an answer RETRY. -/
inductive Take where
  | held | waits | refused
deriving DecidableEq, Repr

/-- Take a line for a write: at once in HI, otherwise by invalidations (R237, R241). -/
def takeLine (s : State) (r : Req) (line pva : Nat) : State × Take :=
  let retry := answerAccess (bump s .swnRetry 0 0 r.pitch.toNat) r stRetry
  match dirFind s line with
  | some ix =>
    let e := dirGet s ix
    if holdsLine e r then (s, .held)
    else if e.txn.isSome then (dirWait s ix r, .waits)
    else (txnStep (startInvals (markWindow s r) ix { kind := .access r true } (holders s e)) ix, .waits)
  | none =>
    if 4096 ≤ txnUsed s then (retry, .refused)
    else
      match dirAlloc s line with
      | .free ix =>
        let s1 := dirNew s ix line pva r.pitch.toNat
        (dirPut s1 ix { dirGet s1 ix with state := .hh, txn := some { kind := .access r true, obtained := true } }, .held)
      | .evict ix => (recallEntry (dirWait (bump0 s .swnDirEvict) ix r) ix, .waits)
      | .full => (retry, .refused)

/-- Release the lines a request holds (R237): they go to HI. -/
def releaseLines (s : State) (r : Req) : State :=
  foldS ((s.swn.dir.filter (fun e => holdsLine e.2 r)).map (·.1)) s (fun s ix =>
    lineFreed (dirPut s ix { dirGet s ix with state := .hi, owner := none, sharers := 0, sc := 0 }) ix [])

/-- Take the lines (PVA, PPA) in order until one has to wait (R237). -/
def takeLines (s : State) (r : Req) : List (Nat × Nat) → State × Take
  | [] => (s, .held)
  | (pva, line) :: t =>
    let x := takeLine s r line pva
    match x.2 with
    | .held => takeLines x.1 r t
    | _ => x

/-- Obtain the lines (PVA, PPA) of a non-caching access: true when the access may run now. -/
def syncEnter (s : State) (r : Req) (lines : List (Nat × Nat)) (write : Bool) : State × Bool :=
  if lines.isEmpty then (s, true) else
  let ls := sortLines lines
  let n := r.pitch.toNat
  if ls.all (fun e => lineReady s r write e.2) then (bumpN s .swnNoncaching 0 0 n ls.length, true)
  else if write then
    let x := takeLines s r ls
    match x.2 with
    | .held => (bumpN x.1 .swnNoncaching 0 0 n ls.length, true)
    | .waits => (x.1, false)
    | .refused => (releaseLines x.1 r, false)
  else
    match ls.find? (fun e => !lineReady s r false e.2) with
    | none => (s, true)
    | some e =>
      match dirFind s e.2 with
      | none => (s, true)
      | some ix =>
        let d := dirGet s ix
        if d.txn.isSome then (dirWait s ix r, false)
        else
          let o := match d.owner with
            | some a => [a]
            | none => []
          (txnStep (startInvals (markWindow s r) ix { kind := .access r false } o) ix, false)

/-! ## Write-backs, evictions and completions (R234 to R236) -/

def answerWb (s : State) (r : Req) (disposal : Nat) : State := answer s r stOk (BitVec.ofNat 8 disposal :: zeros 7)

/-- Accept write-back data. -/
def acceptWb (s : State) (r : Req) (ix : Nat) : State :=
  let e := dirGet s ix
  bump (answerWb (lineStore s e.pitch e.line r.payload) r 0) .swnWbAccept 0 0 e.pitch

/-- An agent no longer owns a line that no transaction holds. -/
def ownerGone (s : State) (ix : Nat) : State :=
  let e := dirGet s ix
  let e1 := { e with state := restState e.sharers e.sc, owner := none }
  if e.txn.isSome then dirPut s ix { e with owner := none, state := if e.state = .hx ∨ e.state = .ho then restState e.sharers e.sc else e.state }
  else lineFreed (dirPut s ix e1) ix []

/-- SW_WRITEBACK from an agent for a line (R234, R235). -/
def writeBack (s : State) (r : Req) (line : Nat) : State :=
  let a := r.endpoint.toNat
  let n := r.pitch.toNat
  if 2 ≤ (s.swn.held.filter (fun h => h.2.endpoint = r.endpoint)).length then bump s .swnWbOver 0 0 n
  else
    match dirFind s line with
    | none => bump (answerWb s r 1) .swnWbUnexpected 0 0 n
    | some ix =>
      let e := dirGet s ix
      match e.txn with
      | some t =>
        if a ∈ t.inval ∨ a ∈ t.wbs then
          let t1 := { t with wbs := t.wbs.filter (fun x => x ≠ a), got := if a ∈ t.inval then a :: t.got else t.got }
          let s1 := acceptWb s r ix
          txnStep (dirPut s1 ix { dirGet s1 ix with txn := some t1 }) ix
        else if t.fwd = some a then markWindow (swnMod s (fun w => { w with held := w.held ++ [(line, r)] })) r
        else if e.stale = some a then bump (answerWb (dirPut s ix { e with stale := none }) r 1) .swnWbStale 0 0 n
        else if e.owner = some a then ownerGone (acceptWb s r ix) ix
        else bump (answerWb s r 1) .swnWbUnexpected 0 0 n
      | none =>
        if e.owner = some a then ownerGone (acceptWb s r ix) ix
        else if e.stale = some a then bump (answerWb (dirPut s ix { e with stale := none }) r 1) .swnWbStale 0 0 n
        else bump (answerWb s r 1) .swnWbUnexpected 0 0 n

/-- SW_EVICT (R236). -/
def swEvict (s : State) (r : Req) (line : Nat) : State :=
  let s1 := answer s r stOk (zeros 8)
  match dirFind s line with
  | none => s1
  | some ix => if (dirGet s ix).state = .hx ∧ (dirGet s ix).owner = some r.endpoint.toNat then ownerGone s1 ix else s1

/-- SW_DONE (R230). -/
def swDone (s : State) (r : Req) (line : Nat) : State :=
  let s1 := answer s r stOk (zeros 8)
  match dirFind s line with
  | none => s1
  | some ix =>
    let e := dirGet s ix
    match e.txn with
    | none => s1
    | some t =>
      match t.kind with
      | .agent q _ =>
        if q.endpoint = r.endpoint ∧ t.needDone then txnStep (dirPut s1 ix { e with txn := some { t with needDone := false } }) ix else s1
      | _ => s1

/-- A write-back held for an agent's line, if there is one. -/
def heldWb (s : State) (line a : Nat) : Option Req :=
  (s.swn.held.find? (fun h => decide (h.1 = line) && decide (h.2.endpoint.toNat = a))).map (·.2)

def dropHeld (s : State) (line a : Nat) : State :=
  swnMod s (fun w => { w with held := w.held.filter (fun h => !(decide (h.1 = line) && decide (h.2.endpoint.toNat = a))) })

/-- C5h from a forward target (R228, R230, R235): RESULT, KEPT, WB. -/
def forwardAnswer (s : State) (ix a result kept wb : Nat) : State :=
  let e := dirGet s ix
  match e.txn with
  | none => s
  | some t =>
    if t.fwd ≠ some a then s
    else
      let t1 := { t with fwd := none, fwdAns := some (result, kept, wb), dataDue := decide (result ≠ 0) }
      let s1 := dirPut s ix { e with txn := some t1 }
      let s2 := match heldWb s1 e.line a with
        | some q =>
          let s2 := dropHeld s1 e.line a
          if result = 0 ∧ wb = 1 then bump (answerWb s2 q 1) .swnWbStale 0 0 e.pitch else acceptWb s2 q ix
        | none => if result = 0 ∧ wb = 1 then dirPut s1 ix { dirGet s1 ix with stale := some a } else s1
      -- an owner that held no line owns it no longer; one that kept nothing passed it on
      let s3 := if result ≠ 0 then dirPut s2 ix { dirGet s2 ix with owner := none } else s2
      txnStep s3 ix

/-- C6h from an invalidation target (R233): WB says that a write-back was sent or was pending. -/
def invalAnswer (s : State) (ix a wb : Nat) : State :=
  let e := dirGet s ix
  match e.txn with
  | none => s
  | some t =>
    if a ∉ t.inval then s
    else
      let wait := decide (wb = 1) && decide (a ∉ t.got)
      let t1 := { t with inval := t.inval.filter (fun x => x ≠ a), wbs := if wait then a :: t.wbs else t.wbs }
      txnStep (dirPut s ix { e with txn := some t1, owner := if e.owner = some a ∧ t.kind ≠ .recall then none else e.owner }) ix

/-! ## Failures (R242, R243) -/

/-- An agent's part in a line is lost: what it owed is not awaited, and a line it owned stands as the home
holds it. -/
def agentLost (s : State) (ix a : Nat) : State :=
  let e := dirGet s ix
  let owned := decide (e.owner = some a)
  let s1 := if owned then bump s .swnLost 0 0 e.pitch else s
  let s2 := dropHeld s1 e.line a
  match e.txn with
  | none => if owned then ownerGone s2 ix else s2
  | some t =>
    let t1 := { t with inval := t.inval.filter (fun x => x ≠ a), wbs := t.wbs.filter (fun x => x ≠ a),
                       fwd := if t.fwd = some a then none else t.fwd,
                       fwdAns := if t.fwd = some a then some (1, 0, 0) else t.fwdAns,
                       dataDue := t.dataDue || decide (t.fwd = some a) }
    let e1 := { e with txn := some t1, owner := if owned then none else e.owner,
                       state := if owned ∧ (e.state = .hx ∨ e.state = .ho) then restState e.sharers e.sc else e.state }
    txnStep (dirPut s2 ix e1) ix

/-- Cancel the controller's own requests about a line to an agent. -/
def cancelSw (s : State) (line a : Nat) : State :=
  let about (o : Origin) : Bool := match o with
    | .swForward l => decide (l = line)
    | .swInvalidate l _ => decide (l = line)
    | .swData l => decide (l = line)
    | _ => false
  let isA (id : FlowId) : Bool := match id with
    | .ep i _ _ => decide (i.toNat = a)
    | .sess _ _ _ => false
  trkReopen (tptMod s (fun t => { t with
    ctl := t.ctl.map (fun e => if isA e.1 then (e.1, { e.2 with reqs := e.2.reqs.filter (fun q => !about q.origin) }) else e)
    held := t.held.filter (fun e => !(isA e.1 && about e.2.2)) }))

/-- Revoke an agent that did not answer for a line (R242 row 1): its context goes, record 36h is written, its
lines of the pitch are lost. -/
def revokeAgent (s : State) (a n : Nat) (ctx : BitVec 16) : State :=
  let s1 := mtRemove s a (fun c => decide (c = ctx))
  let s2 := collLostEndpoint (faultRec s1 { agent := swnAgent, cause := 0x36, cls := clsFailed, pitch := some n, lo := a }) a n
  let hit := (s2.swn.dir.filter (fun e => decide (e.2.pitch = n) && (decide (e.2.owner = some a) || (match e.2.txn with
    | some t => decide (a ∈ t.inval) || decide (a ∈ t.wbs) || decide (t.fwd = some a)
    | none => false)))).map (·.1)
  foldS hit s2 (fun s ix => agentLost (cancelSw s (dirGet s ix).line a) ix a)

/-- SW_FORWARD or SW_INVALIDATE failed at RTX_LIMIT. -/
def swSendFailed (s : State) (a n : Nat) (ctx : BitVec 16) : State := revokeAgent s a n ctx

/-- SW_DATA from home failed at RTX_LIMIT (R242 row 2): the line returns to its state before. -/
def swDataFailed (s : State) (line a n : Nat) (ctx : BitVec 16) : State :=
  let s1 := mtRemove s a (fun c => decide (c = ctx))
  let s2 := faultRec s1 { agent := swnAgent, cause := 0x36, cls := clsFailed, pitch := some n, lo := a }
  match dirFind s2 line with
  | none => s2
  | some ix =>
    let e := dirGet s2 ix
    match e.txn with
    | none => s2
    | some t => lineFreed (dirPut s2 ix { e with state := t.prior.1, owner := t.prior.2.1, sharers := t.prior.2.2 }) ix []

/-- No SW_DONE within DONE_LIMIT (R242 row 3). -/
def swDoneTimeout (s : State) (line : Nat) : State :=
  match dirFind s line with
  | none => s
  | some ix =>
    let e := dirGet s ix
    match e.txn with
    | none => s
    | some t =>
      match t.kind, t.needDone, t.sentAt with
      | .agent r _, true, some at_ =>
        let limit := at_ + regField s swnAgent 0x100 0 16 * 1000
        let a := r.endpoint.toNat
        let s1 := nowTo s limit
        sendInval (dirPut s1 ix { e with txn := some { t with needDone := false, dropped := true, inval := a :: t.inval } }) ix a
      | _, _, _ => s

/-- A strike recalls every line of the pitch and answers what waits in its queues (R243). -/
def strikeSync (s : State) (n : Nat) : State :=
  let hit := (s.swn.dir.filter (fun e => e.2.pitch = n)).map (·.1)
  foldS hit s (fun s ix =>
    let e := dirGet s ix
    let s1 := foldS e.queue (dirPut s ix { e with queue := [] }) (fun s r => answerAccess s r stPitchDown)
    recallEntry s1 ix)

def syncDrained (s : State) (n : Nat) : Bool := !(s.swn.dir.any (fun e => e.2.pitch = n))

/-- Agents that a line's transaction waits for. -/
def awaited (e : SwEnt) : List Nat :=
  match e.txn with
  | some t => (t.inval ++ t.wbs ++ t.fwd.toList).foldl (fun acc a => insertNat a acc) []
  | none => []

/-- The drain deadline (R243): agents that have not answered are revoked, every entry of the pitch is freed. -/
def syncDeadline (s : State) (n : Nat) : State :=
  let mine := s.swn.dir.filter (fun e => e.2.pitch = n)
  let agents := (mine.flatMap (fun e => awaited e.2)).foldl (fun acc a => insertNat a acc) []
  let s1 := foldS agents s (fun s a => revokeAgent s a n ((agentCtx s a n).getD 0))
  let s2 := foldS (s1.swn.dir.filter (fun e => e.2.pitch = n)) s1 (fun s e =>
    foldS e.2.queue s (fun s r => answerAccess s r stPitchDown))
  swnMod s2 (fun w => { w with dir := w.dir.filter (fun e => e.2.pitch ≠ n),
                               ready := w.ready.filter (fun r => r.pitch.toNat ≠ n),
                               held := w.held.filter (fun h => h.2.pitch.toNat ≠ n) })

/-- A request leaves the queues of SWN. -/
def syncForget (s : State) (r : Req) : State :=
  let isNot (q : Req) : Bool := !(decide (q.flow = r.flow) && decide (q.seq = r.seq))
  let s1 := swnMod s (fun w => { w with ready := w.ready.filter isNot,
                                        dir := w.dir.map (fun e => (e.1, { e.2 with queue := e.2.queue.filter isNot })) })
  releaseLines s1 r

/-- DETACH: each line the endpoint owns is lost at once, and what it owed is not awaited (R243). -/
def syncDetach (s : State) (i n : Nat) : State :=
  let hit := (s.swn.dir.filter (fun e => e.2.pitch = n ∧ (e.2.owner = some i ∨ i ∈ awaited e.2))).map (·.1)
  foldS hit s (fun s ix => agentLost (cancelSw s (dirGet s ix).line i) ix i)

end Sys2Proof.Machine
end

