-- ==== Sys2Proof/Machine/Mirror.lean ====
section
/-! DEFINITION. Flies: mirror frames, their loss, self-fence and takeover (R419 to R433). -/
namespace Sys2Proof.Machine

def mirGet (s : State) (n : Nat) : MirPitch := tget {} s.mir.pitch n
def mirSet (s : State) (n : Nat) (m : MirPitch) : State :=
  mirMod s (fun d => { d with pitch := tset {} d.pitch n m })
def peerGet (s : State) (k : Nat) : Peer := tget {} s.mir.peers k
def peerSet (s : State) (k : Nat) (p : Peer) : State :=
  mirMod s (fun d => { d with peers := tset {} d.peers k p })

/-- Partner-table entry that an address and port name (R419). -/
def peerByAddr (s : State) (addr : BitVec 128) (port : BitVec 16) : Option Nat :=
  (s.mir.peers.find? (fun e => e.2.addr = addr ∧ e.2.port = port)).map (·.1)

/-- The active chip mirrors a pitch's changes (R422, R432). -/
def mirrors (s : State) (n : Nat) : Bool :=
  let m := mirGet s n
  decide (m.role = .active) && (m.confirmed || m.resync) && !m.selfFenced

/-- A fly is confirmed and this chip is the active (R416, R428). -/
def hasFly (s : State) (n : Nat) : Bool :=
  let m := mirGet s n
  decide (m.role = .active) && m.confirmed && !m.selfFenced

/-- Source-table index of a pitch at its partner (R419). -/
def mirIndex (s : State) (n : Nat) : BitVec 12 :=
  BitVec.ofNat 12 ((peerGet s (mirGet s n).peer).localBase + n / 16)

def mirFlow (s : State) (n : Nat) (tc : BitVec 3) : FlowId := .ep (mirIndex s n) (BitVec.ofNat 8 n) tc

/-- Mirror record of 128 bytes (R421). `keep` is the request with the response header and payload to keep,
and the flow's C. -/
def mirRecord (s : State) (kind : Nat) (final : Bool) (n : Nat) (owner : BitVec 16)
    (keep : Option (Req × TxFrame)) (digest : List Byte) : List Byte :=
  let head := [BitVec.ofNat 8 kind, BitVec.ofNat 8 (b2n final + b2n keep.isSome * 2), BitVec.ofNat 8 n,
    (pGet s n).generation]
  let mid := match keep with
    | none => zeros 108
    | some (r, f) =>
      let c := ((flowGet s r.flow).map (·.c)).getD 0
      beBytes 2 r.endpoint.toNat ++ [BitVec.ofNat 8 r.tc.toNat, 0] ++ beBytes 4 (r.seq.toNat * 256) ++
        beBytes 4 (c.toNat * 256) ++ (txHdrBytes f 0 ++ zeros 4) ++ (f.payload ++ zeros 64).take 64
  head ++ mid ++ beBytes 2 owner.toNat ++ zeros 6 ++ (digest ++ zeros 8).take 8

/-- CONTEXT of a pitch's mirror frames (R421): CONTEXT_ID[0]. -/
def mirContext (s : State) (n : Nat) : BitVec 16 := ((pGet s n).settings.contexts.head?).getD 0

/-- A mirror frame (R421): a WRITE in TC3 or TC0, the record before the data; LENGTH counts the data. -/
def mirFrame (s : State) (n : Nat) (tc : BitVec 3) (pva : Nat) (rec data : List Byte) : TxFrame :=
  let f := toEndpoint s 0x02 (mirIndex s n) (BitVec.ofNat 8 n) tc (mirContext s n) (BitVec.ofNat 64 pva) (rec ++ data)
  { f with length := BitVec.ofNat 32 data.length }

/-- Whole lines of a pitch's range in frames of at most 8,192 bytes, as (PVA, bytes). -/
def mirChunks (s : State) (n : Nat) : Nat → Nat → Nat → List (Nat × List Byte)
  | 0, _, _ => []
  | fuel + 1, pva, lines =>
    if lines = 0 then []
    else
      let here := min lines 128
      let data := (upto here).flatMap (fun i =>
        match slotGran s n (pva + i * 64) with
        | some g => linePlain s (g * 0x40000000 + (pva + i * 64) % 0x40000000)
        | none => zeros 64)
      (pva, data) :: mirChunks s n fuel (pva + here * 64) (lines - here)

/-- Frames that carry the lines of some ranges (PVA, length). -/
def mirData (s : State) (n : Nat) (ranges : List (Nat × Nat)) : List (Nat × List Byte) :=
  ranges.flatMap (fun r =>
    if r.2 = 0 then []
    else
      let first := r.1 / 64
      let lines := (r.1 + r.2 - 1) / 64 - first + 1
      mirChunks s n (lines + 1) (first * 64) lines)

/-- Mirror a change (R422): one frame for each 8 KiB of lines, the last one FINAL; a request's FINAL frame
carries its response. The operation waits until every frame is answered OK. -/
def mirrorOp (s : State) (n : Nat) (owner : BitVec 16) (ranges : List (Nat × Nat)) (w : MirWait) : State :=
  let fs := mirData s n ranges
  let t := s.mir.ticket
  let m := mirGet s n
  let keep := w.req.map (fun r => (r, respFrame s r stOk w.payload r.address true))
  let s1 := mirMod s (fun d => { d with ticket := t + 1 })
  let s2 := mirSet s1 n { m with waits := m.waits ++ [{ w with ticket := t, left := fs.length }] }
  foldS (fs.zip (upto fs.length)) s2 (fun s e =>
    let last := e.2 + 1 = fs.length
    let rec_ := mirRecord s 0 last n owner (if last then keep else none) []
    bump (ctlSend s (mirFlow s n 3) (mirFrame s n 3 e.1.1 rec_ e.1.2) (.mirror (BitVec.ofNat 8 n) t))
      .mirMirrorFrames 0 0 n)

/-- A waiting operation completes: the request is answered, the stage-out or collective chunk counts as
done (R422). -/
def mirDone (s : State) (w : MirWait) : State :=
  let s1 := match w.req with
    | some r => respond s r stOk w.payload
    | none => s
  let s2 := match w.stage with
    | some (a, b) => stageDone s1 a b
    | none => s1
  match w.chunk with
  | some (a, b) => chunkMirrored s2 a b
  | none => s2

/-- Requests of the mirror of a pitch that are still out, forgotten (R428). -/
def mirForget (s : State) (n : Nat) : State :=
  tptMod s (fun t => { t with
    ctl := t.ctl.map (fun e => (e.1, { e.2 with reqs := e.2.reqs.filter (fun q => match q.origin with
      | .mirror p _ => p.toNat ≠ n
      | .resync p _ => p.toNat ≠ n
      | _ => true) }))
    held := t.held.filter (fun e => match e.2.2 with
      | .mirror p _ => p.toNat ≠ n
      | .resync p _ => p.toNat ≠ n
      | _ => true) })

/-- Record of a mirror event of one pitch (codes 61h to 63h, R413, R414). -/
def mirFault (s : State) (n cause cls : Nat) : State :=
  let sr := (peerGet s (mirGet s n).peer).serial.toNat
  faultUnit s (uPitch n) cause cls (some n) (sr % 4294967296) (sr / 4294967296)

/-- The pitch loses its fly (R423): it becomes DEGRADED, mirroring stops, waiting operations complete. -/
def flyLost (s : State) (n : Nat) : State :=
  let m := mirGet s n
  if m.role = .active ∧ (m.confirmed ∨ m.resync) then
    let s1 := mirForget (mirSet s n { m with confirmed := false, resync := false, waits := [] }) n
    let s2 := if uAct s1 (uPitch n) = .up then uMove s1 (uPitch n) .degraded else s1
    let s3 := bump (mirFault s2 n 0x63 clsDegrading) .mirFlyLost 0 0 n
    foldS m.waits s3 mirDone
  else s

/-- A RELEASE to the fly (R421, R428). -/
def sendRelease (s : State) (n : Nat) : State :=
  ctlSend s (mirFlow s n 3) (mirFrame s n 3 0 (mirRecord s 2 true n 0 none []) (zeros 8)) (.release (BitVec.ofNat 8 n))

/-- Self-fence (R428): the pitch becomes FENCED, its waiting operations fail with FENCED, RELEASE goes to
the fly. `byLines` says that both guy lines were lost (R430). -/
def selfFence (s : State) (n : Nat) (byLines : Bool) : State :=
  if hasFly s n then
    let m := mirGet s n
    let s1 := mirForget (mirSet s n { m with selfFenced := true, byLines := byLines, waits := [] }) n
    let s2 := if serving (uAct s1 (uPitch n)) then uMove s1 (uPitch n) .fenced else s1
    let s3 := bump (mirFault s2 n 0x61 clsFencing) .mirSelfFence 0 0 n
    let s4 := foldS m.waits s3 (fun s w => match w.req with
      | some r => respond s r stFenced []
      | none => s)
    sendRelease s4 n
  else s

/-- Takeover by a confirmed standby (R429, R119): C becomes C_M with no bits set above it, the carry-over
record opens, the pitch serves DEGRADED without a fly. -/
def takeover (s : State) (n : Nat) : State :=
  let m := mirGet s n
  if m.role = .standby ∧ m.confirmed ∧ (pGet s n).life = .up then
    let s1 := tptMod s (fun t => { t with flows := t.flows.map (fun e => match e.1, e.2.carry with
      | .ep _ p _, some c =>
        if p.toNat = n then (e.1, { e.2 with c := c.cm, bits := [], missing := [], carry := some { c with openRec := true, arrived := [] } })
        else e
      | _, _ => e) })
    let s2 := mirSet s1 n { m with role := .active, confirmed := false, zeros := 0 }
    let s3 := uMove s2 (uPitch n) .degraded
    bump (mirFault s3 n 0x62 clsDegrading) .mirTakeover 0 0 n
  else s

/-- Alive guy lines of a partner (R426). -/
def lineAlive (p : Peer) (k : Nat) : Bool := (p.alive[k]?).getD false

/-- Arrival of the latest valid beat on either guy line. -/
def lastBeatAt (p : Peer) : Nat := (p.lastAt.map (fun o => o.getD 0)).foldl max 0

end Sys2Proof.Machine
end

