-- ==== Sys2Proof/Machine/Units.lean ====
section
/-! DEFINITION. Fencing, degrading and retiring of units, pages, groups and ports, and the chip stop
(R7 to R11, R116, R186 to R188, R411 to R417). -/
namespace Sys2Proof.Machine

/-! ## Pitches -/

/-- A pitch becomes DEGRADED, with its record (R21, R412). -/
def degradePitch (s : State) (n cause lo hi : Nat) : State :=
  if (pGet s n).life = .up ∧ uAct s (uPitch n) = .up then
    faultUnit (uMove s (uPitch n) .degraded) (uPitch n) cause clsDegrading (some n) lo hi
  else s

/-- A unit that a pitch depends on is fenced (R416): with a confirmed fly it self-fences, otherwise it
becomes FENCED under that cause. -/
def fencePitch (s : State) (n cause lo hi : Nat) : State :=
  if (pGet s n).life = .up ∧ serving (uAct s (uPitch n)) then
    if hasFly s n then selfFence s n false
    else faultUnit (uMove s (uPitch n) .fenced) (uPitch n) cause clsFencing (some n) lo hi
  else s

/-- Tenant pitches that hold a granule in a group (R416). -/
def pitchesInGroup (s : State) (g : Nat) : List Nat :=
  (s.pitches.filter (fun e => e.1 ≠ 0 ∧ e.2.slots.any (fun x => (granGet s x.2).group = g))).map (·.1)

/-! ## Streams that end early (R82) -/

/-- Does a frame carry bytes of a line that satisfies a test? -/
def frameHits (p : Nat → Bool) (f : TxFrame) : Bool :=
  f.lines.any (fun e => (linesOf e.1 e.2).any p)

/-- End the unsent part of a response stream: the first frame that fails becomes the final segment with the
failure status, later ones of the same request go. -/
def cutList (p : TxFrame → Bool) (status : Nat) (key : TxFrame → Option FlowId × BitVec 24) :
    List TxFrame → List (Option FlowId × BitVec 24) → List TxFrame
  | [], _ => []
  | f :: t, dead =>
    if key f ∈ dead then cutList p status key t dead
    else if !f.isReq ∧ p f then
      { f with flags := BitVec.ofNat 16 (0x4000 + b2n (flagE f.flags) * 0x2000 + status), payload := [], length := 0,
               lines := [], release := f.flow.map (fun id => (id, f.flowSeq)) } ::
        cutList p status key t (key f :: dead)
    else f :: cutList p status key t dead

def frameKey (f : TxFrame) : Option FlowId × BitVec 24 := (f.flow, f.flowSeq)

/-- Do the queues hold a response frame that satisfies a test? -/
def queuedAny (s : State) (p : TxFrame → Bool) : Bool :=
  s.tmg.queues.any (fun q => q.2.resp.any p) || s.tpt.parked.any (fun f => !f.isReq && p f)

/-- End every queued stream that a test hits with a failure status (R82). -/
def cutStreams (s : State) (p : TxFrame → Bool) (status : Nat) : State :=
  let s1 := tmgMod s (fun t => { t with queues := t.queues.map (fun q =>
    (q.1, { q.2 with resp := cutList p status frameKey q.2.resp [] })) })
  tptMod s1 (fun t => { t with parked := cutList p status frameKey t.parked [] })

/-! ## Ports (R91, R116) -/

/-- Move what transport holds for a retired port (R116 steps 1 and 2): its flows, their trackers and the
frames queued in TMG. -/
def portHandoff (s : State) (p : Nat) : State :=
  let moved := s.tpt.flows.filter (fun e => match e.2.egress with
    | some (.link l) => l.val / 2 = p
    | _ => false)
  let s1 := foldS moved s (fun s e =>
    let dest := egressLink s e.1 none
    let eg : Option RxVia := dest.bind (fun l => if h : l < 8 then some (RxVia.link ⟨l, h⟩) else none)
    let s1 := flowPut s e.1 { e.2 with egress := eg }
    let np := (dest.map linkPort).getD p
    let s2 := tptMod s1 (fun t => { t with
      trackers := t.trackers.map (fun k => if k.req.flow = e.1 then { k with port := np } else k)
      ctl := amod t.ctl e.1 (fun c => { c with reqs := c.reqs.map (fun q => { q with port := np }) }) })
    bump0 s2 .tptHandoff)
  let here := s1.tmg.queues.filter (fun q => q.1.1 / 2 = p ∧ q.1.1 < 8)
  let s2 := tmgMod s1 (fun t => { t with queues := t.queues.filter (fun q => !(decide (q.1.1 / 2 = p) && decide (q.1.1 < 8))) })
  let s3 := foldS (here.flatMap (fun q => q.2.resp ++ q.2.reqs)) s2 (fun s f => match f.flow with
    | some id => sendFrame s id f
    | none => s)
  tptMod s3 (fun t => { t with closed := (upto 4).filter (fun k => k ∈ t.closed ∨ (k ≠ p ∧ 4096 ≤ trkInUse s3 k)) })

/-! ## Retirement (R8, R186 to R188, R412) -/

/-- Move a unit to RETIRED with its intent, and write its record. -/
def retireUnit (s : State) (k cause : Nat) (lo hi : Nat) : State :=
  let u := uGet s k
  if u.actual = .retired then s
  else
    let s1 := uMove s k .retired
    let s2 := uSet s1 k { uGet s1 k with intent := .retired, prior := none }
    faultUnit s2 k cause clsPermanent none lo hi

/-- The sweep of a granule ended, by its last line or by its group's retirement (R36 steps 5 and 6): a
SWEEPING pitch with no granule left becomes EMPTY and its identifiers free. -/
def granuleReturned (s : State) (g : Nat) (retired : Bool) : State :=
  let e := granGet s g
  let n := e.pitch.toNat
  let s1 := granPut s g { e with state := if retired then .retired else .free, pitch := 0 }
  let s2 := { s1 with sweeping := s1.sweeping.filter (fun x => x ≠ g) }
  let p := pGet s2 n
  if p.life = .sweeping ∧ !(s2.dmc.gran.any (fun x => x.2.state = .sweeping ∧ x.2.pitch.toNat = n)) then
    let s3 := pSet s2 n {}
    trace (actMod s3 (fun a => { a with pt := a.pt.filter (fun x => x.1.1 ≠ n) })) 3 n svcAgent n [4, 0, 0x73, p.generation]
  else s2

/-- What the retirement of a channel group takes with it (R186, R188): its channels and slices, what they hold, its
granules, and its dependent pitches. -/
def groupLost (s : State) (g cause : Nat) (lo hi : Nat) : State :=
  let cs := (upto 4).map (fun i => 4 * g + i)
  let s2 := foldS cs s (fun s c => retireUnit (retireUnit s (uChan c) cause lo hi) (uSlice c) cause lo hi)
  let inGroup (ppa : Nat) : Bool := decide ((granGet s2 (granOf ppa)).group = g)
  let s3 := cutStreams s2 (fun f => frameHits inGroup f) stMedia
  let s4 := foldS cs s3 (fun s c => chMod s c (fun ch => { ch with queue := [], wbuf := [], inorder := [], banks := [] }))
  let gone := s4.dmc.gran.filter (fun e => e.2.group = g ∧ (e.2.state = .free ∨ e.2.state = .sweeping ∨ e.2.state = .init))
  let s5 := foldS gone s4 (fun s e => granuleReturned s e.1 true)
  let s6 := tmgMod s5 (fun t => { t with lists := tmod (fun l =>
    { l with start := none, active := [], pending := none, owner := 0, status := 0 }) t.lists (8 + g) })
  foldS (pitchesInGroup s6 g) s6 (fun s n =>
    if hasFly s n then selfFence s n false else degradePitch s n cause lo hi)

/-- Retire a channel group (R188) under the cause of the event that triggered it. -/
def retireGroup (s : State) (g cause : Nat) (lo hi : Nat) : State :=
  if uAct s (uGroup g) = .retired then s else groupLost (retireUnit s (uGroup g) cause lo hi) g cause lo hi

/-- DETAIL of a line address (R414). -/
def lineLo (ppa : Nat) : Nat := ppa / 64 % 2 ^ 32
def lineHi (ppa : Nat) : Nat := ppa / 2 ^ 38 % 64

/-- Retire the 64 KiB page of a line (R186, R187): CAUSE 0 MEDIA, 1 INTEGRITY, 2 write-buffer parity. -/
def retirePage (s : State) (ppa kind : Nat) : State :=
  let page := ppa / 65536
  let g := granOf ppa
  let e := granGet s g
  if page ∈ e.pages then s
  else
    let c := chanOf s ppa
    let cause := if kind = 1 then 0x13 else 0x12
    let m := metaGet s ppa
    let lo := lineLo ppa
    let hi := lineHi ppa + (if kind = 1 then m.keySlot * 256 + m.owner.toNat * 65536 else 0)
    let tenant := if e.state = .held then some e.pitch.toNat else none
    let s1 := granPut s g { e with pages := insertNat page e.pages, retired := min 16 (e.retired + 1) }
    let s2 := chMod s1 c (fun ch => { ch with pages := ch.pages ++ [{ page := page, cause := kind, at_ := s.now }] })
    let s3 := bump s2 .dmcPageRetire c 0 0
    let i : FaultInfo :=
      { agent := dmcAgent c, cause := cause, cls := clsPermanent, state := actCode (uAct s3 (uChan c)),
        pitch := tenant, status := if kind = 1 then stIntegrity else stMedia, lo := lo, hi := hi,
        unit := some (uChan c) }
    let s4 := faultRec s3 i
    let s5 := match tenant with
      | none => s4
      | some n =>
        match (pGet s4 n).slots.find? (fun x => x.2 = g) with
        | none => s4
        | some x =>
          let pva := x.1 * 0x40000000 + ppa % 0x40000000
          let s5 := ptChanged (ptPut (splitPage s4 n pva) n 0 (pva / 65536) 0) n (pva / 65536 * 65536) 65536
          if hasFly s5 n then selfFence s5 n false else degradePitch s5 n cause lo hi
    let ch := chGet s5 c
    let recent := (ch.pages.filter (fun p => s.now < p.at_ + 3600000000000)).length
    if 256 ≤ ch.pages.length ∨ 16 ≤ recent then retireGroup s5 (c / 4) 0x17 lo hi else s5

/-! ## Fencing (R7, R9, R412, R416) -/

/-- A fault classed as fencing on a unit (R8, R412): an OFF unit stays OFF, a FENCED or RETIRED one keeps its
state, and the record is written in every case. -/
def fenceUnit (s : State) (k cause : Nat) (lo hi : Nat) : State :=
  let a := uAct s k
  match keyPitch k with
  | some n =>
    if serving a ∨ a = .training then
      if hasFly s n then selfFence s n false
      else faultUnit (uMove s k .fenced) k cause clsFencing none lo hi
    else faultUnit s k cause clsFencing none lo hi
  | none =>
    let s1 := if a = .off ∨ a = .fenced ∨ a = .retired then s else gridUnitLost (uMove s k .fenced) k
    let s2 := faultUnit s1 k cause clsFencing none lo hi
    if uAct s k = .fenced ∨ uAct s2 k ≠ .fenced then s2
    else
      -- pitches depend on groups and slices (R416)
      let agent := k / 512
      let isMem := agentDomain agent = 2 ∧ (agentBlock agent = 1 ∨ (agentBlock agent = 2 ∧ k % 512 = 0x100))
      if isMem then foldS (pitchesInGroup s2 (agentInst agent / 4)) s2 (fun s n => fencePitch s n cause lo hi)
      else s2

/-- A spare is consumed or part of a unit is retired (R8): an UP unit becomes DEGRADED. -/
def degradeUnit (s : State) (k cause : Nat) : State :=
  let s1 := if uAct s k = .up then uMove s k .degraded else s
  faultUnit s1 k cause clsDegrading none 0 0

/-! ## Chip stop (R417) -/

/-- Steps 1 to 3: admission stops, pitches with a confirmed fly self-fence and send RELEASE, every other
tenant pitch becomes FENCED, sessions end as at a strike, heartbeats stop. The agent that found the cause reports it; while
serving the UART prints the record (R452). -/
def chipStopBy (s : State) (agent cause : Nat) : State :=
  let i : FaultInfo := { agent := agent, cause := cause, cls := clsStop }
  let sp := if s.boot.serving then { s with wire := s.wire ++ [.uart (.stop (faultWords s i))] } else s
  let s0 := faultRec sp i
  if s.flt.stopped then s0
  else
    let s1 := fltMod s0 (fun f => { f with stopped := true })
    let ps := (s1.pitches.filter (fun e => e.1 ≠ 0 ∧ e.2.life = .up)).map (·.1)
    foldS ps s1 (fun s n =>
      let s2 := strikeColl (strikeGrid s n) n
      if hasFly s2 n then selfFence s2 n false else fencePitch s2 n cause 0 0)

/-- A chip stop that the service complex reports. -/
def chipStop (s : State) (cause : Nat) : State := chipStopBy s svcAgent cause

end Sys2Proof.Machine
end

