-- ==== Sys2Proof/Machine/Request.lean ====
section
/-! DEFINITION. What happens to a received frame before its operation runs: receive checks 1 to 13, policing,
flows and duplicates, acknowledgements (R53 to R66, R89 to R106, R110 to R114, R375 to R382). -/
namespace Sys2Proof.Machine

/-! ## Checks 1 to 4 (R53, R57, R60, R63) -/

/-- The counter of the first encapsulation item that fails (R53), with its block's number. -/
def encapFail (f : RxFrame) : Option (Cnt × Nat) :=
  let p := viaPort f.via
  let e := f.encap
  if 9216 < e.bytes then some (.prtOversize, p)
  else if 1 < e.vlanTags then some (.prtVlan, p)
  else if e.ipOpt then some (.prtIpOpt, p)
  else if (e.udpCsum ≠ 0 ∧ !e.udpCsumOk) ∨ (e.ipv6 ∧ e.udpCsum = 0) then some (.tptUdpCsum, 0)
  else if e.short then some (.tptShort, 0)
  else none

/-- TYPE agrees with OPCODE (R57). -/
def typeOk (op : Byte) (typ : BitVec 4) : Bool :=
  let n := op.toNat
  if typ = 0 then decide (n ≤ 0x7D)
  else if typ = 1 then decide (0x80 ≤ n ∧ n ≤ 0xFD)
  else if typ = 2 then decide (n = 0x7E ∨ n = 0x7F)
  else false

/-- Checks 1 to 4 in order: the counter to add to when one fails. -/
def earlyFail (op : Byte) (f : RxFrame) : Option (Cnt × Nat) :=
  match encapFail f with
  | some c => some c
  | none =>
    if crc32c (rxHdrBytes op f.hdr) ≠ f.hdr.hcrc then some (.tptHcrc, 0)
    else if f.hdr.version ≠ 1 then some (.tptVersion, 0)
    else if !typeOk op f.hdr.typ then some (.tptType, 0)
    else none

/-! ## Check 5: source binding (R126) -/

def srcFail (s : State) (op : Byte) (f : RxFrame) : Option Cnt :=
  if sessBound op f.hdr.flags ∧ f.hdr.typ = 0 then none
  else
    match tfind s.act.src f.hdr.endpoint.toNat with
    | none => some .tptSrcUnbound
    | some e =>
      if e.addr ≠ f.srcAddr ∨ e.port ≠ f.srcPort then some .tptSrcMismatch
      else if (op.toNat ≤ 0x6F ∨ (0x78 ≤ op.toNat ∧ op.toNat ≤ 0x7B)) ∧
              (ctxWord s f.hdr.endpoint.toNat f.hdr.context).isNone then some .tptCtxUnheld
      else none

/-! ## Check 6: ALIVE (R62) -/

def rxStream (op : Byte) (f : RxFrame) : StreamId :=
  if sessBound op f.hdr.flags ∧ f.hdr.typ = 0 then .sess f.srcAddr f.srcPort f.hdr.tc
  else .ep f.hdr.endpoint f.hdr.tc

/-- The headers counted missing before an accepted one, or none for a stale one (R62). -/
def aliveGap (s : State) (st : StreamId) (alive : Byte) : Option Nat :=
  match aget s.tpt.rxAlive st with
  | none => some 0
  | some last =>
    let d := (alive - last).toNat
    if 1 ≤ d ∧ d ≤ 128 then some (d - 1) else none

/-! ## Flow identity (R89) -/

def frameFlow (s : State) (op : Byte) (f : RxFrame) : FlowId × Nat :=
  if sessBound op f.hdr.flags then (.sess f.srcAddr f.srcPort f.hdr.tc, 0)
  else
    let n := (ctxPitch s f.hdr.context).getD 0
    (.ep f.hdr.endpoint (BitVec.ofNat 8 n) f.hdr.tc, n)

/-- What the controller keeps of a request frame. -/
def mkReq (op : Byte) (f : RxFrame) (id : FlowId) (n : Nat) : Req :=
  { op := op, flow := id, seq := f.hdr.flowSeq, flags := f.hdr.flags, context := f.hdr.context,
    endpoint := f.hdr.endpoint, tc := f.hdr.tc, address := f.hdr.address, length := f.hdr.length,
    tag := f.hdr.tag, payload := f.payload, ce := f.encap.ce, via := f.via, srcAddr := f.srcAddr,
    srcPort := f.srcPort, pitch := BitVec.ofNat 8 n }

/-! ## Check 7: authentication (R45, R77, R98) -/

/-- What the trailer of an A-flagged message says. -/
inductive Auth where
  | fail
  | stale
  | good (number : BitVec 32) (counter : Nat)
  /-- A correct tag whose FLOW_SEQ and counter are those of an entry of the flow's result cache (R98). -/
  | cached (number : BitVec 32) (counter : Nat)
deriving DecidableEq, Repr

def authCheck (s : State) (op : Byte) (f : RxFrame) : Auth :=
  let n := f.payload.length
  if n < 28 then .fail
  else
    let body := f.payload.take (n - 28)
    let t := f.payload.drop (n - 28)
    let number : BitVec 32 := BitVec.ofNat 32 (beAt t 0 4)
    let counter := beAt t 4 8
    match mgmtFind s number with
    | none => .fail
    | some m =>
      let tag := first16 (Config.hmac m.key (tagInput number counter (rxHdrBytes op { f.hdr with alive := 0 }) body))
      if !m.isOpen ∨ (t.drop 12).take 16 ≠ tag then .fail
      else if m.lastCounter < counter then .good number counter
      else
        match flowGet s (frameFlow s op f).1 with
        | some fl =>
          if fl.cache.any (fun e => e.seq = f.hdr.flowSeq ∧ e.counter = counter) then .cached number counter else .stale
        | none => .stale

/-! ## Policing (R377 to R382) -/

inductive Colour where
  | green | yellow | red
deriving DecidableEq, Repr

/-- BURST of a class, µs (R378, R383). -/
def burstOf (s : State) (cls : Nat) : Nat := regField s tmgAgent (if cls < 4 then 0x120 else 0x124) (8 * (cls % 4)) 8

/-- Depth of a bucket in eighths of a byte (R378). -/
def bucketDepth (rate burst : Nat) : Nat := 8 * max 9216 (rate * burst)

/-- Pre-colour of a DSCP (R383). -/
def preColour (s : State) (dscp : Nat) : Colour :=
  let v := regField s tmgAgent (0x110 + 4 * (dscp / 16)) (2 * (dscp % 16)) 2
  if v = 1 then .yellow else if v = 2 then .red else .green

/-- The colour of a frame of `b` eighths of a byte, and the buckets after it (R379). -/
def colourOf (pc : Colour) (k : Bucket) (b : Nat) : Colour × Bucket :=
  if pc = .red ∨ k.p < b then (.red, k)
  else if pc = .yellow ∨ k.c < b then (.yellow, { k with p := k.p - b })
  else (.green, { c := k.c - b, p := k.p - b })

def bucketGet (s : State) (n cls : Nat) : Bucket := (aget s.tmg.policers (n, cls)).getD {}
def bucketPut (s : State) (n cls : Nat) (b : Bucket) : State :=
  tmgMod s (fun t => { t with policers := aput t.policers (n, cls) b })

/-- Meter a request frame (R377): dropped (`none`), or passed green or yellow. TC6 frames with a context and
TC0 to TC5 use the pitch's policers, other TC6 and TC7 frames the port's (R381). -/
def meter (s : State) (n cls port dscp bytes : Nat) (ctx : BitVec 16) : State × Option Bool :=
  let b := 8 * bytes
  if cls < 6 then
    let pc := if tget false s.tmg.pcfg n then preColour s dscp else .green
    let r := colourOf pc (bucketGet s n cls) b
    let s1 := bucketPut s n cls r.2
    match r.1 with
    | .green => (bump s1 .tmgGreen 0 cls n, some false)
    | .yellow => (bump s1 .tmgYellow 0 cls n, some true)
    | .red => (bump s1 .tmgRed 0 cls n, none)
  else if cls = 6 ∧ ctx ≠ 0 then
    let k := bucketGet s n 6
    if k.c < b then (bump s .tmgPrivDrop 0 6 n, none) else (bucketPut s n 6 { k with c := k.c - b }, some false)
  else
    let key := if cls = 6 then port else port + 8
    let t := tget 0 s.tmg.privs key
    if t < b then (bump s .tmgPrivDrop 0 cls 0, none)
    else (tmgMod s (fun m => { m with privs := tset 0 m.privs key (t - b) }), some false)

/-! ## Acknowledgements (R102 to R105) -/

/-- Runs of consecutive distances. -/
def runsOf : List Nat → List (Nat × Nat)
  | [] => []
  | d :: t =>
    match runsOf t with
    | (a, n) :: r => if a = d + 1 then (d, n + 1) :: r else (d, 1) :: (a, n) :: r
    | [] => [(d, 1)]

/-- Payload of an ACK or NACK (R103). -/
def ackPayload (kind : Nat) (ce : Nat) (top : BitVec 24) (blocks : List (BitVec 24 × Nat)) : List Byte :=
  [BitVec.ofNat 8 kind, BitVec.ofNat 8 blocks.length] ++ beBytes 2 (min 0xFFFF ce) ++ beBytes 4 top.toNat ++
    blocks.flatMap (fun b => beBytes 4 b.1.toNat ++ beBytes 4 b.2)

def flowTc : FlowId → BitVec 3
  | .ep _ _ c => c
  | .sess _ _ c => c

/-- A TRANSPORT_ACK frame on a flow (R102). -/
def ackFrame (s : State) (id : FlowId) (cum : BitVec 24) (payload : List Byte) : TxFrame :=
  let base : TxFrame :=
    { opcode := 0x7F, typ := 2, flags := 0x4000, tc := flowTc id, flowSeq := cum, payload := payload,
      length := BitVec.ofNat 32 payload.length, flow := some id, isReq := false }
  match id with
  | .ep i p c =>
    let e := (tfind s.act.src i.toNat).getD {}
    { base with endpoint := wireIndex s i, address := p.zeroExtend 64, stream := .ep i c, dstAddr := e.addr, dstPort := e.port,
                pitch := p }
  | .sess a p c => { base with address := 0x100, stream := .sess a p c, dstAddr := a, dstPort := p }

/-- Send an ACK (R103, R104): the blocks list the received numbers above C, at most the 8 lowest runs. -/
def sendAck (s : State) (id : FlowId) : State :=
  match flowGet s id with
  | none => s
  | some f =>
    let blocks := (runsOf (received f)).take 8
    let top := match blocks.getLast? with
      | some b => f.c + BitVec.ofNat 24 (b.1 + b.2 - 1)
      | none => f.c
    let pay := ackPayload 0 f.ce top (blocks.map (fun b => (f.c + BitVec.ofNat 24 b.1, b.2)))
    let n := match id with | .ep _ p _ => p.toNat | .sess _ _ _ => 0
    let s1 := flowPut s id { f with fresh := 0, ackDue := none, ce := 0 }
    sendFrame (bump s1 .tptAckTx 0 0 n) id (ackFrame s id f.c pay)

/-- Is a missing number due at an instant (R104)? -/
def missingDue (s : State) (m : Missing) : Bool :=
  decide (m.since + nackDelayNs s ≤ s.now) && (match m.lastNack with
    | some t => decide (t + nackHoldNs s ≤ s.now)
    | none => true)

/-- Distances of missing numbers below the first one that is not due, in order (R104). -/
def nackList (s : State) (f : FlowSt) : Nat → Nat → List Nat
  | 0, _ => []
  | fuel + 1, d =>
    if topDist f < d then []
    else
      let q := f.c + BitVec.ofNat 24 d
      if q ∈ f.bits then nackList s f fuel (d + 1)
      else
        match f.missing.find? (fun m => m.seq = q) with
        | some m => if missingDue s m then d :: nackList s f fuel (d + 1) else []
        | none => []

/-- The last number a NACK describes: just below the lowest missing number that is not due. -/
def nackTop (s : State) (f : FlowSt) : Nat → Nat → Nat
  | 0, d => d - 1
  | fuel + 1, d =>
    if topDist f < d then d - 1
    else
      let q := f.c + BitVec.ofNat 24 d
      if q ∈ f.bits then nackTop s f fuel (d + 1)
      else
        match f.missing.find? (fun m => m.seq = q) with
        | some m => if missingDue s m then nackTop s f fuel (d + 1) else d - 1
        | none => d - 1

/-- Send a NACK if its range holds a due number (R104). -/
def sendNack (s : State) (id : FlowId) : State :=
  match flowGet s id with
  | none => s
  | some f =>
    let all := runsOf (nackList s f (topDist f + 1) 1)
    if all.isEmpty then s
    else
      let blocks := all.take 8
      let top := match blocks.getLast? with
        | some b => if 8 < all.length then b.1 + b.2 - 1 else nackTop s f (topDist f + 1) 1
        | none => 0
      let pay := ackPayload 1 f.ce (f.c + BitVec.ofNat 24 top) (blocks.map (fun b => (f.c + BitVec.ofNat 24 b.1, b.2)))
      let listed (q : BitVec 24) : Bool := blocks.any (fun b => b.1 ≤ seqDist f.c q ∧ seqDist f.c q < b.1 + b.2)
      let n := match id with | .ep _ p _ => p.toNat | .sess _ _ _ => 0
      let s1 := flowPut s id { f with fresh := 0, ackDue := none, ce := 0,
                                      missing := f.missing.map (fun m => if listed m.seq then { m with lastNack := some s.now } else m) }
      sendFrame (bump s1 .tptNackTx 0 0 n) id (ackFrame s id f.c pay)

/-- ACK after ACK_COUNT new requests, or at once when ACK_DELAY is 0 (R104, R106); NACK at once when
NACK_DELAY is 0. -/
def ackNow (s : State) (id : FlowId) : State :=
  match flowGet s id with
  | none => s
  | some f =>
    let s1 := if (ackCount s ≤ f.fresh ∧ 0 < f.fresh) ∨ (ackDelayNs s = 0 ∧ f.ackDue.isSome) then sendAck s id else s
    if nackDelayNs s = 0 then sendNack s1 id else s1

/-! ## Check 8: flows, trackers and duplicates (R90 to R99, R110, R112, R119) -/

/-- A header-only RETRY from a refusal slot, or a drop when none is free (R112). -/
def refuse (s : State) (r : Req) (c : Cnt) (perPitch : Bool) : State :=
  let p := viaPort r.via
  if 64 ≤ tget 0 s.tpt.refusals p then bump0 s .tptNoTracker
  else
    let f := { respFrame s r stRetry [] r.address true with release := none, refusal := some p }
    let s1 := bump (bump s c 0 0 (if perPitch then r.pitch.toNat else 0)) .tptStatus 0 stRetry 0
    enqueue (tptMod (excuse s1 r.flow r.seq) (fun t => { t with refusals := tset 0 t.refusals p (tget 0 t.refusals p + 1) }))
      (viaLink r.via) f

/-- What check 8 makes of a request. -/
inductive Classed where
  | fresh | ahead | inflight | dup
  /-- Answered from the carry-over cache (R119). -/
  | carried (e : CacheEnt)
deriving DecidableEq, Repr

/-- R93, with the carry-over record of R119. -/
def classify (s : State) (r : Req) (f : FlowSt) : Classed :=
  if (trkFind s r.flow r.seq).isSome then .inflight
  else
    let d := seqDist f.c r.seq
    let back : Option Carry := match f.carry with
      | some c => if c.openRec ∧ (c.cm - r.seq).toNat < 65536 ∧ r.seq ∉ c.arrived then some c else none
      | none => none
    match back with
    | some c =>
      match c.cache.find? (fun e => e.seq = r.seq) with
      | some e => if execClass r.op = .once then .carried e else .fresh
      | none => .fresh
    | none =>
      if 1 ≤ d ∧ d ≤ 0x10000 then (if r.seq ∈ f.bits then .dup else .fresh)
      else if d = 0 ∨ 0x800000 ≤ d then .dup
      else .ahead

/-- A duplicate of a completed request (R95): executed again (`some`), answered from the cache, or
discarded. -/
def resendCached (s : State) (r : Req) (e : CacheEnt) : State :=
  let st := bitsOf e.frame.flags 0 8
  sendFrame (bump (bump s .tptDupCached 0 0 r.pitch.toNat) .tptStatus 0 st 0) r.flow { e.frame with release := none }

/-- An ACK falls due within ACK_DELAY (R104). -/
def ackDueIn (s : State) (id : FlowId) : State :=
  match flowGet s id with
  | none => s
  | some f => flowPut s id { f with ackDue := some ((f.ackDue).getD (s.now + ackDelayNs s)) }

/-- A new request counts towards the next ACK (R104). -/
def noteFresh (s : State) (id : FlowId) : State :=
  match flowGet s id with
  | none => s
  | some f => flowPut (ackDueIn s id) id
      { f with fresh := f.fresh + 1, ackDue := some ((f.ackDue).getD (s.now + ackDelayNs s)) }

/-- The carry-over record notes an arrival, and goes once C passes C_M + 1_0000h (R119). -/
def noteCarry (f : FlowSt) (q : BitVec 24) : FlowSt :=
  match f.carry with
  | none => f
  | some c =>
    if !c.openRec then f
    else if 0x10000 < (f.c - c.cm).toNat ∧ (f.c - c.cm).toNat < 0x800000 then { f with carry := none }
    else if (c.cm - q).toNat < 65536 then { f with carry := some { c with arrived := q :: c.arrived } }
    else f

/-- Outcome of checks 1 to 8 for a request frame: finished (dropped, refused or answered), or admitted with
a tracker. -/
inductive Admit where
  | done (s : State)
  | go (s : State) (r : Req)

/-- Lifecycle, trust and management opcodes that a service complex restart turns away (R478). -/
def restartRefuses (op : Byte) : Bool :=
  decide ((0x70 ≤ op.toNat ∧ op.toNat ≤ 0x77) ∨ op.toNat = 0x7C ∨ (0x78 ≤ op.toNat ∧ op.toNat ≤ 0x7B))

/-- Take a tracker and go on, or refuse (R110, R112). SW_WRITEBACK and SW_DONE enter SWN's reserves without
one (R234). -/
def takeTracker (s : State) (r : Req) : Admit :=
  if r.op = 0x43 ∨ r.op = 0x48 then .go s r else
  match trkAvail s (viaPort r.via) r.tc with
  | none => .done (refuse s r .tptRetryTrk true)
  | some reserve => .go (trkAdd s r reserve) r

/-- Check 8 for a request on an existing flow. -/
def check8 (s : State) (r : Req) (f : FlowSt) : Admit :=
  match classify s r f with
  | .inflight => .done (bump s .tptDupInflight 0 0 r.pitch.toNat)
  | .ahead => .done (bump s .tptSeqAhead 0 0 r.pitch.toNat)
  | .carried e =>
    let s1 := flowPut s r.flow (noteCarry f r.seq)
    .done (resendCached s1 r { e with frame := { e.frame with stream := (respFrame s r 0 [] 0 true).stream,
                                                              dstAddr := r.srcAddr, dstPort := r.srcPort, flow := some r.flow } })
  | .fresh => takeTracker (noteFresh (flowPut s r.flow (noteCarry f r.seq)) r.flow) r
  | .dup =>
    match execClass r.op with
    | .repeatable => takeTracker (bump s .tptDupReexec 0 0 r.pitch.toNat) r
    | .ackOnly => .done (ackNow (ackDueIn (bump s .tptDupAckonly 0 0 r.pitch.toNat) r.flow) r.flow)
    | .once =>
      match f.cache.find? (fun e => e.seq = r.seq) with
      | some e => .done (resendCached s r e)
      | none => .done (bump s .tptDupLate 0 0 r.pitch.toNat)

/-- A frame of a flow was accepted: its egress port (R91) and its CE mark (R114). -/
def noteFrame (s : State) (r : Req) (f : FlowSt) : State × FlowSt :=
  let f1 := { f with egress := some r.via, ce := if r.ce then min 0xFFFF (f.ce + 1) else f.ce }
  let s1 := if r.ce then bump s .tptCe 0 0 r.pitch.toNat else s
  (flowPut s1 r.flow f1, f1)

/-- A flow of an endpoint or partner index, not of a session. -/
def isEpFlow : FlowId → Bool
  | .ep _ _ _ => true
  | .sess _ _ _ => false

/-- Find or create the flow (R90), then check 8. A SWEEPING pitch has no flows: its requests take a tracker
and leave no mark (R99). -/
def enterFlow (s : State) (r : Req) : Admit :=
  if restartRefuses r.op ∧ s.svc.restarting then .done (refuse s r .tptRetryTrk true)
  else
    match flowGet s r.flow with
    | some f =>
      let e := noteFrame s r f
      check8 e.1 r e.2
    | none =>
      if isEpFlow r.flow ∧ (pGet s r.pitch.toNat).life = .sweeping then
        takeTracker s r
      else if 65536 ≤ s.tpt.flows.length then .done (refuse s r .tptFlowFull false)
      else
        let e := noteFrame s r {}
        check8 e.1 r e.2

/-- Checks 1 to 8 and policing of a request frame (R63). Before the chip serves, KPP frames are dropped
(R451); a frame to another UDP port is none of KPP's (R52). -/
def receive (s0 : State) (op : Byte) (f : RxFrame) : Admit :=
  let s := poolTake s0 f.via f.hdr.tc.toNat
  if !s.tpt.admitting then .done (bump0 s .bootEarlyRx)
  else if f.encap.udpDst.toNat ≠ kppPort s then .done s
  else
    match earlyFail op f with
    | some c => .done (bump s c.1 c.2 0 0)
    | none =>
      match srcFail s op f with
      | some c => .done (bump0 s c)
      | none =>
        let st := rxStream op f
        match aliveGap s st f.hdr.alive with
        | none => .done (bump0 s .tptStale)
        | some gap =>
          let s1 := tptMod s (fun t => { t with rxAlive := aput t.rxAlive st f.hdr.alive })
          let s2 := if gap = 0 then s1 else bumpN s1 .tptAliveGap 0 0 0 gap
          let fl := frameFlow s2 op f
          let r := mkReq op f fl.1 fl.2
          let port := viaPort f.via
          let go (s : State) (r : Req) : Admit :=
            let m := meter s fl.2 f.hdr.tc.toNat port f.encap.dscp.toNat f.encap.bytes
              (if sessBound op f.hdr.flags then 0 else f.hdr.context)
            match m.2 with
            | none => .done m.1
            | some y => enterFlow m.1 { r with yellow := y }
          if flagA f.hdr.flags then
            match authCheck s2 op f with
            | .fail => .done (bump0 s2 .svcAuthFail)
            | .stale => .done (bump0 s2 .svcAuthStale)
            | .cached _ _ => go s2 r
            | .good number counter =>
              let s3 := mgmtMod s2 number (fun m => { m with lastCounter := counter, lastValid := s.now })
              go s3 { r with sess := some number, counter := counter,
                             payload := f.payload.take (f.payload.length - 28) }
          else go s2 r

/-! ## Checks 9 and 10 (R59, R66, R67) -/

/-- Flag misuse (R59). -/
def flagMisuse (s : State) (r : Req) : Bool :=
  (flagH r.flags && (decide (0x30 ≤ r.op.toNat) || !pHeld s r.pitch.toNat)) ||
    (flagX r.flags && ((decide (r.op ≠ 0x01) && decide (r.op ≠ 0x20)) || !pCocoon s r.pitch.toNat))

/-- A frame from a partner index (R66). -/
def fromPartner (s : State) (r : Req) : Bool :=
  match r.flow with
  | .ep i _ _ => (partnerOf s i.toNat).isSome
  | .sess _ _ _ => false

/-- A mirror frame: WRITE, BULK_PUT or BULK_DATA from a partner index (R66). -/
def isMirror (s : State) (r : Req) : Bool :=
  fromPartner s r && decide (r.op = 0x02 ∨ r.op = 0x21 ∨ r.op = 0x23)

/-- The class may carry the opcode (R66). -/
def classOk (s : State) (r : Req) : Bool :=
  let n := r.op.toNat
  let c := r.tc.toNat
  if n ≤ 0x3F ∨ (0x60 ≤ n ∧ n ≤ 0x6F) then
    if fromPartner s r ∧ (n = 0x02 ∨ n = 0x21 ∨ n = 0x23) then decide (c = 3 ∨ c = 0)
    else decide (c = 0 ∨ c = (dataClass s r.pitch.toNat).toNat)
  else if n ≤ 0x4F then decide (c = 5)
  else if n ≤ 0x5F then decide (c = 4)
  else decide (c = 6)

/-- Check 10: the opcode's group is among the context's (data opcodes and trust), and the class carries
it. -/
def permitted (s : State) (r : Req) : Bool :=
  classOk s r &&
    (if r.op.toNat ≤ 0x6F ∨ (0x78 ≤ r.op.toNat ∧ r.op.toNat ≤ 0x7B) then groupOk s r.endpoint.toNat r.context r.op
     else true)

/-! ## Check 13: pitch state (R63, R87, R424, R430) -/

/-- Payload of MOVED (R87): address, port, reserved. -/
def movedPayload (addr : BitVec 128) (port : BitVec 16) : List Byte :=
  beBytes 16 addr.toNat ++ beBytes 2 port.toNat ++ [0, 0]

/-- Has the takeover of a self-fenced pitch become known (R430)? -/
def takeoverKnown (s : State) (n : Nat) : Bool :=
  let m := mirGet s n
  m.takeoverKnown || (m.byLines && decide (lastBeatAt (peerGet s m.peer) + 7 * hbPeriodNs s ≤ s.now))

/-- The status and payload check 13 answers with, if it fails. A standby answers MOVED while a guy line to
the active lives or the fly is not confirmed, RETRY otherwise (R424); a self-fenced pitch answers FENCED,
then MOVED (R430). -/
def pitchCheck (s : State) (r : Req) : Option (Nat × List Byte) :=
  let n := r.pitch.toNat
  let p := pGet s n
  let m := mirGet s n
  let a := uAct s (uPitch n)
  let peer := peerGet s m.peer
  if p.life = .sweeping then some (stSweeping, [])
  else if p.life = .struck ∧ p.draining ∧ (r.op = 0x43 ∨ r.op = 0x44 ∨ r.op = 0x48) then none
  else if p.life = .pitching ∨ p.life = .struck ∨ p.life = .empty then some (stPitchDown, [])
  else if m.selfFenced then
    (if takeoverKnown s n then some (stMoved, movedPayload p.settings.flyAddr p.settings.flyPort) else some (stFenced, []))
  else if a = .fenced ∨ s.flt.stopped then some (stFenced, [])
  else if m.role = .standby then
    (if lineAlive peer 0 ∨ lineAlive peer 1 ∨ !m.confirmed then some (stMoved, movedPayload peer.addr peer.port)
     else some (stRetry, []))
  else none

end Sys2Proof.Machine
end

