-- ==== Sys2Proof/Machine/MemReq.lean ====
section
/-! DEFINITION. Memory, atomic, bulk and translation requests: checks 11 to 15 and their execution (R68 to R73,
R81 to R86, R131, R136 to R144, R163 to R165, R214, R215). -/
namespace Sys2Proof.Machine

/-! ## Lengths and alignment (R83 to R85) -/

def two57 : Nat := 2 ^ 57

/-- A bulk descriptor (R71). -/
structure Desc where
  base : Nat := 0
  rowLen : Nat := 0
  stride : Nat := 0
deriving DecidableEq, Repr

def readDesc (p : List Byte) (off : Nat) : Desc :=
  { base := beAt p off 8, rowLen := beAt p (off + 8) 4, stride := beAt p (off + 16) 8 }

/-- Bytes from BASE to the end of the last row (R71). -/
def descSpan (d : Desc) (len : Nat) : Nat :=
  if d.rowLen = 0 then len else (len / d.rowLen - 1) * d.stride + d.rowLen

/-- Check 11 on a descriptor: rows fit LENGTH, and nothing passes 2^57 (a handle's reach is judged
separately). -/
def descLenOk (d : Desc) (len : Nat) (h : Bool) : Bool :=
  (decide (d.rowLen = 0) || (decide (d.rowLen ≤ d.stride) && decide (len % d.rowLen = 0))) &&
    (h || decide (d.base + descSpan d len ≤ two57))

def descAlignOk (d : Desc) (h : Bool) : Bool :=
  (h || decide (d.base % 64 = 0)) && decide (d.rowLen % 64 = 0) && (decide (d.rowLen = 0) || decide (d.stride % 64 = 0))

/-- Mirror frames carry a 128-byte record before the data or descriptor (R421). -/
def recLen (mirror : Bool) : Nat := if mirror then 128 else 0

def isIntAtomic (op : Byte) : Bool := decide (0x10 ≤ op.toNat ∧ op.toNat ≤ 0x19)
def isAtomic (op : Byte) : Bool := decide (0x10 ≤ op.toNat ∧ op.toNat ≤ 0x1B)

/-- Element bytes of a floating-point atomic. -/
def atomElem (op : Byte) : Nat := if op = 0x1A then 4 else 2

/-- The address a request or a field reaches without translation: a pool-virtual address, or the one its
handle reaches (R85). -/
def reach (s : State) (r : Req) (a : Nat) : Option Nat :=
  if flagH r.flags then (handleFind s a r.endpoint r.context).map (fun e => e.2.pva + a % 2 ^ 30)
  else some a

/-- OFFSET plus the range stays inside COVER (R141). An invalid handle is judged at check 14. -/
def coverOk (s : State) (r : Req) (a span : Nat) : Bool :=
  if flagH r.flags then
    (match handleFind s a r.endpoint r.context with
     | some e => decide (a % 2 ^ 30 + span ≤ e.2.cover)
     | none => true)
  else decide (a + span ≤ two57)

/-- The oldest open BULK_PUT of a tag on a flow. -/
def bulkFind (s : State) (id : FlowId) (tag : BitVec 32) : Option BulkPut :=
  (flowGet s id).bind (fun f => f.bulk.find? (fun b => b.req.tag = tag))

/-- Check 11 (R81 to R84): the payload size that LENGTH implies, the limits, 2^57, and what an open BULK_PUT has behind a
BULK_DATA (R72, R83). -/
def lenOk (s : State) (r : Req) : Bool :=
  let n := r.op.toNat
  let len := r.length.toNat
  let a := r.address.toNat
  let pay := r.payload.length
  let h := flagH r.flags
  let mir := isMirror s r
  if len = 0 then false
  else if n = 0x01 then decide (len ≤ 0x100000) && decide (pay = 0) && coverOk s r a len
  else if n = 0x02 then decide (len ≤ 8192) && decide (pay = len + recLen mir) && coverOk s r a len
  else if n = 0x03 then
    let nt := beAt r.payload 0 8
    decide (len ≤ 8184) && decide (pay = len + 8) && coverOk s r a len && decide (nt + 8 ≤ two57) &&
      (match reach s r a with
       | some d => decide (nt + 8 ≤ d ∨ d + len ≤ nt)
       | none => true)
  else if isIntAtomic r.op then
    decide (len = 4 ∨ len = 8) && decide (pay = (if n = 0x12 then 2 * len else len)) && coverOk s r a len
  else if isAtomic r.op then
    decide (len ≤ 64) && decide (len % atomElem r.op = 0) && decide (pay = len) && coverOk s r a len
  else if n = 0x20 ∨ n = 0x21 then
    decide (len < 0xFFFFFFFF) && decide (a = 0) && decide (pay = 24 + (if n = 0x21 then recLen mir else 0)) &&
      (let d := readDesc r.payload (if n = 0x21 then recLen mir else 0)
       descLenOk d len h && coverOk s r d.base (descSpan d len))
  else if n = 0x22 then
    decide (len < 0xFFFFFFFF) && decide (a = 0) && decide (pay = 48) &&
      (let d := readDesc r.payload 0
       let e := readDesc r.payload 24
       descLenOk d len h && descLenOk e len h && coverOk s r d.base (descSpan d len) &&
         coverOk s r e.base (descSpan e len) &&
         (match reach s r d.base, reach s r e.base with
          | some x, some y => decide (x + descSpan d len ≤ y ∨ y + descSpan e len ≤ x)
          | _, _ => true))
  else if n = 0x23 then decide (64 ≤ len) && decide (len ≤ 8192) && decide (pay = len) &&
    (match bulkFind s r.flow r.tag with
     | some b => decide (a + len ≤ b.req.length.toNat)
     | none => true)
  else if n = 0x30 then decide (pay = 0) && decide (a < two57)
  else if n = 0x32 then decide (8 ≤ len) && decide (len ≤ 512) && decide (len % 8 = 0) && decide (pay = len)
  else true

/-- Is a value aligned, for the address that a handle or a pool-virtual address reaches? -/
def reachAligned (s : State) (r : Req) (a k : Nat) : Bool :=
  match reach s r a with
  | some x => decide (x % k = 0)
  | none => true

/-- Check 12 (R85). -/
def alignOk (s : State) (r : Req) : Bool :=
  let n := r.op.toNat
  let len := r.length.toNat
  let a := r.address.toNat
  let h := flagH r.flags
  if n = 0x03 then decide (beAt r.payload 0 8 % 8 = 0)
  else if isIntAtomic r.op then reachAligned s r a len
  else if isAtomic r.op then
    reachAligned s r a (atomElem r.op) && (match reach s r a with
      | some x => decide (x % 64 + len ≤ 64)
      | none => true)
  else if n = 0x20 ∨ n = 0x21 then
    let d := readDesc r.payload (if n = 0x21 then recLen (isMirror s r) else 0)
    decide (len % 64 = 0) && descAlignOk d h && reachAligned s r d.base 64
  else if n = 0x22 then
    let d := readDesc r.payload 0
    let e := readDesc r.payload 24
    decide (len % 64 = 0) && descAlignOk d h && descAlignOk e h && reachAligned s r d.base 64 && reachAligned s r e.base 64
  else if n = 0x23 then decide (len % 64 = 0) && decide (a % 64 = 0)
  else true

/-! ## Check 14 (R139) -/

/-- A range that a request needs: address, bytes, written or read, by handle or not. -/
structure Need where
  addr : Nat := 0
  len : Nat := 0
  write : Bool := false
  handle : Bool := false
deriving DecidableEq, Repr

/-- What check 14 finds: a status with the counter it adds to, misses to wait for, or the pieces of each
needed range. -/
inductive C14 where
  | fail (status : Nat) (c : Option Cnt)
  | wait (pages : List Nat) (slice : Nat)
  | ok (parts : List (List Piece)) (slice : Nat)
deriving DecidableEq, Repr

/-- Step 1 for one range: its pool-virtual base and lead slice, or the status. -/
def needBase (s : State) (r : Req) (d : Need) : Sum Nat (Nat × Nat) :=
  if d.handle then
    match handleFind s d.addr r.endpoint r.context with
    | none => .inl stNotMapped
    | some e =>
      if uAct s (uGroup (e.1 / 16384 / 4)) = .retired then .inl stNotMapped
      else .inr (e.2.pva + d.addr % 2 ^ 30, e.1 / 16384)
  else
    match slotGran s r.pitch.toNat d.addr with
    | none => .inl stDenied
    | some _ => .inr (d.addr, leadSlice s r.pitch.toNat d.addr)

/-- A handle's range without translation: its PPA, with the attributes of its page as the tables stand
(R141). -/
def handlePiece (s : State) (r : Req) (d : Need) : List Piece :=
  match handleFind s d.addr r.endpoint r.context with
  | none => []
  | some e =>
    let off := d.addr % 2 ^ 30
    let ent := match walk s r.pitch.toNat (e.2.pva + off) with
      | .leaf _ x => x
      | _ => 0
    [{ pva := e.2.pva + off, ppa := e.2.ppa + off, len := d.len, entry := ent }]

/-- Cocoon of a pitch over an address. -/
def cocoonAt (s : State) (n pva : Nat) : Option Cocoon :=
  (pkGet s n).cocoons.find? (fun c => decide (c.base ≤ pva) && decide (pva < c.base + c.len))

/-- Ranges of a LOADING or FAILED cocoon that pieces touch (R214). -/
def touchesBadCocoon (s : State) (n : Nat) (ps : List Piece) : Bool :=
  ps.any (fun p => (pkGet s n).cocoons.any (fun c => decide (c.state ≠ .ready) && decide (p.pva < c.base + c.len) &&
    decide (c.base < p.pva + p.len)))

/-- Steps 1 to 6 of R139 for a request's ranges. -/
def check14 (s : State) (r : Req) (needs : List Need) : C14 :=
  let bases := needs.map (needBase s r)
  match bases.find? (fun b => match b with | .inl _ => true | .inr _ => false) with
  | some (.inl st) => .fail st (if st = stDenied then some .actDeniedSlot else some .actNotMapped)
  | _ =>
    let slice := match bases.head? with
      | some (.inr (_, sl)) => sl
      | _ => 0
    let tr := (needs.zip bases).map (fun e => match e.2 with
      | .inr (pva, _) =>
        if e.1.handle then (handlePiece s r e.1, []) else translate s slice r.pitch.toNat pva e.1.len
      | .inl _ => ([], []))
    let missing := tr.flatMap (·.2)
    if !missing.isEmpty then .wait missing slice
    else
      let all := tr.flatMap (·.1)
      match unitsVerdict s all with
      | some st => .fail st (if st = stNotMapped then some .actNotMapped else none)
      | none =>
        let ws := ((needs.zip tr).filter (fun e => e.1.write)).flatMap (fun e => e.2.1)
        let rs := ((needs.zip tr).filter (fun e => !e.1.write)).flatMap (fun e => e.2.1)
        if 0x40 ≤ r.op.toNat ∧ r.op.toNat ≤ 0x4F ∧ all.any (fun p => !entSync p.entry) then .fail stDenied (some .actDeniedAttr)
        else if ws.any (fun p => entRo p.entry || entCocoon p.entry) then .fail stDenied (some .actDeniedAttr)
        else if !flagX r.flags ∧ rs.any (fun p => entCocoon p.entry) then .fail stSealed (some .actSealed)
        else if !groupOk s r.endpoint.toNat r.context r.op then .fail stDenied (some .actDeniedAttr)
        else .ok (tr.map (·.1)) slice

/-- Issue a request's misses (R138): at most 16 at a time, in ascending page order; joined to one that is
outstanding; RETRY only if none can be issued when the first is needed. -/
def issueMisses (s : State) (r : Req) (slice : Nat) (pages : List Nat) : State :=
  let n := r.pitch.toNat
  let go := (pages.take 16).foldl (fun (acc : State × Nat) page =>
    let s := acc.1
    if s.act.misses.any (fun m => m.slice = slice ∧ m.pitch.toNat = n ∧ m.page = page) then
      (bump (actMod s (fun a => { a with misses := a.misses.map (fun m =>
        if m.slice = slice ∧ m.pitch.toNat = n ∧ m.page = page then { m with waiting := m.waiting ++ [r] } else m) }))
        .actMissMerged slice 0 n, acc.2 + 1)
    else if (s.act.misses.filter (fun m => m.slice = slice)).length < 256 then
      let m : Miss := { slice := slice, pitch := r.pitch, page := page, sent := s.now, waiting := [r] }
      (bump (actMod s (fun a => { a with misses := a.misses ++ [m] })) .actMiss slice 0 n, acc.2 + 1)
    else acc) (s, 0)
  if go.2 = 0 then answer (bump s .actMissFull slice 0 n) r stRetry [] else go.1

/-- Answer a request that fails check 14, with its counter at the lead slice or, for step 1, at inst 0. -/
def fail14 (s : State) (r : Req) (slice status : Nat) (c : Option Cnt) (payload : List Byte) : State :=
  let s1 := match c with
    | some k => bump s k (if k = .actDeniedSlot then 0 else slice) 0 r.pitch.toNat
    | none => s
  answer s1 r status payload

/-! ## Line access -/

/-- Counters of a line access that ends in MEDIA or INTEGRITY (R178, R179, R191). -/
def noteBadLine (s : State) (ppa n : Nat) (v : LineVerdict) : State :=
  let c := chanOf s ppa
  match v with
  | .media => bump (bumpN s .mceParity c 0 0 4) .mceMedia c 0 n
  | .integrity => bump (bumpN s .mceTagFail c 0 0 2) .mceIntegrity c 0 n
  | .good => s

def verdictStatus : LineVerdict → Nat
  | .media => stMedia
  | .integrity => stIntegrity
  | .good => stOk

/-- End an access at a bad line: counted, its page retired (R186); a poisoned line is one that R180 wrote. -/
def badLine (s : State) (ppa n : Nat) (v : LineVerdict) : State :=
  match v with
  | .good => s
  | .media => retirePage (noteBadLine s ppa n v) ppa (if (metaGet s ppa).poison = 0 then 0 else 2)
  | .integrity => retirePage (noteBadLine s ppa n v) ppa 1

/-- All lines of some pieces. -/
def pieceLines (ps : List Piece) : List Nat := ps.flatMap (fun p => linesOf p.ppa p.len)

/-- The first line that fails its checks for a context, with the status (R163, R131). -/
def firstBad (s : State) (ctx : BitVec 16) : List Nat → Option (Nat × Nat × LineVerdict)
  | [] => none
  | l :: t =>
    match lineVerdict s l with
    | .good => if ownerOk s l ctx then firstBad s ctx t else some (l, stDenied, .good)
    | v => some (l, verdictStatus v, v)

/-- Bytes of one piece as a remote or pitch master reads them: FREE lines read zero (R164). -/
def pieceBytes (s : State) (p : Piece) : List Byte :=
  let first := p.ppa / 64 * 64
  (((linesOf p.ppa p.len).flatMap (linePlain s)).drop (p.ppa - first)).take p.len

def piecesBytes (s : State) (ps : List Piece) : List Byte := ps.flatMap (pieceBytes s)

/-- Write bytes over one piece, line by line (R164, R165). -/
def writePiece : Nat → State → Nat → BitVec 16 → Nat → List Byte → State
  | 0, s, _, _, _, _ => s
  | fuel + 1, s, n, ctx, ppa, bs =>
    if bs.isEmpty then s
    else
      let here := 64 - ppa % 64
      writePiece fuel (lineWrite s n ctx ppa (bs.take here)) n ctx (ppa + min here bs.length) (bs.drop here)

def writePieces (s : State) (n : Nat) (ctx : BitVec 16) : List Piece → List Byte → State
  | [], _ => s
  | p :: t, bs => writePieces (writePiece (p.len / 64 + 2) s n ctx p.ppa (bs.take p.len)) n ctx t (bs.drop p.len)

/-- Queue the check read and the write of every line written (R131, R165). -/
def queueWrites (s : State) (r : Req) (lines : List Nat) : State :=
  let n := r.pitch.toNat
  let cls := svcClass s n r.yellow
  foldS lines s (fun s l => dmcWrite (dmcRead s l cls n true (some (r.flow, r.seq))) l cls n)

def queueReads (s : State) (r : Req) (lines : List Nat) : State :=
  let n := r.pitch.toNat
  let cls := svcClass s n r.yellow
  foldS lines s (fun s l => dmcRead s l cls n false (some (r.flow, r.seq)))

/-! ## Completion, mirrored where the pitch has a fly (R422) -/

/-- A write or atomic is done here: answered OK, once the fly has answered where the pitch is mirrored. -/
def completeWrite (s : State) (r : Req) (ranges : List (Nat × Nat)) (payload : List Byte) : State :=
  let s1 := markWindow s r
  if mirrors s1 r.pitch.toNat then
    mirrorOp s1 r.pitch.toNat r.context ranges { req := some r, payload := payload }
  else respond s1 r stOk payload

/-! ## READ and BULK_GET streams (R81, R82, R131, R214, R215) -/

/-- Bytes before the first bad line of some pieces, and that line. -/
def goodPrefix (s : State) (ctx : BitVec 16) : List Piece → Nat → Option (Nat × Nat × Nat × LineVerdict)
  | [], _ => none
  | p :: t, off =>
    match firstBad s ctx (linesOf p.ppa p.len) with
    | some (l, st, v) => some (off + (l - p.ppa), l, st, v)
    | none => goodPrefix s ctx t (off + p.len)

/-- Counter block of a sealed response (R214). -/
def sealBlock (n exec block : Nat) : List Byte :=
  BitVec.ofNat 8 n :: beBytes 7 exec ++ zeros 4 ++ beBytes 4 block

/-- XOR data with the keystream of a sealed response (R214). -/
def sealData (key : BitVec 256) (n exec : Nat) (data : List Byte) : List Byte :=
  let blocks := (data.length + 15) / 16
  let ks := (upto blocks).flatMap (fun b => beBytes 16 (Config.ctrBlock key (sealBlock n exec b)).toNat)
  (data.zip ks).map (fun e => e.1 ^^^ e.2)

/-- Answer a READ or BULK_GET from its pieces, the first byte at ADDRESS `address`: data in segments, ended
early at the first bad line (R82). -/
def streamOut (s : State) (r : Req) (address : Nat) (ps : List Piece) : State :=
  let n := r.pitch.toNat
  let k := pkGet s n
  let sealed := flagX r.flags
  if sealed ∧ (k.session.isNone ∨ touchesBadCocoon s n ps ∨ 2 ^ 56 ≤ k.sealExec) then
    fail14 s r 0 stSealed (some .actSealed) []
  else
    let s0 := markWindow s r
    let s1 := if sealed then bump (pkPut s0 n { k with sealExec := k.sealExec + 1 }) .tptSealedExec 0 0 n else s0
    let tail := if sealed then (sealBlock n k.sealExec 0).take 12 ++ zeros 4 else []
    let enc (d : List Byte) : List Byte := match sealed, k.session with
      | true, some key => sealData key n k.sealExec d
      | _, _ => d
    let pp := ps.map (fun p => (p.ppa, p.len))
    let seg := segSize s r
    match goodPrefix s r.context ps 0 with
    | none =>
      let data := enc (piecesBytes s ps)
      sendSegs (data.length / seg + 1) (queueReads s1 r (pieceLines ps)) r seg address data pp tail
    | some (good, line, st, v) =>
      let keep := good / seg * seg
      let data := enc ((piecesBytes s ps).take keep)
      -- the segments before the one that holds the bad line, none of them last, then the failure
      let s2 := foldN (keep / seg) (fun s i =>
        let f := respFrame s r stOk ((data.drop (i * seg)).take seg ++ tail) (BitVec.ofNat 64 (address + i * seg)) false
        respSend (bump s .tptStatus 0 stOk 0) r { f with lines := subPieces pp (i * seg) seg }) s1
      let s3 := if st = stDenied then bump s2 .actDeniedOwner (chanOf s2 line) 0 n else badLine s2 line n v
      respondAt s3 r st [] (BitVec.ofNat 64 (address + keep))

/-! ## Atomics (R69, R70) -/

/-- Signed value of a number of `w` bits. -/
def signedOf (w x : Nat) : Int := (BitVec.ofNat w x).toInt

/-- New value of an integer atomic on the old value m (R69). -/
def atomInt (op : Byte) (len m v c : Nat) : Nat :=
  let w := 8 * len
  let n := op.toNat
  if n = 0x10 then (m + v) % 2 ^ w
  else if n = 0x11 then v
  else if n = 0x12 then (if m = c then v else m)
  else if n = 0x13 then m &&& v
  else if n = 0x14 then m ||| v
  else if n = 0x15 then m ^^^ v
  else if n = 0x16 then (if signedOf w v < signedOf w m then v else m)
  else if n = 0x17 then (if signedOf w m < signedOf w v then v else m)
  else if n = 0x18 then min m v
  else max m v

/-- Split bytes into elements of k bytes. -/
def elems (k : Nat) (bs : List Byte) : List (List Byte) :=
  (upto (bs.length / k)).map (fun i => (bs.drop (i * k)).take k)

/-- New memory bytes and the response's old value, both from the old memory bytes (R55, R69). -/
def atomApply (op : Byte) (len : Nat) (old payload : List Byte) : List Byte × List Byte :=
  if isIntAtomic op then
    let m := leNat old
    let v := beAt payload (if op = 0x12 then len else 0) len
    let c := beAt payload 0 len
    (leBytes len (atomInt op len m v c), beBytes len m)
  else
    let k := atomElem op
    let add (a b : Nat) : Nat := if k = 4 then addF32 a b else addBf16 a b
    let es := (elems k old).zip (elems k payload)
    (es.flatMap (fun e => leBytes k (add (leNat e.1) (beNat e.2))), (elems k old).flatMap (fun e => e.reverse))

/-! ## Bulk rows (R71) -/

/-- Sub-range of a list of pieces by pool-virtual address. -/
def cutPieces (ps : List Piece) (pva len : Nat) : List Piece :=
  ps.filterMap (fun p =>
    let lo := max p.pva pva
    let hi := min (p.pva + p.len) (pva + len)
    if lo < hi then some { p with pva := lo, ppa := p.ppa + (lo - p.pva), len := hi - lo } else none)

/-- Pieces of the bytes of a transfer from offset `off`, `len` long, in transfer order. -/
def rowPieces (d : Desc) (base : Nat) (ps : List Piece) : Nat → Nat → Nat → List Piece
  | 0, _, _ => []
  | fuel + 1, off, len =>
    if len = 0 then []
    else if d.rowLen = 0 then cutPieces ps (base + off) len
    else
      let here := min (d.rowLen - off % d.rowLen) len
      cutPieces ps (base + off / d.rowLen * d.stride + off % d.rowLen) here ++
        rowPieces d base ps fuel (off + here) (len - here)

def rowFuel (d : Desc) (len : Nat) : Nat := if d.rowLen = 0 then 2 else len / d.rowLen + 3

/-- Copy line by line, each source line checked as it is read and each destination line as it is written
(R131); the status at the end, and the bad line if there is one. -/
def copyLines (s : State) (n : Nat) (ctx : BitVec 16) : List (Nat × Nat) → State × Nat × Option (Nat × LineVerdict)
  | [] => (s, stOk, none)
  | (a, b) :: t =>
    match firstBad s ctx [a] with
    | some (_, st, v) => (s, st, some (a, v))
    | none =>
      match firstBad s ctx [b] with
      | some (_, st, v) => (s, st, some (b, v))
      | none => copyLines (lineWrite s n ctx b (linePlain s a)) n ctx t

/-- PPAs of the 64-byte lines of pieces, in order. -/
def lineList (ps : List Piece) : List Nat := ps.flatMap (fun p => (upto (p.len / 64)).map (fun i => p.ppa + i * 64))

/-! ## Open BULK_PUTs (R72) -/

def bulkMod (s : State) (id : FlowId) (g : List BulkPut → List BulkPut) : State :=
  match flowGet s id with
  | none => s
  | some f => flowPut s id { f with bulk := g f.bulk }

def bulkDrop (s : State) (id : FlowId) (seq : BitVec 24) : State :=
  bulkMod s id (fun l => l.filter (fun b => b.req.seq ≠ seq))

/-- BULK_DATA frames of a BULK_PUT that wait at SWN for their lines. -/
def swnData (s : State) (b : BulkPut) : List Req :=
  (s.swn.ready ++ s.swn.dir.flatMap (fun e => e.2.queue ++ (match e.2.txn with
    | some t => (match t.kind with
      | .access r _ => [r]
      | _ => [])
    | none => []))).foldl (fun acc r =>
      if r.op = 0x23 ∧ r.flow = b.req.flow ∧ r.tag = b.req.tag ∧ !(acc.any (fun q => q.seq = r.seq)) then acc ++ [r] else acc) []

/-- A BULK_PUT ends with a status other than OK: its waiting frames are answered with it (R72). -/
def bulkEnd (s : State) (b : BulkPut) (status : Nat) (payload : List Byte) : State :=
  let s1 := bulkDrop s b.req.flow b.req.seq
  let s2 := answer s1 b.req status payload
  let s3 := foldS (swnData s2 b) s2 (fun s r => answer (syncForget s r) r status payload)
  foldS b.waiting s3 (fun s r => answer s r status payload)

/-- The descriptor of a BULK_PUT. -/
def putDesc (s : State) (r : Req) : Desc := readDesc r.payload (recLen (isMirror s r))

/-- Pool-virtual base a bulk descriptor reaches. -/
def descReach (s : State) (r : Req) (d : Desc) : Nat := (reach s r d.base).getD d.base

/-- The ranges a bulk operation covers, row by row (for its mirror frames). -/
def descRanges (base : Nat) (d : Desc) (off len : Nat) : List (Nat × Nat) :=
  if d.rowLen = 0 then [(base + off, len)]
  else (upto ((off + len - 1) / d.rowLen - off / d.rowLen + 1)).map (fun i =>
    let row := off / d.rowLen + i
    let lo := max off (row * d.rowLen)
    let hi := min (off + len) ((row + 1) * d.rowLen)
    (base + row * d.stride + (lo - row * d.rowLen), hi - lo))

/-- Write one BULK_DATA frame of an open BULK_PUT that has passed check 14, each line checked when it is
written (R131); count it; answer the BULK_PUT when the count reaches LENGTH (R72). -/
def bulkWrite (s : State) (b : BulkPut) (r : Req) (pages : List Piece) : State :=
  let n := r.pitch.toNat
  let off := r.address.toNat
  let len := r.length.toNat
  let total := b.req.length.toNat
  if total < off + len then answer s r stLength []
  else
    let d := putDesc s b.req
    let base := descReach s b.req d
    let dst := lineList (rowPieces d base pages (rowFuel d len) off len)
    let step (acc : State × Nat × Option (Nat × LineVerdict)) (e : Nat × Nat) :=
      if acc.2.1 ≠ stOk then acc
      else
        match firstBad acc.1 r.context [e.1] with
        | some (_, st, v) => (acc.1, st, some (e.1, v))
        | none => (lineWrite acc.1 n r.context e.1 ((r.payload.drop (64 * e.2)).take 64), stOk, none)
    let w := (dst.zip (upto dst.length)).foldl step (s, stOk, none)
    if w.2.1 ≠ stOk then
      let s1 := match w.2.2 with
        | some (l, v) => if w.2.1 = stDenied then bump w.1 .actDeniedOwner (chanOf w.1 l) 0 n else badLine w.1 l n v
        | none => w.1
      let s2 := bulkEnd s1 b w.2.1 []
      answer s2 r w.2.1 []
    else
      let s1 := queueWrites w.1 r dst
      let got := b.got + len
      let s2 := bulkMod s1 r.flow (fun l => l.map (fun x =>
        if x.req.seq = b.req.seq then { x with got := got, last := s.now, moved := true } else x))
      let s3 := markWindow s2 r
      let s4 := respond s3 r stOk []
      let ranges := descRanges base d off len
      if got = total then
        let s5 := bulkDrop s4 b.req.flow b.req.seq
        if mirrors s5 n then mirrorOp s5 n r.context ranges { req := some b.req } else respond s5 b.req stOk []
      else if mirrors s4 n then mirrorOp s4 n r.context ranges {} else s4

/-- Pages a BULK_PUT holds since it was queued (R144). -/
def putPages (s : State) (b : BulkPut) : List Piece :=
  let d := putDesc s b.req
  match check14 s b.req [{ addr := d.base, len := descSpan d b.req.length.toNat, write := true, handle := flagH b.req.flags }] with
  | .ok parts _ => parts.flatten
  | _ => []

/-! ## XLATE (R73, R140) -/

/-- The lowest entry of a slice's handle table that is not in use. -/
def freeHandle (s : State) (slice : Nat) : Nat :=
  let used := (s.act.handles.filter (fun e => e.1 / 16384 = slice ∧ e.2.used)).map (fun e => e.1 % 16384)
  ((upto (used.length + 1)).find? (fun i => i ∉ used)).getD 0

/-- Entry and generation an XLATE takes: the endpoint's oldest at the slice beyond its quota, with GEN
increased, otherwise a free one (R140). -/
def xlateEntry (s : State) (slice : Nat) (ep : BitVec 12) (n : Nat) : State × Nat :=
  let mine := s.act.handles.filter (fun e => e.1 / 16384 = slice ∧ e.2.used ∧ e.2.endpoint = ep)
  if mine.length < handleQuota s then (s, handleKey slice (freeHandle s slice))
  else
    match mine.foldl (fun (b : Option (Nat × Handle)) e => match b with
      | none => some e
      | some x => if e.2.born < x.2.born then some e else some x) none with
    | none => (s, handleKey slice (freeHandle s slice))
    | some e =>
      let s1 := hInvalidate s e.1
      let s2 := actMod s1 (fun a => { a with recalls := (a.recalls.map (fun r =>
        { r with keys := r.keys.filter (fun k => k ≠ e.1) })).filter (fun r => !r.keys.isEmpty) })
      (bump s2 .actXlateEvict slice 0 n, e.1)

/-- Issue a handle to a page piece (R140). -/
def issueHandle (s : State) (r : Req) (slice pva : Nat) (t : TlbEnt) : State :=
  let n := r.pitch.toNat
  let room := pageSize t.level - pva % pageSize t.level
  let cover := min r.length.toNat room
  let e := xlateEntry s slice r.endpoint n
  let gen := (hGet e.1 e.2).gen
  let h : Handle :=
    { used := true, endpoint := r.endpoint, context := r.context, pitch := r.pitch, pva := pva,
      ppa := entAddr t.entry + pva % pageSize t.level, cover := cover, level := t.level, gen := gen, born := e.1.act.born }
  let s1 := actMod (hPut e.1 e.2 h) (fun a => { a with born := a.born + 1 })
  let s2 := bump s1 .actXlate slice 0 n
  answer s2 r stOk (beBytes 8 (handleBits gen e.2 0) ++ beBytes 4 cover ++ [BitVec.ofNat 8 t.level, 0, 0, 0])

/-! ## Execution from check 14 -/

/-- Ranges that an operation needs translated. -/
def needsOf (s : State) (r : Req) : List Need :=
  let n := r.op.toNat
  let h := flagH r.flags
  let a := r.address.toNat
  let len := r.length.toNat
  if n = 0x01 then [{ addr := a, len := len, handle := h }]
  else if n = 0x02 ∨ isAtomic r.op then [{ addr := a, len := len, write := true, handle := h }]
  else if n = 0x03 then
    [{ addr := a, len := len, write := true, handle := h }, { addr := beAt r.payload 0 8, len := 8, write := true }]
  else if n = 0x20 then
    let d := readDesc r.payload 0
    [{ addr := d.base, len := descSpan d len, handle := h }]
  else if n = 0x21 then
    let d := putDesc s r
    [{ addr := d.base, len := descSpan d len, write := true, handle := h }]
  else if n = 0x22 then
    let d := readDesc r.payload 0
    let e := readDesc r.payload 24
    [{ addr := d.base, len := descSpan d len, handle := h }, { addr := e.base, len := descSpan e len, write := true, handle := h }]
  else if n = 0x30 then [{ addr := a, len := 1 }]
  else []

/-- Refuse a write whose check reads find a bad line: nothing is written (R131, R165). -/
def refuseWrite (s : State) (r : Req) (b : Nat × Nat × LineVerdict) : State :=
  let n := r.pitch.toNat
  let s1 := if b.2.1 = stDenied then bump s .actDeniedOwner (chanOf s b.1) 0 n else badLine s b.1 n b.2.2
  answer s1 r b.2.1 []

/-- Bytes that a handle or a pool-virtual address reaches, for mirror ranges. -/
def reachOr (s : State) (r : Req) (a : Nat) : Nat := (reach s r a).getD a

/-- WRITE: every owner tag before any byte (R131). -/
def runWrite (s : State) (r : Req) (ps : List Piece) : State :=
  let lines := pieceLines ps
  match firstBad s r.context lines with
  | some b => refuseWrite s r b
  | none =>
    let s1 := queueWrites (writePieces s r.pitch.toNat r.context ps r.payload) r lines
    completeWrite s1 r [(reachOr s r r.address.toNat, r.length.toNat)] []

/-- WRITE_NOTIFY: the data, then the notify word plus one (R68). -/
def runNotify (s : State) (r : Req) (ps nt : List Piece) : State :=
  let lines := pieceLines ps ++ pieceLines nt
  match firstBad s r.context lines with
  | some b => refuseWrite s r b
  | none =>
    let n := r.pitch.toNat
    let s1 := writePieces s n r.context ps (r.payload.drop 8)
    let v := (leNat (piecesBytes s1 nt) + 1) % 2 ^ 64
    let s2 := queueWrites (writePieces s1 n r.context nt (leBytes 8 v)) r lines
    completeWrite s2 r [(reachOr s r r.address.toNat, r.length.toNat), (beAt r.payload 0 8, 8)] (beBytes 8 v)

/-- An atomic: read, compute and write as one (R69). -/
def runAtomic (s : State) (r : Req) (ps : List Piece) : State :=
  let lines := pieceLines ps
  match firstBad s r.context lines with
  | some b => refuseWrite s r b
  | none =>
    let a := atomApply r.op r.length.toNat (piecesBytes s ps) r.payload
    let s1 := queueWrites (writePieces s r.pitch.toNat r.context ps a.1) r lines
    completeWrite s1 r [(reachOr s r r.address.toNat, r.length.toNat)] a.2

/-- BULK_COPY, line by line (R71, R131). -/
def runCopy (s : State) (r : Req) (src dst : List Piece) : State :=
  let n := r.pitch.toNat
  let len := r.length.toNat
  let d := readDesc r.payload 0
  let e := readDesc r.payload 24
  let a := lineList (rowPieces d (descReach s r d) src (rowFuel d len) 0 len)
  let b := lineList (rowPieces e (descReach s r e) dst (rowFuel e len) 0 len)
  let w := copyLines s n r.context (a.zip b)
  if w.2.1 = stOk then
    completeWrite (queueWrites (queueReads w.1 r a) r b) r (descRanges (descReach s r e) e 0 len) []
  else
    match w.2.2 with
    | some (l, v) => refuseWrite w.1 r (l, w.2.1, v)
    | none => answer w.1 r w.2.1 []

/-- A BULK_PUT passes check 14: its window bit is set, the idle time starts, waiting frames are written. -/
def runPut (s : State) (r : Req) (ps : List Piece) : State :=
  let s1 := markWindow s r
  let waiting := ((bulkFind s1 r.flow r.tag).map (·.waiting)).getD []
  let s2 := bulkMod s1 r.flow (fun l => l.map (fun b =>
    if b.req.seq = r.seq then { b with passed := true, last := s.now, waiting := [] } else b))
  foldS waiting s2 (fun s d =>
    match (flowGet s r.flow).bind (fun f => f.bulk.find? (fun b => b.req.seq = r.seq)) with
    | some b => bulkWrite s b d ps
    | none => answer s d stLength [])

/-- Lines (PVA, PPA) of pieces on sync pages. -/
def syncLines (ps : List Piece) : List (Nat × Nat) :=
  (ps.filter (fun p => entSync p.entry)).flatMap (fun p =>
    (linesOf p.ppa p.len).map (fun l => (p.pva / 64 * 64 + (l - p.ppa / 64 * 64), l)))

/-- The lines an access held at SWN go free with it (R237). -/
def leaveLines (s : State) (r : Req) : State := releaseLines s r

/-- Lines of sync pages are obtained at SWN before the access runs; a BULK_PUT and an XLATE touch none themselves (R237). Answers whether
the access may run now. -/
def obtainLines (s : State) (r : Req) (p0 p1 : List Piece) : State × Bool :=
  let n := r.op.toNat
  let reads := if n = 0x01 ∨ n = 0x20 ∨ n = 0x22 then syncLines p0 else []
  let writes := if n = 0x22 then syncLines p1 else if n = 0x01 ∨ n = 0x20 ∨ n = 0x21 ∨ n = 0x30 then [] else syncLines (p0 ++ p1)
  let e0 := syncEnter s r reads false
  if e0.2 then syncEnter e0.1 r writes true else e0

/-- Run a memory, atomic, bulk or XLATE request from check 14; it is run again from here after its misses
are served (R138) or its sync lines obtained (R237). -/
def memExec (s : State) (r : Req) : State :=
  let n := r.op.toNat
  let sl := leadSlice s r.pitch.toNat r.address.toNat
  if n = 0x30 ∧ !pHeld s r.pitch.toNat then fail14 s r sl stDenied (some .actDeniedSlot) []
  else
    match check14 s r (needsOf s r) with
    | .fail st c =>
      let s1 := fail14 s r sl st c []
      (match bulkFind s r.flow r.tag with
       | some b => if n = 0x21 ∧ b.req.seq = r.seq then
           foldS b.waiting (bulkDrop s1 r.flow r.seq) (fun s d => answer s d st []) else s1
       | none => s1)
    | .wait pages slice => issueMisses s r slice pages
    | .ok parts slice =>
      let p0 := (parts[0]?).getD []
      let p1 := (parts[1]?).getD []
      let e1 := obtainLines s r p0 p1
      if !e1.2 then e1.1
      else
        let s := e1.1
        leaveLines (
        if n = 0x01 then streamOut s r r.address.toNat p0
        else if n = 0x02 then runWrite s r p0
        else if n = 0x03 then runNotify s r p0 p1
        else if isAtomic r.op then runAtomic s r p0
        else if n = 0x20 then
          let d := readDesc r.payload 0
          streamOut s r 0 (rowPieces d (descReach s r d) p0 (rowFuel d r.length.toNat) 0 r.length.toNat)
        else if n = 0x21 then runPut s r p0
        else if n = 0x22 then runCopy s r p0 p1
        else
          match tlbFind s slice r.pitch.toNat r.address.toNat with
          | some t => issueHandle s r slice r.address.toNat t
          | none => s) r

/-- BULK_DATA (R72): written into its open BULK_PUT, made to wait for it, or answered RETRY or LENGTH when
none is open. -/
def bulkData (s : State) (r : Req) : State :=
  match bulkFind s r.flow r.tag with
  | some b =>
    if b.passed then
      let pages := putPages s b
      let d := putDesc s b.req
      let dst := rowPieces d (descReach s b.req d) pages (rowFuel d r.length.toNat) r.address.toNat r.length.toNat
      let e := syncEnter s r (syncLines dst) true
      if e.2 then leaveLines (bulkWrite e.1 b r pages) r else e.1
    else bulkMod s r.flow (fun l => l.map (fun x => if x.req.seq = b.req.seq then { x with waiting := x.waiting ++ [r] } else x))
  | none =>
    match flowGet s r.flow with
    | none => answer s r stLength []
    | some f =>
      let d := seqDist f.c r.seq
      if 1 ≤ d ∧ d ≤ 0x10000 ∧ (upto (d - 1)).any (fun i => f.c + BitVec.ofNat 24 (i + 1) ∉ f.bits) then answer s r stRetry []
      else answer s r stLength []

/-- XLATE_RELEASE frees the entries it names and ignores handles that are not valid (R141). -/
def xlateRelease (s : State) (r : Req) : State :=
  let hs := (elems 8 r.payload).map beNat
  answer (foldS hs s (fun s h => match handleFind s h r.endpoint r.context with
    | some e => hFree s e.1
    | none => s)) r stOk []

/-! ## From check 9 -/

/-- Answer at checks 9 to 13; a BULK_PUT that was open since check 8 ends with it (R72). -/
def answerEarly (s : State) (r : Req) (status : Nat) (payload : List Byte) : State :=
  match (flowGet s r.flow).bind (fun f => f.bulk.find? (fun b => b.req.seq = r.seq ∧ b.req.op = r.op)) with
  | some b => bulkEnd s b status payload
  | none => answer s r status payload

/-- A BULK_DATA that finds no open BULK_PUT: check 11 judges it, by R72's table (R83). -/
def orphan (s : State) (r : Req) : Bool := decide (r.op = 0x23) && (bulkFind s r.flow r.tag).isNone

/-- Checks 9 to 13 of a request of groups 00h to 6Fh or 78h to 7Bh, then `body`. -/
def checks (s : State) (r : Req) (lenGood alignGood : Bool) (body : State → State) : State :=
  if !opKnown r.op ∨ flagMisuse s r then answerEarly s r stUnsupported []
  else if !permitted s r then answerEarly s r stDenied []
  else if !lenGood then answerEarly s r stLength []
  else if orphan s r then body s
  else if !alignGood then answerEarly s r stAlign []
  else if r.op.toNat ≤ 0x6F ∧ !isMirror s r then
    match pitchCheck s r with
    | some (st, pay) => answerEarly s r st pay
    | none => body s
  else body s

/-- Run a frame through checks 1 to 8, then `body` on the admitted request, then the acknowledgement that
may fall due (R63, R104). -/
def withRequest (s : State) (op : Byte) (f : RxFrame) (body : State → Req → State) : State :=
  match receive s op f with
  | .done s1 => s1
  | .go s1 r => ackNow (body s1 r) r.flow

/-- A memory-type request (groups 00h to 3Fh). -/
def memRequest (s : State) (op : Byte) (f : RxFrame) : State :=
  withRequest s op f (fun s r =>
    let s1 := if op = 0x21 then bulkMod s r.flow (fun l => l ++ [{ req := r, last := s.now }]) else s
    checks s1 r (lenOk s1 r) (alignOk s1 r) (fun s =>
      if op = 0x23 then bulkData s r else if op = 0x32 then xlateRelease s r else memExec s r))

end Sys2Proof.Machine
end

