-- ==== Sys2Proof/Machine/Pitch.lean ====
section
/-! DEFINITION. What the lifecycle messages and their events do to a pitch (R18 to R51, R75, R76, R420, R433,
R478, R479, R521). -/
namespace Sys2Proof.Machine

/-! ## Reasons (R25) -/

def rsBounds : Nat := 0x01
def rsNoCapacity : Nat := 0x02
def rsNoContexts : Nat := 0x03
def rsNoQuads : Nat := 0x04
def rsWrongState : Nat := 0x05
def rsFlyRefused : Nat := 0x06
def rsNoKeySlot : Nat := 0x07
def rsBusy : Nat := 0x08
def rsApplyFailed : Nat := 0x09
def rsNotLive : Nat := 0x0A
/-- FIELD of a failure that concerns no single field (R76). -/
def noField : Nat := 0xFFFFFFFF

/-- DENIED with a reason and FIELD (R25, R76). -/
def lcDeny (s : State) (r : Req) (reason field : Nat) : State :=
  answer (bump0 s .svcRefused) r stDenied ([BitVec.ofNat 8 reason, 0, 0, 0] ++ beBytes 4 field)

/-! ## The settings record (R75) -/

/-- The settings a record gives. -/
def readSettings (p : List Byte) : Settings :=
  let n := beAt p 8 1
  { template := beAt p 0 1, capacity := beAt p 4 4
    contexts := (upto (min n 16)).map (fun k => BitVec.ofNat 16 (beAt p (108 + 2 * k) 2))
    quadMask := BitVec.ofNat 16 (beAt p 10 2), syncSize := beAt p 12 2, drain := beAt p 16 4
    attachMax := beAt p 20 2, flyReq := decide (beAt p 22 1 = 1), flyAddr := BitVec.ofNat 128 (beAt p 24 16)
    flyPort := BitVec.ofNat 16 (beAt p 40 2)
    rates := (upto 8).map (fun c => (beAt p (44 + 8 * c) 4, beAt p (48 + 8 * c) 4))
    digestBytes := p.take 24 ++ zeros 18 ++ p.drop 42 }

/-- Granules that a record releases (R75). -/
def releaseList (p : List Byte) : List Nat := (upto (beAt p 140 4)).map (fun i => beAt p (144 + 4 * i) 4)

/-- Offset of the second appearance of the first repeated element of a list. -/
def dupIdx {α : Type} [DecidableEq α] : List α → List α → Nat → Option Nat
  | [], _, _ => none
  | a :: t, seen, i => if a ∈ seen then some i else dupIdx t (a :: seen) (i + 1)

def within (v lo hi : Nat) : Bool := decide (lo ≤ v) && decide (v ≤ hi)

/-- A granule of a pitch holds a page of one of its cocoons (R212). -/
def cocoonHolds (s : State) (n g : Nat) : Bool :=
  (pGet s n).slots.any (fun x => decide (x.2 = g) && (pkGet s n).cocoons.any (fun c =>
    decide (c.base < (x.1 + 1) * 0x40000000) && decide (x.1 * 0x40000000 < c.base + c.len)))

/-- Fields of a settings record that fail BOUNDS (R76, R124, R219, R382), as (offset, fails), in ascending
offset. -/
def recordTests (s : State) (n : Nat) (repitch : Bool) (p : List Byte) : List (Nat × Bool) :=
  let v := readSettings p
  let t := (tfind s.templates v.template).getD {}
  let known := decide (v.template < 32) && (tfind s.templates v.template).isSome
  let cur := pGet s n
  let held := cur.slots.length
  let m := beAt p 140 4
  let k := beAt p 8 1
  let rel := releaseList p
  let rsv (i : Nat) : Nat × Bool := (i, decide (byteAt p i ≠ 0))
  let capBad := !within v.capacity t.capMin t.capMax ||
    (repitch && (if m = 0 then decide (v.capacity < held) else decide (v.capacity + m ≠ held)))
  let rb (c : Nat) : RateBounds := (t.rates[c]?).getD {}
  [[(0, !known || (repitch && decide (v.template ≠ cur.template))), (1, decide (beAt p 1 1 = 0)), rsv 2, rsv 3, (4, capBad),
    (8, !within k t.ctxMin t.ctxMax || !within k 1 16), rsv 9,
    (10, !within (popN 16 v.quadMask.toNat) t.quadMin t.quadMax),
    (12, !within v.syncSize t.syncMin t.syncMax || decide (v.capacity < v.syncSize)), rsv 14, rsv 15,
    (16, !within v.drain t.drainMin t.drainMax), (20, !within v.attachMax t.attMin t.attMax),
    (22, decide (1 < beAt p 22 1) || (decide (beAt p 22 1 = 1) && decide (t.fly = 0)) ||
      (decide (beAt p 22 1 = 0) && decide (t.fly = 2))), rsv 23, rsv 42, rsv 43],
   (upto 8).flatMap (fun c =>
     let a := beAt p (44 + 8 * c) 4
     let b := beAt p (48 + 8 * c) 4
     [(44 + 8 * c, !within a (rb c).cMin (rb c).cMax), (48 + 8 * c, !within b (rb c).pMin (rb c).pMax || decide (b < a))]),
   (upto 16).map (fun i =>
     let c := beAt p (108 + 2 * i) 2
     (108 + 2 * i, if i < k then decide (c = 0) || decide (c = 0xFFFF) ||
       decide ((dupIdx v.contexts [] 0) = some i) else decide (c ≠ 0))),
   [(140, decide (2005 < m) || (!repitch && decide (m ≠ 0)))],
   (rel.zip (upto rel.length)).map (fun e =>
     (144 + 4 * e.2, !(cur.slots.any (fun x => x.2 = e.1)) || decide ((dupIdx rel [] 0) = some e.2) ||
       cocoonHolds s n e.1))].flatten

/-- Size a record's length gives for it (R75). -/
def recordSizeOk (p : List Byte) : Bool := decide (144 ≤ p.length) && decide (p.length = 144 + 4 * beAt p 140 4)

/-! ## Resources (R520, R25) -/

/-- Free granules of a group, ascending. -/
def freeIn (s : State) (g : Nat) : List Nat :=
  (s.dmc.gran.filter (fun e => e.2.state = .free ∧ e.2.group = g)).map (·.1)

/-- Groups that a template permits and that are not RETIRED. -/
def openGroups (s : State) (t : Template) : List Nat :=
  (upto 4).filter (fun g => t.groupMask.getLsbD g ∧ uAct s (uGroup g) ≠ .retired)

/-- Take k granules one at a time, group by group in ascending order (R520). -/
def takeRound : Nat → List (List Nat) → Nat → List Nat
  | 0, _, _ => []
  | fuel + 1, ls, k =>
    let heads := (ls.filterMap (·.head?)).take k
    if heads.isEmpty then [] else heads ++ takeRound fuel (ls.map (·.drop 1)) (k - heads.length)

def takeGranules (s : State) (t : Template) (k : Nat) : Option (List Nat) :=
  let ls := (openGroups s t).map (freeIn s)
  if (ls.map (·.length)).sum < k then none else some (takeRound (k + 1) ls k)

/-- Put granules in ascending order into the lowest slots that are not held (R122). -/
def placeGranules (slots : Tab Nat) (gs : List Nat) : Tab Nat :=
  let sorted := gs.foldl (fun acc g => insertNat g acc) []
  let free := (upto (slots.length + gs.length)).filter (fun k => (tfind slots k).isNone)
  (free.zip sorted).foldl (fun t e => tins t e.1 e.2) slots

/-- The settings that a repitch of a pitch is applying: until it ends, they count against the free resources beside those
in force (log 103). -/
def comingSettings (p : PitchSt) : Option Settings :=
  match p.work with
  | some (.repitch _ v _ _ _) => some v
  | _ => none

/-- Contexts active on the chip (R25): those of every pitch that is not EMPTY, removed ones and those that a repitch binds
included. -/
def activeContexts (s : State) : List (Nat × BitVec 16) :=
  s.pitches.flatMap (fun e => if e.2.life = .empty then [] else
    let now := e.2.settings.contexts ++ e.2.removed.filter (fun c => c ∉ e.2.settings.contexts)
    (now ++ (((comingSettings e.2).map (·.contexts)).getD []).filter (fun c => c ∉ now)).map (fun c => (e.1, c)))

/-- SYNC_SIZE over all pitches but one (R219). -/
def syncTotalBut (s : State) (n : Nat) : Nat :=
  (s.pitches.map (fun e => if e.1 = n ∨ e.2.life = .empty then 0 else e.2.settings.syncSize)).sum

/-- SYNC_SIZE that is held or about to be, over all pitches but one. -/
def syncBoundBut (s : State) (n : Nat) : Nat :=
  (s.pitches.map (fun e => if e.1 = n ∨ e.2.life = .empty then 0 else
    max e.2.settings.syncSize (((comingSettings e.2).map (·.syncSize)).getD 0))).sum

/-- Is a quad held by a pitch other than n? -/
def quadHeld (s : State) (n q : Nat) : Bool :=
  s.pitches.any (fun e => decide (e.1 ≠ n) && decide (e.2.life ≠ .empty) &&
    (e.2.settings.quadMask ||| ((comingSettings e.2).map (·.quadMask)).getD 0).getLsbD q)

/-- The first resource reason of a record, in ascending order of the reasons (log 16). -/
def resourceReason (s : State) (n : Nat) (v : Settings) (repitch : Bool) : Option (Nat × Nat) :=
  let t := (tfind s.templates v.template).getD {}
  let held := (pGet s n).slots.length
  let others := activeContexts s
  let news := v.contexts.filter (fun c => (n, c) ∉ others)
  let clash := firstIdx (fun c => others.any (fun o => decide (o.1 ≠ n) && decide (o.2 = c))) v.contexts 0
  if (takeGranules s t (v.capacity - (if repitch then held else 0))).isNone then some (rsNoCapacity, 4)
  else if 64 < syncBoundBut s n + v.syncSize then some (rsNoCapacity, 12)
  else if let some i := clash then some (rsNoContexts, 108 + 2 * i)
  else if 4096 < others.length + news.length then some (rsNoContexts, noField)
  else if (upto 16).any (fun q => v.quadMask.getLsbD q && (quadHeld s n q || decide (uAct s (uQuad q) ≠ .up))) then
    some (rsNoQuads, 10)
  else if v.flyReq ∧ (peerByAddr s v.flyAddr v.flyPort).isNone then some (rsFlyRefused, 24)
  else if !repitch ∧ ((upto 255).all (fun i => (slotGet s (i + 1)).state ≠ .free)) then some (rsNoKeySlot, noField)
  else none

/-! ## Records of the lifecycle -/

def setLife (s : State) (n : Nat) (l : Life) (op : Nat) : State :=
  let p := pGet s n
  trace (pSet s n { p with life := l }) 3 n svcAgent n
    [BitVec.ofNat 8 (lifeCode p.life), BitVec.ofNat 8 (lifeCode l), BitVec.ofNat 8 op, p.generation]

/-- The unit of a pitch moves with its lifecycle (R21), its intent with it (R50). -/
def moveUnit (s : State) (n : Nat) (i : Intent) (a : Actual) : State :=
  let s1 := uSet s (uPitch n) { uGet s (uPitch n) with intent := i, disagree := false }
  uMove s1 (uPitch n) a

/-- SVC_PITCH_STATE_n (R50). -/
def pitchStateWord (s : State) (n : Nat) : Word :=
  let p := pGet s n
  let u := uGet s (uPitch n)
  BitVec.ofNat 32 (lifeCode p.life + actCode u.actual * 2 ^ 4 + intCode u.intent * 2 ^ 8 + p.template * 2 ^ 12 +
    b2n (tmplOf s p).walled * 2 ^ 17 + b2n p.draining * 2 ^ 18 + b2n ((mirGet s n).confirmed) * 2 ^ 19 +
    p.generation.toNat * 2 ^ 20)

/-- Fill a pitch's buckets and take its policing settings (R378, R383). -/
def fillBuckets (s : State) (n : Nat) : State :=
  let s1 := foldN 7 (fun s c =>
    let r := pRate s n c
    bucketPut s n c { c := bucketDepth r.1 (burstOf s c), p := bucketDepth r.2 (burstOf s c) }) s
  tmgMod s1 (fun t => { t with pcfg := tset false t.pcfg n (bitOf (regGet s tmgAgent (0x1000 + 4 * n)) 0) })

/-- Map the slots of a pitch that hold granules of a list (R135), SYNC on its lowest SYNC_SIZE slots (R218),
retired pages of the granules unmapped (R187). -/
def mapPitch (s : State) (n : Nat) : State :=
  let p := pGet s n
  let sync := (p.slots.take p.settings.syncSize).map (·.1)
  foldS p.slots s (fun s x =>
    let s1 := mapSlot (unmapSlot s n x.1) n x.1 x.2 (decide (x.1 ∈ sync))
    let s2 := foldS (granGet s x.2).pages s1 (fun s page =>
      let pva := x.1 * 0x40000000 + page * 65536 % 0x40000000
      ptPut (splitPage s n pva) n 0 (pva / 65536) 0)
    -- cocoons keep their attributes
    s2)

/-- Attributes of a pitch's cocoons on its pages (R212). -/
def mapCocoons (s : State) (n : Nat) : State :=
  foldS (pkGet s n).cocoons s (fun s c => setPageAttrs s n c.base c.len true true false)

/-- The word of a mirrored pitch in the partner's entry (R419). -/
def bindFly (s : State) (n : Nat) (peer : Nat) (ctx : BitVec 16) : State :=
  let i := (peerGet s peer).localBase + n / 16
  let w := mtGet s i
  mtPut s i (lset w (n % 16) (mtWord ctx 0x05))

/-- Drop the words of an identifier list from every remote entry (R34, R36 step 3). -/
def dropContexts (s : State) (cs : List (BitVec 16)) : State :=
  foldS (mtEndpoints s) s (fun s i => mtRemove s i (fun c => decide (c ∈ cs)))

/-- Start probing for a fly (R420). -/
def startProbe (s : State) (n : Nat) (v : Settings) : State :=
  match peerByAddr s v.flyAddr v.flyPort with
  | none => s
  | some k =>
    mirSet (bindFly s n k ((v.contexts.head?).getD 0)) n
      { role := .none_, peer := k, probing := true, acceptNs := cd10Total s % 2 ^ 32 }

/-! ## Creation (R22) -/

/-- Accept a creation: reserve granules, contexts, key slot and quads. -/
def acceptCreate (s : State) (r : Req) (n : Nat) (v : Settings) : State :=
  let t := (tfind s.templates v.template).getD {}
  let gs := (takeGranules s t v.capacity).getD []
  let key := (((upto 255).map (· + 1)).find? (fun i => (slotGet s i).state = .free)).getD 0
  let s1 := zeroPitchCounters (bump0 s .svcCreate) n
  let s2 := foldS gs s1 (fun s g => granPut s g { granGet s g with state := .held, pitch := BitVec.ofNat 8 n })
  let s3 := slotPut s2 key { slotGet s2 key with state := .held, pitch := BitVec.ofNat 8 n }
  let s4 := pkPut s3 n { slot := some key }
  let s5 := pSet s4 n { template := v.template, settings := v, slots := placeGranules [] gs, work := some (.create r s.now) }
  let s6 := moveUnit (setLife s5 n .pitching 0x70) n .up .training
  let s7 := fillBuckets s6 n
  let s8 := markWindow s7 r
  if v.flyReq then startProbe s8 n v else s8

/-- Release everything a failed creation reserved (R22, R197). -/
def releaseCreate (s : State) (n : Nat) : State :=
  let p := pGet s n
  let s1 := foldS p.slots s (fun s x => granPut s x.2 { granGet s x.2 with
    state := if uAct s (uGroup (granGet s x.2).group) = .retired then .retired else .free, pitch := 0 })
  let s2 := match (pkGet s n).slot with
    | some k => slotPut s1 k { slotGet s1 k with state := .free, pitch := 0 }
    | none => s1
  let s3 := dropContexts (pkPut s2 n {}) p.settings.contexts
  let s4 := mirSet s3 n {}
  let s5 := actMod s4 (fun a => { a with pt := a.pt.filter (fun e => e.1.1 ≠ n) })
  let s6 := moveUnit (setLife s5 n .empty 0x70) n .off .off
  pSet s6 n {}

/-- A creation's resources are installed, and its mirror role is fixed where it has one (R22). -/
def createDone (s : State) (n : Nat) : State :=
  let p := pGet s n
  match p.work with
  | some (.create r _) =>
    if p.settings.flyReq ∧ (mirGet s n).role = .none_ then s
    else
      let s1 := mapPitch (pSet s n { p with work := none }) n
      let s2 := moveUnit (setLife s1 n .up 0x70) n .up .up
      answer s2 r stOk (beBytes 4 p.slots.length)
  | _ => s

def createFails (s : State) (n reason : Nat) : State :=
  match (pGet s n).work with
  | some (.create r _) => lcDeny (releaseCreate s n) r reason noField
  | _ => s

/-! ## Strike (R27 to R30) -/

/-- Trackers of a pitch's requests. -/
def pitchTrackers (s : State) (n : Nat) : List Tracker := s.tpt.trackers.filter (fun t => t.req.pitch.toNat = n)

/-- Settings after a strike of a FENCED pitch: its admission settings at the template minimums (R24). -/
def fencedSettings (t : Template) (v : Settings) : Settings :=
  { v with drain := t.drainMin, attachMax := t.attMin, rates := (upto 8).map (fun c =>
      let b := (t.rates[c]?).getD {}
      (b.cMin, b.pMin)) }

/-- The windows of FUM, internal master 4,145, are those of the running cocoon loads, the blob's to read and the
cocoon's to read and write (R129, R212). -/
def fumWindows (s : State) : State :=
  let run := s.fum.pk.flatMap (fun e => (e.2.cocoons.filter (fun c => c.state = .loading)).map (fun c => (e.1, c)))
  let ws := run.flatMap (fun e =>
    let g (a : Nat) : Nat := a / 0x40000000
    let blob : Window := { pitch := e.1, r := true, first := g e.2.blob, last := g (e.2.blob + e.2.len + 383) }
    let dest : Window := { pitch := e.1, r := true, w := true, first := g e.2.base, last := g (e.2.base + e.2.len - 1) }
    [blob, dest])
  if ws.isEmpty then clearWindows s 4145 else setWindows s 4145 ws

/-- A strike ends the pitch's running cocoon loads (R212). -/
def strikeCocoons (s : State) (n : Nat) : State :=
  let k := pkGet s n
  let running := k.cocoons.filter (fun c => c.state = .loading)
  let s1 := pkPut s n { k with cocoons := k.cocoons.map (fun c => if c.state = .loading then { c with state := .failed } else c) }
  let s2 := if running.isEmpty then s1 else fumWindows s1
  foldS running s2 (fun s c => answer (bump s .fumCocoonFail 0 0 n) c.req stPitchDown [])

/-- Steps 1 and 2 of a strike, the recalls among them (R27, R30). -/
def startStrike (s : State) (r : Req) (n op : Nat) (fold : Bool) : State :=
  let p := pGet s n
  let fenced := uAct s (uPitch n) = .fenced
  let deadline := s.now + p.settings.drain * 1000
  let s1 := pSet s n { p with draining := true, settings := if fenced then fencedSettings (tmplOf s p) p.settings else p.settings,
                              work := some (.strike r deadline (pitchTrackers s n).length 0 fold) }
  let s2 := markWindow (moveUnit (setLife s1 n .struck op) n .off .off) r
  let s3 := strikeCocoons (strikeColl (strikeGrid s2 n) n) n
  let s4 := strikeSync s3 n
  recallStart s4 (hWhere s4 (fun h => decide (h.pitch.toNat = n) && !h.recalled))

/-- Has the drain of a pitch ended: no operation of it holds a tracker and no recall of it runs (R27)? -/
def drained (s : State) (n : Nat) : Bool :=
  (pitchTrackers s n).isEmpty && !(s.act.recalls.any (fun c => c.pitch.toNat = n)) && syncDrained s n

/-- Remove a request from every place where it may wait. -/
def forgetReq (s : State) (r : Req) : State :=
  let isNot (q : Req) : Bool := !(decide (q.flow = r.flow) && decide (q.seq = r.seq))
  let s1 := actMod s (fun a => { a with misses := a.misses.map (fun m => { m with waiting := m.waiting.filter isNot }) })
  let s2 := bulkMod s1 r.flow (fun l => (l.filter (fun b => isNot b.req)).map (fun b => { b with waiting := b.waiting.filter isNot }))
  syncForget (collForget s2 r) r

/-- An operation that still holds a tracker at the deadline (R27 step 4): a stream is cut (R82); one whose
response is on its way completes; any other fails with PITCH_DOWN. Answers whether it failed. -/
def failAtDeadline (s : State) (r : Req) : State × Bool :=
  let mine (f : TxFrame) : Bool := decide (f.flow = some r.flow) && decide (f.flowSeq = r.seq) && !f.isReq
  let stream := decide (r.op = 0x01 ∨ r.op = 0x20)
  let waits := (mirGet s r.pitch.toNat).waits.any (fun w => match w.req with
    | some q => decide (q.flow = r.flow) && decide (q.seq = r.seq)
    | none => false)
  if stream ∧ queuedAny s mine then (cutStreams s mine stPitchDown, true)
  else if queuedAny s mine ∨ waits then (s, false)
  else (answer (forgetReq s r) r stPitchDown [], true)

/-! ## Fold (R36) -/

/-- Frames, flows, streams and source entry of an endpoint index that holds nothing else go (R42). -/
def dropSource (s : State) (i : Nat) : State :=
  let s1 := actMod s (fun a => { a with src := tdel a.src i, mt := tdel a.mt i })
  tptMod s1 (fun t => { t with
    rxAlive := t.rxAlive.filter (fun e => match e.1 with | .ep x _ => x.toNat ≠ i | _ => true)
    txAlive := t.txAlive.filter (fun e => match e.1 with | .ep x _ => x.toNat ≠ i | _ => true) })

/-- Flows of an endpoint for a pitch end (R90). -/
def dropFlows (s : State) (p : FlowId → Bool) : State :=
  tptMod s (fun t => { t with flows := t.flows.filter (fun e => !p e.1), ctl := t.ctl.filter (fun e => !p e.1),
                              held := t.held.filter (fun e => !p e.1) })

def isFlowOf (i n : Nat) : FlowId → Bool
  | .ep x p _ => decide (x.toNat = i) && decide (p.toNat = n)
  | .sess _ _ _ => false

def isPitchFlow (n : Nat) : FlowId → Bool
  | .ep _ p _ => decide (p.toNat = n)
  | .sess _ _ _ => false

/-- Contexts bound to a pitch. -/
def boundContexts (s : State) (n : Nat) : List (BitVec 16) := (pGet s n).settings.contexts ++ (pGet s n).removed

/-- Endpoint i loses the words of a pitch; an endpoint left with no word loses its source entry (R36 step 3,
R42). The indices bound to partners keep theirs (R419). -/
def detachOne (s : State) (i n : Nat) : State :=
  let cs := boundContexts s n
  let s1 := mtRemove s i (fun c => decide (c ∈ cs))
  let s2 := if (mtGet s1 i).any wordValid ∨ (partnerOf s i).isSome then s1 else dropSource s1 i
  dropFlows s2 (isFlowOf i n)

/-- The fold sequence from step 1 (R36): key destroyed, SWEEPING, endpoints detached, granules to sweep. -/
def startFold (s : State) (r : Req) (n : Nat) : State :=
  let p := pGet s n
  let s1 := match (pkGet s n).slot with
    | some k => slotPut s k { slotGet s k with state := .destroyed, pitch := 0 }
    | none => s
  let s2 := bump0 (pkPut s1 n {}) .fumSlotDestroy
  let s3 := setLife (pSet s2 n { p with work := none, draining := false }) n .sweeping 0x73
  let s4 := answer s3 r stOk (beBytes 4 p.slots.length)
  let cs := boundContexts s n
  let s5 := hDropWhere s4 (fun h => h.pitch.toNat = n)
  let hit := (mtEndpoints s5).filter (fun i => (mtGet s5 i).any (fun w => wordValid w && decide (wordCtx w ∈ cs)))
  let s6 := foldS hit s5 (fun s i => detachOne s i n)
  let s7 := dropFlows (mirSet (mirForget s6 n) n {}) (isPitchFlow n)
  let s8 := foldS p.slots s7 (fun s x => granPut s x.2 { granGet s x.2 with state := .sweeping })
  let s9 := { s8 with sweeping := s8.sweeping ++ p.slots.map (·.2) }
  let s10 := actMod s9 (fun a => { a with pt := a.pt.filter (fun e => e.1.1 ≠ n),
                                          tlb := (a.tlb.map (fun e => (e.1, e.2.filter (fun t => t.pitch.toNat ≠ n)))).filter (fun e => !e.2.isEmpty) })
  let s11 := pSet s10 n { pGet s10 n with slots := [], settings := { p.settings with quadMask := 0 } }
  -- granules whose group is RETIRED already count as returned; a pitch with none left is EMPTY
  let s12 := foldS p.slots s11 (fun s x =>
    if uAct s (uGroup (granGet s x.2).group) = .retired then granuleReturned s x.2 true else s)
  if (pGet s12 n).life = .sweeping ∧ !(s12.dmc.gran.any (fun x => x.2.state = .sweeping ∧ x.2.pitch.toNat = n)) then
    setLife (pSet s12 n { life := .sweeping }) n .empty 0x73
  else s12

/-- The end of a drain (R27 step 5): the strike's response, or the fold that follows it. While the service
complex restarts, the response waits (R479). -/
def strikeEnds (s : State) (n : Nat) : State :=
  let p := pGet s n
  match p.work with
  | some (.strike r _ total failed fold) =>
    if s.svc.restarting then pSet s n { p with draining := false, drained := true }
    else
      let s1 := collFree (pSet s n { p with draining := false, drained := false, work := none }) n
      if fold then startFold s1 r n
      else answer s1 r stOk (beBytes 4 (total - failed) ++ beBytes 4 failed)
  | _ => s

/-- t0 + D (R27 step 4): operations that still hold trackers fail. -/
def strikeDeadline (s : State) (n : Nat) : State :=
  let p := pGet s n
  match p.work with
  | some (.strike r d total failed fold) =>
    if !p.draining then s
    else
      let s1 := syncDeadline s n
      let go := (pitchTrackers s1 n).foldl (fun (a : State × Nat) t =>
        let x := failAtDeadline a.1 t.req
        (x.1, a.2 + b2n x.2)) (s1, 0)
      let s2 := bumpN go.1 .svcDrainFail 0 0 0 go.2
      strikeEnds (pSet s2 n { pGet s2 n with work := some (.strike r d total (failed + go.2) fold) }) n
  | _ => s

/-! ## Repitch (R31 to R35) -/

/-- Is a unit FENCED, or not UP again since: OFF, or in a bring-up? -/
def notBack (s : State) (k : Nat) : Bool :=
  let u := uGet s k
  decide (u.actual = .fenced) || decide (u.actual = .off) || (decide (u.actual = .training) && u.prior.isNone)

/-- Granules that a pitch has once its repitch is applied. -/
def comingGranules (p : PitchSt) : List Nat :=
  match p.work with
  | some (.repitch _ _ rel gs _) => (p.slots.map (·.2)).filter (fun g => g ∉ rel) ++ gs
  | _ => p.slots.map (·.2)

/-- Does a pitch depend on units that are not UP again (R416)? -/
def dependsFenced (s : State) (n : Nat) : Bool :=
  (comingGranules (pGet s n)).any (fun x =>
    let g := (granGet s x).group
    notBack s (uGroup g) || (upto 4).any (fun i => notBack s (uSlice (4 * g + i))))

/-- Granules that a repitch had taken go back to the free list; one of a RETIRED group is RETIRED. -/
def freeTaken (s : State) (gs : List Nat) : State :=
  foldS gs s (fun s g =>
    let gone := uAct s (uGroup (granGet s g).group) = .retired
    granPut s g { granGet s g with state := if gone then .retired else .free, pitch := 0 })

/-- Give released granules to the sweep (R33); one of a RETIRED group is never swept. -/
def releaseGranules (s : State) (n : Nat) (rel : List Nat) : State :=
  foldS rel s (fun s g =>
    let p := pGet s n
    let slots := p.slots.filter (fun x => x.2 = g)
    let s1 := foldS slots s (fun s x => ptChanged (unmapSlot s n x.1) n (x.1 * 0x40000000) 0x40000000)
    let s2 := pSet s1 n { pGet s1 n with slots := p.slots.filter (fun x => x.2 ≠ g) }
    let gone := uAct s (uGroup (granGet s g).group) = .retired
    let s3 := granPut s2 g { granGet s2 g with state := if gone then .retired else .sweeping, pitch := 0 }
    if gone then s3 else { s3 with sweeping := s3.sweeping ++ [g] })

/-- Every target confirmed the new settings (R32): they take effect as a whole and the pitch serves. -/
def repitchApplied (s : State) (n : Nat) : State :=
  let p := pGet s n
  match p.work with
  | some (.repitch r v rel gs _) =>
    if dependsFenced s n then
      lcDeny (pSet (freeTaken s gs) n { p with work := none }) r rsApplyFailed noField
    else
      let gone := p.settings.contexts.filter (fun c => c ∉ v.contexts)
      let s2 := releaseGranules s n rel
      let p2 := pGet s2 n
      let removed := (p2.removed ++ gone).filter (fun c => c ∉ v.contexts)
      let s3 := pSet s2 n { p2 with settings := v, slots := placeGranules p2.slots gs, removed := removed, work := none,
                                    generation := p2.generation + 1 }
      let s4 := mapCocoons (mapPitch (dropContexts s3 gone) n) n
      let s5 := fillBuckets s4 n
      let s6 := moveUnit (setLife (bump0 s5 .svcRepitch) n .up 0x72) n .up .up
      let m := mirGet s6 n
      let s7 := if !v.flyReq then mirSet s6 n {}
                else if m.confirmed ∧ !m.selfFenced then
                  bindFly s6 n m.peer ((v.contexts.head?).getD 0)
                else startProbe s6 n v
      answer s7 r stOk [p2.generation + 1, 0, 0, 0]
  | _ => s

def repitchFails (s : State) (n : Nat) : State :=
  let p := pGet s n
  match p.work with
  | some (.repitch r _ _ gs _) => lcDeny (pSet (freeTaken s gs) n { p with work := none }) r rsApplyFailed noField
  | _ => s

/-! ## The messages -/

/-- PITCH of a lifecycle payload, with its offset: 1 in a settings record, 0 elsewhere. -/
def lcPitch (r : Req) : Nat × Nat :=
  if r.op = 0x70 ∨ r.op = 0x72 then (beAt r.payload 1 1, 1) else (beAt r.payload 0 1, 0)

/-- The payload size of a lifecycle opcode. -/
def lcSizeOk (r : Req) : Bool :=
  let n := r.op.toNat
  let l := r.payload.length
  if n = 0x70 ∨ n = 0x72 then recordSizeOk r.payload
  else if n = 0x74 then decide (l = 12)
  else if n = 0x75 then decide (l = 56)
  else decide (l = 4)

/-- Reserved bytes of a lifecycle payload other than a settings record, in ascending offset. -/
def lcReserved (r : Req) : List Nat :=
  let n := r.op.toNat
  if n = 0x74 then [2, 3] else if n = 0x76 then [1] else if n = 0x71 ∨ n = 0x73 ∨ n = 0x77 then [1, 2, 3] else []

/-- States that accept an opcode (R24 table). -/
def lcAccepts (op : Nat) (l : Life) : Bool :=
  match l with
  | .empty => decide (op = 0x70)
  | .pitching => false
  | .up => decide (op = 0x71 ∨ op = 0x73 ∨ op = 0x74 ∨ op = 0x75 ∨ op = 0x76)
  | .struck => decide (op = 0x72 ∨ op = 0x73 ∨ op = 0x75 ∨ op = 0x76)
  | .sweeping => decide (op = 0x76)

/-- Checks that every lifecycle message meets before its own (R23, R25, R65, R521), then `body` with the
pitch number. A message of 70h–77h that is not in TC6, has A = 0 or misuses a flag is refused BOUNDS. -/
def lifecycle (s : State) (op : Byte) (f : RxFrame) (body : State → Req → Nat → State) : State :=
  withRequest s op f (fun s r =>
    if !flagA r.flags ∨ flagH r.flags ∨ flagX r.flags ∨ r.tc ≠ 6 then lcDeny s r rsBounds noField
    else if r.length.toNat = 0 ∨ r.length.toNat ≠ f.payload.length ∨ !lcSizeOk r then lcDeny s r rsBounds noField
    else
      let n := (lcPitch r).1
      let busy := (pGet s n).work.isSome
      if n = 0 then (if op = 0x77 then body s r 0 else lcDeny s r rsBounds (lcPitch r).2)
      else if op ≠ 0x77 ∧ busy then lcDeny s r rsBusy noField
      else if op ≠ 0x77 ∧ !lcAccepts op.toNat (pGet s n).life then lcDeny s r rsWrongState noField
      else
        match (lcReserved r).find? (fun i => byteAt r.payload i ≠ 0) with
        | some i => lcDeny s r rsBounds i
        | none => body s r n)

/-- A settings record passes its checks (R31, R76), or the refusal. -/
def recordRefusal (s : State) (r : Req) (n : Nat) (repitch : Bool) : Option (Nat × Nat) :=
  match (recordTests s n repitch r.payload).find? (·.2) with
  | some e => some (rsBounds, e.1)
  | none => resourceReason s n (readSettings r.payload) repitch

def pitchCreate (s : State) (r : Req) (n : Nat) : State :=
  match recordRefusal s r n false with
  | some e => lcDeny s r e.1 e.2
  | none => acceptCreate s r n (readSettings r.payload)

def pitchRepitch (s : State) (r : Req) (n : Nat) : State :=
  match recordRefusal s r n true with
  | some e => lcDeny s r e.1 e.2
  | none =>
    let p := pGet s n
    let v := readSettings r.payload
    let rel := releaseList r.payload
    let gs := if rel.isEmpty then (takeGranules s (tmplOf s p) (v.capacity - p.slots.length)).getD [] else []
    let s1 := foldS gs s (fun s g => granPut s g { granGet s g with state := .held, pitch := BitVec.ofNat 8 n })
    markWindow (pSet s1 n { p with work := some (.repitch r v rel gs s.now) }) r

def pitchFold (s : State) (r : Req) (n : Nat) : State :=
  if (pGet s n).life = .up then startStrike s r n 0x73 true else startFold s r n

/-- Bytes of a record with a field of `k` bytes replaced. -/
def putBE (bs : List Byte) (off k v : Nat) : List Byte := bs.take off ++ beBytes k v ++ bs.drop (off + k)

/-- PITCH_ADJUST: one live setting (R26). -/
def pitchAdjust (s : State) (r : Req) (n : Nat) : State :=
  let p := pGet s n
  let t := tmplOf s p
  let k := beAt r.payload 1 1
  let a := beAt r.payload 4 4
  let b := beAt r.payload 8 4
  if 8 < k then lcDeny s r rsNotLive 1
  else if k = 8 then
    if !within a t.drainMin t.drainMax then lcDeny s r rsBounds 4
    else if b ≠ 0 then lcDeny s r rsBounds 8
    else
      let v := { p.settings with drain := a, digestBytes := putBE p.settings.digestBytes 16 4 a }
      answer (pSet s n { p with settings := v }) r stOk []
  else
    let rb := (t.rates[k]?).getD {}
    if !within a rb.cMin rb.cMax then lcDeny s r rsBounds 4
    else if !within b rb.pMin rb.pMax ∨ b < a then lcDeny s r rsBounds 8
    else
      let v := { p.settings with rates := lset p.settings.rates k (a, b),
                                 digestBytes := putBE (putBE p.settings.digestBytes (44 + 8 * k) 4 a) (48 + 8 * k) 4 b }
      let s1 := pSet s n { p with settings := v }
      let q := bucketGet s1 n k
      let d (x rate : Nat) : Nat := min x (bucketDepth rate (burstOf s1 k))
      answer (if k < 7 then bucketPut s1 n k { c := d q.c a, p := d q.p b } else s1) r stOk []

/-- Contexts that an endpoint holds. -/
def heldContexts (s : State) (i : Nat) : List (BitVec 16) := ((mtGet s i).filter wordValid).map wordCtx

/-- Endpoints attached to a pitch: those that hold a word of one of its contexts, partner indices apart. -/
def attachedTo (s : State) (n : Nat) : List Nat :=
  let cs := boundContexts s n
  (mtEndpoints s).filter (fun i => (partnerOf s i).isNone && (heldContexts s i).any (fun c => decide (c ∈ cs)))

/-- Fill the free words of an entry with contexts. -/
def fillWords : List Word → List (BitVec 16) → Byte → List Word
  | [], _, _ => []
  | w :: t, [], _ => w :: t
  | w :: t, c :: cs, g => if wordValid w then w :: fillWords t (c :: cs) g else mtWord c g :: fillWords t cs g

/-- ATTACH (R40, R41). -/
def attach (s : State) (r : Req) (n : Nat) : State :=
  let p := r.payload
  let i := beAt p 2 2
  let addr : BitVec 128 := BitVec.ofNat 128 (beAt p 4 16)
  let port : BitVec 16 := BitVec.ofNat 16 (beAt p 20 2)
  let groups := byteAt p 22
  let k := beAt p 23 1
  let ctx (j : Nat) : BitVec 16 := BitVec.ofNat 16 (beAt p (24 + 2 * j) 2)
  let cs := (upto (min k 16)).map ctx
  let cur := (pGet s n).settings.contexts
  let held := heldContexts s i
  let taken : Bool := match tfind s.act.src i with
    | some e => decide (e.addr ≠ addr ∨ e.port ≠ port)
    | none => s.tpt.trackers.any (fun t => match t.req.flow with | .ep x _ _ => x.toNat = i | .sess _ _ _ => false)
  let pad := ((upto 16).filter (fun j => k ≤ j)).find? (fun j => ctx j ≠ 0)
  let bad := (upto cs.length).find? (fun j => ctx j = 0 ∨ ctx j = 0xFFFF ∨ ctx j ∉ cur ∨ ctx j ∈ cs.take j ∨ ctx j ∈ held)
  if 4096 ≤ i ∨ (partnerOf s i).isSome ∨ taken then lcDeny s r rsBounds 2
  else if k = 0 ∨ 16 < k then lcDeny s r rsBounds 23
  else if let some j := pad then lcDeny s r rsBounds (24 + 2 * j)
  else if let some j := bad then lcDeny s r rsBounds (24 + 2 * j)
  else if 3 < beAt p 1 1 then lcDeny s r rsBounds 1
  else if groups = 0 then lcDeny s r rsBounds 22
  else if 16 < held.length + k then lcDeny s r rsBounds 23
  else if i ∉ attachedTo s n ∧ (pGet s n).settings.attachMax ≤ (attachedTo s n).length then lcDeny s r rsBounds noField
  else
    let s1 := mtPut s i (fillWords (mtGet s i) cs groups)
    let e : SrcEntry := { addr := addr, port := port, maxSeg := BitVec.ofNat 2 (beAt p 1 1) }
    answer (actMod s1 (fun a => { a with src := tins a.src i e })) r stOk []

/-- DETACH (R42): the words of the pitch go, and the source entry with them if none is left; the endpoint's
handles under the pitch are freed and its sync lines are lost at once (R142, R243). -/
def detach (s : State) (r : Req) (n : Nat) : State :=
  let i := beAt r.payload 2 2
  let cs := boundContexts s n
  if 4096 ≤ i ∨ (partnerOf s i).isSome ∨ !(heldContexts s i).any (fun c => decide (c ∈ cs)) then lcDeny s r rsBounds 2
  else
    let s1 := hDropWhere s (fun h => decide (h.endpoint.toNat = i) && decide (h.pitch.toNat = n))
    answer (collLostEndpoint (syncDetach (detachOne s1 i n) i n) i n) r stOk []

/-- PITCH_QUERY (R521): the state word and the granules held, sweeping ones included (R38). -/
def pitchQuery (s : State) (r : Req) (n : Nat) : State :=
  let held := if n = 0 then (s.dmc.gran.filter (fun e => e.2.state = .system)).length
              else (s.dmc.gran.filter (fun e => (e.2.state = .held ∨ e.2.state = .sweeping) ∧ e.2.pitch.toNat = n)).length
  answer s r stOk (beBytes 4 (pitchStateWord s n).toNat ++ beBytes 4 held)

end Sys2Proof.Machine
end

