-- ==== Sys2Proof/Machine/Round.lean ====
section
/-! DEFINITION. The element types of collectives and the grid, rounding between them, MX blocks, the stochastic
generator and the transcendental approximations (R250 to R253, R283, R324 to R331). -/
namespace Sys2Proof.Machine

/-! ## Types: 0 FP32, 1 BF16, 2 FP16, 3 E4M3, 4 E5M2, 5 E2M1 (R250, R320) -/

def typeFmt (t : Nat) : Fmt :=
  if t = 0 then fp32 else if t = 1 then bf16 else if t = 2 then fp16 else if t = 3 then ⟨4, 3⟩
  else if t = 4 then e5m2 else ⟨2, 1⟩

/-- Decode an element. E4M3 has no infinity and one NaN pattern a sign; E2M1 has neither. -/
def decodeT (t x : Nat) : Num :=
  let f := typeFmt t
  if t = 3 ∨ t = 5 then
    let neg : Bool := (x >>> (f.eb + f.mb)) % 2 = 1
    let ex := (x >>> f.mb) % 2 ^ f.eb
    let fr := x % 2 ^ f.mb
    if t = 3 ∧ ex = 15 ∧ fr = 7 then .nan
    else if ex = 0 then .fin neg fr (1 - f.bias - f.mb)
    else .fin neg (fr + 2 ^ f.mb) (ex - f.bias - f.mb)
  else decodeF f x

/-- Largest finite pattern of a type, sign 0 (R252, R253). -/
def typeMax (t : Nat) : Nat :=
  if t = 0 then 0x7F7FFFFF else if t = 1 then 0x7F7F else if t = 2 then 0x7BFF else if t = 3 then 0x7E
  else if t = 4 then 0x7B else 7

/-- NaN of a type (R252). E2M1 has none and takes 7h (R253). -/
def typeNan (t : Nat) : Nat :=
  if t = 0 then 0x7FC00000 else if t = 1 then 0x7FC0 else if t = 2 then 0x7E00 else if t = 3 then 0x7F
  else if t = 4 then 0x7E else 7

/-- An infinity of a type; E4M3 takes the NaN of the sign (R252). -/
def typeInf (t : Nat) (neg : Bool) : Nat :=
  let f := typeFmt t
  let s := if neg then 2 ^ (f.eb + f.mb) else 0
  if t = 3 then s + 0x7F else if t = 5 then s + 7 else s + (2 ^ f.eb - 1) * 2 ^ f.mb

/-- Rounding modes of R326: 0 nearest even, 1 toward zero, 2 toward +∞, 3 toward −∞. -/
def roundMode (mode : Nat) (neg : Bool) (m : Nat) (e u : Int) : Nat :=
  let k := u - e
  if k ≤ 0 then m * 2 ^ (-k).toNat
  else if mode = 0 then roundUnits m e u false
  else
    let q := m / 2 ^ k.toNat
    let up := decide (m % 2 ^ k.toNat ≠ 0) && ((decide (mode = 2) && !neg) || (decide (mode = 3) && neg))
    if up then q + 1 else q

/-- Bits of `q` units 2^u of a format without regard to its largest finite value. -/
def packT (f : Fmt) (neg : Bool) (q : Nat) (u : Int) : Nat :=
  let q1 := if 2 ^ (f.mb + 1) ≤ q then q / 2 else q
  let u1 := if 2 ^ (f.mb + 1) ≤ q then u + 1 else u
  if q1 < 2 ^ f.mb then signBit f neg + q1
  else signBit f neg + (u1 + f.mb + f.bias).toNat * 2 ^ f.mb + (q1 - 2 ^ f.mb)

/-- Round a number to a type (R252, R326): the bits, and whether the output is a NaN or an overflow. -/
def roundT (t mode : Nat) (sat : Bool) : Num → Nat × Bool
  | .nan => (typeNan t, true)
  | .inf n => (typeInf t n, decide (t = 3))
  | .fin neg m e =>
    let f := typeFmt t
    if m = 0 then (signBit f neg, false)
    else
      let u := ulpExp f m e
      let q := roundMode mode neg m e u
      let top := decodeT t (typeMax t)
      let excess := decide (0 < cmpNum (.fin false q u) top)
      if excess then ((if sat then signBit f neg + typeMax t else typeInf t neg), true)
      else (packT f neg q u, false)

/-- Widen an element to FP32 (R251): exact, NaN canonical. -/
def widenT (t x : Nat) : Nat := encodeF fp32 (decodeT t x)

/-! ## Combining (R251) -/

/-- MAX and MIN: NaN if either operand is, +0 above −0. -/
def maxNum (a b : Num) : Num :=
  match a, b with
  | .nan, _ => .nan
  | _, .nan => .nan
  | x, y =>
    let c := cmpNum x y
    if c < 0 then y else if 0 < c then x
    else match x with
      | .fin true _ _ => y
      | _ => x

def minNum (a b : Num) : Num :=
  match a, b with
  | .nan, _ => .nan
  | _, .nan => .nan
  | x, y =>
    let c := cmpNum x y
    if c < 0 then x else if 0 < c then y
    else match x with
      | .fin false _ _ => y
      | _ => x

/-- Combine two FP32 values under OP (R251). -/
def combine (op a b : Nat) : Nat :=
  if op = 0 then addF fp32 a b
  else encodeF fp32 ((if op = 1 then maxNum else minNum) (decodeF fp32 a) (decodeF fp32 b))

/-- Largest power of two below n, for n ≥ 2: 2^(⌈log2 n⌉ − 1). -/
def halfSpan (n : Nat) : Nat := 2 ^ Nat.log2 (n - 1)

/-- span() of R256 over a list in ascending order; the first half is the left operand. -/
def spanBy {α : Type} (f : α → α → α) : Nat → List α → Option α
  | 0, _ => none
  | fuel + 1, l =>
    match l with
    | [] => none
    | [x] => some x
    | _ =>
      let h := halfSpan l.length
      match spanBy f fuel (l.take h), spanBy f fuel (l.drop h) with
      | some a, some b => some (f a b)
      | a, none => a
      | none, b => b

/-! ## MX blocks (R253) -/

/-- ⌊log2⌋ of a non-zero magnitude. -/
def floorLog (m : Nat) (e : Int) : Int := (Nat.log2 m : Int) + e

/-- Largest magnitude of a block: none for an infinity, else mantissa and exponent. -/
def blockMax : List Num → Option (Nat × Int)
  | [] => some (0, 0)
  | .inf _ :: _ => none
  | .nan :: t => blockMax t
  | .fin _ m e :: t =>
    match blockMax t with
    | none => none
    | some (k, g) => if cmpNum (.fin false k g) (.fin false m e) < 0 then some (m, e) else some (k, g)

/-- Scale byte and element bits of a block of numbers, element type 3, 4 or 5. -/
def mxBlock (t : Nat) (vs : List Num) : Nat × List Nat :=
  if vs.any (fun v => decide (v = .nan)) then (0xFF, vs.map (fun _ => typeNan t))
  else
    let emax : Int := if t = 3 then 8 else if t = 4 then 15 else 2
    let x : Int := match blockMax vs with
      | none => 127
      | some (m, e) => if m = 0 then -127 else max (-127) (min 127 (floorLog m e - emax))
    let el (v : Num) : Nat := match v with
      | .inf neg => signBit (typeFmt t) neg + typeMax t
      | .fin neg m e => (roundT t 0 true (.fin neg m (e - x))).1
      | .nan => typeNan t
    ((x + 127).toNat, vs.map el)

/-- Bytes of element bits: one each, or two E2M1 in a byte with the even element low (R250, R329). -/
def packEls (t : Nat) : List Nat → List Byte
  | [] => []
  | [a] => [BitVec.ofNat 8 a]
  | a :: b :: r => if t = 5 then BitVec.ofNat 8 (a + 16 * b) :: packEls t r
                   else BitVec.ofNat 8 a :: BitVec.ofNat 8 b :: packEls t r

/-! ## Integers (R321, R326) -/

/-- An integer as an exact number. -/
def numOfInt (v : Int) : Num := .fin (decide (v < 0)) v.natAbs 0

/-- A number to a signed integer of w bits: rounded by mode, saturated, NaN to 0. -/
def numToInt (w mode : Nat) : Num → Int
  | .nan => 0
  | .inf n => if n then -(2 ^ (w - 1) : Int) else 2 ^ (w - 1) - 1
  | .fin n m e =>
    let q : Int := (roundMode mode n m e 0 : Nat)
    let v := if n then -q else q
    max (-(2 ^ (w - 1) : Int)) (min (2 ^ (w - 1) - 1) v)

/-! ## Philox4x32-10 (R302, R328) -/

/-- One round: counter words and key words. -/
def philoxRound (c : List Nat) (k0 k1 : Nat) : List Nat :=
  let w (i : Nat) : Nat := c.getD i 0
  let p0 := 0xD2511F53 * w 0
  let p1 := 0xCD9E8D57 * w 2
  [((p1 / 2 ^ 32) ^^^ (w 1) ^^^ k0) % 2 ^ 32, p1 % 2 ^ 32, ((p0 / 2 ^ 32) ^^^ (w 3) ^^^ k1) % 2 ^ 32, p0 % 2 ^ 32]

def philoxFrom : Nat → List Nat → Nat → Nat → List Nat
  | 0, c, _, _ => c
  | n + 1, c, k0, k1 =>
    philoxFrom n (philoxRound c k0 k1) ((k0 + 0x9E3779B9) % 2 ^ 32) ((k1 + 0xBB67AE85) % 2 ^ 32)

/-- The four words of a block: counter (rank, 0, c low, c high), key SEED (R328). -/
def philox (seed : BitVec 64) (rank : Nat) (c : BitVec 64) : List Nat :=
  philoxFrom 10 [rank, 0, c.toNat % 2 ^ 32, c.toNat / 2 ^ 32] (seed.toNat % 2 ^ 32) (seed.toNat / 2 ^ 32)

/-- Stochastic rounding of an FP32 pattern with a 16-bit random value (R327). -/
def roundSr (t : Nat) (sat : Bool) (x r : Nat) : Nat :=
  match decodeF fp32 x with
  | .fin neg m e =>
    if m = 0 then (roundT t 0 sat (.fin neg m e)).1
    else
      let f := typeFmt t
      let u := ulpExp f m e
      let k := u - e
      if k ≤ 0 then (roundT t 0 sat (.fin neg m e)).1
      else
        let q := m / 2 ^ k.toNat
        let rest := m % 2 ^ k.toNat
        -- (|x| − |lo|) / (|hi| − |lo|) + r / 65,536 ≥ 1
        let up := decide (rest ≠ 0) && decide (2 ^ k.toNat * 65536 ≤ rest * 65536 + r * 2 ^ k.toNat)
        (roundT t 0 sat (.fin neg (if up then q + 1 else q) u)).1
  | v => (roundT t 0 sat v).1

/-! ## Transcendental approximations (R330, R331) -/

/-- The polynomial of a table entry at d, in units of 2^-31. -/
def tablePoly (c : Int × Int × Int) (d : Nat) : Int :=
  c.1 + (c.2.1 * d).fdiv (2 ^ 16) + (c.2.2 * (d * d : Nat)).fdiv (2 ^ 32)

/-- An FP32 result from a signed count of units 2^u. -/
def fpOfUnits (v : Int) (u : Int) : Nat := encodeF fp32 (.fin (decide (v < 0)) v.natAbs u)

/-- Mantissa in [1, 2) as 24 bits and exponent of a non-zero magnitude. -/
def normNum (m : Nat) (e : Int) : Nat × Int := (shiftI m (23 - (Nat.log2 m : Int)), (Nat.log2 m : Int) + e)

/-- VTR on one FP32 element: fn 0 RCP, 1 RSQ, 2 EXP2, 3 LOG2 (R330). -/
def vtr (tables : List (Int × Int × Int)) (fn x : Nat) : Nat :=
  let inf (n : Bool) : Nat := infBits fp32 n
  let nan := nanBits fp32
  let entry (i : Nat) : Int × Int × Int := tables.getD i (0, 0, 0)
  match decodeF fp32 x with
  | .nan => nan
  | .inf false => if fn = 0 ∨ fn = 1 then 0 else inf false
  | .inf true => if fn = 0 then signBit fp32 true else if fn = 2 then 0 else nan
  | .fin neg m e =>
    if m = 0 then
      (if fn = 0 ∨ fn = 1 then inf neg else if fn = 2 then 0x3F800000 else inf true)
    else if fn = 2 then
      if !neg ∧ 0 ≤ cmpNum (.fin false m e) (.fin false 128 0) then inf false
      else if neg ∧ 0 < cmpNum (.fin false m e) (.fin false 150 0) then 0
      else
        let v : Int := if neg then -(m : Int) else m
        let scale : Nat := (-e).toNat
        let n : Int := if 0 ≤ e then v * 2 ^ e.toNat else v.fdiv (2 ^ scale)
        let f : Int := if 0 ≤ e then 0 else ((v - n * 2 ^ scale) * 2 ^ 23).fdiv (2 ^ scale)
        let fr := f.toNat
        fpOfUnits (tablePoly (entry (384 + fr / 65536)) (fr % 65536)) (n - 31)
    else if neg ∧ fn ≠ 0 then nan
    else
      let z := normNum m e
      let fr := z.1 % 2 ^ 23
      let d := fr % 65536
      if fn = 0 then
        let p := tablePoly (entry (fr / 65536)) d
        fpOfUnits (if neg then -p else p) (-31 - z.2)
      else if fn = 1 then fpOfUnits (tablePoly (entry (128 + fr / 65536 + 128 * (z.2 % 2).toNat)) d) (-31 - z.2.fdiv 2)
      else
        let p := tablePoly (entry (512 + fr / 65536)) d
        fpOfUnits (p + z.2 * 2 ^ 31) (-31)

/-! ## Matrix arithmetic (R283) -/

/-- Exact sum of exact products: signed units of a common exponent, or a special value. -/
def sumNums : List Num → Num
  | [] => .fin true 0 0
  | v :: t => numAdd v (sumNums t)

/-- Add the group sums of products to an accumulator, one rounding each, in ascending order. -/
def accGroups : Nat → List Num → Nat → Nat → Nat
  | 0, _, _, a => a
  | fuel + 1, ps, g, a =>
    if ps.isEmpty then a
    else accGroups fuel (ps.drop g) g (encodeF fp32 (numAdd (decodeF fp32 a) (sumNums (ps.take g))))

/-- a with bits [15:0] cleared, and BF16(a − a_hi), as exact numbers (R283). -/
def fp32Split (x : Nat) : Num × Num :=
  let hi := decodeF fp32 (x / 65536 * 65536)
  let lo := numAdd (decodeF fp32 x) (numNeg hi)
  (hi, decodeT 1 (roundT 1 0 false lo).1)

end Sys2Proof.Machine
end

