-- ==== Sys2Proof/Machine/Master.lean ====
section
/-! DEFINITION. What the chip's own pitch masters do to memory: stage engines, CLX lanes and FUM (R130, R132, R136,
R164, R237, R295). They are not subject to the owner-tag check. -/
namespace Sys2Proof.Machine

/-- Does an endpoint hold a context of a pitch with an opcode group's bit? -/
def holdsGroup (s : State) (i n bit : Nat) : Bool :=
  let cs := (pGet s n).settings.contexts ++ (pGet s n).removed
  (mtGet s i).any (fun w => wordValid w && (wordGroups w).getLsbD bit && decide (wordCtx w ∈ cs))

/-- Pieces of a range by the page tables, or NOT_MAPPED for an unmapped page, among them every page of a slot
that is not held (R139 step 2). -/
def walkPieces (s : State) (n : Nat) : Nat → Nat → Nat → Sum Nat (List Piece)
  | 0, _, _ => .inr []
  | fuel + 1, pva, len =>
    if len = 0 then .inr []
    else if (slotGran s n pva).isNone then .inl stNotMapped
    else
      match walk s n pva with
      | .leaf level e =>
        let room := pageSize level - pva % pageSize level
        let here := min room len
        match walkPieces s n fuel (pva + here) (len - here) with
        | .inl st => .inl st
        | .inr ps => .inr ({ pva := pva, ppa := entAddr e + pva % pageSize level, len := here, entry := e } :: ps)
      | _ => .inl stNotMapped

/-- A range of a pitch with its units serving; DENIED where the slot of its first byte is not held (R136,
R139 step 1). -/
def masterRange (s : State) (n pva len : Nat) : Sum Nat (List Piece) :=
  if 0 < len ∧ (slotGran s n pva).isNone then .inl stDenied
  else match walkPieces s n (len / 65536 + 2) pva len with
  | .inl st => .inl st
  | .inr ps => match unitsVerdict s ps with
    | some st => .inl st
    | none => .inr ps

/-- The first line of a list that fails R163 checks 1 to 3. -/
def firstFault (s : State) : List Nat → Option (Nat × LineVerdict)
  | [] => none
  | l :: t => match lineVerdict s l with
    | .good => firstFault s t
    | v => some (l, v)

/-- Read pieces as a pitch master, each line queued at the channel with its class. -/
def masterRead (s : State) (n cls : Nat) (ps : List Piece) : State × Sum Nat (List Byte) :=
  let lines := pieceLines ps
  match firstFault s lines with
  | some (l, v) => (badLine s l n v, .inl (verdictStatus v))
  | none => (foldS lines s (fun s l => dmcRead s l cls n false none), .inr (piecesBytes s ps))

/-- Write pieces as a pitch master with OWNER `ctx`; a line written in part is read first (R165). -/
def masterWrite (s : State) (n cls : Nat) (ctx : BitVec 16) (ps : List Piece) (bs : List Byte) : State × Option Nat :=
  let lines := pieceLines ps
  match firstFault s lines with
  | some (l, v) => (badLine s l n v, some (verdictStatus v))
  | none => (foldS lines (writePieces s n ctx ps bs) (fun s l => dmcWrite s l cls n), none)

/-- The request as which a master of the chip waits for sync lines: opcode 00h, a number of its own. -/
def masterReq (n : Nat) (kind unit : Nat) (ticket : Nat) : Req :=
  { op := 0, flow := .sess (BitVec.ofNat 128 kind) (BitVec.ofNat 16 unit) 0, seq := BitVec.ofNat 24 ticket,
    pitch := BitVec.ofNat 8 n }

end Sys2Proof.Machine
end

