-- ==== Sys2Proof/Machine/Coll.lean ====
section
/-! DEFINITION. Reproducible collectives: descriptors, the tree, chunks, frames, destinations and failures (R247 to
R276). -/
namespace Sys2Proof.Machine

/-! ## Descriptors (R248, R249) -/

def readColl (p : List Byte) : CollDesc :=
  let m := beAt p 69 1
  let d := beAt p 70 1
  let n := beAt p 66 2
  let st := beAt p 40 6 * 1000000000 + beAt p 46 4
  let dest := beAt p 68 1
  { id := beAt p 0 4 % 2 ^ 24, exact := decide (beAt p 4 1 = 1), op := beAt p 5 1, inT := beAt p 6 1,
    outT := beAt p 7 1, size := beAt p 8 4, ranks := beAt p 12 2, levels := beAt p 14 1, localLevels := beAt p 15 1
    fanin := (upto (beAt p 14 1)).map (fun l => beAt p (16 + l) 1), dclass := BitVec.ofNat 64 (beAt p 32 8)
    start := if st = 0 then none else some st, period := beAt p 50 4
    deadline := if beAt p 54 4 = 0 then none else some (beAt p 54 4 * 1000)
    sat := (beAt p 58 1).testBit 0, scopeAll := (beAt p 58 1).testBit 1, position := beAt p 64 2, locals := n
    toEndpoints := dest.testBit 0, toMemory := dest.testBit 1, toKernel := dest.testBit 2
    neigh := (upto m).map (fun i =>
      { position := beAt p (104 + 8 * i) 2, endpoint := BitVec.ofNat 12 (beAt p (106 + 8 * i) 2),
        context := BitVec.ofNat 16 (beAt p (108 + 8 * i) 2) })
    deliver := (upto d).map (fun i => BitVec.ofNat 12 (beAt p (104 + 8 * m + 2 * i) 2))
    contrib := (upto n).map (fun i => BitVec.ofNat 12 (beAt p (104 + 8 * m + 2 * d + 2 * i) 2))
    workBase := beAt p 72 8, workSize := beAt p 80 8, destBase := beAt p 88 8, ksession := beAt p 96 2 }

/-! ## The tree (R254, R255) -/

/-- count[0] to count[L]. -/
def counts (n : Nat) : List Nat → List Nat
  | [] => [n]
  | f :: t => n :: counts ((n + f - 1) / max 1 f) t

def countAt (d : CollDesc) (l : Nat) : Nat := (counts d.ranks d.fanin).getD l 0
def faninAt (d : CollDesc) (l : Nat) : Nat := d.fanin.getD (l - 1) 1
/-- S: ranks of a chip. -/
def chipSpan (d : CollDesc) : Nat := (d.fanin.take d.localLevels).foldl (· * ·) 1
def chipCount (d : CollDesc) : Nat := countAt d d.localLevels
/-- H_l for l ≥ K. -/
def hostSpan (d : CollDesc) (l : Nat) : Nat := ((d.fanin.take l).drop d.localLevels).foldl (· * ·) 1
/-- Highest level that chip p hosts. -/
def topLevel (d : CollDesc) (p : Nat) : Nat :=
  (upto (d.levels + 1)).foldl (fun acc l => if d.localLevels ≤ l ∧ p % hostSpan d l = 0 then max acc l else acc) d.localLevels
def parentOf (d : CollDesc) (p : Nat) : Nat :=
  let h := hostSpan d (topLevel d p + 1)
  p / h * h
/-- Children of a node: first and count (R254). -/
def nodeKids (d : CollDesc) (l j : Nat) : Nat × Nat :=
  (j * faninAt d l, min (faninAt d l) (countAt d (l - 1) - j * faninAt d l))
/-- Child chips of p at a hosted level l > K, ascending. -/
def childChipsAt (d : CollDesc) (p l : Nat) : List Nat :=
  let k := nodeKids d l (p / hostSpan d l)
  ((upto k.2).drop 1).map (fun i => (k.1 + i) * hostSpan d (l - 1))
def hostedLevels (d : CollDesc) (p : Nat) : List Nat :=
  (upto (d.levels + 1)).filter (fun l => d.localLevels < l ∧ l ≤ topLevel d p)
def childChips (d : CollDesc) (p : Nat) : List Nat := (hostedLevels d p).flatMap (childChipsAt d p)
def neighboursOf (d : CollDesc) (p : Nat) : List Nat :=
  (if p = 0 then [] else [parentOf d p]) ++ childChips d p
def firstRank (d : CollDesc) : Nat := d.position * chipSpan d
def localRanks (d : CollDesc) : Nat := min (firstRank d + chipSpan d) d.ranks - firstRank d
/-- W of R263. -/
def workSlots (d : CollDesc) : Nat :=
  (localRanks d - 1) + ((hostedLevels d d.position).map (fun l => (nodeKids d l (d.position / hostSpan d l)).2 - 1)).sum

/-- Value of node j of level l on this chip, from the operands of its ranks (R256). -/
def nodeLocal (d : CollDesc) (get : Nat → Option (List Nat)) : Nat → Nat → Option (List Nat)
  | 0, j => get j
  | l + 1, j =>
    let k := nodeKids d (l + 1) j
    let vs := (upto k.2).map (fun i => nodeLocal d get l (k.1 + i))
    if vs.all (·.isSome) then spanBy (fun a b => (a.zip b).map (fun e => combine d.op e.1 e.2)) (k.2 + 1) (vs.filterMap id)
    else none

/-- Value of the highest node that this chip hosts: its own below, child chips beside (R255, R256). -/
def nodeTop (d : CollDesc) (rank child : Nat → Option (List Nat)) : Option (List Nat) :=
  (hostedLevels d d.position).foldl (fun acc l =>
    let vs := acc :: (childChipsAt d d.position l).map child
    if vs.all (·.isSome) then
      spanBy (fun a b => (a.zip b).map (fun e => combine d.op e.1 e.2)) (vs.length + 1) (vs.filterMap id)
    else none) (nodeLocal d rank d.localLevels d.position)

/-! ## Exact accumulators (R265) -/

/-- Accumulator bytes and the exponent of bit 0. -/
def accBytes (t : Nat) : Nat := if t = 0 ∨ t = 1 then 40 else 8
def accLsb (t : Nat) : Int := if t = 0 ∨ t = 1 then -160 else -24

def accOfNum (t : Nat) : Num → ExAcc
  | .nan => .nan
  | .inf n => .inf n
  | .fin n m e =>
    let v : Int := (m * 2 ^ (e - accLsb t).toNat : Nat)
    .fin (if n then -v else v)

def accAdd : ExAcc → ExAcc → ExAcc
  | .nan, _ => .nan
  | _, .nan => .nan
  | .inf a, .inf b => if a = b then .inf a else .nan
  | .inf a, _ => .inf a
  | _, .inf b => .inf b
  | .fin a, .fin b => .fin (a + b)

/-- The encoding of an accumulator (R265). -/
def accBits (t : Nat) (a : ExAcc) : Nat :=
  let w := 8 * accBytes t
  match a with
  | .fin v => (v % (2 ^ w : Int)).toNat
  | .inf false => 2 ^ (w - 1) + 1
  | .inf true => 2 ^ (w - 1) + 2
  | .nan => 2 ^ (w - 1) + 3

def accOfBits (t x : Nat) : ExAcc :=
  let w := 8 * accBytes t
  if x = 2 ^ (w - 1) + 1 then .inf false
  else if x = 2 ^ (w - 1) + 2 then .inf true
  else if x = 2 ^ (w - 1) + 3 then .nan
  else .fin (if 2 ^ (w - 1) ≤ x then (x : Int) - 2 ^ w else x)

/-- The exact sum as a number; a sum of zero is +0 (R252). -/
def accNum (t : Nat) : ExAcc → Num
  | .nan => .nan
  | .inf n => .inf n
  | .fin v => .fin (decide (v < 0)) v.natAbs (accLsb t)

/-! ## Units and chunks (R262) -/

def unitCount (d : CollDesc) : Nat := d.size / 256
def chunkCount (d : CollDesc) : Nat := (unitCount d + 255) / 256
/-- Units of chunk k. -/
def chunkUnits (d : CollDesc) (k : Nat) : List Nat := (upto (min 256 (unitCount d - 256 * k))).map (· + 256 * k)
def unitElems (d : CollDesc) : Nat := 256 / typeBytes d.inT

/-- Bytes of a unit in a frame of an opcode (R262). -/
def unitBytes (d : CollDesc) (op : Nat) : Nat :=
  if op = 0x51 then 256
  else if op = 0x52 then (if d.exact then unitElems d * accBytes d.inT else 4 * unitElems d)
  else unitElems d * typeBytes d.outT

/-- Sources that a unit of a chip waits for: local ranks and child chips. -/
def unitSources (d : CollDesc) : Nat := localRanks d + (childChips d d.position).length

/-- Staging of an open chunk in exact mode. -/
def stageBytes (d : CollDesc) : Nat := unitElems d * 256 * accBytes d.inT

/-- Chunks of a record that are open. -/
def openCount (r : CollRec) : Nat :=
  r.openTo - ((upto r.openTo).filter (fun k => (tget {} r.chunks k).closed)).length

/-- Staging that a record holds or reserves: two chunks at least (R265). -/
def recStaging (r : CollRec) : Nat :=
  if r.desc.exact ∧ collOpen r then max 2 (openCount r) * stageBytes r.desc else 0

def stagingUsed (s : State) : Nat := (s.clx.recs.map (fun e => recStaging e.2)).sum

/-- May one more chunk of a record open (R263, R265)? -/
def mayOpen (s : State) (r : CollRec) : Bool :=
  let c := openCount r
  if r.desc.exact then
    decide (c < 2) || (decide (c < 8) && decide (stagingUsed s + stageBytes r.desc ≤ 16777216))
  else
    let w := workSlots r.desc
    decide (w = 0) || decide (c < r.desc.workSize / (w * (262144 / typeBytes r.desc.inT)))

/-- Open chunks in ascending order (R263, R265). -/
def openChunks : Nat → State → Nat → State
  | 0, s, _ => s
  | fuel + 1, s, ix =>
    let r := recGet s ix
    if !collOpen r ∨ chunkCount r.desc ≤ r.openTo then s
    else if mayOpen s r then openChunks fuel (recPut s ix { r with openTo := r.openTo + 1 }) ix
    else if r.desc.exact ∧ openCount r < 8 ∧ r.waited ≤ r.openTo then
      bump0 (recPut s ix { r with waited := r.openTo + 1 }) .clxStageWait
    else s

def openMore (s : State) (ix : Nat) : State := openChunks (chunkCount (recGet s ix).desc + 1) s ix

def chunkGet (r : CollRec) (k : Nat) : CollChunk := tget {} r.chunks k
def chunkPut (s : State) (ix k : Nat) (c : CollChunk) : State :=
  let r := recGet s ix
  recPut s ix { r with chunks := tins r.chunks k c }

/-! ## Frames sent (R262, R266, R267) -/

/-- Greatest number of units of `ub` bytes that a frame of at most `cap` bytes holds, in whole 256 bytes. -/
def unitsPer (ub cap : Nat) : Nat :=
  ((upto (cap / max 1 ub + 1)).filter (fun n => n * ub % 256 = 0)).foldl max 1

/-- Frames of units (number, bytes) from the first on: (first unit, payload). -/
def unitFrames : Nat → Nat → List (Nat × List Byte) → List (Nat × List Byte)
  | 0, _, _ => []
  | fuel + 1, per, us =>
    match us with
    | [] => []
    | (u, _) :: _ => (u, (us.take per).flatMap (·.2)) :: unitFrames fuel per (us.drop per)

/-- ADDRESS of a data frame (R74). -/
def collAddress (id who off : Nat) : BitVec 64 := BitVec.ofNat 64 (id * 2 ^ 40 + who * 2 ^ 24 + off)

/-- Send units as frames of an opcode to an endpoint index; answers how many frames. -/
def sendUnits (s : State) (r : CollRec) (k op who : Nat) (ep : BitVec 12) (ctx : BitVec 16) (cap : Nat)
    (us : List (Nat × List Byte)) : State × Nat :=
  let per := max 1 (unitsPer (unitBytes r.desc op) cap)
  let fs := unitFrames (us.length + 1) per us
  (foldS fs s (fun s f =>
    let t := toEndpoint s (BitVec.ofNat 8 op) ep r.pitch 4 ctx (collAddress r.desc.id who f.1) f.2
    ctlSend s (.ep ep r.pitch 4) t (.collFrame r.desc.id r.pitch k)), fs.length)

def neighAt (d : CollDesc) (p : Nat) : Option CollNeigh := d.neigh.find? (fun g => g.position = p)

/-- Largest frame towards an endpoint index (R262). -/
def segTo (s : State) (ep : BitVec 12) : Nat := match tfind s.act.src ep.toNat with
  | some e => min 8192 (maxSegBytes e.maxSeg)
  | none => 8192

/-! ## Chunk progress (R263, R266, R267) -/

/-- Is a chunk complete: every unit has every operand (R256, R265)? -/
def chunkFull (r : CollRec) (k : Nat) : Bool :=
  let c := chunkGet r k
  (chunkUnits r.desc k).all (fun u => decide ((c.seen.filter (fun e => e.1 = u)).length = unitSources r.desc))

/-- Value of a unit of this chip: FP32 values of its highest node in tree mode. -/
def unitTree (r : CollRec) (c : CollChunk) (u : Nat) : List Nat :=
  let get (child : Bool) (who : Nat) : Option (List Nat) :=
    (c.ops.find? (fun o => decide (o.unit = u) && o.child = child && decide (o.who = who))).map (·.vals)
  (nodeTop r.desc (get false) (get true)).getD []

/-- Numbers of a unit at the root, before rounding. -/
def unitNums (r : CollRec) (c : CollChunk) (u : Nat) : List Num :=
  if r.desc.exact then (tget [] c.exact u).map (accNum r.desc.inT) else (unitTree r c u).map (decodeF fp32)

/-- Bytes of a unit in a partial (R262). -/
def partialBytes (r : CollRec) (c : CollChunk) (u : Nat) : List Byte :=
  if r.desc.exact then (tget [] c.exact u).flatMap (fun a => leBytes (accBytes r.desc.inT) (accBits r.desc.inT a))
  else (unitTree r c u).flatMap (leBytes 4)

/-- Round a unit at the root (R252): bytes and the number of specials. -/
def roundUnit (d : CollDesc) (ns : List Num) : List Byte × Nat :=
  let rs := ns.map (roundT d.outT 0 d.sat)
  (rs.flatMap (fun e => leBytes (typeBytes d.outT) e.1), (rs.filter (·.2)).length)

/-- Has the slot of R271 for chunk k arrived? -/
def paceOk (s : State) (d : CollDesc) (k : Nat) : Bool := match d.start with
  | none => true
  | some t => decide (t + k * d.period ≤ cd10Total s)

/-- What a record writes for a chunk: (address, bytes), the two planes of R253 for MX. -/
def chunkWrites (r : CollRec) (k : Nat) (c : CollChunk) : List (Nat × List Byte) :=
  let d := r.desc
  let us := chunkUnits d k
  if isMx d.outT then
    let t := if d.outT = 0x10 then 3 else if d.outT = 0x11 then 4 else 5
    let ns := us.flatMap (unitNums r c)
    let bl := (upto (ns.length / 32)).map (fun i => mxBlock t ((ns.drop (32 * i)).take 32))
    let e := d.size / typeBytes d.inT
    let e0 := k * 65536 / typeBytes d.inT
    let half := if t = 5 then 2 else 1
    [(d.destBase + e0 / half, bl.flatMap (fun b => packEls t b.2)),
     (d.destBase + e / half + e0 / 32, bl.map (fun b => BitVec.ofNat 8 b.1))]
  else [(d.destBase + 256 * k * unitBytes d 0x53, us.flatMap (fun u => tget [] c.result u))]

/-- Write a chunk to memory in S1 (R266), mirrored where the pitch has a fly; it waits while a line of a sync
page is being obtained (R237). A bad line fails the record with cause MEDIA. -/
def writeChunk (s : State) (ix k : Nat) : State :=
  let r := recGet s ix
  let c := chunkGet r k
  let n := r.pitch.toNat
  let ws := chunkWrites r k c
  let go := ws.foldl (fun (acc : Option (List (List Piece))) w =>
    match acc, masterRange s n w.1 w.2.length with
    | some l, .inr ps => some (l ++ [ps])
    | _, _ => none) (some [])
  match go with
  | none => failRec s ix 6 none
  | some pss =>
    let q := masterReq n 2 ix k
    let e := syncEnter s q (syncLines pss.flatten) true
    if !e.2 then e.1
    else
      let w := (ws.zip pss).foldl (fun (a : State × Option Nat) x =>
        match a.2 with
        | some _ => a
        | none => masterWrite a.1 n 1 r.context x.2 x.1.2) (e.1, none)
      let s1 := releaseLines w.1 q
      match w.2 with
      | some _ => failRec s1 ix 7 none
      | none =>
        if mirrors s1 n then
          let s2 := chunkPut s1 ix k { chunkGet (recGet s1 ix) k with mirroring := true }
          mirrorOp s2 n r.context (ws.map (fun x => (x.1, x.2.length))) { chunk := some (ix, k) }
        else chunkPut s1 ix k { chunkGet (recGet s1 ix) k with written := true }

/-- Frames of a chunk's result to child chips and endpoints (R266). -/
def sendResult (s : State) (ix k : Nat) : State :=
  let r := recGet s ix
  let d := r.desc
  let c := chunkGet r k
  let us := (chunkUnits d k).map (fun u => (u, tget [] c.result u))
  let kids := if d.scopeAll then (childChips d d.position).filterMap (neighAt d) else []
  let a := kids.foldl (fun (a : State × Nat) g =>
    let x := sendUnits a.1 r k 0x53 0 g.endpoint g.context 8192 us
    (x.1, a.2 + x.2)) (s, 0)
  let b := if d.toEndpoints then d.deliver.foldl (fun (a : State × Nat) ep =>
      let x := sendUnits a.1 r k 0x53 0 ep r.context (segTo a.1 ep) us
      (x.1, a.2 + x.2)) a else a
  chunkPut b.1 ix k { chunkGet (recGet b.1 ix) k with down := b.2, resulted := true }

/-- Post written chunks to the kernel session in order (R267). -/
def postChunks : Nat → State → Nat → State
  | 0, s, _ => s
  | fuel + 1, s, ix =>
    let r := recGet s ix
    if !r.desc.toKernel then s
    else
      let c := chunkGet r r.posted
      if c.written ∧ r.posted < chunkCount r.desc then
        postChunks fuel (recPut s ix { r with posted := r.posted + 1, chunks := tins r.chunks r.posted { c with posted := true } }) ix
      else s

/-- Advance a chunk as far as what it holds allows. -/
def chunkStep (s : State) (ix k : Nat) : State :=
  let r := recGet s ix
  let d := r.desc
  let c := chunkGet r k
  let n := r.pitch.toNat
  if r.state ≠ .running then s
  else
    -- the partial to the parent, or rounding at the root
    let s1 :=
      if !c.sent ∧ !c.closed ∧ chunkFull r k ∧ paceOk s d k then
        if d.position = 0 then
          if isMx d.outT then chunkPut s ix k { c with sent := true, ready := true, resulted := true }
          else
            let rs := (chunkUnits d k).map (fun u => (u, roundUnit d (unitNums r c u)))
            let sp := (rs.map (fun e => e.2.2)).sum
            let res := rs.foldl (fun t e => tins t e.1 e.2.1) c.result
            let s1 := if sp = 0 then s else bumpN s .clxOutSpecial 0 0 n sp
            sendResult (chunkPut s1 ix k { c with sent := true, ready := true, result := res }) ix k
        else
          match neighAt d (parentOf d d.position) with
          | none => s
          | some g =>
            let us := (chunkUnits d k).map (fun u => (u, partialBytes r c u))
            let x := sendUnits s r k 0x52 d.position g.endpoint g.context 8192 us
            chunkPut x.1 ix k { chunkGet (recGet x.1 ix) k with sent := true, ready := true, parts := x.2 }
      else s
    let r1 := recGet s1 ix
    let c1 := chunkGet r1 k
    -- a result from the parent is passed on when it is whole
    let s2 := if d.position ≠ 0 ∧ d.scopeAll ∧ !c1.resulted ∧ (chunkUnits d k).all (fun u => (tfind c1.result u).isSome) then
        sendResult s1 ix k else s1
    let c2 := chunkGet (recGet s2 ix) k
    let s3 := if c2.resulted ∧ (d.toMemory ∨ d.toKernel) ∧ !c2.written ∧ !c2.mirroring ∧ collOpen (recGet s2 ix) then writeChunk s2 ix k else s2
    let r3 := recGet s3 ix
    let c3 := chunkGet r3 k
    -- the chunk closes (R263): its operands go
    let shut := c3.sent ∧ c3.parts = 0 ∧ (d.position ≠ 0 ∨ !isMx d.outT ∨ c3.written ∨ !(d.toMemory || d.toKernel))
    let s4 := if shut ∧ !c3.closed then openMore (chunkPut s3 ix k { c3 with closed := true, ops := [], exact := [] }) ix else s3
    postChunks (chunkCount d + 1) s4 ix

def stepAll (s : State) (ix : Nat) : State :=
  foldS ((recGet s ix).chunks.map (·.1)) s (fun s k => chunkStep s ix k)

/-- Is a chunk finished on this chip (R266)? -/
def chunkDone (d : CollDesc) (c : CollChunk) : Bool :=
  c.sent && decide (c.parts = 0) && decide (c.down = 0) &&
    (!(d.scopeAll || decide (d.position = 0)) || c.resulted) &&
    (!(d.toMemory || d.toKernel) || c.written) && (!d.toKernel || c.posted)

/-! ## COLL_OPEN (R259) -/

/-- Offsets of fields that fail order 1, ascending. START_NS has no test there (log 105). -/
def openFlaws (p : List Byte) : List (Nat × Bool) :=
  let b (i : Nat) : Nat := beAt p i 1
  let l := b 14
  let mx := decide (0x10 ≤ b 7 ∧ b 7 ≤ 0x12)
  [(0, decide (b 0 ≠ 0)), (4, decide (1 < b 4) || (decide (b 4 = 1) && decide (b 5 ≠ 0))), (5, decide (2 < b 5)),
   (6, decide (4 < b 6)), (7, decide (4 < b 7) && !mx), (14, decide (l = 0 ∨ 16 < l)), (15, decide (l < b 15))] ++
  (upto 16).map (fun i => (16 + i, if i < l then decide (b (16 + i) < 2 ∨ 64 < b (16 + i)) else decide (b (16 + i) ≠ 0))) ++
  [(58, decide (3 < b 58) || (mx && (b 58).testBit 1))] ++
  (upto 5).map (fun i => (59 + i, decide (b (59 + i) ≠ 0))) ++
  [(64, decide (1023 < beAt p 64 2)), (68, decide (7 < b 68) || (mx && decide (b 68 ≠ 0 ∧ b 68 ≠ 2))), (71, decide (b 71 ≠ 0))] ++
  (upto 6).map (fun i => (98 + i, decide (b (98 + i) ≠ 0))) ++
  (upto (b 69)).map (fun i => (104 + 8 * i + 6, decide (beAt p (104 + 8 * i + 6) 2 ≠ 0)))

/-- Order 2: the field that fails. -/
def openLen (r : Req) (d : CollDesc) : Option Nat :=
  let p := r.payload
  let want := 104 + 8 * d.neigh.length + 2 * d.deliver.length + 2 * d.contrib.length
  if p.length < 104 ∨ r.length.toNat ≠ p.length ∨ p.length ≠ want ∨ 8192 < p.length then some 0xFFFFFFFF
  else if d.size < 256 ∨ 0xFFFFFF00 < d.size ∨ d.size % 256 ≠ 0 then some 8
  else if !isMx d.outT ∧ (d.toEndpoints ∨ (d.scopeAll ∧ 1 < chipCount d)) ∧ (d.size / typeBytes d.inT * typeBytes d.outT) % 256 ≠ 0 then some 8
  else if d.exact then (if d.workSize ≠ 0 then some 80 else none)
  else if d.workSize % 65536 ≠ 0 ∨ d.workSize < workSlots d * (262144 / typeBytes d.inT) then some 80
  else none

/-- Order 5 on one range: mapped, units serving, outside RO and COCOON pages. -/
def openRange (s : State) (n base len : Nat) : Option Nat :=
  match masterRange s n base len with
  | .inl st => some st
  | .inr ps => if ps.any (fun p => entRo p.entry || entCocoon p.entry) then some stDenied else none

/-- Orders 5 to 10: the status and FIELD of the first failure. -/
def openRefusal (s : State) (r : Req) (d : CollDesc) : Option (Nat × Nat) :=
  let n := r.pitch.toNat
  let no : Nat := 0xFFFFFFFF
  let work := decide (0 < d.workSize)
  let dest := d.toMemory || d.toKernel
  let wst := if work then openRange s n d.workBase d.workSize else none
  let dst := if dest then openRange s n d.destBase (destBytes d) else none
  let lists := (d.deliver.zip (upto d.deliver.length)).map (fun e => (e.1, 104 + 8 * d.neigh.length + 2 * e.2)) ++
    (d.contrib.zip (upto d.contrib.length)).map (fun e => (e.1, 104 + 8 * d.neigh.length + 2 * d.deliver.length + 2 * e.2))
  let pos := d.neigh.map (·.position)
  let want := neighboursOf d d.position
  if let some st := wst then some (st, 72)
  else if let some st := dst then some (st, 88)
  else if work ∧ dest ∧ d.workBase < d.destBase + destBytes d ∧ d.destBase < d.workBase + d.workSize then some (stDenied, 88)
  else if d.dclass ≠ s.clx.dclass then some (stDclass, no)
  else if countAt d d.levels ≠ 1 ∨ 1024 < chipCount d then some (stDenied, no)
  else if chipCount d ≤ d.position then some (stDenied, 64)
  else if d.locals ≠ localRanks d ∨ 2048 < d.locals then some (stDenied, 66)
  else if 64 < pos.length ∨ hasDup pos ∨ !(pos.all (fun p => decide (p ∈ want))) ∨ !(want.all (fun p => decide (p ∈ pos))) then some (stDenied, 69)
  else if 64 < d.deliver.length then some (stDenied, 70)
  else if !d.scopeAll ∧ 0 < d.position ∧ (dest ∨ d.toEndpoints) then some (stDenied, 68)
  else if let some e := lists.find? (fun e => !holdsGroup s e.1.toNat n 5) then some (stDenied, e.2)
  else if d.toKernel ∧ !((sessFind s d.ksession).any (fun k => decide ((sessGet s k).state = .running) && decide ((sessGet s k).pitch = r.pitch))) then
    some (stDenied, 96)
  else if (recFind s n d.id).isSome then some (stDenied, 0)
  else if s.clx.aborted.any (fun a => decide (a.1 = r.pitch) && decide (a.2.1 = d.id) && decide (s.now < a.2.2 + 1000000000)) then some (stSessFailed, 0)
  else if 128 ≤ s.clx.recs.length ∨ (d.exact ∧ 16777216 < stagingUsed s + 2 * stageBytes d) then some (stRetry, no)
  else none

def openDeny (s : State) (r : Req) (status field : Nat) (payload : List Byte) : State :=
  answer (bump s .clxOpenRefused 0 0 r.pitch.toNat) r status (if payload.isEmpty then beBytes 4 field else payload)

/-- Accept a COLL_OPEN (R259, R260): the record, its windows, its first chunks. -/
def openAccept (s : State) (r : Req) (d : CollDesc) : State :=
  let slot := ((upto 128).find? (fun i => (tfind s.clx.recs i).isNone)).getD 0
  let wait := match d.start with
    | some t => decide (cd10Total s < t)
    | none => false
  let rec_ : CollRec :=
    { slot := slot, pitch := r.pitch, context := r.context, opener := r.endpoint, desc := d,
      state := if wait then .waiting else .running, accepted := s.now }
  let s1 := clxWindows (recPut s slot rec_) (slot % 16)
  openMore (answer (bump s1 .clxOpen 0 0 r.pitch.toNat) r stOk (beBytes 4 d.id)) slot

/-- COLL_OPEN (R259). -/
def collOpenReq (s : State) (op : Byte) (f : RxFrame) : State :=
  withRequest s op f (fun s r =>
    let d := readColl r.payload
    let no : Nat := 0xFFFFFFFF
    let flaw := if r.payload.length < 104 then none else (openFlaws r.payload).find? (·.2)
    if flagMisuse s r then openDeny s r stUnsupported no []
    else if let some e := flaw then openDeny s r stUnsupported e.1 []
    else if !permitted s r then openDeny s r stDenied no []
    else if let some e := openLen r d then openDeny s r stLength e []
    else if !d.exact ∧ d.workBase % 65536 ≠ 0 then openDeny s r stAlign 72 []
    else if d.destBase % 64 ≠ 0 then openDeny s r stAlign 88 []
    else
      match pitchCheck s r with
      | some (st, pay) => openDeny s r st no pay
      | none =>
        match openRefusal s r d with
        | some (st, field) => openDeny s r st field (if st = stDclass then beBytes 8 s.clx.dclass.toNat else [])
        | none => openAccept s r d)

/-! ## Data frames (R264) -/

/-- Numbers of a unit as a frame encodes it. -/
def collElems (k : Nat) (bs : List Byte) : List Nat := (elems k bs).map leNat

/-- The work region's lines are written by CLX when a chunk's operands first wait there: what they hold is
left open (R263, log 20). A bad line fails the record (R273). -/
def touchWork (s : State) (ix k : Nat) : State :=
  let r := recGet s ix
  let d := r.desc
  let w := workSlots d
  if d.exact ∨ w = 0 ∨ d.workSize = 0 then s
  else
    let size := w * (262144 / typeBytes d.inT)
    let per := max 1 (d.workSize / size)
    match masterRange s r.pitch.toNat (d.workBase + k % per * size) size with
    | .inl _ => failRec s ix 6 none
    | .inr ps =>
      match firstFault s (pieceLines ps) with
      | some (l, v) => failRec (badLine s l r.pitch.toNat v) ix 7 none
      | none => foldS (pieceLines ps) s (fun s l =>
          let v := draw s
          lineWrite v.2 r.pitch.toNat r.context l (leBytes 64 v.1.toNat))

/-- Take one unit of an accepted operand frame; a unit received already is ignored. -/
def takeUnit (s : State) (ix : Nat) (child : Bool) (who op : Nat) (e : Nat × List Byte) : State :=
  let r := recGet s ix
  let d := r.desc
  let u := e.1
  let k := u / 256
  let c := chunkGet r k
  if !collOpen r ∨ (u, child, who) ∈ c.seen then s
  else
    let s1 := if c.seen.isEmpty then touchWork s ix k else s
    if !collOpen (recGet s1 ix) then s1
    else
      let seen := (u, child, who) :: c.seen
      if d.exact then
        let xs : List ExAcc :=
          if op = 0x51 then (collElems (typeBytes d.inT) e.2).map (fun x => accOfNum d.inT (decodeT d.inT x))
          else (collElems (accBytes d.inT) e.2).map (accOfBits d.inT)
        let new := match tfind c.exact u with
          | some old => (old.zip xs).map (fun p => accAdd p.1 p.2)
          | none => xs
        chunkPut s1 ix k { c with seen := seen, exact := tins c.exact u new }
      else
        let xs := if op = 0x51 then (collElems (typeBytes d.inT) e.2).map (widenT d.inT) else collElems 4 e.2
        chunkPut s1 ix k { c with seen := seen, ops := { unit := u, child := child, who := who, vals := xs } :: c.ops }

/-- A 51h–53h frame that passed checks 1 to 13 (R264). -/
def collFrame (s : State) (r : Req) : State :=
  let n := r.pitch.toNat
  let op := r.op.toNat
  let a := r.address.toNat
  let id := a / 2 ^ 40
  let who := a / 2 ^ 24 % 65536
  let off := a % 2 ^ 24
  match recFind s n id with
  | none => answer (bump s .clxEarly 0 0 n) r stRetry []
  | some ix =>
    let rc := recGet s ix
    let d := rc.desc
    let ub := unitBytes d op
    let cnt := r.payload.length / max 1 ub
    let senderOk : Bool :=
      if op = 0x51 then
        decide (firstRank d ≤ who) && decide (who < firstRank d + localRanks d) &&
          decide (d.contrib[who - firstRank d]? = some r.endpoint)
      else if op = 0x52 then
        decide (who ∈ childChips d d.position) && ((neighAt d who).any (fun g => decide (g.endpoint = r.endpoint)))
      else decide (d.position ≠ 0) && ((neighAt d (parentOf d d.position)).any (fun g => decide (g.endpoint = r.endpoint)))
    let have_ (u : Nat) : Bool :=
      let c := chunkGet rc (u / 256)
      if op = 0x53 then c.resulted || (tfind c.result u).isSome else decide ((u, decide (op = 0x52), who) ∈ c.seen)
    let shut (u : Nat) : Bool := decide (rc.openTo ≤ u / 256) || (chunkGet rc (u / 256)).closed
    let us := (upto cnt).map (fun i => (off + i, (r.payload.drop (i * ub)).take ub))
    if rc.state = .failed then answer s r stSessFailed []
    else if !senderOk then answer s r stDenied []
    else if ub = 0 ∨ r.payload.length % max 1 ub ≠ 0 then answer s r stLength []
    else if unitCount d < off + cnt then answer s r stLength []
    else if have_ off then answer (bump s .clxDup 0 0 n) r stOk []
    else if op ≠ 0x53 ∧ us.any (fun u => shut u.1 && !have_ u.1) then answer (bump s .clxNotOpen 0 0 n) r stRetry []
    else
      let s1 := answer s r stOk []
      let ks := us.foldl (fun acc u => insertNat (u.1 / 256) acc) []
      if op = 0x53 then
        let s2 := foldS us s1 (fun s u =>
          let c := chunkGet (recGet s ix) (u.1 / 256)
          if c.resulted ∨ (tfind c.result u.1).isSome then s else chunkPut s ix (u.1 / 256) { c with result := tins c.result u.1 u.2 })
        foldS ks s2 (fun s k => chunkStep s ix k)
      else
        let s2 := foldS us (bumpN s1 .clxBytesIn 0 0 n r.payload.length) (fun s u => takeUnit s ix (decide (op = 0x52)) who op u)
        foldS ks s2 (fun s k => chunkStep s ix k)

/-- LENGTH of 51h–53h (R67, R83) and of 54h, 55h. -/
def collLenOk (r : Req) : Bool :=
  let l := r.length.toNat
  if r.op = 0x54 ∨ r.op = 0x55 then decide (l = 4) && decide (r.payload.length = 4)
  else decide (256 ≤ l) && decide (l ≤ 8192) && decide (l % 256 = 0) && decide (r.payload.length = l)

/-! ## COLL_CLOSE, COLL_QUERY (R260, R261, R273) -/

def collClose (s : State) (r : Req) : State :=
  let v := beAt r.payload 0 4
  let id := v % 2 ^ 24
  let abort := decide (2 ^ 31 ≤ v)
  let n := r.pitch.toNat
  let fromNeigh (rc : CollRec) : Bool := rc.desc.neigh.any (fun g => decide (g.endpoint = r.endpoint))
  match recFind s n id with
  | none =>
    if abort then
      -- an ABORT without a record is remembered for 1 s
      answer (clxMod s (fun c => { c with aborted := (r.pitch, id, s.now) :: c.aborted.filter (fun a => !(decide (a.1 = r.pitch) && decide (a.2.1 = id))) })) r stOk []
    else answer s r stSessFailed []
  | some ix =>
    let rc := recGet s ix
    if abort then
      let s1 := if fromNeigh rc then bump s .clxAbortRx 0 0 n else s
      answer (if fromNeigh rc then failRec s1 ix 4 (some r.endpoint) else failRec s1 ix 3 none) r stOk []
    else if collOpen rc then
      (if 64 ≤ rc.closes.length then answer s r stRetry []
       else markWindow (recPut s ix { rc with closes := rc.closes ++ [r] }) r)
    else
      let s1 := answer s r (if rc.state = .done then stOk else stSessFailed) []
      if r.endpoint = rc.opener then freeRec s1 ix else s1

def collQuery (s : State) (r : Req) : State :=
  match recFind s r.pitch.toNat (beAt r.payload 0 4 % 2 ^ 24) with
  | none => answer s r stOk (zeros 8)
  | some ix =>
    let rc := recGet s ix
    answer s r stOk (beBytes 4 (collCode rc.state + rc.cause * 256) ++ beBytes 4 rc.done)

/-- A collective request other than COLL_OPEN. -/
def collRequest (s : State) (op : Byte) (f : RxFrame) : State :=
  withRequest s op f (fun s r =>
    checks s r (collLenOk r) true (fun s =>
      if op = 0x54 then collClose s r else if op = 0x55 then collQuery s r else collFrame s r))

/-! ## Events (R260, R266, R271 to R274) -/

/-- PTP time reaches START (R260). -/
def collStart (s : State) (ix : Nat) : State :=
  match tfind s.clx.recs ix with
  | none => s
  | some r =>
    match r.state, r.desc.start with
    | .waiting, some t =>
      let s1 := cd10To s t
      stepAll (recPut s1 ix { r with state := .running }) ix
    | _, _ => s

/-- The slot START + k · PERIOD arrives (R271). -/
def collPace (s : State) (ix k : Nat) : State :=
  match tfind s.clx.recs ix with
  | none => s
  | some r =>
    match r.state, r.desc.start with
    | .running, some t => chunkStep (cd10To s (t + k * r.desc.period)) ix k
    | _, _ => s

/-- A chunk is finished (R266): counted; the last one makes the record DONE. -/
def collFinished (s : State) (ix k : Nat) : State :=
  match tfind s.clx.recs ix with
  | none => s
  | some r =>
    let c := chunkGet r k
    if r.state = .running ∧ k < chunkCount r.desc ∧ !c.finished ∧ chunkDone r.desc c then
      let n := r.pitch.toNat
      let r1 := { r with done := r.done + 1, chunks := tins r.chunks k { c with finished := true } }
      let s1 := bump (recPut s ix r1) .clxChunks 0 0 n
      if r1.done = chunkCount r.desc then
        let r2 := { r1 with state := .done, ended := s.now }
        answerCloses (traceColl (bump (recPut s1 ix r2) .clxDone 0 0 n) r2) ix
      else s1
    else s

/-- The deadline of a record (R271, R273, R274): a chunk that finishes in the same cycle counts first. -/
def collDeadline (s : State) (ix : Nat) : State :=
  match tfind s.clx.recs ix with
  | none => s
  | some r =>
    match r.desc.deadline with
    | none => s
    | some dl =>
      if !collOpen r then s
      else
        let s1 := match r.desc.start with
          | some t => cd10To s (t + dl)
          | none => nowTo s (r.accepted + dl)
        let s2 := foldS (upto (chunkCount r.desc)) s1 (fun s k => collFinished s ix k)
        failRec s2 ix 1 none

/-- 100 ms after its end a record is freed (R260). -/
def collExpire (s : State) (ix : Nat) : State :=
  match tfind s.clx.recs ix with
  | none => s
  | some r => if collOpen r then s else freeRec (nowTo s (r.ended + 100000000)) ix

/-- A remembered ID is forgotten 1 s after its ABORT (R273). -/
def collForgetId (s : State) (n : BitVec 8) (id : Nat) : State :=
  match s.clx.aborted.find? (fun a => decide (a.1 = n) && decide (a.2.1 = id)) with
  | none => s
  | some a => clxMod (nowTo s (a.2.2 + 1000000000)) (fun c => { c with aborted := c.aborted.filter (fun x => !(decide (x.1 = n) && decide (x.2.1 = id))) })

/-- A frame of a chunk was acknowledged (R263, R266). -/
def collAcked (s : State) (id : Nat) (n : BitVec 8) (k : Nat) (op : Byte) : State :=
  match recFind s n.toNat id with
  | none => s
  | some ix =>
    let c := chunkGet (recGet s ix) k
    let c1 := if op = 0x52 then { c with parts := c.parts - 1 } else { c with down := c.down - 1 }
    if collOpen (recGet s ix) then chunkStep (chunkPut s ix k c1) ix k else s

/-- A 52h or 53h of a record failed, or was answered SESSION_FAILED (R273). -/
def collSendFailed (s : State) (id : Nat) (n : BitVec 8) : State :=
  match recFind s n.toNat id with
  | none => s
  | some ix => failRec s ix 5 none

end Sys2Proof.Machine
end

