-- ==== Sys2Proof/WellFormed.lean ====
section
/-! DEFINITION. Which commands are well formed: the static limits that R314, R320, R323, R326 and R329 put on the
fields of grid slot instructions. Every other command is well formed with any operands. -/
namespace Sys2Proof

/-- Width in bits of a VC type code (R320). -/
def typeBits (t : Nat) : Nat :=
  if t = 0 ∨ t = 6 then 32 else if t = 1 ∨ t = 2 ∨ t = 7 then 16 else if t = 5 then 4 else 8

/-- Is a VC type code a floating-point type? -/
def typeIsFp (t : Nat) : Bool := decide (t ≤ 5)

/-- VCVT's fields (R326): defined types, a defined ratio, PART, RM and SAT as the conversion allows. -/
def vcvtOk (src dst rm part : Nat) (sat : Bool) : Bool :=
  let a := typeBits src
  let b := typeBits dst
  decide (src ≤ 8) && decide (dst ≤ 8) && decide (dst ≠ 5) && decide (rm ≤ 3) &&
    (decide (a = b) || decide (a = 2 * b) || decide (a = 4 * b) || decide (b = 2 * a) || decide (b = 4 * a)) &&
    (decide (a ≠ b) || decide (part = 0)) &&
    (!sat || (decide (b < a) && typeIsFp dst)) &&
    (!(decide (a < b) && typeIsFp src && typeIsFp dst) || decide (rm = 0))

/-- The check of a command's fields. -/
def wellFormed : Instr → Bool
  | .vadd _ _ _ _ _ ty => decide (ty.toNat ≤ 2)
  | .vsub _ _ _ _ _ ty => decide (ty.toNat ≤ 2)
  | .vmul _ _ _ _ _ ty => decide (ty.toNat ≤ 2)
  | .vfma _ _ _ _ _ ty => decide (ty.toNat ≤ 2)
  | .vfms _ _ _ _ _ ty => decide (ty.toNat ≤ 2)
  | .vmin _ _ _ _ _ ty => decide (ty.toNat ≤ 2)
  | .vmax _ _ _ _ _ ty => decide (ty.toNat ≤ 2)
  | .vabs _ _ _ _ ty => decide (ty.toNat ≤ 2)
  | .vneg _ _ _ _ ty => decide (ty.toNat ≤ 2)
  | .vrsum _ _ _ _ ty => decide (ty.toNat ≤ 2)
  | .viadd _ _ _ _ _ ty => decide (3 ≤ ty.toNat ∧ ty.toNat ≤ 5)
  | .visub _ _ _ _ _ ty => decide (3 ≤ ty.toNat ∧ ty.toNat ≤ 5)
  | .vand _ _ _ _ _ ty => decide (3 ≤ ty.toNat ∧ ty.toNat ≤ 5)
  | .vor _ _ _ _ _ ty => decide (3 ≤ ty.toNat ∧ ty.toNat ≤ 5)
  | .vxor _ _ _ _ _ ty => decide (3 ≤ ty.toNat ∧ ty.toNat ≤ 5)
  | .vshl _ _ _ _ _ ty => decide (3 ≤ ty.toNat ∧ ty.toNat ≤ 5)
  | .vshr _ _ _ _ _ ty => decide (3 ≤ ty.toNat ∧ ty.toNat ≤ 5)
  | .vsra _ _ _ _ _ ty => decide (3 ≤ ty.toNat ∧ ty.toNat ≤ 5)
  | .vimin _ _ _ _ _ ty => decide (3 ≤ ty.toNat ∧ ty.toNat ≤ 5)
  | .vimax _ _ _ _ _ ty => decide (3 ≤ ty.toNat ∧ ty.toNat ≤ 5)
  | .vcmpEq _ _ _ _ _ ty => decide (ty.toNat ≤ 5)
  | .vcmpNe _ _ _ _ _ ty => decide (ty.toNat ≤ 5)
  | .vcmpLt _ _ _ _ _ ty => decide (ty.toNat ≤ 5)
  | .vcmpLe _ _ _ _ _ ty => decide (ty.toNat ≤ 5)
  | .vsel _ _ _ _ _ ty => decide (ty.toNat ≤ 5)
  | .vbcast _ _ _ _ ty => decide (ty.toNat ≤ 5)
  | .vext _ _ _ _ ty => decide (ty.toNat ≤ 5)
  | .vcvt _ _ _ srcT dstT rm sat part => vcvtOk srcT.toNat dstT.toNat rm.toNat part.toNat sat
  | .vcvtSr _ _ _ dstT _ _ => decide (1 ≤ dstT.toNat ∧ dstT.toNat ≤ 4)
  | .vmx _ _ _ elt part _ => decide (3 ≤ elt.toNat ∧ elt.toNat ≤ 5) && (decide (elt.toNat = 5) || decide (part.toNat < 4))
  | .mxMul _ _ ty _ _ _ _ => decide (ty.toNat ≤ 5)
  | .stgIn _ sn => decide (sn.toNat ≤ 28)
  | .stgOut _ sn => decide (sn.toNat ≤ 28)
  | _ => true

end Sys2Proof
end

