-- ==== Sys2Proof/Machine/Bundle.lean ====
section
/-! DEFINITION. The slot encodings of a grid bundle (R313, R314, R320 to R323, R326, R329, R332, R335, R337, R339,
R340): from a slot's 32 bits to the command it stands for. -/
namespace Sys2Proof.Machine

/-- A field of a slot. -/
def sf (w : BitVec 32) (lo n : Nat) : Nat := bitsOf w lo n
def f3 (w : BitVec 32) (lo : Nat) : BitVec 3 := BitVec.ofNat 3 (sf w lo 3)
def f5 (w : BitVec 32) (lo : Nat) : BitVec 5 := BitVec.ofNat 5 (sf w lo 5)

/-- A reserved field must be 0. -/
def rsv0 (w : BitVec 32) (lo n : Nat) (i : Instr) : Option Instr := if sf w lo n = 0 then some i else none

/-- SALU by FUNC (R322). -/
def decSalu (c : BitVec 6) (w : BitVec 32) : Option Instr :=
  let sd := f5 w 21
  let sa := f5 w 16
  let sb := f5 w 11
  match sf w 0 11 with
  | 0x000 => some (.add c sd sa sb)
  | 0x001 => some (.sub c sd sa sb)
  | 0x002 => some (.and c sd sa sb)
  | 0x003 => some (.or c sd sa sb)
  | 0x004 => some (.xor c sd sa sb)
  | 0x005 => some (.shl c sd sa sb)
  | 0x006 => some (.shr c sd sa sb)
  | 0x007 => some (.sra c sd sa sb)
  | 0x008 => some (.min c sd sa sb)
  | 0x009 => some (.max c sd sa sb)
  | 0x00A => some (.minu c sd sa sb)
  | 0x00B => some (.maxu c sd sa sb)
  | 0x010 => some (.ceq c sd sa sb)
  | 0x011 => some (.cne c sd sa sb)
  | 0x012 => some (.clt c sd sa sb)
  | 0x013 => some (.cltu c sd sa sb)
  | 0x014 => some (.cle c sd sa sb)
  | 0x015 => some (.cleu c sd sa sb)
  | _ => none

/-- SMUL and SFP by FUNC (R321). -/
def decSmul (c : BitVec 6) (w : BitVec 32) : Option Instr :=
  match sf w 0 11 with
  | 0 => some (.mul c (f5 w 21) (f5 w 16) (f5 w 11))
  | 1 => some (.mulh c (f5 w 21) (f5 w 16) (f5 w 11))
  | 2 => some (.mulhu c (f5 w 21) (f5 w 16) (f5 w 11))
  | _ => none

def decSfp (c : BitVec 6) (w : BitVec 32) : Option Instr :=
  let sd := f5 w 21
  let sa := f5 w 16
  let sb := f5 w 11
  match sf w 0 11 with
  | 0x000 => some (.fadd c sd sa sb)
  | 0x001 => some (.fsub c sd sa sb)
  | 0x002 => some (.fmul c sd sa sb)
  | 0x003 => some (.fdiv c sd sa sb)
  | 0x004 => some (.fsqrt c sd sa)
  | 0x005 => some (.fmin c sd sa sb)
  | 0x006 => some (.fmax c sd sa sb)
  | 0x010 => some (.i2f c sd sa)
  | 0x011 => some (.f2i c sd sa)
  | _ => none

/-- The opcodes that slots S and X share (R321). -/
def decScalar (c : BitVec 6) (w : BitVec 32) : Option Instr :=
  let sd := f5 w 21
  let sa := f5 w 16
  let imm : BitVec 16 := BitVec.ofNat 16 (sf w 0 16)
  match sf w 26 6 with
  | 0x00 => rsv0 w 0 26 (.nop c)
  | 0x01 => decSalu c w
  | 0x04 => some (.addi c sd sa imm)
  | 0x05 => some (.andi c sd sa imm)
  | 0x06 => some (.ori c sd sa imm)
  | 0x07 => some (.xori c sd sa imm)
  | 0x08 => some (.lui c sd (BitVec.ofNat 21 (sf w 0 21)))
  | _ => none

/-- Slot S (R321). -/
def decS (c : BitVec 6) (w : BitVec 32) : Option Instr :=
  let off : BitVec 16 := BitVec.ofNat 16 (sf w 0 16)
  let sa := f5 w 21
  match sf w 26 6 with
  | 0x02 => decSmul c w
  | 0x03 => decSfp c w
  | 0x09 => some (.sld c sa (f5 w 16) off)
  | 0x0A => some (.sst c sa (f5 w 16) off)
  | 0x10 => rsv0 w 16 10 (.br c off)
  | 0x11 => rsv0 w 16 5 (.bz c sa off)
  | 0x12 => rsv0 w 16 5 (.bnz c sa off)
  | 0x13 => rsv0 w 16 5 (.bnzd c sa off)
  | 0x1F => rsv0 w 0 26 (.halt c)
  | _ => decScalar c w

/-- VFP by FN (R323). -/
def decVfp (c : BitVec 6) (w : BitVec 32) : Option Instr :=
  let vd := f5 w 21
  let va := f5 w 16
  let vb := f5 w 11
  let pg := f3 w 8
  let ty := f3 w 5
  match sf w 0 5 with
  | 0x00 => some (.vadd c vd va vb pg ty)
  | 0x01 => some (.vsub c vd va vb pg ty)
  | 0x02 => some (.vmul c vd va vb pg ty)
  | 0x03 => some (.vfma c vd va vb pg ty)
  | 0x04 => some (.vfms c vd va vb pg ty)
  | 0x05 => some (.vmin c vd va vb pg ty)
  | 0x06 => some (.vmax c vd va vb pg ty)
  | 0x07 => some (.vabs c vd va pg ty)
  | 0x08 => some (.vneg c vd va pg ty)
  | 0x09 => if ty = 0 then some (.vdiv c vd va vb pg) else none
  | 0x0A => if ty = 0 then some (.vsqrt c vd va pg) else none
  | 0x0B => some (.vrsum c vd va pg ty)
  | _ => none

/-- VINT by FN. -/
def decVint (c : BitVec 6) (w : BitVec 32) : Option Instr :=
  let vd := f5 w 21
  let va := f5 w 16
  let vb := f5 w 11
  let pg := f3 w 8
  let ty := f3 w 5
  match sf w 0 5 with
  | 0x00 => some (.viadd c vd va vb pg ty)
  | 0x01 => some (.visub c vd va vb pg ty)
  | 0x02 => some (.vand c vd va vb pg ty)
  | 0x03 => some (.vor c vd va vb pg ty)
  | 0x04 => some (.vxor c vd va vb pg ty)
  | 0x05 => some (.vshl c vd va vb pg ty)
  | 0x06 => some (.vshr c vd va vb pg ty)
  | 0x07 => some (.vsra c vd va vb pg ty)
  | 0x08 => some (.vimin c vd va vb pg ty)
  | 0x09 => some (.vimax c vd va vb pg ty)
  | _ => none

/-- VCMP, VPRED and VTR by FN. -/
def decVcmp (c : BitVec 6) (w : BitVec 32) : Option Instr :=
  let pd := f3 w 21
  if sf w 24 2 ≠ 0 then none
  else match sf w 0 5 with
    | 0 => some (.vcmpEq c pd (f5 w 16) (f5 w 11) (f3 w 8) (f3 w 5))
    | 1 => some (.vcmpNe c pd (f5 w 16) (f5 w 11) (f3 w 8) (f3 w 5))
    | 2 => some (.vcmpLt c pd (f5 w 16) (f5 w 11) (f3 w 8) (f3 w 5))
    | 3 => some (.vcmpLe c pd (f5 w 16) (f5 w 11) (f3 w 8) (f3 w 5))
    | _ => none

def decVpred (c : BitVec 6) (w : BitVec 32) : Option Instr :=
  let pd := f3 w 21
  let pa := f3 w 16
  let pb := f3 w 11
  if sf w 24 2 ≠ 0 ∨ sf w 19 2 ≠ 0 ∨ sf w 14 2 ≠ 0 ∨ sf w 5 6 ≠ 0 then none
  else match sf w 0 5 with
    | 0 => some (.pand c pd pa pb)
    | 1 => some (.por c pd pa pb)
    | 2 => some (.pxor c pd pa pb)
    | 3 => some (.pnot c pd pa)
    | _ => none

def decVtr (c : BitVec 6) (w : BitVec 32) : Option Instr :=
  if sf w 5 3 ≠ 0 then none
  else match sf w 0 5 with
    | 0 => some (.vtrRcp c (f5 w 21) (f5 w 16) (f3 w 8))
    | 1 => some (.vtrRsq c (f5 w 21) (f5 w 16) (f3 w 8))
    | 2 => some (.vtrExp2 c (f5 w 21) (f5 w 16) (f3 w 8))
    | 3 => some (.vtrLog2 c (f5 w 21) (f5 w 16) (f3 w 8))
    | _ => none

/-- VCVT (R326): RM 100b, stochastic, is defined for SRC FP32 alone. -/
def decVcvt (c : BitVec 6) (w : BitVec 32) : Option Instr :=
  let src : BitVec 4 := BitVec.ofNat 4 (sf w 12 4)
  let dst : BitVec 4 := BitVec.ofNat 4 (sf w 8 4)
  let sat := sf w 4 1 = 1
  let part : BitVec 2 := BitVec.ofNat 2 (sf w 2 2)
  if sf w 0 2 ≠ 0 then none
  else if sf w 5 3 = 4 then (if src = 0 then some (.vcvtSr c (f5 w 21) (f5 w 16) dst sat part) else none)
  else some (.vcvt c (f5 w 21) (f5 w 16) src dst (f3 w 5) sat part)

/-- Slots V0 and V1 (R323). -/
def decV (c : BitVec 6) (w : BitVec 32) : Option Instr :=
  let off : BitVec 13 := BitVec.ofNat 13 (sf w 0 13)
  match sf w 26 6 with
  | 0x00 => rsv0 w 0 26 (.nop c)
  | 0x01 => decVfp c w
  | 0x02 => decVint c w
  | 0x03 => decVcmp c w
  | 0x04 => rsv0 w 0 5 (.vsel c (f5 w 21) (f5 w 16) (f5 w 11) (f3 w 8) (f3 w 5))
  | 0x05 => decVpred c w
  | 0x06 => if sf w 11 5 = 0 then rsv0 w 0 5 (.vbcast c (f5 w 21) (f5 w 16) (f3 w 8) (f3 w 5)) else none
  | 0x07 => if sf w 8 3 = 0 then rsv0 w 0 5 (.vext c (f5 w 21) (f5 w 16) (f5 w 11) (f3 w 5)) else none
  | 0x08 => decVtr c w
  | 0x0C => decVcvt c w
  | 0x0D => rsv0 w 0 4 (.vmx c (f5 w 21) (f5 w 16) (BitVec.ofNat 4 (sf w 12 4)) (f3 w 9) (f5 w 4))
  | 0x10 => rsv0 w 13 3 (.vld c (f5 w 21) (f5 w 16) off .good)
  | 0x11 => some (.vst c (f5 w 21) (f5 w 16) (f3 w 13) off)
  | _ => none

/-- Slot X (R321, R334 to R340). -/
def decX (c : BitVec 6) (w : BitVec 32) : Option Instr :=
  let q : BitVec 2 := BitVec.ofNat 2 (sf w 19 2)
  match sf w 26 6 with
  | 0x20 => rsv0 w 0 7 (.send c (f5 w 21) q (BitVec.ofNat 12 (sf w 7 12)))
  | 0x21 => rsv0 w 0 17 (.recv c (f5 w 21) q (BitVec.ofNat 2 (sf w 17 2)))
  | 0x28 => rsv0 w 0 4 (.mxMul c (f3 w 23) (f3 w 20) (decide (sf w 19 1 = 1)) (f5 w 14) (f5 w 9) (f5 w 4))
  | 0x29 => rsv0 w 0 12 (.accRd c (f5 w 21) (f3 w 18) (f5 w 13) (decide (sf w 12 1 = 1)))
  | 0x2A => rsv0 w 0 12 (.accWr c (f5 w 21) (f3 w 18) (f5 w 13) (decide (sf w 12 1 = 1)))
  | 0x2B => rsv0 w 0 23 (.accZero c (f3 w 23))
  | 0x30 => rsv0 w 0 21 (.stgIn c (f5 w 21))
  | 0x31 => rsv0 w 0 21 (.stgOut c (f5 w 21))
  | 0x38 => rsv0 w 16 10 (.gateT c (BitVec.ofNat 16 (sf w 0 16)))
  | 0x39 => rsv0 w 0 16 (.gateC c (f5 w 21) (f5 w 16))
  | _ => decScalar c w

/-- Does a slot instruction access hold (R332)? -/
def holdAccess : Instr → Bool
  | .sld _ _ _ _ => true
  | .sst _ _ _ _ => true
  | .vld _ _ _ _ _ => true
  | .vst _ _ _ _ _ => true
  | _ => false

/-- The four slot commands of a bundle in bundle order, or none for a reserved encoding: a slot that does not
decode, fields that are not well formed, more than two hold accesses (R314, R332). -/
def decBundle (c : BitVec 6) (b : BitVec 128) : Option (List Instr) :=
  let slot (i : Nat) : BitVec 32 := BitVec.ofNat 32 (bitsOf b (32 * i) 32)
  match decS c (slot 0), decV c (slot 1), decV c (slot 2), decX c (slot 3) with
  | some s, some v0, some v1, some x =>
    let l := [s, v0, v1, x]
    if l.all wellFormed ∧ (l.filter holdAccess).length ≤ 2 then some l else none
  | _, _, _, _ => none

/-- The bundle read past CODE_LEN: HALT in slot S (R313). -/
def haltBundle : BitVec 128 := 0x1F * 0x4000000

end Sys2Proof.Machine
end

