-- ==== Sys2Proof/Machine/GridCore.lean ====
section
/-! DEFINITION. What a grid slot instruction does: registers, predicates, hold, the net, the matrix class, stage
commands and gates (R298, R310 to R342). -/
namespace Sys2Proof.Machine

/-! ## Registers of a core (R310, R311) -/

/-- The RUNNING session whose core it is, unless the core halted in an earlier cycle. -/
def coreSess (s : State) (c : Nat) : Option Nat :=
  let awake (k : KSess) : Bool := match (coreGet s c).halted with
    | none => true
    | some t => decide (t = k.cycles)
  (s.grd.sess.find? (fun e => decide (e.2.state = .running) && decide (c ∈ e.2.cores) && awake e.2)).map (·.1)

def sReg (s : State) (c : Nat) (r : BitVec 5) : DWord := tget 0 (coreGet s c).s r.toNat
def vReg (s : State) (c : Nat) (r : BitVec 5) : BitVec 1024 := tget 0 (coreGet s c).v r.toNat
/-- p0 reads as all ones. -/
def pReg (s : State) (c : Nat) (r : BitVec 3) : BitVec 128 :=
  if r = 0 then BitVec.allOnes 128 else tget 0 (coreGet s c).p r.toNat

/-- A write that lands at the end of cycle t + L − 1 (R316). -/
def landIn (s : State) (ix c lat : Nat) (dest : LandTo) : State :=
  let k := sessGet s ix
  sessPut s ix { k with lands := k.lands ++ [{ at_ := k.cycles + lat - 1, core := c, dest := dest }] }

/-- A core fails its session (R305). -/
def coreFails (s : State) (ix c cause : Nat) : State := endSess s ix cause (some c) 0

/-- Run a slot instruction on a core of a RUNNING session; ill-formed fields are ILLEGAL (R314). -/
def slotOp (s : State) (core : BitVec 6) (i : Instr) (body : State → Nat → Nat → State) : State :=
  match coreSess s core.toNat with
  | none => s
  | some ix => if wellFormed i then body s ix core.toNat else coreFails s ix core.toNat 8

/-- A scalar result. -/
def sOp (s : State) (core : BitVec 6) (i : Instr) (lat : Nat) (sd : BitVec 5) (v : Nat → DWord) : State :=
  slotOp s core i (fun s ix c => landIn s ix c lat (.sreg sd.toNat (v c)))

/-! ## Scalar arithmetic (R321, R322, R324) -/

def boolD (b : Bool) : DWord := if b then 1 else 0
def shAmount (b : DWord) : Nat := b.toNat % 64

/-- FP32 in bits [31:0], bits [63:32] zero. -/
def fpD (x : Nat) : DWord := BitVec.ofNat 64 (x % 2 ^ 32)
def lo32 (x : DWord) : Nat := x.toNat % 2 ^ 32

def fminF (f : Fmt) (a b : Nat) : Nat := encodeF f (minNum (decodeF f a) (decodeF f b))
def fmaxF (f : Fmt) (a b : Nat) : Nat := encodeF f (maxNum (decodeF f a) (decodeF f b))
def subF (f : Fmt) (a b : Nat) : Nat := encodeF f (numAdd (decodeF f a) (numNeg (decodeF f b)))

/-! ## Vector elements (R310, R311, R320) -/

/-- Width in bytes of a VR type. -/
def tyBytes (ty : Nat) : Nat := if ty = 0 ∨ ty = 3 then 4 else if ty = 5 then 1 else 2
/-- Format of a VR floating-point type. -/
def tyFmt (ty : Nat) : Fmt := if ty = 0 then fp32 else if ty = 1 then bf16 else fp16

/-- Element e of `bits` bits. -/
def elAt (v : BitVec 1024) (bits e : Nat) : Nat := (v.toNat >>> (bits * e)) % 2 ^ bits
def elCount (bits : Nat) : Nat := 1024 / bits
def elList (v : BitVec 1024) (bits : Nat) : List Nat := (upto (elCount bits)).map (elAt v bits)

/-- A vector from its elements, the first lowest. -/
def vecOf (bits : Nat) : List Nat → Nat
  | [] => 0
  | a :: t => a % 2 ^ bits + 2 ^ bits * vecOf bits t

/-- Is element e of w bytes governed (R311)? -/
def governed (p : BitVec 128) (w e : Nat) : Bool := p.getLsbD (w * e)

/-- The bits of the governed elements. -/
def govMask (p : BitVec 128) (w : Nat) : BitVec 1024 :=
  BitVec.ofNat 1024 (vecOf (8 * w) ((upto (128 / w)).map (fun e => if governed p w e then 2 ^ (8 * w) - 1 else 0)))

/-- An element-wise result of a predicated instruction. -/
def vOp (s : State) (core : BitVec 6) (i : Instr) (lat : Nat) (vd : BitVec 5) (pg : BitVec 3) (w : Nat)
    (f : State → Nat → Nat → Nat) : State :=
  slotOp s core i (fun s ix c =>
    let r := BitVec.ofNat 1024 (vecOf (8 * w) ((upto (128 / w)).map (f s c)))
    landIn s ix c lat (.vreg vd.toNat (govMask (pReg s c pg) w) r))

/-- Two-operand floating point in a format, element by element. -/
def vFp2 (s : State) (core : BitVec 6) (i : Instr) (vd va vb : BitVec 5) (pg : BitVec 3) (ty : BitVec 3)
    (f : Fmt → Nat → Nat → Nat) : State :=
  let w := tyBytes ty.toNat
  vOp s core i 4 vd pg w (fun s c e => f (tyFmt ty.toNat) (elAt (vReg s c va) (8 * w) e) (elAt (vReg s c vb) (8 * w) e))

/-- One-operand FP32 with a latency. -/
def vFp1 (s : State) (core : BitVec 6) (i : Instr) (lat : Nat) (vd va : BitVec 5) (pg : BitVec 3) (f : Nat → Nat) : State :=
  vOp s core i lat vd pg 4 (fun s c e => f (elAt (vReg s c va) 32 e))

/-- Two-operand integer on elements of `w` bytes. -/
def vInt2 (s : State) (core : BitVec 6) (i : Instr) (vd va vb : BitVec 5) (pg : BitVec 3) (ty : BitVec 3)
    (f : Nat → Nat → Nat → Nat) : State :=
  let w := tyBytes ty.toNat
  vOp s core i 1 vd pg w (fun s c e => f (8 * w) (elAt (vReg s c va) (8 * w) e) (elAt (vReg s c vb) (8 * w) e))

/-- A compare: the predicate bits of governed elements, all others 0 (R323). Integers compare as signed. -/
def vCmp (s : State) (core : BitVec 6) (i : Instr) (pd : BitVec 3) (va vb : BitVec 5) (pg ty : BitVec 3)
    (f : Option Int → Bool) : State :=
  slotOp s core i (fun s ix c =>
    let t := ty.toNat
    let w := tyBytes t
    let cmp (a b : Nat) : Option Int :=
      if t ≤ 2 then
        (if isNanF (tyFmt t) a ∨ isNanF (tyFmt t) b then none else some (cmpNum (decodeF (tyFmt t) a) (decodeF (tyFmt t) b)))
      else some (signedOf (8 * w) a - signedOf (8 * w) b)
    let p := pReg s c pg
    let r := vecOf w ((upto (128 / w)).map (fun e =>
      if governed p w e ∧ f (cmp (elAt (vReg s c va) (8 * w) e) (elAt (vReg s c vb) (8 * w) e)) then 2 ^ w - 1 else 0))
    landIn s ix c 1 (.pred pd.toNat (BitVec.ofNat 128 r)))

/-- A predicate operation (R323). -/
def pOp (s : State) (core : BitVec 6) (i : Instr) (pd : BitVec 3) (f : State → Nat → BitVec 128) : State :=
  slotOp s core i (fun s ix c => landIn s ix c 1 (.pred pd.toNat (f s c)))

/-! ## Hold (R298, R332, R333) -/

def holdSize : Nat := 0x180000

/-- A pending range that an access meets (R298): any access for a stage-in, a write for a stage-out. -/
def hazard (k : KSess) (quad target lo len : Nat) (write : Bool) : Bool :=
  k.pend.any (fun p => decide (p.quad = quad) && decide (p.target = target) && decide (p.loc < lo + len) &&
    decide (lo < p.loc + p.len) && (write || !p.out))

/-- Run a hold access of `len` bytes at an address whose low bits are cleared: HAZARD on a pending range, counted
and harmless beyond the end. -/
def holdOp (s : State) (ix c a len : Nat) (write : Bool) (body : State → State) (outside : State → State) : State :=
  let k := sessGet s ix
  if holdSize ≤ a then outside (bump s .grdHoldOor 0 0 k.pitch.toNat)
  else if hazard k (quadOf c) (coreIn c) a len write then coreFails s ix c 9
  else body s

def holdBytes (s : State) (c a : Nat) (n : Nat) : List Byte := (upto n).map (fun i => tget 0 (coreGet s c).hold (a + i))

/-- Address of SLD and SST. -/
def sAddr (s : State) (c : Nat) (sa : BitVec 5) (imm : BitVec 16) : Nat := (sReg s c sa + imm.signExtend 64).toNat / 8 * 8
/-- Row of VLD and VST. -/
def vAddr (s : State) (c : Nat) (sa : BitVec 5) (off : BitVec 13) : Nat :=
  (sReg s c sa + off.signExtend 64 * 128).toNat / 128 * 128

/-! ## Branches (R318) -/

/-- A branch taken to PC + OFF16. -/
def branchTo (s : State) (c : Nat) (off : BitVec 16) : State :=
  let k := coreGet s c
  corePut s c { k with target := some ((k.pc : Int) + off.toInt).toNat }

/-- Does a branch's target lie outside 0 to 16,383 (R314)? -/
def branchOut (s : State) (c : Nat) (off : BitVec 16) : Bool :=
  let t := ((coreGet s c).pc : Int) + off.toInt
  decide (t < 0) || decide (16383 < t)

def branchOp (s : State) (core : BitVec 6) (i : Instr) (off : BitVec 16) (taken : Nat → Bool) (also : State → Nat → Nat → State) : State :=
  slotOp s core i (fun s ix c =>
    if branchOut s c off then coreFails s ix c 8
    else
      let s1 := also s ix c
      if taken c then branchTo s1 c off else s1)

/-! ## The grid net (R334 to R336) -/

/-- Core rank in its session. -/
def rankOfCore (k : KSess) (c : Nat) : Nat := (k.cores.idxOf c)

/-- Neighbour of a core in a direction. -/
def stepDir (c d : Nat) : Nat :=
  let x := coreX c
  let y := coreY c
  if d = 0 then coreAt (x + 1) y else if d = 1 then coreAt (x - 1) y else if d = 2 then coreAt x (y + 1) else coreAt x (y - 1)

def quarter (v : BitVec 1024) (q : Nat) : BitVec 256 := BitVec.ofNat 256 (v.toNat >>> (256 * q))
def quarterMask (q : Nat) : BitVec 1024 := BitVec.ofNat 1024 ((2 ^ 256 - 1) <<< (256 * q))

def sendOp (s : State) (core : BitVec 6) (i : Instr) (vs : BitVec 5) (q : BitVec 2) (route : BitVec 12) : State :=
  slotOp s core i (fun s ix c =>
    let k := sessGet s ix
    match k.routes[route.toNat]? with
    | some r =>
      if r.src ≠ rankOfCore k c then coreFails s ix c 8
      else
        let f : Flit := { at_ := c, hops := r.hops, data := quarter (vReg s c vs) q.toNat }
        bump (sessPut s ix { k with flits := k.flits ++ [f] }) .grdNetFlits 0 0 k.pitch.toNat
    | none => coreFails s ix c 8)

def recvOp (s : State) (core : BitVec 6) (i : Instr) (vd : BitVec 5) (q : BitVec 2) (dir : BitVec 2) : State :=
  slotOp s core i (fun s ix c =>
    let k := coreGet s c
    match tfind k.rx dir.toNat with
    | none => coreFails s ix c 4
    | some d =>
      let s1 := corePut s c { k with taken := dir.toNat :: k.taken }
      landIn s1 ix c 1 (.vreg vd.toNat (quarterMask q.toNat) (BitVec.ofNat 1024 (d.toNat <<< (256 * q.toNat)))))

/-! ## Conversion (R326 to R329) -/

/-- Part `i` of a vector cut into parts of `bits` bits. -/
def partMask (bits i : Nat) : BitVec 1024 := BitVec.ofNat 1024 ((2 ^ bits - 1) <<< (bits * i))

/-- Code of a floating-point VC type among the types of R250; integers have none. -/
def isIntType (t : Nat) : Bool := decide (6 ≤ t)

/-- One converted element; `left` stands where the spec states no result: an integer outside the range of a
narrower integer type (log 21). -/
def cvtEl (src dst mode : Nat) (sat : Bool) (left x : Nat) : Nat :=
  let a := typeBits src
  let b := typeBits dst
  let num : Num := if isIntType src then numOfInt (signedOf a x) else decodeT src x
  if isIntType dst then
    if isIntType src then
      let v := signedOf a x
      if -(2 ^ (b - 1) : Int) ≤ v ∧ v < 2 ^ (b - 1) then (v % (2 ^ b : Int)).toNat else left % 2 ^ b
    else (numToInt b mode num % (2 ^ b : Int)).toNat
  else (roundT dst mode sat num).1

/-- VCVT: elements, the part written and its mask. -/
def cvtOp (s : State) (core : BitVec 6) (i : Instr) (vd va : BitVec 5) (src dst mode : Nat) (sat : Bool) (part : Nat) : State :=
  slotOp s core i (fun s ix c =>
    let v := vReg s c va
    let a := typeBits src
    let b := typeBits dst
    let f := draw s
    let conv := cvtEl src dst mode sat f.1.toNat
    let xs := elList v a
    let open_ := isIntType src && isIntType dst && decide (b < a)
    let s1 := if open_ then f.2 else s
    if b < a then
      let k := a / b
      let p := part % k
      let bits := 1024 / k
      landIn s1 ix c 3 (.vreg vd.toNat (partMask bits p) (BitVec.ofNat 1024 (vecOf b (xs.map conv) <<< (bits * p))))
    else
      let k := b / a
      let n := elCount b
      landIn s1 ix c 3 (.vreg vd.toNat (BitVec.allOnes 1024)
        (BitVec.ofNat 1024 (vecOf b (((xs.drop (n * (part % k))).take n).map conv)))))

/-- The 16-bit random value of element e (R328). -/
def srValue (seed : DWord) (rank : Nat) (ctr : DWord) (e : Nat) : Nat :=
  let x := (philox seed rank (ctr + BitVec.ofNat 64 (e / 8))).getD (e % 8 / 2) 0
  if e % 2 = 0 then x % 65536 else x / 65536

def cvtSrOp (s : State) (core : BitVec 6) (i : Instr) (vd va : BitVec 5) (dst : Nat) (sat : Bool) (part : Nat) : State :=
  slotOp s core i (fun s ix c =>
    let k := sessGet s ix
    let cr := coreGet s c
    let b := typeBits dst
    let n := 32 / b
    let p := part % n
    let bits := 1024 / n
    let el (e : Nat) : Nat := roundSr dst sat (elAt (vReg s c va) 32 e) (srValue k.seed (rankOfCore k c) cr.srctr e)
    let s1 := bumpN (corePut s c { cr with srctr := cr.srctr + 4 }) .grdSrBlocks 0 0 k.pitch.toNat 4
    landIn s1 ix c 4 (.vreg vd.toNat (partMask bits p) (BitVec.ofNat 1024 (vecOf b ((upto 32).map el) <<< (bits * p)))))

def vmxOp (s : State) (core : BitVec 6) (i : Instr) (vd va : BitVec 5) (elt part : Nat) (sd : BitVec 5) : State :=
  slotOp s core i (fun s ix c =>
    let m := mxBlock elt ((elList (vReg s c va) 32).map (decodeF fp32))
    let bits := if elt = 5 then 128 else 256
    let v := leNat (packEls elt m.2)
    let s1 := landIn s ix c 6 (.vreg vd.toNat (partMask bits part) (BitVec.ofNat 1024 (v <<< (bits * part))))
    landIn s1 ix c 6 (.sreg sd.toNat (BitVec.ofNat 64 m.1)))

/-- VRSUM (R325): leaves that are not governed enter as −0. -/
def vrsumOp (s : State) (core : BitVec 6) (i : Instr) (vd va : BitVec 5) (pg ty : BitVec 3) : State :=
  slotOp s core i (fun s ix c =>
    let t := ty.toNat
    let w := tyBytes t
    let p := pReg s c pg
    let xs := (upto (128 / w)).map (fun e =>
      if governed p w e then widenT t (elAt (vReg s c va) (8 * w) e) else 0x80000000)
    let sum := (spanBy (addF fp32) (xs.length + 1) xs).getD 0
    let r := (roundT t 0 false (decodeF fp32 sum)).1
    landIn s ix c 8 (.vreg vd.toNat (BitVec.allOnes 1024) (BitVec.ofNat 1024 r)))

/-! ## Matrix class (R282, R283, R337, R338) -/

/-- Operand buffer bytes. -/
def opbufSize : Nat := 0x400000

/-- Grid cycles per 64 of K (R282). -/
def mxCost (ty : Nat) : Nat := if ty ≤ 1 then 64 else if ty ≤ 3 then 32 else if ty = 4 then 16 else 192

def mxCycles (m : MxCmd) : Nat := m.k / 64 * mxCost m.ty

/-- Bits of an operand element and bytes of an operand with its scales. -/
def mxBits (ty : Nat) : Nat := if ty ≤ 1 then 16 else if ty ≤ 3 then 8 else if ty = 4 then 4 else 32
def mxLen (m : MxCmd) : Nat := 64 * m.k * mxBits m.ty / 8 + (if m.ty = 4 then 64 * (m.k / 32) else 0)

/-- Does a matrix command read a byte of a pending range of its operand buffer? -/
def mxHazard (k : KSess) (quad : Nat) (m : MxCmd) : Bool :=
  let hit (base : Nat) : Bool :=
    let excess := base + mxLen m - opbufSize
    hazard k quad 4 base (min (mxLen m) (opbufSize - base)) false || (decide (0 < excess) && hazard k quad 4 0 excess false)
  hit m.a || hit m.b

/-- The session that holds an engine. -/
def engineSess (s : State) (quad : Nat) : Option Nat :=
  (s.grd.sess.find? (fun e => e.2.state = .running ∧ quad ∈ e.2.engines)).map (·.1)

/-- Run a matrix-class instruction: ILLEGAL without the engine (R314). -/
def mxOp (s : State) (core : BitVec 6) (i : Instr) (body : State → Nat → Nat → State) : State :=
  slotOp s core i (fun s ix c =>
    if (quadOf c) ∈ (sessGet s ix).engines then body s ix c else coreFails s ix c 8)

def mxMulOp (s : State) (core : BitVec 6) (i : Instr) (ad ty : Nat) (z : Bool) (sa sb sk : BitVec 5) : State :=
  mxOp s core i (fun s ix c =>
    let k := sessGet s ix
    let kk := (sReg s c sk).toNat % 256
    let m : MxCmd :=
      { acc := ad, ty := ty, zero := z, a := (sReg s c sa).toNat / 64 * 64 % opbufSize,
        b := (sReg s c sb).toNat / 64 * 64 % opbufSize, k := 64 * (if kk = 0 then 256 else kk), issued := k.cycles }
    if mxHazard k (quadOf c) m then coreFails s ix c 9
    else
      let q := quadGet s (quadOf c)
      quadPut s (quadOf c) { q with mx := q.mx ++ [m] })

/-- Byte of an operand buffer, addresses modulo 4 MiB. -/
def opByte (q : Quad) (a : Nat) : Nat := (tget 0 q.opbuf (a % opbufSize)).toNat

/-- Element kk of row or column i of an operand at `base`, as bits. -/
def mxEl (q : Quad) (ty k base i kk : Nat) : Nat :=
  let bits := mxBits ty
  let at_ := base + i * (k * bits / 8) + kk * bits / 8
  if bits = 4 then (opByte q at_ / 16 ^ (kk % 2)) % 16
  else (upto (bits / 8)).foldr (fun j acc => opByte q (at_ + j) + 256 * acc) 0

/-- E8M0 scale of a block: 2^(x − 127), FFh a NaN. -/
def e8m0 (x : Nat) : Num := if x = 255 then .nan else .fin false 1 ((x : Int) - 127)

/-- Exact values of a row or column of an operand. MXFP4 elements carry their block's scale. -/
def mxRow (q : Quad) (m : MxCmd) (base i : Nat) : List Num :=
  (upto m.k).map (fun kk =>
    let x := mxEl q m.ty m.k base i kk
    if m.ty = 0 then decodeT 1 x else if m.ty = 1 then decodeT 2 x else if m.ty = 2 then decodeT 3 x
    else if m.ty = 3 then decodeT 4 x
    else if m.ty = 4 then numMul (decodeT 5 x) (e8m0 (opByte q (base + 32 * m.k + i * (m.k / 32) + kk / 32)))
    else decodeF fp32 x)

/-- One output element (R283). -/
def mxElement (ty : Nat) (a b : List Num) (acc : Nat) : Nat :=
  let pass (x y : List Num) (acc : Nat) : Nat :=
    accGroups (x.length + 1) ((x.zip y).map (fun e => numMul e.1 e.2)) (if ty = 4 then 32 else 16) acc
  if ty = 5 then
    let sp (v : Num) : Num × Num := fp32Split (encodeF fp32 v)
    let ah := a.map (fun v => (sp v).1)
    let al := a.map (fun v => (sp v).2)
    let bh := b.map (fun v => (sp v).1)
    let bl := b.map (fun v => (sp v).2)
    pass ah bh (pass ah bl (pass al bh acc))
  else pass a b acc

/-- The accumulator that a command writes, from the one it reads. -/
def mxResult (q : Quad) (m : MxCmd) : List Word :=
  let bs := (upto 64).map (mxRow q m m.b)
  (upto 64).flatMap (fun i =>
    let a := mxRow q m m.a i
    (bs.zip (upto 64)).map (fun e =>
      let old := if m.zero then 0 else (tget 0 q.acc (4096 * m.acc + 64 * i + e.2)).toNat
      BitVec.ofNat 32 (mxElement m.ty a e.1 old)))

/-- The next command of an engine starts (R338): at t + 1, or when the one before it has run. -/
def mxStart (s : State) (quad : Nat) : State :=
  match engineSess s quad with
  | none => s
  | some ix =>
    let q := quadGet s quad
    let k := sessGet s ix
    match firstIdx (fun m => m.start.isNone) q.mx 0 with
    | none => s
    | some i =>
      let m := (q.mx[i]?).getD {}
      if max (m.issued + 1) q.busyTo ≤ k.cycles then
        if mxHazard k quad m then endSess s ix 9 none 0
        else quadPut s quad { q with mx := lset q.mx i { m with start := some k.cycles, result := mxResult q m },
                                     busyTo := k.cycles + mxCycles m }
      else s

/-- Commands whose cycle t0 + D + 39 has ended write their accumulators (R338). -/
def mxDone (s : State) (quad : Nat) : State :=
  match engineSess s quad with
  | none => s
  | some ix =>
    let q := quadGet s quad
    let now := (sessGet s ix).cycles
    let due (m : MxCmd) : Bool := match m.start with
      | some t => decide (t + mxCycles m + 40 ≤ now)
      | none => false
    let put (t : Tab Word) (m : MxCmd) : Tab Word :=
      (m.result.zip (upto 4096)).foldl (fun t e => tset 0 t (4096 * m.acc + e.2) e.1) t
    quadPut s quad { q with acc := (q.mx.filter due).foldl put q.acc, mx := q.mx.filter (fun m => !due m) }

/-- First element of half H of a row of an accumulator. -/
def accFirst (an : BitVec 3) (row : DWord) (h : Bool) : Nat := 4096 * an.toNat + 64 * (row.toNat % 64) + 32 * b2n h

/-! ## Stage commands (R295, R339) -/

/-- The descriptor of s[sn] to s[sn + 3], or none when a reserved bit is set. -/
def stageDesc (s : State) (c : Nat) (sn : BitVec 5) (out : Bool) : Option StageCmd :=
  let a := sReg s c sn
  let b := sReg s c (sn + 1)
  let d := sReg s c (sn + 2)
  let e := sReg s c (sn + 3)
  if bitsOf a 57 7 ≠ 0 ∨ bitsOf e 22 2 ≠ 0 ∨ bitsOf e 27 1 ≠ 0 ∨ bitsOf e 32 32 ≠ 0 then none
  else some { quad := quadOf c, out := out, base := a.toNat, rowLen := bitsOf b 0 32, rows := bitsOf b 32 32, stride := d.toNat,
              target := bitsOf e 24 3, loc := bitsOf e 0 22, tag := bitsOf e 28 4 }

/-- Local fields in range (R295). -/
def stageLocalOk (k : KSess) (d : StageCmd) : Bool :=
  let len := d.rows * d.rowLen
  decide (d.base % 64 = 0) && decide (64 ≤ d.rowLen) && decide (d.rowLen ≤ 65536) && decide (d.rowLen % 64 = 0) &&
    decide (1 ≤ d.rows) && decide (d.rows ≤ 4096) && decide (d.stride % 64 = 0) && decide (d.rowLen ≤ d.stride) &&
    decide (d.loc % 64 = 0) && decide (len ≤ 0x100000) &&
    (if d.target = 4 then !d.out && decide (d.quad ∈ k.engines) && decide (d.loc + len ≤ opbufSize)
     else decide (d.target < 4) && decide ((quadCore d.quad d.target) ∈ k.cores) && decide (d.loc + len ≤ holdSize))

/-- Does a session's window with the right hold the memory range (R295)? -/
def stageWindowOk (k : KSess) (d : StageCmd) : Bool :=
  let stop := d.base + (d.rows - 1) * d.stride + d.rowLen
  k.windows.any (fun w => (if d.out then w.w else w.r) && decide (w.first * 0x40000000 ≤ d.base) &&
    decide (stop ≤ (w.last + 1) * 0x40000000))

/-- STG.IN and STG.OUT: checked at issue, issued at the end of the cycle (R339). -/
def stageOp (s : State) (core : BitVec 6) (i : Instr) (sn : BitVec 5) (out : Bool) : State :=
  slotOp s core i (fun s ix c =>
    let k := sessGet s ix
    match stageDesc s c sn out with
    | none => coreFails s ix c 8
    | some d =>
      if !stageLocalOk k d then coreFails s ix c 8
      else if !stageWindowOk k d then endSess s ix 7 (some c) stDenied
      else sessPut s ix { k with issuing := k.issuing ++ [{ d with session := k.number }] })

/-! ## Gates (R296, R297, R340) -/

/-- Has a gate's condition come true? -/
def gateOpen (s : State) (k : KSess) : Gate → Bool
  | .tags need => need.all (fun e => decide (e.2 ≤ tget 0 k.completed e.1))
  | .coll id count =>
    match recFind s k.pitch.toNat id with
    | none => false
    | some ix =>
      let r := recGet s ix
      r.desc.toKernel && decide (r.desc.ksession = k.number) && decide (r.state ≠ .failed) && decide (count ≤ r.posted)

/-- A GATE.T that releases ends the pending ranges it names (R298). -/
def gateClears (k : KSess) : Gate → KSess
  | .tags need => { k with pend := k.pend.filter (fun p => !(need.any (fun e => decide (e.1 = p.tag) && decide (p.num < e.2)))) }
  | .coll _ _ => k

/-- A core comes to a gate: it passes at once or waits (R296, R297). -/
def gateOp (s : State) (ix c : Nat) (g : Gate) : State :=
  let k := sessGet s ix
  if gateOpen s k g then sessPut s ix (gateClears k g)
  else corePut s c { coreGet s c with gate := some g }

end Sys2Proof.Machine
end

