-- ==== Sys2Proof/Machine/Grid.lean ====
section
/-! DEFINITION. Kernel sessions: launch, load, session cycles, staging, ends and the kernel messages (R277 to R305). -/
namespace Sys2Proof.Machine

/-! ## Placement (R282, R286, R287) -/

/-- CORE_MASK with 0h read as Fh. -/
def coreMaskOf (lf : Nat) : Nat := if lf % 16 = 0 then 15 else lf % 16

def coreMaskOk (m : Nat) : Bool := decide (m ∈ [1, 2, 4, 8, 3, 12, 5, 10, 15])

/-- A rectangle of cores: lowest corner, width, height. -/
structure Rect where
  x0 : Nat := 0
  y0 : Nat := 0
  w : Nat := 0
  h : Nat := 0
deriving DecidableEq, Repr

/-- The quads of a mask as a rectangle in the 4 × 4 array (R286): lowest column and row, columns, rows. -/
def quadRect (mask : Nat) : Option Rect :=
  let qs := (upto 16).filter (fun q => mask.testBit q)
  match qs with
  | [] => none
  | _ =>
    let xs := qs.map (· % 4)
    let ys := qs.map (· / 4)
    let x0 := xs.foldl min 3
    let x1 := xs.foldl max 0
    let y0 := ys.foldl min 3
    let y1 := ys.foldl max 0
    if (x1 - x0 + 1) * (y1 - y0 + 1) = qs.length then some { x0 := x0, y0 := y0, w := x1 - x0 + 1, h := y1 - y0 + 1 } else none

/-- Cores of a launch as a rectangle. -/
def launchRect (quads mask : Nat) : Option Rect :=
  match quadRect quads with
  | none => none
  | some r =>
    if mask = 15 then some { x0 := 2 * r.x0, y0 := 2 * r.y0, w := 2 * r.w, h := 2 * r.h }
    else if r.w * r.h ≠ 1 then none
    else
      let is := (upto 4).filter (fun i => mask.testBit i)
      let i0 := is.foldl min 3
      some { x0 := 2 * r.x0 + i0 % 2, y0 := 2 * r.y0 + i0 / 2
             w := if mask = 3 ∨ mask = 12 then 2 else 1, h := if mask = 5 ∨ mask = 10 then 2 else 1 }

/-- Cores of a rectangle in rank order. -/
def rectCores (r : Rect) : List Nat :=
  (upto (r.w * r.h)).map (fun i => coreAt (r.x0 + i % r.w) (r.y0 + i / r.w))

/-- May a pitch launch on a quad (R287)? -/
def quadAllowed (s : State) (n q : Nat) : Bool :=
  if pWalled s n then (pGet s n).settings.quadMask.getLsbD q
  else !(s.pitches.any (fun e => decide (e.2.life ≠ .empty) && pWalled s e.1 && e.2.settings.quadMask.getLsbD q))

def placementOk (s : State) (n quads : Nat) (r : Rect) : Bool :=
  ((upto 16).filter (fun q => quads.testBit q)).all (fun q => quadAllowed s n q && serving (uAct s (uQuad q))) &&
    (rectCores r).all (fun c => decide (uAct s (uCore c) = .up))

/-- Quads whose matrix engine a launch will hold, and the cores reserved with them (R282). -/
def launchEngines (s : State) (mask : Nat) (matrix : Bool) (cores : List Nat) : List Nat × List Nat :=
  let quads := cores.foldl (fun acc c => insertNat (quadOf c) acc) []
  if mask = 15 then (quads.filter (fun q => serving (uAct s (uEngine q))), [])
  else
    let q := (quads.head?).getD 0
    let all := (upto 4).map (quadCore q)
    let rest := all.filter (fun c => c ∉ cores ∧ uAct s (uCore c) = .up)
    if matrix ∧ cores.length = 2 ∧ all.any (fun c => decide (uAct s (uCore c) = .retired)) ∧
       !(all.any (fun c => decide (c ∈ heldCores s))) ∧ serving (uAct s (uEngine q)) then ([q], rest)
    else ([], [])

/-! ## Kernel objects (R289, R334) -/

def leAt (bs : List Byte) (off n : Nat) : Nat := leNat ((bs.drop off).take n)

/-- The header's fixed tests that need no placement: magic, format, the library version, lengths. -/
def objHeadFits (lib : Nat) (bs : List Byte) : Bool :=
  decide (leAt bs 0 4 = 0x4B474F31) && decide (leAt bs 4 2 = 1) && decide (leAt bs 6 2 = lib) &&
    decide (1 ≤ leAt bs 8 1 ∧ leAt bs 8 1 ≤ 8) && decide (1 ≤ leAt bs 9 1 ∧ leAt bs 9 1 ≤ 8) && decide (leAt bs 10 2 ≤ 1) &&
    decide (leAt bs 12 4 % 64 = 0) && decide (256 ≤ leAt bs 12 4) && decide (leAt bs 12 4 ≤ 0x04000000) &&
    ((bs.take 256).drop 24).all (· = 0)

def objHeadOk (s : State) (bs : List Byte) : Bool := objHeadFits (bitsOf s.clx.dclass 24 16) bs

def objTotal (bs : List Byte) : Nat := leAt bs 12 4
def objMatrix (bs : List Byte) : Bool := decide (leAt bs 10 2 = 1)

/-- Code offset, code length, hold offset, hold length of a rank. -/
def objSection (bs : List Byte) (r : Nat) : Nat × Nat × Nat × Nat :=
  let o := 256 + 16 * r
  (leAt bs o 4, leAt bs (o + 4) 4, leAt bs (o + 8) 4, leAt bs (o + 12) 4)

/-- Sections and route table in bounds (R289). -/
def objSectionsOk (bs : List Byte) (ranks : Nat) : Bool :=
  let total := objTotal bs
  decide (256 + 16 * ranks ≤ total) && decide (leAt bs 16 4 % 64 = 0) && decide (leAt bs 20 4 ≤ 0x8000) &&
    decide (leAt bs 16 4 + leAt bs 20 4 ≤ total) &&
    (upto ranks).all (fun r =>
      let x := objSection bs r
      decide (x.1 % 64 = 0) && decide (x.2.1 % 16 = 0) && decide (16 ≤ x.2.1) && decide (x.2.1 ≤ 0x40000) &&
        decide (x.1 + x.2.1 ≤ total) && decide (x.2.2.1 % 64 = 0) && decide (x.2.2.2 % 128 = 0) &&
        decide (x.2.2.2 ≤ 0x180000) && decide (x.2.2.1 + x.2.2.2 ≤ total))

/-- A path stays in the rectangle (R280, R334). -/
def pathOk (w h : Nat) : Nat → Nat → List Nat → Bool
  | _, _, [] => true
  | x, y, d :: t =>
    if d = 0 then decide (x + 1 < w) && pathOk w h (x + 1) y t
    else if d = 1 then decide (0 < x) && pathOk w h (x - 1) y t
    else if d = 2 then decide (y + 1 < h) && pathOk w h x (y + 1) t
    else decide (0 < y) && pathOk w h x (y - 1) t

/-- The routes of an object, or none if an entry fails R334. -/
def objRoutes (bs : List Byte) (w h : Nat) : Option (List Route) :=
  let base := leAt bs 16 4
  let rs := (upto (leAt bs 20 4 / 8)).map (fun i =>
    let o := base + 8 * i
    let src := leAt bs o 1
    let hops := leAt bs (o + 1) 1
    let path := leAt bs (o + 2) 4
    let ds := (upto hops).map (fun j => path / 4 ^ j % 4)
    if src < w * h ∧ 1 ≤ hops ∧ hops ≤ 14 ∧ path < 2 ^ 28 ∧ leAt bs (o + 6) 2 = 0 ∧ pathOk w h (src % w) (src / w) ds then
      some ({ src := src, hops := ds } : Route)
    else none)
  if rs.all (·.isSome) then some (rs.filterMap id) else none

/-! ## The argument block (R288) -/

def argWindow (bs : List Byte) (i : Nat) : Nat × Nat × Nat := (leAt bs (16 * i) 2, leAt bs (16 * i + 2) 2, leAt bs (16 * i + 4) 1)

/-- Windows in use of an argument block, or none if it fails check 8. `all` says that all four may be used. -/
def argWindows (s : State) (n : Nat) (bs : List Byte) (all : Bool) : Option (List KWindow) :=
  let slots := (pGet s n).slots
  let ws := (upto 4).map (fun i => (i, argWindow bs i))
  let used := ws.filter (fun e => e.2.2.2 ≠ 0)
  let good := ws.all (fun e => decide (e.2.2.2 ≤ 3) && ((bs.drop (16 * e.1 + 5)).take 11).all (· = 0)) &&
    ((bs.drop 72).take 56).all (· = 0) &&
    used.all (fun e => (all || decide (e.1 = 0)) && decide (e.2.1 ≤ e.2.2.1) && decide (e.2.2.1 < 8192) &&
      (upto (e.2.2.1 - e.2.1 + 1)).all (fun i => (tfind slots (e.2.1 + i)).isSome))
  if good then some (used.map (fun e => { first := e.2.1, last := e.2.2.1, r := e.2.2.2.testBit 0, w := e.2.2.2.testBit 1 }))
  else none

/-! ## Launch (R290, R291) -/

/-- Bytes of an object from its start, or the status that ends the read. -/
def objRead (s : State) (n : Nat) (object : DWord) (len : Nat) : State × Sum Nat (List Byte) :=
  if bitOf object 63 then
    match tfind s.img.lib (bitsOf object 0 16) with
    | some bs => (s, .inr (bs.take len))
    | none => (s, .inl stDenied)
  else
    match masterRange s n (bitsOf object 0 57) len with
    | .inl st => (s, .inl st)
    | .inr ps => masterRead s n (svcClass s n false) ps

/-- Set the temporary windows of a load on the session's stage engines (R292 step 1). -/
def setSessWindows (s : State) (k : KSess) (ws : List KWindow) : State :=
  foldS (sessQuads k) s (fun s q =>
    setWindows s (4096 + q) (windowsOf s (4096 + q) ++ ws.map (fun w =>
      { pitch := k.pitch.toNat, r := w.r, w := w.w, first := w.first, last := w.last })))

/-- A launch enters LOADING (R291, R292). -/
def enterLoading (s : State) (ix : Nat) : State :=
  let k := { sessGet s ix with state := .loading }
  setSessWindows (sessPut s ix k) k k.windows

def coresFree (s : State) (k : KSess) : Bool :=
  let held := heldCores s
  (k.cores ++ k.reserved).all (fun c => decide (c ∉ held))

/-- The next session number (R284). -/
def nextNumber (s : State) : Nat → BitVec 16 → BitVec 16
  | 0, n => n
  | fuel + 1, n => if n = 0 ∨ (sessFind s n.toNat).isSome then nextNumber s fuel (n + 1) else n

/-- Orders 6 to 9 of a launch whose header and argument block are `hd` and `ab`: a status, or the record. -/
def launchBuild (s : State) (r : Req) (hd ab : List Byte) : Sum Nat KSess :=
  let n := r.pitch.toNat
  let p := r.payload
  let quads := beAt p 16 2
  let lf := beAt p 18 2
  let mask := coreMaskOf lf
  let object : DWord := BitVec.ofNat 64 (beAt p 0 8)
  match launchRect quads mask with
  | none => .inl stDenied
  | some rc =>
    if !placementOk s n quads rc then .inl stDenied
    else
      let cores := rectCores rc
      let en := launchEngines s mask (objMatrix hd) cores
      let lib := bitOf object 63
      let mapped : Bool := if lib then (match tfind s.img.lib (bitsOf object 0 16) with
          | some bs => decide (objTotal hd ≤ bs.length)
          | none => false)
        else match masterRange s n (bitsOf object 0 57) (objTotal hd) with
          | .inr _ => true
          | .inl _ => false
      let want := cores.foldl (fun acc c => insertNat (quadOf c) acc) []
      if !objHeadOk s hd ∨ leAt hd 8 1 ≠ rc.w ∨ leAt hd 9 1 ≠ rc.h ∨ (objMatrix hd ∧ en.1 ≠ want) ∨ !mapped ∨
         !objSectionsOk hd (rc.w * rc.h) then .inl stDenied
      else
        match argWindows s n ab (decide (mask = 15) || !en.1.isEmpty) with
        | none => .inl stDenied
        | some ws =>
          -- until the load ends the engines hold windows over the object and the argument block
          let args := beAt p 8 8
          let tmp : List KWindow := (if lib then [] else
              [{ first := bitsOf object 0 57 / 0x40000000, last := (bitsOf object 0 57 + objTotal hd - 1) / 0x40000000, r := true }]) ++
            [{ first := args / 0x40000000, last := args / 0x40000000, r := true }]
          let dl := beAt p 20 4
          .inr { pitch := r.pitch, context := r.context, endpoint := r.endpoint, cls := r.tc, req := some r,
                 notify := lf.testBit 5, deadline := if dl = 0 then none else some (s.now + dl * 1000),
                 quadMask := BitVec.ofNat 16 quads, coreMask := BitVec.ofNat 4 lf, width := rc.w, height := rc.h,
                 cores := cores, reserved := en.2, engines := en.1, object := object, windows := tmp, pendingWindows := ws,
                 seed := BitVec.ofNat 64 (leAt ab 64 8),
                 argWords := (upto 16).map (fun i => BitVec.ofNat 64 (leAt ab (128 + 8 * i) 8)) }

def launchRefuse (s : State) (r : Req) (status : Nat) (payload : List Byte) : State :=
  answer (bump s .grdLaunchRefused 0 0 r.pitch.toNat) r status payload

/-- KERNEL_LAUNCH from check 14 on (R290). -/
def launchExec (s : State) (r : Req) : State :=
  let n := r.pitch.toNat
  let p := r.payload
  let object : DWord := BitVec.ofNat 64 (beAt p 0 8)
  let lib := bitOf object 63
  let args := beAt p 8 8
  -- order 5: the header and the argument block are mapped
  let head := if lib then none else match masterRange s n (bitsOf object 0 57) 256 with
    | .inl st => some st
    | .inr _ => none
  match head, masterRange s n args 256 with
  | some st, _ => launchRefuse s r st []
  | none, .inl st => launchRefuse s r st []
  | none, .inr aps =>
    match launchRect (beAt p 16 2) (coreMaskOf (beAt p 18 2)) with
    | none => launchRefuse s r stDenied []
    | some rc =>
      if !placementOk s n (beAt p 16 2) rc then launchRefuse s r stDenied []
      else
        let h0 := objRead s n object 256
        let h := match h0.2 with
          | .inr bs => if 256 + 16 * (rc.w * rc.h) ≤ objTotal bs then objRead h0.1 n object (256 + 16 * (rc.w * rc.h)) else h0
          | .inl _ => h0
        let a := masterRead h.1 n (svcClass s n false) aps
        match h.2, a.2 with
        | .inl st, _ => launchRefuse a.1 r st []
        | _, .inl st => launchRefuse a.1 r st []
        | .inr hd, .inr ab =>
          match launchBuild a.1 r hd ab with
          | .inl st => launchRefuse a.1 r st []
          | .inr k =>
            let s1 := a.1
            let slot := (upto 256).find? (fun i => (tfind s1.grd.sess i).isNone)
            let free := coresFree s1 k
            match slot with
            | none => launchRefuse (bump s1 .grdQueueFull 0 0 n) r stRetry []
            | some ix =>
              if !free ∧ ((beAt p 18 2).testBit 4 = false ∨ 64 ≤ s1.grd.queue.length) then
                launchRefuse (bump s1 .grdQueueFull 0 0 n) r stRetry []
              else
                let num := nextNumber s1 65536 s1.grd.next
                let k1 := { k with number := num.toNat, slot := ix, state := .queued }
                let s2 := markWindow (grdMod (sessPut s1 ix k1) (fun g => { g with next := num + 1 })) r
                if free then enterLoading s2 ix else grdMod s2 (fun g => { g with queue := g.queue ++ [ix] })

/-- Order 1: reserved LFLAGS, CORE_MASK, the library form (R290). -/
def launchFlagsOk (p : List Byte) : Bool :=
  let lf := beAt p 18 2
  let object : BitVec 64 := BitVec.ofNat 64 (beAt p 0 8)
  decide (lf < 64) && coreMaskOk (coreMaskOf lf) && (!bitOf object 63 || decide (bitsOf object 16 47 = 0))

/-- KERNEL_LAUNCH (R290). -/
def kernelLaunch (s : State) (op : Byte) (f : RxFrame) : State :=
  withRequest s op f (fun s r =>
    let p := r.payload
    let object : BitVec 64 := BitVec.ofNat 64 (beAt p 0 8)
    if flagMisuse s r ∨ (p.length = 24 ∧ !launchFlagsOk p) then launchRefuse s r stUnsupported []
    else if !permitted s r then launchRefuse s r stDenied []
    else if r.length.toNat ≠ 24 ∨ p.length ≠ 24 then launchRefuse s r stLength []
    else if (!bitOf object 63 && decide (bitsOf object 0 57 % 64 ≠ 0)) ∨ beAt p 8 8 % 64 ≠ 0 then launchRefuse s r stAlign []
    else
      match pitchCheck s r with
      | some (st, pay) => launchRefuse s r st pay
      | none => launchExec s r)

/-! ## Load (R213, R292) -/

/-- Does R213 permit an object's digest on a pitch? -/
def allowOk (s : State) (n : Nat) (bs : List Byte) : Bool :=
  let cs := (pkGet s n).cocoons.filter (fun c => c.state ≠ .failed)
  cs.isEmpty || cs.any (fun c => decide (Config.sha512 bs ∈ c.allow))

/-- Bundles of a code section. -/
def codeOf (bs : List Byte) : List (BitVec 128) := (elems 16 bs).map (fun b => BitVec.ofNat 128 (leNat b))

/-- The state of a core at RUNNING (R292, R310). -/
def coreInit (k : KSess) (bs : List Byte) (rank : Nat) : Core :=
  let x := objSection bs rank
  { code := codeOf ((bs.drop x.1).take x.2.1), hold := putBytes [] 0 ((bs.drop x.2.2.1).take x.2.2.2)
    s := (k.argWords.zip (upto 16)).foldl (fun t e => tset 0 t e.2 e.1) [] }

/-- Commands of the bundles that issue in a session cycle, or the first core with a reserved encoding (R314). -/
def fetchAll (s : State) (k : KSess) : Sum Nat (List Instr) :=
  k.cores.foldl (fun acc c =>
    match acc with
    | .inl x => .inl x
    | .inr l =>
      let cr := coreGet s c
      if cr.halted.isSome then .inr l
      else
        let b := if cr.pc < cr.code.length then (cr.code[cr.pc]?).getD 0 else haltBundle
        match decBundle (BitVec.ofNat 6 c) b with
        | none => .inl c
        | some is => .inr (l ++ is)) (.inr [])

/-- The static rules of R314 that need the session: branch targets, routes, the matrix engine. -/
def bundleStops (s : State) (k : KSess) (i : Instr) : Option Nat :=
  match i with
  | .br c off => if branchOut s c.toNat off then some c.toNat else none
  | .bz c _ off => if branchOut s c.toNat off then some c.toNat else none
  | .bnz c _ off => if branchOut s c.toNat off then some c.toNat else none
  | .bnzd c _ off => if branchOut s c.toNat off then some c.toNat else none
  | .send c _ _ r => match k.routes[r.toNat]? with
    | some x => if x.src = rankOfCore k c.toNat then none else some c.toNat
    | none => some c.toNat
  | .mxMul c _ _ _ _ _ _ => if quadOf c.toNat ∈ k.engines then none else some c.toNat
  | .accRd c _ _ _ _ => if quadOf c.toNat ∈ k.engines then none else some c.toNat
  | .accWr c _ _ _ _ => if quadOf c.toNat ∈ k.engines then none else some c.toNat
  | .accZero c _ => if quadOf c.toNat ∈ k.engines then none else some c.toNat
  | _ => none

/-- Links that flits use in the present cycle (R335). -/
def flitLinks (k : KSess) : List (Nat × Nat) :=
  (k.flits.filter (fun f => !f.fresh)).filterMap (fun f => f.hops.head?.map (fun d => (f.at_, d)))

/-- Start a session cycle: link collisions, matrix commands that fall due, then every core's bundle (R281,
R315, R338). The slot commands join the queue in bundle order, core rank by core rank. -/
def beginCycle (s : State) (ix : Nat) : State :=
  let k := sessGet s ix
  if hasDup (flitLinks k) then endSess s ix 4 none 0
  else
    match fetchAll s k with
    | .inl c => endSess s ix 8 (some c) 0
    | .inr is =>
      match is.findSome? (bundleStops s k) with
      | some c => endSess s ix 8 (some c) 0
      | none =>
        let mx := k.engines.flatMap (fun q => [Instr.mxMulDone (BitVec.ofNat 4 q), Instr.mxMulStart (BitVec.ofNat 4 q) .good])
        let busy := k.engines.filter (fun q => !(quadGet s q).mx.isEmpty)
        let s1 := sessPut s ix { k with inCycle := true }
        { s1 with pending := s1.pending ++ (if busy.isEmpty then [] else mx) ++ is }

/-- KERNEL_LOAD_DONE (R292 step 3): digest, allow list, sections and routes, then RUNNING. -/
def loadDone (s : State) (ix : Nat) : State :=
  let k := sessGet s ix
  if k.state ≠ .loading then s
  else
    let n := k.pitch.toNat
    let h := objRead s n k.object 256
    match h.2 with
    | .inl st => dropLaunch h.1 ix st
    | .inr hd =>
      let o := objRead h.1 n k.object (objTotal hd)
      match o.2 with
      | .inl st => dropLaunch o.1 ix st
      | .inr bs =>
        let s1 := o.1
        if !allowOk s1 n bs then dropLaunch (bump s1 .fumAllowRefused 0 0 n) ix stDenied
        else if !objHeadOk s1 bs ∨ leAt bs 8 1 ≠ k.width ∨ leAt bs 9 1 ≠ k.height ∨ !objSectionsOk bs (k.width * k.height) then
          dropLaunch s1 ix stDenied
        else
          match objRoutes bs k.width k.height with
          | none => dropLaunch s1 ix stDenied
          | some rs =>
            let s2 := clearStageWindows s1 k
            let k1 := { k with state := .running, windows := k.pendingWindows, pendingWindows := [], routes := rs, req := none }
            let s3 := setSessWindows (sessPut s2 ix k1) k1 k1.windows
            let s4 := foldS (k.cores.zip (upto k.cores.length)) s3 (fun s e => corePut s e.1 (coreInit k bs e.2))
            let s5 := bump s4 .grdLaunch 0 0 n
            match k.req with
              | some r => answer s5 r stOk (beBytes 2 k.number ++ [0, 0])
              | none => s5

/-- KERNEL_LOAD_FAIL (R291): the read ends in NOT_MAPPED, MEDIA or INTEGRITY. -/
def loadFail (s : State) (ix : Nat) : State :=
  let k := sessGet s ix
  if k.state ≠ .loading then s
  else
    let n := k.pitch.toNat
    let h := objRead s n k.object 256
    match h.2 with
    | .inl st => dropLaunch h.1 ix st
    | .inr hd =>
      let o := objRead h.1 n k.object (objTotal hd)
      match o.2 with
      | .inl st => dropLaunch o.1 ix st
      | .inr _ => s

/-- KERNEL_DEQUEUE (R291): the cores are free and no earlier queued launch needs any of them. -/
def dequeue (s : State) (ix : Nat) : State :=
  let k := sessGet s ix
  let earlier := s.grd.queue.takeWhile (fun x => x ≠ ix)
  let clash := earlier.any (fun x => (sessGet s x).cores.any (fun c => decide (c ∈ k.cores)))
  if k.state = .queued ∧ ix ∈ s.grd.queue ∧ coresFree s k ∧ !clash then
    enterLoading (grdMod s (fun g => { g with queue := g.queue.filter (fun x => x ≠ ix) })) ix
  else s

/-! ## Session cycles (R297, R301, R316, R317, R335) -/

/-- A landed write. -/
def landApply (s : State) (l : Land) : State :=
  let c := coreGet s l.core
  match l.dest with
  | .sreg r v => corePut s l.core { c with s := tset 0 c.s r v }
  | .vreg r m v => corePut s l.core { c with v := tset 0 c.v r ((tget 0 c.v r &&& ~~~m) ||| (v &&& m)) }
  | .pred r v => if r = 0 then s else corePut s l.core { c with p := tset 0 c.p r v }
  | .hold a m bs =>
    let h := (bs.zip (upto bs.length)).foldl (fun t e => if m.getLsbD e.2 then tset 0 t (a + e.2) e.1 else t) c.hold
    corePut s l.core { c with hold := h }
  | .acc a ws =>
    let q := quadGet s (quadOf l.core)
    quadPut s (quadOf l.core) { q with acc := (ws.zip (upto ws.length)).foldl (fun t e => tset 0 t (a + e.2) e.1) q.acc }

/-- Flits move one hop; those at the end of their path fill a receive slot; the flag reports an overrun. -/
def moveFlits (s : State) (ix : Nat) : State × Option Nat :=
  let k := sessGet s ix
  let s0 := sessPut s ix { k with flits := [] }
  k.flits.foldl (fun (a : State × Option Nat) f =>
    let keep (g : Flit) : State := sessPut a.1 ix { sessGet a.1 ix with flits := (sessGet a.1 ix).flits ++ [g] }
    if f.fresh then (keep { f with fresh := false }, a.2)
    else
      match f.hops with
      | [] => a
      | d :: t =>
        let dest := stepDir f.at_ d
        if !t.isEmpty then (keep { f with at_ := dest, hops := t }, a.2)
        else
          let c := coreGet a.1 dest
          if c.halted.isSome then a
          else if (tfind c.rx d).isSome then (a.1, some dest)
          else (corePut a.1 dest { c with rx := tins c.rx d f.data }, a.2)) (s0, none)

/-- Taken slots empty, and the program counters advance (R318, R335). -/
def advanceCore (s : State) (c : Nat) : State :=
  let k := coreGet s c
  corePut s c { k with rx := k.taken.foldl tdel k.rx, taken := [], pc := k.next1, next1 := k.next2,
                       next2 := k.target.getD (k.next2 + 1), target := none }

/-- The end of a session cycle and the start of the next, unless every core has halted. -/
def endCycle (s : State) (ix : Nat) : State :=
  let k := sessGet s ix
  let due := k.lands.filter (fun l => l.at_ ≤ k.cycles)
  let s1 := foldS due s landApply
  let s2 := sessPut s1 ix { sessGet s1 ix with lands := k.lands.filter (fun l => k.cycles < l.at_) }
  let s3 := foldS k.cores s2 advanceCore
  let m := moveFlits s3 ix
  match m.2 with
  | some c => endSess m.1 ix 4 (some c) 0
  | none =>
    let k1 := sessGet m.1 ix
    let s4 := bump (sessPut m.1 ix { k1 with cycles := k1.cycles + 1, inCycle := false }) .grdSessionCycles 0 0 k.pitch.toNat
    if k.cores.all (fun c => (coreGet s4 c).halted.isSome) then s4 else beginCycle s4 ix

/-- Put the issuing stage commands into the queues that have room (R297, R339). -/
def issueStage (s : State) (ix : Nat) : State :=
  let k := sessGet s ix
  foldS k.issuing (sessPut s ix { k with issuing := [] }) (fun s d =>
    let k := sessGet s ix
    let q := quadGet s d.quad
    if 32 ≤ q.queue.length ∨ k.issuing.any (fun x => x.quad = d.quad) then sessPut s ix { k with issuing := k.issuing ++ [d] }
    else
      let num := tget 0 k.issued d.tag
      let p : Pend := { quad := d.quad, target := d.target, loc := d.loc, len := d.rows * d.rowLen, out := d.out, tag := d.tag, num := num }
      let s1 := quadPut s d.quad { q with queue := q.queue ++ [{ d with ticket := s.grd.ticket }] }
      let s2 := sessPut s1 ix { k with issued := tset 0 k.issued d.tag (num + 1), pend := k.pend ++ [p] }
      let s3 := grdMod s2 (fun g => { g with ticket := g.ticket + 1 })
      -- a stage-in over what a running matrix command still reads (R298)
      if !d.out ∧ d.target = 4 ∧ (quadGet s3 d.quad).mx.any (fun m => (match m.start with
          | some t => decide ((sessGet s3 ix).cycles + 1 < t + mxCycles m)
          | none => false) && mxHazard (sessGet s3 ix) d.quad m) then endSess s3 ix 9 none 0
      else s3)

/-- Gates that have come true open; does a core still wait (R296)? -/
def openGates (s : State) (ix : Nat) : State :=
  foldS (sessGet s ix).cores s (fun s c =>
    match (coreGet s c).gate with
    | none => s
    | some g =>
      let k := sessGet s ix
      if gateOpen s k g then corePut (sessPut s ix (gateClears k g)) c { coreGet s c with gate := none } else s)

/-- One grid cycle of a session: a pause, or the end of its session cycle (R297, R301). -/
def sessTick (s : State) (ix : Nat) : State :=
  let s1 := openGates (issueStage s ix) ix
  let k := sessGet s1 ix
  if k.state ≠ .running then s1
  else if !k.issuing.isEmpty ∨ k.cores.any (fun c => (coreGet s1 c).gate.isSome) then
    bump s1 .grdPauseCycles 0 0 k.pitch.toNat
  else if k.inCycle then endCycle s1 ix
  else if k.cores.all (fun c => (coreGet s1 c).halted.isSome) then s1
  else beginCycle s1 ix

/-- Do CD02 and CD03 run: no clock step, and PLL_GRID and PLL_MTX locked (R499, R504)? -/
def gridClock (s : State) : Bool := !s.crg.stepping && s.crg.lock.getLsbD 1 && s.crg.lock.getLsbD 2

/-- A grid cycle: every RUNNING session (log 1). -/
def gridTick (s : State) : State :=
  if !gridClock s then s
  else foldS ((s.grd.sess.filter (fun e => e.2.state = .running)).map (·.1)) s sessTick

/-! ## Stage engines (R136, R295, R296, R305) -/

/-- Pieces of a tile in transfer order, or its status. -/
def tilePieces (s : State) (n : Nat) (c : StageCmd) : Sum Nat (List Piece) :=
  (upto c.rows).foldl (fun acc i =>
    match acc with
    | .inl st => .inl st
    | .inr l => match masterRange s n (c.base + i * c.stride) c.rowLen with
      | .inl st => .inl st
      | .inr ps => .inr (l ++ ps)) (.inr [])

/-- Local bytes of a command's target. -/
def targetBytes (s : State) (c : StageCmd) (len : Nat) : List Byte :=
  if c.target = 4 then (upto len).map (fun i => tget 0 (quadGet s c.quad).opbuf (c.loc + i))
  else holdBytes s (quadCore c.quad c.target) c.loc len

def targetPut (s : State) (c : StageCmd) (bs : List Byte) : State :=
  if c.target = 4 then quadPut s c.quad { quadGet s c.quad with opbuf := putBytes (quadGet s c.quad).opbuf c.loc bs }
  else
    let k := quadCore c.quad c.target
    corePut s k { coreGet s k with hold := putBytes (coreGet s k).hold c.loc bs }

/-- The first command of a quad's queue moves its bytes and completes (R295, R296). It stays while a unit it
needs does not serve, and while lines of sync pages are being obtained (R237). -/
def stageRun (s : State) (quad : Nat) : State :=
  match (quadGet s quad).queue.find? (fun c => !c.moved) with
  | none => s
  | some c =>
    match sessFind s c.session with
    | none => s
    | some ix =>
      let k := sessGet s ix
      let n := k.pitch.toNat
      let cls := svcClass s n false
      let fails (s : State) (st : Nat) : State := endSess s ix 7 none st
      match tilePieces s n c with
      | .inl st => if st = stFenced ∨ st = stRetry then s else fails s st
      | .inr ps =>
        if !c.out ∧ touchesBadCocoon s n ps then fails s stDenied
        else if c.out ∧ ps.any (fun p => entRo p.entry || entCocoon p.entry) then fails s stDenied
        else
          let q := masterReq n 1 quad c.ticket
          let e := syncEnter s q (syncLines ps) c.out
          if !e.2 then e.1
          else if c.out then
            let w := masterWrite e.1 n cls k.context ps (targetBytes s c (c.rows * c.rowLen))
            let s1 := releaseLines w.1 q
            match w.2 with
            | some st => fails s1 st
            | none =>
              if mirrors s1 n then
                let qd := quadGet s1 quad
                let s2 := quadPut s1 quad { qd with queue := qd.queue.map (fun x => if x.ticket = c.ticket then { x with moved := true } else x) }
                mirrorOp s2 n k.context ((upto c.rows).map (fun i => (c.base + i * c.stride, c.rowLen))) { stage := some (k.number, c.ticket) }
              else stageComplete s1 ix c
          else
            let r := masterRead e.1 n cls ps
            let s1 := releaseLines r.1 q
            match r.2 with
            | .inl st => fails s1 st
            | .inr bs => stageComplete (targetPut s1 c bs) ix c

/-! ## Ends and messages (R284, R291, R293, R294, R305) -/

/-- KERNEL_SESSION_DONE (R291): every core has halted and every stage command is complete. -/
def sessDone (s : State) (ix : Nat) : State :=
  let s1 := openGates (issueStage s ix) ix
  let k := sessGet s1 ix
  let busy := (sessQuads k).any (fun q => (quadGet s1 q).queue.any (fun c => decide (c.session = k.number)))
  if k.state = .running ∧ k.cores.all (fun c => (coreGet s1 c).halted.isSome && (coreGet s1 c).gate.isNone) ∧ k.issuing.isEmpty ∧ !busy then
    endSess (sessPut s1 ix { k with cycles := k.cycles + b2n k.inCycle, inCycle := false }) ix 0 none 0
  else s

/-- A deadline passes (R291, R305). -/
def sessDeadline (s : State) (ix : Nat) : State :=
  let k := sessGet s ix
  match k.deadline with
  | none => s
  | some t =>
    match k.state with
    | .queued => dropLaunch (nowTo s t) ix stSessFailed
    | .loading => dropLaunch (nowTo s t) ix stSessFailed
    | .running => endSess (nowTo s t) ix 1 none 0
    | _ => s

/-- The cores and engines of an ended session are cleared and free (R294). -/
def sessCleared (s : State) (ix : Nat) : State :=
  let k := sessGet s ix
  if (k.state = .done ∨ k.state = .failed) ∧ !k.cleared then clearSess s ix else s

/-- A record is freed 1 s after its session ended (R284). -/
def sessExpire (s : State) (ix : Nat) : State :=
  let k := sessGet s ix
  if k.state = .done ∨ k.state = .failed then
    let s1 := sessCleared s ix
    grdMod (nowTo s1 (k.ended + 1000000000)) (fun g => { g with sess := tdel g.sess ix })
  else s

/-- Apply an event to the session with a number. -/
def onSess (s : State) (number : BitVec 16) (f : State → Nat → State) : State :=
  match sessFind s number.toNat with
  | some ix => if number = 0 then s else f s ix
  | none => s

/-- KERNEL_QUERY and KERNEL_ABORT (R293). -/
def kernelMsg (s : State) (op : Byte) (f : RxFrame) : State :=
  withRequest s op f (fun s r =>
    checks s r (decide (r.length.toNat = 4) && decide (r.payload.length = 4)) true (fun s =>
      let found := (sessFind s (beAt r.payload 0 2)).filter (fun ix => decide ((sessGet s ix).pitch = r.pitch) && decide (beAt r.payload 0 2 ≠ 0))
      if op = 0x61 then
        match found with
        | some ix => answer s r stOk (beBytes 4 (kStateWord (sessGet s ix)) ++ beBytes 8 (sessGet s ix).cycles)
        | none => answer s r stOk (zeros 12)
      else
        match found with
        | some ix => answer (endSess s ix 3 none 0) r stOk []
        | none => answer s r stOk []))

end Sys2Proof.Machine
end

