-- ==== Sys2Proof/Machine/SyncReq.lean ====
section
/-! DEFINITION. Sync-window requests from check 11 on, and the requests that run once their lines come free
(R227 to R238). -/
namespace Sys2Proof.Machine

/-- Check 11 of a sync-window message: one whole line of data or an 8-byte ARG, and the address limit (R73,
R84). -/
def swLenOk (r : Req) : Bool :=
  let want := if r.op = 0x43 then 64 else 8
  decide (r.length.toNat = want) && decide (r.payload.length = want) && decide (r.address.toNat + 64 ≤ two57)

/-- A line obtained for a write-back, an eviction or a completion: its directory entry names it, otherwise the
page tables do. These messages are never answered RETRY (R234). -/
def swTarget (s : State) (r : Req) : Sum Nat Nat :=
  let n := r.pitch.toNat
  let a := r.address.toNat
  match s.swn.dir.find? (fun e => decide (e.2.pitch = n) && decide (e.2.pva = a)) with
  | some e => .inr e.2.line
  | none =>
    if (slotGran s n a).isNone then .inl stDenied
    else
      match walk s n a with
      | .leaf level e => if entSync e then .inr (entAddr e + a % pageSize level) else .inl stDenied
      | _ => .inl stNotMapped

/-- A request of a caching agent that has passed translation: the owner tag, and the line itself where its data
comes from the home (R131, R163, R229). -/
def swAgent (s : State) (r : Req) (line : Nat) : State :=
  let n := r.pitch.toNat
  let e := ((dirFind s line).map (dirGet s)).getD {}
  if e.txn.isNone ∧ !ownerOk s line r.context then
    answer (bump s .actDeniedOwner (chanOf s line) 0 n) r stDenied []
  else
    match lineVerdict s line with
    | .good => agentRequest s r line r.address.toNat (decide (r.op ≠ 0x40))
    | v =>
      if e.txn.isSome ∨ e.state = .hx ∨ e.state = .ho then agentRequest s r line r.address.toNat (decide (r.op ≠ 0x40))
      else answer (badLine s line n v) r (verdictStatus v) []

/-- A sync-window request from check 14 (R139, R229 to R236). -/
def syncExec (s : State) (r : Req) : State :=
  let a := r.address.toNat
  if r.op = 0x43 ∨ r.op = 0x44 ∨ r.op = 0x48 then
    match swTarget s r with
    | .inl st => fail14 s r 0 st (some (if st = stDenied then .actDeniedSlot else .actNotMapped)) []
    | .inr line =>
      if r.op = 0x43 then writeBack s r line else if r.op = 0x44 then swEvict s r line else swDone s r line
  else
    match check14 s r [{ addr := a, len := 64 }] with
    | .fail st c => fail14 s r (leadSlice s r.pitch.toNat a) st c []
    | .wait pages slice => issueMisses s r slice pages
    | .ok parts _ =>
      match pieceLines parts.flatten with
      | line :: _ => swAgent s r line
      | [] => s

/-- A request runs again from check 14: its misses are served, or lines it waited for are free (R138, R227).
A master of the chip asks again by its own command. -/
def rerun (s : State) (r : Req) : State :=
  if r.op = 0 then s
  else if 0x40 ≤ r.op.toNat ∧ r.op.toNat ≤ 0x4F then syncExec s r
  else if r.op = 0x23 then bulkData s r
  else memExec s r

/-- Does the command for which a master of the chip holds lines still exist? -/
def masterLives (s : State) (q : Req) : Bool :=
  match q.flow with
  | .sess kind unit _ =>
    if kind = 1 then (quadGet s unit.toNat).queue.any (fun c => c.ticket % 2 ^ 24 = q.seq.toNat)
    else (tfind s.clx.recs unit.toNat).isSome
  | .ep _ _ _ => true

/-- Lines that are held for a master's command that is gone (R237). -/
def orphanLines (s : State) : List Req :=
  s.swn.dir.filterMap (fun e => match e.2.txn with
    | some t => (match t.kind with
      | .access q _ => if t.obtained && decide (q.op = 0) && !masterLives s q then some q else none
      | _ => none)
    | none => none)

/-- Requests that wait somewhere at SWN. -/
def swnWaiting (s : State) : Nat := s.swn.ready.length + (s.swn.dir.map (fun e => e.2.queue.length)).sum

/-- Take the ready requests one by one, in order. -/
def settleLoop : Nat → State → State
  | 0, s => s
  | fuel + 1, s =>
    match s.swn.ready with
    | [] => s
    | r :: t => settleLoop fuel (rerun (swnMod s (fun w => { w with ready := t })) r)

/-- Requests whose lines came free run (R227). -/
def settle (s : State) : State :=
  let s1 := foldS (orphanLines s) s releaseLines
  let n := swnWaiting s1 + 1
  settleLoop (n * n + 16) s1

/-- A sync-window message (groups 40h to 4Fh). -/
def syncRequest (s : State) (op : Byte) (f : RxFrame) : State :=
  settle (withRequest s op f (fun s r =>
    checks s r (swLenOk r) (decide (r.address.toNat % 64 = 0)) (fun s => syncExec s r)))

end Sys2Proof.Machine
end

