-- ==== Sys2Proof/Machine/Resp.lean ====
section
/-! DEFINITION. Answers to the controller's own requests, their timers and resends, acknowledgements received,
and the rate of the controller's flows (R63, R100, R102 to R109, R115, R142, R242, R423). -/
namespace Sys2Proof.Machine

/-! ## Checks 1 to 7 of a response or control frame (R63) -/

/-- Answers whether the frame passed. Such frames are not metered, but for those of TC7 (R377). -/
def receiveOther (s0 : State) (op : Byte) (f : RxFrame) : State × Bool :=
  let s := poolTake s0 f.via f.hdr.tc.toNat
  if !s.tpt.admitting then (bump0 s .bootEarlyRx, false)
  else if f.encap.udpDst.toNat ≠ kppPort s then (s, false)
  else
    match earlyFail op f with
    | some c => (bump s c.1 c.2 0 0, false)
    | none =>
      match srcFail s op f with
      | some c => (bump0 s c, false)
      | none =>
        let st := StreamId.ep f.hdr.endpoint f.hdr.tc
        match aliveGap s st f.hdr.alive with
        | none => (bump0 s .tptStale, false)
        | some gap =>
          let s1 := tptMod s (fun t => { t with rxAlive := aput t.rxAlive st f.hdr.alive })
          let s2 := if gap = 0 then s1 else bumpN s1 .tptAliveGap 0 0 0 gap
          if flagA f.hdr.flags then
            match authCheck s2 op f with
            | .fail => (bump0 s2 .svcAuthFail, false)
            | .stale => (bump0 s2 .svcAuthStale, false)
            | _ => (s2, true)
          else (s2, true)

/-! ## Rate of a flow (R115) -/

/-- Ceiling of a flow's rate, MB/s: the rate of its egress port. -/
def flowCeiling (s : State) (id : FlowId) : Nat :=
  match ctlLink s id with
  | some l => if l < 8 ∧ portSplit s (linkPort l) then 100000 else 200000
  | none => 200000

/-- A response with E or an ACK with a non-zero CE_COUNT. -/
def rateCut (s : State) (id : FlowId) : State :=
  let c := ctlGet s id
  let free := match c.lastCut with
    | some t => decide (t + 10000 ≤ s.now)
    | none => true
  let now := min c.rate (flowCeiling s id)
  ctlPut s id { c with rate := if free then max 1000 (now * 7 / 8) else c.rate, lastCut := if free then some s.now else c.lastCut,
                       lastSignal := s.now }

/-- 50 µs passed without such a signal. -/
def rateRaise (s : State) (id : FlowId) : State :=
  match aget s.tpt.ctl id with
  | none => s
  | some c =>
    let s1 := nowTo s (c.lastSignal + 50000)
    ctlPut s1 id { c with rate := min (flowCeiling s1 id) (c.rate + 1000), lastSignal := s1.now }

/-! ## Resending (R108, R109) -/

/-- Send a request of the controller's own again, with its FLOW_SEQ (R108). -/
def resend (s : State) (id : FlowId) (q : CtlReq) : State :=
  let s1 := bump s .tptRtx 0 0 q.frame.pitch.toNat
  match ctlLink s id with
  | some l => enqueue s1 l q.frame
  | none => tptMod s1 (fun t => { t with parked := t.parked ++ [q.frame] })

/-- Is this request a collective frame, whose timer stops while RETRY answers come? -/
def isCollReq (q : CtlReq) : Bool := decide (q.frame.opcode = 0x52 ∨ q.frame.opcode = 0x53)

/-- Acknowledgement-only requests (R95): an ACK completes them. -/
def isAckOnly (q : CtlReq) : Bool :=
  decide (q.frame.opcode = 0x23 ∨ q.frame.opcode = 0x47 ∨ q.frame.opcode = 0x52 ∨ q.frame.opcode = 0x53)

/-- A revocation also ends what the endpoint's records named (R142, R268). -/
def revokeAll (s : State) (ep : BitVec 12) (ctx : BitVec 16) : State :=
  match s.act.recalls.find? (fun r => decide (r.endpoint = ep) && decide (r.context = ctx)) with
  | none => s
  | some r => collLostEndpoint (revoke s ep ctx) ep.toNat r.pitch.toNat

/-- A flow's endpoint and pitch. -/
def flowEp : FlowId → Nat
  | .ep i _ _ => i.toNat
  | .sess _ _ _ => 0

def flowPitch : FlowId → Nat
  | .ep _ p _ => p.toNat
  | .sess _ _ _ => 0

/-- The originating block handles a request that failed (R108). -/
def originFails (s : State) (id : FlowId) (q : CtlReq) : State :=
  let a := flowEp id
  let n := flowPitch id
  match q.origin with
  | .xlateInval ep ctx => revokeAll s ep ctx
  | .swForward _ => swSendFailed s a n q.frame.context
  | .swInvalidate _ _ => swSendFailed s a n q.frame.context
  | .swData line => swDataFailed s line a n q.frame.context
  | .kernelEvent _ => s
  | .collFrame i p _ => collSendFailed s i p
  | .collClose _ _ => s
  | .mirror p _ => flyLost s p.toNat
  | .resync p _ => flyLost s p.toNat
  | .probe _ => s
  | .release _ => s

/-- A request fails at RTX_LIMIT, with record 34h (R108, R413). -/
def ctlFail (s : State) (id : FlowId) (q : CtlReq) : State :=
  let n := flowPitch id
  let s1 := bump (ctlDrop s id q.seq) .tptRtxFail 0 0 n
  let s2 := faultRec s1 { agent := tptAgent, cause := 0x34, cls := clsFailed, pitch := some n, lo := flowEp id }
  sendHeld (originFails s2 id q)

/-- Does KLR hold the flow's egress port down without retiring it (R109)? -/
def portHeld (s : State) (id : FlowId) : Bool :=
  match ctlLink s id with
  | some l => decide (l < 8) && decide (uAct s (uPort (linkPort l)) = .training)
  | none => true

/-- A request's timer expires (R108, R109). -/
def requestTimeout (s : State) (id : FlowId) (seq : BitVec 24) : State :=
  match ctlFind s id seq with
  | none => s
  | some q =>
    if q.retrying ∧ isCollReq q then s
    else
      let s1 := nowTo s q.due
      if portHeld s1 id then ctlMod s1 id seq (fun r => { r with due := s1.now + r.timer })
      else if rtxLimit s ≤ q.count then ctlFail s1 id q
      else
        let t := min (rtoMaxNs s) (2 * q.timer)
        let s2 := ctlMod s1 id seq (fun r => { r with timer := t, count := r.count + 1, due := s1.now + t })
        if q.acked ∨ q.retrying then s2 else resend s2 id q

/-- A request answered RETRY is sent again every RTO_INIT (R108). -/
def retryResend (s : State) (id : FlowId) (seq : BitVec 24) : State :=
  match ctlFind s id seq with
  | none => s
  | some q =>
    if !q.retrying then s
    else
      let s1 := nowTo s q.resendAt
      resend (ctlMod s1 id seq (fun r => { r with resendAt := s1.now + rtoInitNs s })) id q

/-! ## Responses -/

/-- What an answer other than RETRY does at the block that asked; `status` and the response's payload. -/
def originAnswered (s : State) (id : FlowId) (q : CtlReq) (status : Nat) (p : List Byte) : State :=
  let a := flowEp id
  let n := flowPitch id
  let ok := decide (status = stOk)
  match q.origin with
  | .xlateInval ep ctx =>
    if ok then
      let named := (elems 8 q.frame.payload).map (fun b => beNat b / 2 ^ 30 % 2 ^ 18)
      let mine := (s.act.recalls.filter (fun r => r.endpoint = ep ∧ r.context = ctx)).flatMap (·.keys)
      let ks := named.filter (fun k => k ∈ mine)
      let left := (s.act.recalls.map (fun r =>
        if r.endpoint = ep ∧ r.context = ctx then { r with keys := r.keys.filter (fun k => k ∉ ks) } else r))
      actMod (foldS ks s hFree) (fun t => { t with recalls := left.filter (fun r => !r.keys.isEmpty) })
    else revokeAll s ep ctx
  | .swForward line =>
    if ok then
      match dirFind s line with
      | some ix => forwardAnswer s ix a (byteAt p 0).toNat (byteAt p 1).toNat (byteAt p 2).toNat
      | none => s
    else swSendFailed s a n q.frame.context
  | .swInvalidate line _ =>
    if ok then
      match dirFind s line with
      | some ix => invalAnswer s ix a (byteAt p 0).toNat
      | none => s
    else swSendFailed s a n q.frame.context
  | .swData line => if ok then s else swDataFailed s line a n q.frame.context
  | .kernelEvent _ => s
  | .collFrame i pt _ => if status = stSessFailed then collSendFailed s i pt else s
  | .collClose _ _ => s
  | .mirror pt ticket =>
    if ok then
      let m := mirGet s pt.toNat
      let ws := m.waits.map (fun w => if w.ticket = ticket then { w with left := w.left - 1 } else w)
      let s1 := mirSet s pt.toNat { m with waits := ws.filter (fun w => !(decide (w.ticket = ticket) && decide (w.left = 0))) }
      match ws.find? (fun w => decide (w.ticket = ticket) && decide (w.left = 0)) with
      | some w => mirDone s1 w
      | none => s1
    else flyLost s pt.toNat
  | .resync pt _ => if ok then s else flyLost s pt.toNat
  | .probe _ => s
  | .release pt => if ok then mirSet s pt.toNat { mirGet s pt.toNat with takeoverKnown := true } else s

/-- The request that a response answers: same flow, number, TAG, opcode and CONTEXT (R56, R92). -/
def answeredReq (s : State) (op : Byte) (f : RxFrame) (id : FlowId) : Option CtlReq :=
  match ctlFind s id f.hdr.flowSeq with
  | some q =>
    if q.frame.opcode + 0x80 = op ∧ q.frame.tag = f.hdr.tag ∧ q.frame.context = f.hdr.context then some q else none
  | none => none

/-- The flow of the controller's own requests that a response or ACK of an endpoint belongs to, where a frame of
it last arrived (R91). -/
def noteCtl (s : State) (id : FlowId) (v : RxVia) : State :=
  match aget s.tpt.ctl id with
  | none => s
  | some c => ctlPut s id { c with egress := some v }

/-- Response flow: the endpoint, the pitch of the CONTEXT, the class (R89). -/
def respFlow (s : State) (f : RxFrame) : FlowId :=
  .ep f.hdr.endpoint (BitVec.ofNat 8 ((ctxPitch s f.hdr.context).getD 0)) f.hdr.tc

/-- A response to a request of the controller's own, `then_` beside the origin's part. -/
def ctlResponse (s : State) (op : Byte) (f : RxFrame) (then_ : State → CtlReq → Nat → State) : State :=
  let g := receiveOther s op f
  if !g.2 then g.1
  else
    let id := respFlow g.1 f
    let s1 := noteCtl g.1 id f.via
    let s2 := if flagE f.hdr.flags then (if (aget s1.tpt.ctl id).isSome then rateCut s1 id else s1) else s1
    match answeredReq s2 op f id with
    | none => s2
    | some q =>
      let status := bitsOf f.hdr.flags 0 8
      if status = stRetry then ctlMod s2 id q.seq (fun r => { r with retrying := true, resendAt := s2.now + rtoInitNs s2 })
      else settle (sendHeld (then_ (originAnswered (ctlDrop s2 id q.seq) id q status f.payload) q status))

def ctlAnswer (s : State) (op : Byte) (f : RxFrame) : State := ctlResponse s op f (fun s _ _ => s)

/-! ## TRANSPORT_ACK received (R102, R103, R105, R108) -/

/-- Blocks of an ACK or NACK that the payload holds. -/
def ackBlocks (p : List Byte) : List (BitVec 24 × Nat) :=
  (upto (min (beAt p 1 1) ((p.length - 8) / 8))).map (fun k => (BitVec.ofNat 24 (beAt p (8 + 8 * k) 4), beAt p (12 + 8 * k) 4))

def inBlocks (bs : List (BitVec 24 × Nat)) (q : BitVec 24) : Bool := bs.any (fun b => decide ((q - b.1).toNat < b.2))

/-- Does an ACK (`nack` false) or NACK report a number as received? -/
def ackCovers (nack : Bool) (cum top : BitVec 24) (bs : List (BitVec 24 × Nat)) (q : BitVec 24) : Bool :=
  decide ((cum - q).toNat < 0x800000) ||
    (decide ((q - cum).toNat ≤ (top - cum).toNat) && (if nack then !inBlocks bs q else inBlocks bs q))

/-- A request is acknowledged: an acknowledgement-only one is complete (R95, R110). -/
def ctlAcked (s : State) (id : FlowId) (q : CtlReq) : State :=
  if isAckOnly q then
    let s1 := ctlDrop s id q.seq
    match q.origin with
    | .collFrame i p k => collAcked s1 i p k q.frame.opcode
    | _ => s1
  else ctlMod s id q.seq (fun r => { r with acked := true })

/-- TRANSPORT_ACK. -/
def transportAck (s : State) (f : RxFrame) : State :=
  let g := receiveOther s 0x7F f
  if !g.2 then g.1
  else
    let a := f.hdr.address
    let id : FlowId := if bitOf a 8 then .sess f.srcAddr f.srcPort f.hdr.tc
                       else .ep f.hdr.endpoint (BitVec.ofNat 8 (bitsOf a 0 8)) f.hdr.tc
    let nack := decide (byteAt f.payload 0 = 1)
    let s1 := bump g.1 (if nack then .tptNackRx else .tptAckRx) 0 0 (flowPitch id)
    match aget s1.tpt.ctl id with
    | none => s1
    | some c =>
      let cum := f.hdr.flowSeq
      let behind := match c.lastCum with
        | some l => decide (0x800000 ≤ (cum - l).toNat)
        | none => false
      if behind then s1
      else
        let s2 := noteCtl (ctlPut s1 id { c with lastCum := some cum }) id f.via
        let s3 := if beAt f.payload 2 2 ≠ 0 then rateCut s2 id else s2
        let top : BitVec 24 := BitVec.ofNat 24 (beAt f.payload 4 4)
        let bs := ackBlocks f.payload
        let got := c.reqs.filter (fun q => ackCovers nack cum top bs q.seq && !q.acked)
        let lost := if nack then c.reqs.filter (fun q => inBlocks bs q.seq) else []
        let s4 := foldS got s3 (fun s q => ctlAcked s id q)
        let s5 := foldS lost s4 (fun s q => match ctlFind s id q.seq with
          | some r => resend (ctlMod s id q.seq (fun x => { x with due := s.now + x.timer })) id r
          | none => s)
        settle (sendHeld s5)

/-! ## Acknowledgements that fall due (R104) -/

/-- ACK_DELAY after the earliest request not yet covered. -/
def ackDelayExpire (s : State) (id : FlowId) : State :=
  match (flowGet s id).bind (·.ackDue) with
  | some t => sendAck (nowTo s t) id
  | none => s

/-- When the lowest missing number of a flow is due. -/
def nackDueAt (s : State) (f : FlowSt) : Option Nat :=
  ((f.missing.map (fun m => (seqDist f.c m.seq, max (m.since + nackDelayNs s) (match m.lastNack with
    | some t => t + nackHoldNs s
    | none => 0)))).foldl (fun (b : Option (Nat × Nat)) x => match b with
      | none => some x
      | some y => if x.1 < y.1 then some x else some y) none).map (·.2)

/-- NACK_DELAY after a number went missing, or NACK_HOLDOFF after its last NACK. -/
def nackDelayExpire (s : State) (id : FlowId) : State :=
  match (flowGet s id).bind (nackDueAt s) with
  | some t => sendNack (nowTo s t) id
  | none => s

end Sys2Proof.Machine
end

