-- ==== Sys2Proof/Machine/MemEvents.lean ====
section
/-! DEFINITION. What ends a wait for translation, for bulk data or for a handle's holder, and what a confirmed
change of page tables does (R72, R135, R138, R142, R144). -/
namespace Sys2Proof.Machine

/-! ## Misses (R138) -/

def missIs (slice n page : Nat) (m : Miss) : Bool :=
  decide (m.slice = slice) && decide (m.pitch.toNat = n) && decide (m.page = page)

def missDrop (s : State) (slice n page : Nat) : State :=
  actMod s (fun a => { a with misses := a.misses.filter (fun m => !missIs slice n page m) })

def sameReq (a b : Req) : Bool := decide (a.flow = b.flow) && decide (a.seq = b.seq)

/-- Does a request wait for another miss? -/
def stillMisses (s : State) (r : Req) : Bool := s.act.misses.any (fun m => m.waiting.any (sameReq r))

/-- A request leaves every miss it waits for and ends with a status; a BULK_PUT takes its frames with it. -/
def endWaiting (s : State) (r : Req) (status : Nat) : State :=
  answerEarly (actMod s (fun a => { a with misses := a.misses.map (fun m =>
    { m with waiting := m.waiting.filter (fun q => !sameReq r q) }) })) r status []

/-- Firmware has walked the table for a page (R133, R134, R138). A service complex restart makes it wait
(R478). -/
def missServed (s : State) (slice n page : Nat) : State :=
  match s.act.misses.find? (missIs slice n page) with
  | none => s
  | some m =>
    if s.svc.restarting then s
    else
      let s1 := missDrop s slice n page
      let fails (s : State) : State := foldS m.waiting s (fun s r =>
        bump (endWaiting s r stNotMapped) .actNotMapped slice 0 n)
      match walk s n (page * 65536) with
      | .leaf level e =>
        let t : TlbEnt := { pitch := BitVec.ofNat 8 n, level := level, page := page * 65536 / pageSize level, entry := e }
        let s2 := tlbInsert s1 slice t
        foldS m.waiting s2 (fun s r => if stillMisses s r then s else rerun s r)
      | .unmapped => fails s1
      | .malformed => fails (faultRec s1 { agent := actAgent slice, cause := 0x19, cls := clsFailed,
                                           state := actCode (uAct s1 (uSlice slice)), pitch := some n, status := stNotMapped,
                                           unit := some (uSlice slice) })

/-- No answer 20 µs after the miss was sent. -/
def missTimeout (s : State) (slice n page : Nat) : State :=
  match s.act.misses.find? (missIs slice n page) with
  | none => s
  | some m =>
    let s1 := bump (missDrop (nowTo s (m.sent + 20000)) slice n page) .actMissTimeout slice 0 0
    let s2 := faultRec s1 { agent := svcAgent, cause := 0x1A, cls := clsFailed, pitch := some n, status := stRetry }
    foldS m.waiting s2 (fun s r => endWaiting s r stRetry)

/-! ## Changes of page tables (R135, R144) -/

/-- Pool-physical ranges of the cached pages that a change takes away. -/
def changedLeaves (s : State) (c : PtChange) : List (Nat × Nat) :=
  (s.act.tlb.flatMap (·.2)).filterMap (fun t =>
    let base := t.page * pageSize t.level
    let lo := max base c.base
    let hi := min (base + pageSize t.level) (c.base + c.size)
    if t.pitch = c.pitch ∧ lo < hi then some (entAddr t.entry + (lo - base), hi - lo) else none)

/-- Operations that hold a page of a change end with NOT_MAPPED (R144). -/
def changeEnds (s : State) (c : PtChange) : State :=
  let n := c.pitch.toNat
  let leaves := changedLeaves s c
  let hit (l : Nat) : Bool := leaves.any (fun r => decide (r.1 ≤ l) && decide (l < r.1 + r.2))
  let stream (f : TxFrame) : Bool := decide (f.opcode = 0xA0) && decide (f.pitch = c.pitch) && frameHits hit f
  let frames := s.tmg.queues.flatMap (fun q => q.2.resp) ++ s.tpt.parked
  let dead := (frames.filter stream).foldl (fun acc f => if frameKey f ∈ acc then acc else acc ++ [frameKey f]) []
  let s1 := bumpN (cutStreams s stream stNotMapped) .actDescInval 0 0 n dead.length
  let puts := s1.tpt.flows.flatMap (fun f => f.2.bulk.filter (fun b =>
    let d := putDesc s1 b.req
    let base := descReach s1 b.req d
    b.passed && decide (b.req.pitch = c.pitch) && decide (base < c.base + c.size) &&
      decide (c.base < base + descSpan d b.req.length.toNat)))
  foldS puts s1 (fun s b => bump (bulkEnd s b stNotMapped []) .actDescInval 0 0 n)

/-- Every slice has dropped and confirmed the pages of a pitch's changes (R135). -/
def changesDone (s : State) (n : Nat) : State :=
  let cs := s.act.changes.filter (fun c => c.pitch.toNat = n)
  let s1 := actMod s (fun a => { a with changes := a.changes.filter (fun c => c.pitch.toNat ≠ n) })
  foldS cs s1 (fun s c => collPageChange (changeConfirmed (changeEnds s c) c) n c.base c.size)

/-! ## BULK_IDLE (R72) and the recall deadline (R142) -/

/-- BULK_IDLE passed with no BULK_DATA accepted. -/
def bulkIdle (s : State) (id : FlowId) (tag : BitVec 32) : State :=
  match bulkFind s id tag with
  | none => s
  | some b => if b.passed then bulkEnd (nowTo s (b.last + bulkIdleNs s)) b stTimeout [] else s

/-- The deadline of a recall passed without an answer; during a restart the revocation waits (R479). -/
def recallDeadline (s : State) (ep : BitVec 12) (ctx : BitVec 16) : State :=
  match s.act.recalls.find? (fun r => decide (r.endpoint = ep) && decide (r.context = ctx)) with
  | none => s
  | some r =>
    let s1 := nowTo s (r.start + recallDeadlineNs s)
    if s.svc.restarting then svcMod s1 (fun v => { v with lateRecalls := v.lateRecalls ++ [(ep, ctx)] })
    else revokeAll s1 ep ctx

end Sys2Proof.Machine
end

