-- ==== Sys2Proof/Machine/MirReq.lean ====
section
/-! DEFINITION. Frames between partner chips: probes, mirror frames, releases, resynchronisation and heartbeats
(R80, R419 to R433). -/
namespace Sys2Proof.Machine

/-! ## This chip's own addresses (R52, R438) -/

/-- The chip's address on P0 to P3 in the family of another address. -/
def ownAddr (s : State) (other : BitVec 128) : BitVec 128 :=
  if isV4 other then BitVec.ofNat 128 (0xFFFF * 2 ^ 32 + beAt s.img.net 0 4) else BitVec.ofNat 128 (beAt s.img.net 12 16)

/-- Partner-table entry of the index a request came from. -/
def reqPeer (s : State) (r : Req) : Option (Nat × Peer) :=
  match r.flow with
  | .ep i _ _ => partnerOf s i.toNat
  | .sess _ _ _ => none

/-! ## Resynchronisation (R432) -/

/-- Lines of a pitch that are not FREE, in ascending PVA, each with its owner. -/
def ownedLines (s : State) (n : Nat) : List (Nat × BitVec 16) :=
  (pGet s n).slots.flatMap (fun x =>
    ((s.dmc.meta_.filter (fun e => decide (x.2 * 0x1000000 ≤ e.1) && decide (e.1 < (x.2 + 1) * 0x1000000) &&
      decide (e.2.owner ≠ 0xFFFF))).map (fun e => (x.1 * 0x40000000 + (e.1 - x.2 * 0x1000000) * 64, e.2.owner))))

/-- Runs of adjacent lines of one owner: (PVA, lines, owner). -/
def lineRuns : List (Nat × BitVec 16) → List (Nat × Nat × BitVec 16)
  | [] => []
  | (p, o) :: t =>
    match lineRuns t with
    | (q, k, w) :: r => if q = p + 64 ∧ w = o then (p, k + 1, o) :: r else (p, 1, o) :: (q, k, w) :: r
    | [] => [(p, 1, o)]

/-- Copy one run: a BULK_PUT in TC0 and its BULK_DATA frames, read in S3. -/
def resyncRun (s : State) (n : Nat) (run : Nat × Nat × BitVec 16) : State :=
  let len := run.2.1 * 64
  let tag : BitVec 32 := BitVec.ofNat 32 s.mir.ticket
  let desc := beBytes 8 run.1 ++ zeros 16
  let put := mirFrame s n 0 0 (mirRecord s 0 true n run.2.2 none []) desc
  let o := Origin.resync (BitVec.ofNat 8 n) run.1
  let s1 := mirMod s (fun d => { d with ticket := d.ticket + 1 })
  let s2 := ctlSend s1 (mirFlow s n 0) { put with opcode := 0x21, tag := tag, length := BitVec.ofNat 32 len } o
  foldS (mirChunks s n (run.2.1 + 1) run.1 run.2.1) (bumpN s2 .mirResyncBytes 0 0 n len) (fun s c =>
    let f := mirFrame s n 0 (c.1 - run.1) [] c.2
    let s1 := match slotGran s n c.1 with
      | some g => foldS (linesOf (g * 0x40000000 + c.1 % 0x40000000) c.2.length) s (fun s l => dmcRead s l 3 n false none)
      | none => s
    bump (ctlSend s1 (mirFlow s n 0) { f with opcode := 0x23, tag := tag } o) .mirMirrorFrames 0 0 n)

/-- The active starts to copy the pitch to its new standby. -/
def startResync (s : State) (n : Nat) : State :=
  foldS (lineRuns (ownedLines s n)) (mirSet s n { mirGet s n with resync := true, resyncAt := s.now }) (fun s r => resyncRun s n r)

/-- Are resynchronisation frames of a pitch still out? -/
def resyncOut (s : State) (n : Nat) : Bool :=
  let mine (o : Origin) : Bool := match o with
    | .resync p _ => decide (p.toNat = n)
    | _ => false
  s.tpt.ctl.any (fun e => e.2.reqs.any (fun q => mine q.origin)) || s.tpt.held.any (fun e => mine e.2.2)

/-- The last resynchronisation line is acknowledged: the fly is confirmed (R432). -/
def resyncDone (s : State) (n : Nat) : State :=
  let m := mirGet s n
  if m.resync ∧ !resyncOut s n then mirSet s n { m with resync := false, confirmed := true } else s

/-! ## Probes (R420, R421) -/

/-- First 4 bytes of the digest of a pitch's settings record with FLY_ADDR and FLY_PORT zeroed. -/
def cfgDigest (s : State) (n : Nat) : List Byte := (beBytes 64 (Config.sha512 (pGet s n).settings.digestBytes).toNat).take 4

/-- Every 1 ms a pitch that looks for its role probes its partner. -/
def probeTimer (s : State) (n : Nat) : State :=
  let m := mirGet s n
  if m.probing then
    let rec_ := mirRecord s 1 true n 0 none (cfgDigest s n ++ beBytes 4 m.acceptNs)
    ctlSend s (mirFlow s n 3) (mirFrame s n 3 0 rec_ (zeros 8)) (.probe (BitVec.ofNat 8 n))
  else s

/-- Fix a role by one of the first two rows of R420. -/
def fixRole (s : State) (n : Nat) (role : Role) (confirmed : Bool) : State :=
  mirSet s n { mirGet s n with role := role, confirmed := confirmed, probing := false }

/-- A PROBE that passed its checks (R420). -/
def probeExec (s : State) (r : Req) : State :=
  let n := (byteAt r.payload 2).toNat
  let m := mirGet s n
  let p := pGet s n
  let peer := (reqPeer s r).getD (0, {})
  let paired := decide (n = r.pitch.toNat) && p.settings.flyReq && decide (m.peer = peer.1) &&
    decide ((r.payload.drop 120).take 4 = cfgDigest s n)
  let moved (s : State) : State := answer s r stMoved (movedPayload (ownAddr s peer.2.addr) (BitVec.ofNat 16 (kppPort s)))
  if !paired then answer s r stDenied []
  else if p.life = .pitching ∧ m.role = .standby then answer s r stOk []
  else if p.life = .pitching ∧ m.role = .active then moved s
  else if p.life = .pitching then
    let d := (m.acceptNs + 2 ^ 32 - beAt r.payload 124 4) % 2 ^ 32
    let same := decide (d = 0 ∨ d = 2 ^ 31)
    if (if same then decide (peer.2.serial.toNat < Config.serial.toNat) else decide (d < 2 ^ 31)) then
      answer (fixRole s n .standby true) r stOk []
    else moved (fixRole s n .active true)
  else if p.life = .up ∧ m.role = .active ∧ !m.confirmed ∧ !m.selfFenced ∧ serving (uAct s (uPitch n)) then
    moved (if m.resync then s else startResync s n)
  else answer s r stDenied []

/-- OK or MOVED answers to a PROBE fix the role (R420). A pitch that is UP, or whose partner is UP as the active,
can only be the unconfirmed standby; the partner's heartbeats tell which (R426, R427). -/
def probeAnswered (s : State) (q : CtlReq) (status : Nat) : State :=
  match q.origin with
  | .probe p =>
    let n := p.toNat
    let m := mirGet s n
    if !m.probing then s
    else if status = stOk then fixRole s n .active true
    else if status = stMoved then fixRole s n .standby (decide ((pGet s n).life = .pitching))
    else s
  | _ => s

/-! ## Mirror frames at the fly (R119, R421, R423) -/

/-- The kept response of a record, as a frame of the flow it belongs to. -/
def carriedFrame (rec_ : List Byte) (id : FlowId) : TxFrame :=
  let h := (rec_.drop 16).take 32
  let len := beAt h 20 4
  { opcode := byteAt h 1, typ := 1, flags := BitVec.ofNat 16 (beAt h 2 2), context := BitVec.ofNat 16 (beAt h 4 2)
    endpoint := BitVec.ofNat 12 (beAt h 6 2 / 16), tc := BitVec.ofNat 3 (beAt h 6 2 / 2)
    flowSeq := BitVec.ofNat 24 (beAt h 8 3), address := BitVec.ofNat 64 (beAt h 12 8), length := BitVec.ofNat 32 len
    tag := BitVec.ofNat 32 (beAt h 24 4), payload := ((rec_.drop 48).take 64).take len, flow := some id }

/-- Keep CARRY and C of a record: the latest C of the flow and its last 64 responses (R119). -/
def keepCarry (s : State) (n : Nat) (rec_ : List Byte) : State :=
  if (byteAt rec_ 1).getLsbD 1 then
    let id := FlowId.ep (BitVec.ofNat 12 (beAt rec_ 4 2)) (BitVec.ofNat 8 n) (BitVec.ofNat 3 (beAt rec_ 6 1))
    let f := (flowGet s id).getD {}
    let c := (f.carry).getD {}
    let seq : BitVec 24 := BitVec.ofNat 24 (beAt rec_ 8 3)
    let kept := c.cache.filter (fun e => e.seq ≠ seq)
    let kept1 := if 64 ≤ kept.length then kept.drop (kept.length - 63) else kept
    flowPut s id { f with carry := some { c with cm := BitVec.ofNat 24 (beAt rec_ 12 3), cache := kept1 ++ [{ seq := seq, frame := carriedFrame rec_ id }] } }
  else s

/-- May a DATA or RELEASE frame act here: a standby of the sender's, with the fly's GENERATION (R423)? -/
def mirAllowed (s : State) (r : Req) (rec_ : List Byte) : Bool :=
  let n := r.pitch.toNat
  let m := mirGet s n
  decide ((byteAt rec_ 2).toNat = n) && decide (m.role = .standby) && decide (m.peer = ((reqPeer s r).map (·.1)).getD 16) &&
    decide (byteAt rec_ 3 = (pGet s n).generation) && decide ((pGet s n).life = .up)

/-- Write mirrored lines with their OWNER as MIR: in S1, or S3 for resynchronisation (R166). A status other than
OK says what failed. -/
def mirWrite (s : State) (n : Nat) (tc : BitVec 3) (owner : BitVec 16) (pva : Nat) (bs : List Byte) : State × Nat :=
  match masterRange s n pva bs.length with
  | .inl st => (s, st)
  | .inr ps =>
    let w := masterWrite s n (if tc = 0 then 3 else 1) owner ps bs
    (w.1, (w.2).getD stOk)

/-- A frame that the fly cannot apply: the fly is confirmed no longer. A RETRY is only sent again. -/
def mirRefused (s : State) (n status : Nat) : State :=
  if status = stRetry then s else mirSet s n { mirGet s n with confirmed := false }

/-- A mirror WRITE of KIND DATA. -/
def mirDataExec (s : State) (r : Req) : State :=
  let n := r.pitch.toNat
  let rec_ := r.payload.take 128
  if !mirAllowed s r rec_ then answer s r stDenied []
  else
    let w := mirWrite s n r.tc (BitVec.ofNat 16 (beAt rec_ 112 2)) r.address.toNat (r.payload.drop 128)
    if w.2 = stOk then answer (keepCarry w.1 n rec_) r stOk [] else answer (mirRefused w.1 n w.2) r w.2 []

/-- RELEASE: a confirmed standby takes over and answers OK (R429). -/
def releaseExec (s : State) (r : Req) : State :=
  let n := r.pitch.toNat
  if mirAllowed s r (r.payload.take 128) ∧ (mirGet s n).confirmed then answer (takeover s n) r stOk []
  else answer s r stDenied []

/-- Where the bytes of a mirror BULK_PUT from an offset go, row by row. -/
def putRows (d : Desc) (off : Nat) : Nat → Nat → List (Nat × Nat)
  | 0, _ => []
  | fuel + 1, len =>
    if len = 0 then []
    else if d.rowLen = 0 then [(d.base + off, len)]
    else
      let here := min (d.rowLen - off % d.rowLen) len
      (d.base + off / d.rowLen * d.stride + off % d.rowLen, here) :: putRows d (off + here) fuel (len - here)

/-- A BULK_DATA frame of an open mirror BULK_PUT. -/
def mirPutWrite (s : State) (b : BulkPut) (r : Req) : State :=
  let n := r.pitch.toNat
  let off := r.address.toNat
  let len := r.length.toNat
  let total := b.req.length.toNat
  if total < off + len then answer s r stLength []
  else
    let rec_ := b.req.payload.take 128
    let d := readDesc b.req.payload 128
    let rows := putRows d off (len / 64 + 1) len
    let w := rows.foldl (fun (a : State × Nat × List Byte) x =>
      if a.2.1 ≠ stOk then a
      else
        let k := mirWrite a.1 n r.tc (BitVec.ofNat 16 (beAt rec_ 112 2)) x.1 (a.2.2.take x.2)
        (k.1, k.2, a.2.2.drop x.2)) (s, stOk, r.payload)
    if w.2.1 = stRetry then answer w.1 r stRetry []
    else if w.2.1 ≠ stOk then answer (bulkEnd (mirRefused w.1 n w.2.1) b w.2.1 []) r w.2.1 []
    else
      let got := b.got + len
      let s1 := bulkMod w.1 r.flow (fun l => l.map (fun x => if x.req.seq = b.req.seq then { x with got := got, last := s.now, moved := true } else x))
      let s2 := answer s1 r stOk []
      if got = total then respond (keepCarry (bulkDrop s2 b.req.flow b.req.seq) n rec_) b.req stOk [] else s2

/-- A mirror BULK_PUT opens for the lines of its record. -/
def mirPutExec (s : State) (r : Req) : State :=
  if !mirAllowed s r (r.payload.take 128) then answerEarly s r stDenied []
  else
    let waiting := ((bulkFind s r.flow r.tag).map (·.waiting)).getD []
    let s1 := bulkMod (markWindow s r) r.flow (fun l => l.map (fun b =>
      if b.req.seq = r.seq then { b with passed := true, last := s.now, waiting := [] } else b))
    foldS waiting s1 (fun s d =>
      match (flowGet s r.flow).bind (fun f => f.bulk.find? (fun b => b.req.seq = r.seq)) with
      | some b => mirPutWrite s b d
      | none => answer s d stLength [])

/-- A mirror frame from a partner index, by opcode and KIND. A KIND that R421 does not name cannot be applied. -/
def mirExec (s : State) (r : Req) : State :=
  if r.op = 0x23 then
    match bulkFind s r.flow r.tag with
    | some b => if b.passed then mirPutWrite s b r else bulkData s r
    | none => bulkData s r
  else if r.op = 0x21 then mirPutExec s r
  else if byteAt r.payload 0 = 0 then mirDataExec s r
  else if byteAt r.payload 0 = 1 then probeExec s r
  else if byteAt r.payload 0 = 2 then releaseExec s r
  else answer s r stDenied []

/-- WRITE, BULK_PUT and BULK_DATA: of an endpoint, or mirror frames of a partner (R66, R423). -/
def kppWrite (s : State) (op : Byte) (f : RxFrame) : State :=
  settle (withRequest s op f (fun s r =>
    let s1 := if op = 0x21 then bulkMod s r.flow (fun l => l ++ [{ req := r, last := s.now }]) else s
    checks s1 r (lenOk s1 r) (alignOk s1 r) (fun s =>
      if isMirror s r then mirExec s r else if op = 0x23 then bulkData s r else memExec s r)))

/-- A frame whose mirror record has a KIND. -/
def mirKind (f : RxFrame) (kind : Nat) : Bool := decide (128 ≤ f.payload.length) && decide ((byteAt f.payload 0).toNat = kind)

/-! ## Heartbeats (R80, R425 to R430) -/

/-- ACTIVE bits towards a partner. -/
def activeBits (s : State) (k : Nat) : List Byte :=
  (upto 32).map (fun i => BitVec.ofNat 8 ((upto 8).map (fun j =>
    let m := mirGet s (8 * i + j)
    if m.role = .active ∧ m.confirmed ∧ m.peer = k then 2 ^ j else 0)).sum)

/-- The next instant of CD10, from now on, that is `off` past a multiple of a period. -/
def nextMultiple (s : State) (period off : Nat) : Nat :=
  let t := cd10Total s
  let p := max 1 period
  if t ≤ off then off else (t - off + p - 1) / p * p + off

/-- A heartbeat leaves on a guy line; ACTIVE is 256 bits, bit n in the n-th bit from the lowest. -/
def heartbeatTx (s : State) (k : Nat) (mpLine : Bool) : State :=
  match tfind s.mir.peers k with
  | none => s
  | some p =>
    if !s.tpt.admitting ∨ s.flt.stopped then s
    else
      let per := hbPeriodNs s
      let s1 := cd10To s (nextMultiple s per (if mpLine then per / 2 else 0))
      let line := b2n mpLine
      let beat := (p.txBeat[line]?).getD 0 + 1
      let guy := if mpLine then 1 else if p.direct.isSome then 2 else 0
      let pay := beBytes 8 Config.serial.toNat ++ beBytes 8 beat ++ beBytes 6 s1.cd10Sec.toNat ++ beBytes 4 s1.cd10Ns ++
        [BitVec.ofNat 8 guy, 0] ++ (activeBits s1 k).reverse
      let id := FlowId.ep (BitVec.ofNat 12 p.localBase) 0 7
      let f : TxFrame :=
        { opcode := 0x7E, typ := 2, flags := 0x4000, endpoint := BitVec.ofNat 12 p.remoteBase, tc := 7, length := 60,
          payload := pay, stream := .ep (BitVec.ofNat 12 p.localBase) 7, dstAddr := if mpLine then p.mpAddr else p.addr,
          dstPort := p.port, flow := some id, isReq := true }
      let s2 := bump0 (peerSet s1 k { p with txBeat := lset p.txBeat line beat }) .mirHbTx
      if mpLine then enqueue s2 8 f
      else match p.direct with
        | some l => enqueue s2 l f
        | none => sendFrame s2 id f

/-- A standby learns from a beat whether the active counts it as its confirmed fly (R427, R432). -/
def beatBit (s : State) (n : Nat) (bit : Bool) : State :=
  let m := mirGet s n
  if m.role ≠ .standby then s
  else if bit then mirSet s n { m with zeros := 0, confirmed := true }
  else if !m.confirmed then s
  else if m.zeros + 1 < 2 then mirSet s n { m with zeros := m.zeros + 1 }
  else mirFault (mirSet s n { m with zeros := 0, confirmed := false }) n 0x63 clsDegrading

/-- A received heartbeat: metered as a TC7 frame, then judged valid or not (R377, R426). -/
def heartbeatRx (s : State) (f : RxFrame) : State :=
  let g := receiveOther s 0x7E f
  if !g.2 then g.1
  else
    let m := if f.hdr.tc = 7 then meter g.1 0 7 (viaPort f.via) f.encap.dscp.toNat f.encap.bytes 0 else (g.1, some false)
    match m.2 with
    | none => m.1
    | some _ =>
      let s1 := m.1
      match partnerOf s1 f.hdr.endpoint.toNat with
      | none => s1
      | some (k, p) =>
        let pay := f.payload
        let line := if byteAt pay 26 = 1 then 1 else 0
        let beat := beAt pay 8 8
        if pay.length ≠ 60 ∨ 2 < (byteAt pay 26).toNat ∨ beAt pay 0 8 ≠ p.serial.toNat ∨ beat ≤ (p.lastBeat[line]?).getD 0 then s1
        else
          let p1 := { p with alive := lset p.alive line true, lastBeat := lset p.lastBeat line beat, lastAt := lset p.lastAt line (some s1.now) }
          let s2 := bump0 (peerSet s1 k p1) .mirHbRx
          let active := beAt pay 28 32
          foldS ((s2.mir.pitch.filter (fun e => e.2.peer = k ∧ e.2.role = .standby)).map (·.1)) s2 (fun s n => beatBit s n (active.testBit n))

/-- No valid beat for 5 periods: the guy line is lost, an ALARM (R426). -/
def guyLost (s : State) (k : Nat) (mpLine : Bool) : State :=
  match tfind s.mir.peers k with
  | none => s
  | some p =>
    let line := b2n mpLine
    if !lineAlive p line then s
    else
      let s1 := nowTo s (((p.lastAt[line]?).getD none).getD 0 + 5 * hbPeriodNs s)
      let s2 := bump0 (peerSet s1 k { p with alive := lset p.alive line false }) .mirGuyLost
      faultRec s2 { agent := mirAgent, cause := 0x60, cls := clsAlarm, lo := p.serial.toNat % 2 ^ 32, hi := p.serial.toNat / 2 ^ 32 }

def bothLost (p : Peer) : Bool := !lineAlive p 0 && !lineAlive p 1

/-- t_L + 5 · HB_PERIOD with both guy lines lost: the active self-fences (R428). -/
def mirrorSelfFence (s : State) (n : Nat) : State :=
  let p := peerGet s (mirGet s n).peer
  if hasFly s n ∧ (pGet s n).life = .up ∧ bothLost p then selfFence (nowTo s (lastBeatAt p + 5 * hbPeriodNs s)) n true else s

/-- t_L + 7 · HB_PERIOD with both guy lines lost: a confirmed standby takes over (R429). -/
def mirrorTakeover (s : State) (n : Nat) : State :=
  let m := mirGet s n
  let p := peerGet s m.peer
  if m.role = .standby ∧ m.confirmed ∧ bothLost p then takeover (nowTo s (lastBeatAt p + 7 * hbPeriodNs s)) n else s

end Sys2Proof.Machine
end

