-- ==== Sys2Proof/Machine/Chan.lean ====
section
/-! DEFINITION. Events of the memory channels: scheduling, reads and writes of the DRAM, refresh, alerts,
retraining, training and initialisation (R163 to R191). -/
namespace Sys2Proof.Machine

/-! ## What the scheduler chooses (R167, R170, R175) -/

/-- A queued access as the scheduler sees it. -/
structure Cand where
  write : Bool := false
  line : Nat := 0
  cls : Nat := 0
  pitch : BitVec 8 := 0
  arrived : Nat := 0
  promoted : Bool := false
deriving DecidableEq, Repr

/-- The accesses of one subchannel that are in the channel's queue or write buffer. -/
def cands (s : State) (c sub : Nat) : List Cand :=
  let ch := chGet s c
  let rs := (ch.queue.filter (fun q => !q.held)).map (fun q =>
    ({ line := q.line, cls := q.cls, pitch := q.pitch, arrived := q.arrived, promoted := q.promoted } : Cand))
  let ws := ch.wbuf.map (fun w =>
    ({ write := true, line := w.line, cls := w.cls, pitch := w.pitch, arrived := w.arrived, promoted := w.promoted } : Cand))
  (rs ++ ws).filter (fun q => (bankRow s q.line).1.1 = sub)

/-- Only the owner's requests are eligible in an owned interval; writes in the buffer always issue (R169,
R175). -/
def candEligible (s : State) (c : Nat) (q : Cand) : Bool :=
  let o := windowOwner s (c / 4)
  decide (o = 0) || q.write || decide (q.pitch.toNat = o)

/-- In a bank in in-order mode only the oldest request competes. -/
def candOldest (s : State) (c : Nat) (all : List Cand) (q : Cand) : Bool :=
  let br := bankRow s q.line
  decide (br.1 ∉ (chGet s c).inorder) || all.all (fun x => decide ((bankRow s x.line).1 ≠ br.1) || decide (q.arrived ≤ x.arrived))

/-- Does a bank have the row of a line open? -/
def rowOpen (s : State) (c line : Nat) : Bool :=
  let br := bankRow s line
  match aget (chGet s c).banks br.1 with
  | some e => decide (e.1 = br.2)
  | none => false

/-- Rules 4 to 6 as a key: the least goes first. -/
def candKey (s : State) (c : Nat) (q : Cand) : List Nat :=
  let drain := (chGet s c).drainWrites
  if q.promoted then [0, q.arrived, 0, 0]
  else [1, b2n (drain && !q.write), q.cls, b2n (!rowOpen s c q.line), q.arrived]

/-- Lexicographic order of two keys. -/
def keyLt : List Nat → List Nat → Bool
  | [], _ => false
  | _, [] => false
  | a :: s, b :: t => decide (a < b) || (decide (a = b) && keyLt s t)

/-- The first access that a test admits, by the rules. -/
def nextCand (s : State) (c sub : Nat) (p : Cand → Bool) : Option Cand :=
  let all := cands s c sub
  (all.filter (fun q => p q && candEligible s c q && candOldest s c all q)).foldl (fun b q => match b with
    | none => some q
    | some x => if keyLt (candKey s c q) (candKey s c x) then some q else some x) none

/-- Banks that stay in in-order mode: those where a queued read and a queued write address one row (R170). -/
def inorderLeft (s : State) (c : Nat) : State :=
  let ch := chGet s c
  let clash (b : Nat × Nat × Nat) : Bool := ch.queue.any (fun q => ch.wbuf.any (fun w =>
    decide ((bankRow s q.line).1 = b) && decide (bankRow s q.line = bankRow s w.line)))
  chMod s c (fun ch => { ch with inorder := ch.inorder.filter clash })

/-- An access to a line issues: row hit or miss, and the bank's open row (R171). -/
def touchBank (s : State) (c line : Nat) : State :=
  let br := bankRow s line
  let s1 := bump s (if rowOpen s c line then .dmcRowHit else .dmcRowMiss) c 0 0
  let keep := regField s (dmcAgent 0) 0x10C 0 8 ≠ 0
  chMod s1 c (fun ch => { ch with banks := if keep then aput ch.banks br.1 (br.2, s.now) else adel ch.banks br.1 })

/-- Counters of reads and writes per class, for a pitch in S1 and S2 (R191). -/
def countAccess (s : State) (c cls n : Nat) (write : Bool) : State :=
  bump s (if write then .dmcWrS else .dmcRdS) c cls (if cls = 1 ∨ cls = 2 then n else 0)

/-- Requests held at the slice enter the owner's reserve as long as they pass the test of R176. -/
def admitHeld : Nat → State → Nat → State
  | 0, s, _ => s
  | fuel + 1, s, c =>
    let o := windowOwner s (c / 4)
    let ch := chGet s c
    match firstIdx (fun q => q.held && (decide (q.pitch.toNat = o) || !hasWindows s q.pitch.toNat (c / 4))) ch.queue 0 with
    | none => s
    | some i =>
      let n := ((ch.queue[i]?).map (fun q => q.pitch.toNat)).getD 0
      if n ≠ o ∨ windowAdmits s c n then
        admitHeld fuel (chMod s c (fun ch => { ch with queue := lmod (fun q => { q with held := false }) ch.queue i })) c
      else s

def admitAll (s : State) (c : Nat) : State := admitHeld (chGet s c).queue.length s c

/-! ## A line read (R163, R178 to R180) -/

/-- How a read ended. -/
inductive ReadEnd where
  | served | transient | media | integrity
deriving DecidableEq, Repr

/-- Read-outs in order, with the re-reads left after a parity failure and after a tag failure; a line that is bad
as stored reads bad every time. -/
def readOuts (c : Nat) (sticky : Option ReadOut) : Nat → State → List ReadOut → Nat → Nat → Bool → State × ReadEnd
  | 0, s, _, _, _, _ => (s, .media)
  | fuel + 1, s, outs, p, t, again =>
    match sticky.getD (outs.headD .good) with
    | .good => if again then (bump s .mceReread c 0 0, .transient) else (s, .served)
    | .parity =>
      let s1 := bump s .mceParity c 0 0
      if p = 0 then (s1, .media) else readOuts c sticky fuel s1 outs.tail (p - 1) t true
    | .tag =>
      let s1 := bump s .mceTagFail c 0 0
      if t = 0 then (s1, .integrity) else readOuts c sticky fuel s1 outs.tail p (t - 1) true

/-- The unsent response that a failed line access decides: a stream from its first segment with the line, a one-frame
response as a whole (R82, R87). -/
def cutForLine (s : State) (line status : Nat) (who : Option (FlowId × BitVec 24)) : State :=
  let s1 := cutStreams s (frameHits (fun l => decide (l = line))) status
  match who with
  | none => s1
  | some w => cutStreams s1 (fun f => decide (f.flow = some w.1) && decide (f.flowSeq = w.2) && f.lines.isEmpty) status

/-- A write whose check read failed does not happen: it leaves the write buffer (R165). -/
def dropWrite (s : State) (c line : Nat) (check : Bool) : State :=
  if check then chMod s c (fun ch => { ch with wbuf := ch.wbuf.filter (fun w => w.line ≠ line) }) else s

/-- The read that the rules put first in a subchannel issues and completes; `entryBad` says that its queue entry fails
parity twice (R180). -/
def lineReadDone (s : State) (c sub : Nat) (entryBad : Bool) (outs : List ReadOut) : State :=
  match nextCand s c sub (fun q => !q.write) with
  | none => s
  | some q =>
    let ch := chGet s c
    match firstIdx (fun (x : DmcReq) => !x.held && decide (x.line = q.line) && decide (x.arrived = q.arrived)) ch.queue 0 with
    | none => s
    | some i =>
      let e := (ch.queue[i]?).getD {}
      let n := e.pitch.toNat
      let s1 := countAccess (touchBank s c e.line) c e.cls n false
      let s2 := inorderLeft (chMod s1 c (fun ch => { ch with queue := ch.queue.eraseIdx i })) c
      let lo := lineLo e.line
      let hi := lineHi e.line
      let s3 := if entryBad then
          let r := faultRec s2 { agent := dmcAgent c, cause := 0x11, cls := clsFailed, state := actCode (uAct s2 (uChan c)),
                                 pitch := some n, status := stMedia, lo := lo, hi := hi, unit := some (uChan c) }
          dropWrite (cutForLine (bump r .mceMedia c 0 n) e.line stMedia e.who) c e.line e.check
        else
          let sticky : Option ReadOut := match lineVerdict s2 e.line with
            | .good => none
            | .media => some .parity
            | .integrity => some .tag
          let r := readOuts c sticky 6 s2 outs 3 1 false
          match r.2 with
          | .served => r.1
          | .transient => r.1
          | .media =>
            let k := if (metaGet r.1 e.line).poison = 0 then 0 else 2
            retirePage (dropWrite (cutForLine (bump r.1 .mceMedia c 0 n) e.line stMedia e.who) c e.line e.check) e.line k
          | .integrity =>
            retirePage (dropWrite (cutForLine (bump r.1 .mceIntegrity c 0 n) e.line stIntegrity e.who) c e.line e.check) e.line 1
      admitAll s3 c

/-- The line that the rules put first in a subchannel leaves the write buffer; `bad` names the words whose parity fails
on both read-outs of the buffer (R180). -/
def writeIssue (s : State) (c sub : Nat) (bad : BitVec 16) : State :=
  match nextCand s c sub (fun q => q.write) with
  | none => s
  | some q =>
    match firstIdx (fun (x : WbLine) => decide (x.line = q.line) && decide (x.arrived = q.arrived)) (chGet s c).wbuf 0 with
    | none => s
    | some i =>
      let n := q.pitch.toNat
      let s1 := countAccess (touchBank s c q.line) c q.cls n true
      let s2 := chMod s1 c (fun ch =>
        let w := ch.wbuf.eraseIdx i
        { ch with wbuf := w, drainWrites := ch.drainWrites && decide (16 < w.length) })
      let s3 := inorderLeft s2 c
      if bad = 0 then s3
      else
        let s4 := metaPut s3 q.line { metaGet s3 q.line with poison := (metaGet s3 q.line).poison ||| bad }
        faultRec s4 { agent := dmcAgent c, cause := 0x14, cls := clsFailed, state := actCode (uAct s4 (uChan c)),
                      pitch := some n, lo := lineLo q.line, hi := lineHi q.line, unit := some (uChan c) }

/-! ## Promotion, idle rows, refresh (R167, R171, R173, R174) -/

/-- An access has waited longer than DMC_AGE_LIMIT: it is promoted, and with it the requests ahead of it in an in-order
bank. -/
def agePromote (s : State) (c : Nat) : State :=
  let limit := regField s (dmcAgent 0) 0x108 0 8 * 100
  let ch := chGet s c
  let all := (ch.queue.filter (fun q => !q.promoted ∧ !q.held)).map (fun q => (q.arrived, q.line)) ++
    (ch.wbuf.filter (fun w => !w.promoted)).map (fun w => (w.arrived, w.line))
  match all.foldl (fun (b : Option (Nat × Nat)) e => match b with
    | none => some e
    | some x => if e.1 < x.1 then some e else some x) none with
  | none => s
  | some e =>
    let s1 := nowTo s (e.1 + limit)
    let b := (bankRow s e.2).1
    let ordered := decide (b ∈ ch.inorder)
    let up (arrived line : Nat) : Bool := (decide (arrived = e.1) && decide (line = e.2)) ||
      (ordered && decide ((bankRow s line).1 = b) && decide (arrived ≤ e.1))
    let k := (all.filter (fun x => up x.1 x.2)).length
    bumpN (chMod s1 c (fun ch => { ch with
      queue := ch.queue.map (fun q => if up q.arrived q.line && !q.held then { q with promoted := true } else q)
      wbuf := ch.wbuf.map (fun w => if up w.arrived w.line then { w with promoted := true } else w) })) .dmcPromote c 0 0 k

/-- A bank has had no access for DMC_PAGE_CFG.IDLE. -/
def pageIdle (s : State) (c : Nat) (b : Nat × Nat × Nat) : State :=
  match aget (chGet s c).banks b with
  | none => s
  | some e => chMod (nowTo s (e.2 + regField s (dmcAgent 0) 0x10C 0 8 * 10)) c (fun ch => { ch with banks := adel ch.banks b })

/-- A refresh instant: every bank of every channel is precharged and refreshed, and tREFI takes the length that the module
temperatures ask for. -/
def refreshInstant (s : State) : State :=
  match s.dmc.refreshNext with
  | none => s
  | some t =>
    let s1 := nowTo s t
    let s2 := foldN 16 (fun s c => if uAct s (uChan c) = .retired then s
      else bump (chMod s c (fun ch => { ch with banks := [] })) .dmcRefresh c 0 0) s1
    let cool := match s.dmc.coolSince with
      | some x => decide (x + 1000000000 ≤ s1.now)
      | none => false
    let hot := s.dmc.hotNext || (s.dmc.hot && !cool)
    dmcMod s2 (fun d => { d with hot := hot, hotNext := false, refreshNext := some (t + (if hot then 1950 else 3900)) })

/-! ## Command/address alerts and retraining (R181, R182) -/

def subGet (s : State) (c sub : Nat) : SubCh := if sub = 0 then (chGet s c).subA else (chGet s c).subB

def subMod (s : State) (c sub : Nat) (f : SubCh → SubCh) : State :=
  chMod s c (fun ch => if sub = 0 then { ch with subA := f ch.subA } else { ch with subB := f ch.subB })

/-- A retraining is needed: a second one in the group within 10 minutes of the first retires the group instead. -/
def retrainStart (s : State) (c : Nat) : State :=
  let g := c / 4
  let recent := match tfind s.dmc.retrains g with
    | some t => decide (s.now < t + 600000000000)
    | none => false
  if !serving (uAct s (uChan c)) then s
  else if recent then retireGroup s g 0x16 0 0
  else
    let prior := uAct s (uChan c)
    let s1 := uMove (uSet s (uChan c) { uGet s (uChan c) with prior := some prior }) (uChan c) .training
    let s2 := chMod s1 c (fun ch => { ch with retrainTimer := some (s.now + 20000000) })
    bump (dmcMod s2 (fun d => { d with retrains := tins d.retrains g s.now })) .dmcRetrain c 0 0

/-- ALERT_n is sampled asserted on a subchannel: it stops, its banks are precharged, and the commands are replayed or, on
the third consecutive alert, a retraining starts. -/
def caAlert (s : State) (c sub : Nat) : State :=
  let third := decide (2 ≤ (subGet s c sub).consec)
  let s1 := bump s .dmcCaAlert c 0 0
  let s2 := subMod s1 c sub (fun b => { b with stopped := true, deferred := b.deferred || third,
                                               consec := if third then 0 else b.consec + 1 })
  let s3 := chMod s2 c (fun ch => { ch with banks := ch.banks.filter (fun e => e.1.1 ≠ sub) })
  if third then retrainStart s3 c else s3

/-- The replay of a subchannel's commands completes. -/
def caReplayDone (s : State) (c sub : Nat) : State :=
  let b := subGet s c sub
  if b.stopped ∧ !b.deferred then bump (subMod s c sub (fun b => { b with stopped := false, since := 0 })) .dmcCaReplay c 0 0
  else s

/-- 64 commands have issued since the replay. -/
def caConsecReset (s : State) (c sub : Nat) : State :=
  if (subGet s c sub).stopped then s else subMod s c sub (fun b => { b with consec := 0, since := 64 })

/-- A retraining ends: the channel returns to the state it left and deferred commands are replayed, or the group is
retired. -/
def retrainDone (s : State) (c : Nat) (ok : Bool) : State :=
  let u := uGet s (uChan c)
  if u.actual ≠ .training ∨ (chGet s c).retrainTimer = none then s
  else
    let s1 := chMod s c (fun ch => { ch with retrainTimer := none })
    if !ok then retireGroup s1 (c / 4) 0x16 0 0
    else
      let s2 := uMove s1 (uChan c) (u.prior.getD .up)
      let s3 := uSet s2 (uChan c) { uGet s2 (uChan c) with prior := none }
      foldN 2 (fun s sub => if (subGet s c sub).deferred then
        bump (subMod s c sub (fun b => { b with stopped := false, deferred := false, since := 0 })) .dmcCaReplay c 0 0 else s) s3

/-- 20 ms pass without success. -/
def retrainTimeout (s : State) (c : Nat) : State :=
  match (chGet s c).retrainTimer with
  | some t => retrainDone (nowTo s t) c false
  | none => s

end Sys2Proof.Machine
end

