-- ==== Sys2Proof/Machine/GateList.lean ====
section
/-! DEFINITION. Gate lists, token refills and the policing register that has behaviour of its own (R175 to R177, R378,
R381, R383, R386 to R391). -/
namespace Sys2Proof.Machine

def glGet (s : State) (l : Nat) : GateList := tget {} s.tmg.lists l
def glPut (s : State) (l : Nat) (g : GateList) : State := tmgMod s (fun t => { t with lists := tset {} t.lists l g })

/-- Fields of an entry (R387). -/
def gInterval (e : Word × Word) : Nat := bitsOf e.1 0 24 * 8
def gOpen (e : Word × Word) (c : Nat) : Bool := e.1.getLsbD (24 + c)
def gOwner (e : Word × Word) : Nat := bitsOf e.2 0 8

def cycleOf (es : List (Word × Word)) : Nat := (es.map gInterval).sum

/-- The shadow bank as the list its LEN gives. -/
def shadowList (g : GateList) : List (Word × Word) := (upto g.len).map (fun i => tget (0, 0) g.shadow i)

/-- T in ns of CD10. -/
def glT (g : GateList) : Nat := g.tSec * 1000000000 + g.tNs

/-! ## COMMIT (R388) -/

/-- Lengths of the runs of consecutive entries, around the cycle, in which a class is open; none while every entry is
open to it. -/
def openRuns (es : List (Word × Word)) (c : Nat) : List Nat :=
  match firstIdx (fun e => !gOpen e c) es 0 with
  | none => []
  | some i =>
    let turned := es.drop i ++ es.take i
    let r := turned.foldl (fun (a : List Nat × Nat) e =>
      if gOpen e c then (a.1, a.2 + gInterval e) else (if a.2 = 0 then a.1 else a.1 ++ [a.2], 0)) ([], 0)
    if r.2 = 0 then r.1 else r.1 ++ [r.2]

/-- The first test that fails, as its STATUS code. -/
def commitFails (s : State) (l : Nat) (g : GateList) : Option Nat :=
  let es := shadowList g
  let port := decide (l < 8)
  let resv (e : Word × Word) : Bool := decide (bitsOf e.2 8 24 ≠ 0) || (!port && decide (bitsOf e.1 24 8 ≠ 0))
  let format := decide (g.len = 0) || decide (1024 < g.len) || decide (1000000000 ≤ g.tNs) ||
    es.any (fun e => decide (gInterval e = 0) || resv e)
  let least := if portSplit s (l / 2) then 96 else 48
  let openBad := if port then es.any (fun e => !gOpen e 7) || decide (((es.filter (fun e => gOpen e 6)).map gInterval).sum < 1000)
    else !es.any (fun e => decide (gOwner e = 0) && decide (1000 ≤ gInterval e))
  let ownerOk (n : Nat) : Bool := decide (n = 0) || (pWalled s n && decide ((pGet s n).life ≠ .empty) &&
    (port || (pGet s n).slots.any (fun x => (granGet s x.2).group = l - 8)))
  if format then some 4
  else if glT g < cd10Total s + 10000 then some 3
  else if openBad then some 5
  else if port ∧ (upto 6).any (fun c => (openRuns es c).any (fun r => decide (r < least))) then some 6
  else if es.any (fun e => !ownerOk (gOwner e)) then some 7
  else if (if port then decide (l % 2 = 1) && !portSplit s (l / 2) else decide (uAct s (uGroup (l - 8)) = .retired)) then some 8
  else none

/-- COMMIT of the list that a source has selected. A refusal shows its code while no list runs, and is recorded while one
runs. -/
def glCommit (s : State) (l : Nat) : State :=
  if 12 ≤ l then s
  else
    let g := glGet s l
    match commitFails s l g with
    | some code =>
      let s1 := bump0 s .tmgGlRefused
      if g.start.isSome then faultRec s1 { agent := tmgAgent, cause := 0, cls := clsFailed, lo := l, hi := code }
      else glPut s1 l { g with status := BitVec.ofNat 8 code }
    | none =>
      let s1 := if g.pending.isSome then bump0 s .tmgGlReplaced else s
      glPut s1 l { g with pending := some (glT g, shadowList g), status := 1 }

/-! ## Running a list (R389, R391) -/

/-- Memory banks of a group are precharged where an owned interval starts or closes (R177). -/
def windowPrecharge (s : State) (group : Nat) : State :=
  foldS ((upto 4).map (fun i => 4 * group + i)) s (fun s c =>
    bump (chMod s c (fun ch => { ch with banks := [] })) .dmcWinPrecharge c 0 0)

/-- An interval begins: its owner is judged, and memory waiting for it is admitted. -/
def intervalBegins (s : State) (l entry at_ : Nat) : State :=
  let g := glGet s l
  let o := ((g.active[entry]?).map gOwner).getD 0
  let owner := if o ≠ 0 ∧ (pGet s o).life = .up then o else 0
  let s1 := glPut s l { g with start := some at_, entry := entry, owner := owner }
  if l < 8 then s1
  else
    let s2 := if g.owner ≠ 0 ∨ owner ≠ 0 then windowPrecharge s1 (l - 8) else s1
    foldS ((upto 4).map (fun i => 4 * (l - 8) + i)) s2 admitAll

/-- The pending list takes over at an instant: the banks exchange, and the shadow bank is a copy of the new list. -/
def takeOver (s : State) (l at_ : Nat) (es : List (Word × Word)) : State :=
  let g := glGet s l
  let shadow := (es.zip (upto es.length)).foldl (fun t e => tset (0, 0) t e.2 e.1) []
  let s1 := glPut s l { g with active := es, shadow := shadow, len := es.length, pending := none, status := 2 }
  let s2 := trace (bump0 s1 .tmgGlTake) 4 0 tmgAgent 0 ([BitVec.ofNat 8 l, 0] ++ leBytes 2 es.length)
  intervalBegins s2 l 0 at_

/-- End of the running interval. -/
def intervalEnd (g : GateList) : Option Nat := g.start.map (fun t => t + ((g.active[g.entry]?).map gInterval).getD 0)

/-- A committed list takes over: at T when no list runs, at the end of a cycle that falls at or after T otherwise. -/
def glTakeover (s : State) (l : Nat) : State :=
  let g := glGet s l
  match g.pending with
  | none => s
  | some (t, es) =>
    match intervalEnd g with
    | none => takeOver (cd10To s t) l t es
    | some e => if g.entry + 1 = g.active.length ∧ t ≤ e then takeOver (cd10To s e) l e es else s

/-- Has a pending list's T come at an instant? -/
def pendingDue (g : GateList) (t : Nat) : Bool :=
  match g.pending with
  | some (x, _) => decide (x ≤ t)
  | none => false

/-- The next interval begins; at a cycle's end the committed list begins instead if its T has come. -/
def glBoundary (s : State) (l : Nat) : State :=
  let g := glGet s l
  match intervalEnd g with
  | none => s
  | some e =>
    if g.entry + 1 = g.active.length ∧ pendingDue g e then glTakeover s l
    else intervalBegins (cd10To s e) l ((g.entry + 1) % g.active.length) e

/-! ## Egress gates (R387, R390) -/

/-- May a class and pitch start frames in an entry, its owner judged as `owner`? -/
def entryLets (e : Word × Word) (owner cls n : Nat) : Bool :=
  gOpen e cls && (decide (cls ≠ 2) || decide (owner = 0) || decide (owner = n))

/-- Time for which a gate stays open from the end of the running interval, over the entries that follow; a pending list
counts from its take-over. Later owners are judged as they stand. -/
def openAfter (s : State) (cls n : Nat) : Nat → List (Word × Word) → List (Word × Word) → Nat
  | 0, _, _ => 0
  | fuel + 1, [], again => if again.isEmpty then 0 else openAfter s cls n fuel again again
  | fuel + 1, e :: rest, again =>
    let o := if gOwner e ≠ 0 ∧ (pGet s (gOwner e)).life = .up then gOwner e else 0
    if entryLets e o cls n then gInterval e + openAfter s cls n fuel rest again else 0

/-- How long the gate of a class stays open for a pitch on a link: none means without end, 0 that it is shut. -/
def gateLeft (s : State) (l cls n : Nat) : Option Nat :=
  let g := glGet s l
  match intervalEnd g with
  | none => none
  | some e =>
    match g.active[g.entry]? with
    | none => none
    | some cur =>
      if entryLets cur g.owner cls n then
        let now := cd10Total s
        let rest := g.active.drop (g.entry + 1)
        let toEnd := (rest.map gInterval).sum
        let next := match g.pending with
          | some (t, es) => if t ≤ e + toEnd then es else g.active
          | none => g.active
        some ((e - now) + openAfter s cls n (rest.length + 2 * next.length + 2) rest next)
      else some 0

/-! ## Refills (R378, R381, R386) -/

/-- One 125 ns tick: every bucket gains its rate in eighths of a byte, up to its depth. -/
def refillTick (s : State) : State :=
  let s1 := periodicCd10 s 7 125
  let ps := (upto 256).filter (fun n => decide (n ≠ 0) && decide ((pGet s1 n).life ≠ .empty))
  let s2 := foldS ps s1 (fun s n => foldN 7 (fun (s : State) c =>
    let r := pRate s n c
    let k := bucketGet s n c
    bucketPut s n c { c := min (bucketDepth r.1 (burstOf s c)) (k.c + r.1), p := min (bucketDepth r.2 (burstOf s c)) (k.p + r.2) }) s)
  let rate (k : Nat) : Nat := regField s2 tmgAgent 0x128 (if k < 8 then 0 else 16) 16
  let s3 := foldS ([0, 1, 2, 3, 4, 8, 9, 10, 11, 12]) s2 (fun s k =>
    let d := bucketDepth (rate k) (burstOf s (if k < 8 then 6 else 7))
    tmgMod s (fun t => { t with privs := tset 0 t.privs k (min d (tget 0 t.privs k + rate k)) }))
  foldN 64 (fun s k =>
    let off := 0x400 + 0x20 * (k / 8) + 4 * (k % 8)
    let depth := regField s tmgAgent off 16 16 * 256 * 8
    tmgMod s (fun t => { t with shapers := tset 0 t.shapers k (min depth (tget 0 t.shapers k + 100 * regField s tmgAgent off 0 16)) })) s3

/-! ## TMG_PCFG_n (R383) -/

/-- A write of TMG_PCFG_n, accepted while the pitch is EMPTY or STRUCK. -/
def pcfgWrite (s : State) (n : Nat) (v : Word) : State :=
  if n = 0 ∨ 256 ≤ n then s
  else if (pGet s n).life = .empty ∨ (pGet s n).life = .struck then regSet s tmgAgent (0x1000 + 4 * n) (v &&& 1)
  else bump0 s .tmgCfgRefused

end Sys2Proof.Machine
end

