-- ==== Sys2Proof/Machine/Tx.lean ====
section
/-! DEFINITION. Starting frames on a link: eligibility, fair queueing, KLR sequence, credit, replay and spill (R61,
R360 to R369, R384 to R392). -/
namespace Sys2Proof.Machine

/-! ## KLR headers (R361) -/

/-- Bytes 0–15 of a KLR header. -/
def klrHdrBytes (h : KlrHdr) : List Byte :=
  [BitVec.ofNat 8 (h.ver.toNat * 16 + h.typ.toNat), BitVec.ofNat 8 (h.tc.toNat * 32 + b2n h.av * 16 + b2n h.rq * 8)] ++
    beBytes 3 h.seq.toNat ++ beBytes 3 h.ack.toNat ++ [BitVec.ofNat 8 (h.crTc.toNat * 32 + b2n h.cv * 16), h.want] ++
    beBytes 3 h.crLimit.toNat ++ zeros 3

/-- Units of a class's reserve and of the shared part of a link's receive pool (R368). -/
def poolReserve (s : State) (l : Nat) : Nat := if portSplit s (l / 2) then 512 else 1024
def poolShared (s : State) (l : Nat) : Nat := if portSplit s (l / 2) then 12288 else 24576

/-- LIMIT_c that a receiver advertises (R369). -/
def limitOf (s : State) (l c : Nat) : BitVec 24 :=
  let k := klrGet s l
  (k.rcvd[c]?).getD 0 + BitVec.ofNat 24 (poolReserve s l - (k.held[c]?).getD 0 + (k.granted[c]?).getD 0)

def unitsOf (bytes : Nat) : Nat := (bytes + 255) / 256

/-- May a class send u more units (R369)? -/
def creditOk (k : Klr) (c u : Nat) : Bool :=
  match (k.limit[c]?).getD none with
  | none => false
  | some lim => decide ((lim - (k.sent[c]?).getD 0 - BitVec.ofNat 24 u).toNat < 0x800000)

def sentAdd (k : Klr) (c : Nat) (u : BitVec 24) : Klr := { k with sent := lmod (· + u) k.sent c }

/-- WANT: classes with a queued head that waits for credit. -/
def wantBits (s : State) (l : Nat) : BitVec 8 :=
  let k := klrGet s l
  BitVec.ofNat 8 ((upto 7).map (fun c =>
    b2n (s.tmg.queues.any (fun q => decide (q.1.1 = l) && decide (q.1.2.2 = c) && (match qHead q.2 with
      | some f => !creditOk k c (unitsOf (frameLen s l f))
      | none => false))) * 2 ^ c)).sum

/-- A header of this link's sender; `rq` asks for a replay. -/
def klrHdr (s : State) (l typ : Nat) (tc : BitVec 3) (seq : BitVec 24) (rq : Bool) : KlrHdr :=
  let data := decide (typ = 0)
  let h : KlrHdr :=
    { typ := BitVec.ofNat 4 typ, tc := tc, rq := rq, seq := seq, ack := (klrGet s l).rxNext - 1, crTc := tc, cv := data,
      want := wantBits s l, crLimit := if data then limitOf s l tc.toNat else 0 }
  { h with hcrc := crc32c (klrHdrBytes h) }

/-- A frame leaves the link: it carries the acknowledgement that was due. -/
def klrSent (s : State) (l : Nat) : State := klrMod s l (fun k => { k with ackDue := none })

def putWire (s : State) (w : WireItem) : State := { s with wire := s.wire ++ [w] }

/-- Send a control frame with its BCRC (R361). -/
def klrCtl (s : State) (l typ : Nat) (rq : Bool) (body : List Byte) : State :=
  klrSent (putWire s (.klrCtl l (klrHdr s l typ 0 0 rq) (body ++ beBytes 4 (crc32c body).toNat))) l

def replayNs (s : State) (l : Nat) : Nat := regField s (klrAgent (l / 2)) 0x104 0 16 * 1000
def klrAckNs (s : State) (l : Nat) : Nat := regField s (klrAgent (l / 2)) 0x104 16 8 * 10

/-- Send a STATUS (R365). -/
def klrStatus (s : State) (l : Nat) (rq : Bool) : State :=
  let body := (upto 7).flatMap (fun c => beBytes 4 ((limitOf s l c).toNat * 256 + 1))
  let s1 := bump (klrCtl s l 1 rq body) .klrStatusTx (l / 2) (l % 2) 0
  let s2 := if rq then bump s1 .klrRqTx (l / 2) (l % 2) 0 else s1
  klrMod s2 l (fun k => { k with statusDue := s.now + replayNs s l / 4 })

/-! ## Replay buffer and spill (R363, R367) -/

def bufferCap (s : State) (l : Nat) : Nat := if portSplit s (l / 2) then 0x200000 else 0x400000
def spillCap (s : State) (l : Nat) : Nat :=
  regField s (klrAgent (l / 2)) 0x10C 0 12 * 0x100000 / (if portSplit s (l / 2) then 2 else 1)

def onChip (es : List KlrEnt) : Nat := ((es.filter (fun e => !e.spilled)).map (·.bytes)).sum
def inSpill (es : List KlrEnt) : Nat := ((es.filter (·.spilled)).map (·.bytes)).sum

/-- Spill the oldest frames on chip until `need` bytes fit: the frames, and how many moved; none if spill is full. -/
def makeRoom (cap spill need : Nat) : Nat → List KlrEnt → Nat → Option (List KlrEnt × Nat)
  | 0, _, _ => none
  | fuel + 1, es, moved =>
    if onChip es + need ≤ cap then some (es, moved)
    else
      match firstIdx (fun (e : KlrEnt) => !e.spilled) es 0 with
      | none => none
      | some i =>
        let b := ((es[i]?).map (·.bytes)).getD 0
        if spill < inSpill es + b then none
        else makeRoom cap spill need fuel (lmod (fun e => { e with spilled := true }) es i) (moved + 1)

/-- Does window or spill stop a new DATA frame of some bytes (R363)? -/
def windowStall (s : State) (l bytes : Nat) : Bool :=
  let k := klrGet s l
  decide (0x800000 ≤ k.unacked.length) ||
    (makeRoom (bufferCap s l) (spillCap s l) bytes (k.unacked.length + 1) k.unacked 0).isNone

/-- Does a lane-map exchange hold DATA frames (R352)? -/
def swapHolds (s : State) (l : Nat) : Bool :=
  match (tget {} s.prt (l / 2)).swap with
  | some w => w.sentSwitch
  | none => false

/-! ## Eligibility (R384, R386, R390) -/

/-- Bytes that a link carries in a nanosecond. -/
def linkRate (s : State) (l : Nat) : Nat := if portSplit s (l / 2) then 100 else 200

/-- Do the gates let a frame of L bytes start? TC6 needs its gate open, TC0–TC5 must also fit before it closes; TC7 always
may. -/
def gateOk (s : State) (l cls n len : Nat) : Bool :=
  if l = 8 ∨ cls = 7 then true
  else
    match gateLeft s l cls n with
    | none => true
    | some t => if cls = 6 then decide (0 < t) else decide (len ≤ t * linkRate s l)

def shapeReg (l c : Nat) : Nat := 0x400 + 0x20 * l + 4 * c

def shapeOk (s : State) (l cls len : Nat) : Bool :=
  decide (l = 8) || decide (regField s tmgAgent (shapeReg l cls) 0 16 = 0) || decide (8 * len ≤ tget 0 s.tmg.shapers (8 * l + cls))

/-- What holds the head frame of a queue back. -/
inductive Held where
  | free | gate | shaper | window | credit | closed
deriving DecidableEq, Repr

def headHeld (s : State) (l cls n : Nat) (f : TxFrame) : Held :=
  let bytes := frameLen s l f
  let len := bytes + overhead s
  if cls = 7 then .free
  else if linkKlr s l ∧ (!s.tpt.admitting ∨ swapHolds s l ∨ !(klrGet s l).replay.isEmpty) then .closed
  else if !gateOk s l cls n len then .gate
  else if !shapeOk s l cls len then .shaper
  else if linkKlr s l ∧ windowStall s l bytes then .window
  else if linkKlr s l ∧ !creditOk (klrGet s l) cls (unitsOf bytes) then .credit
  else .free

/-- Count a head that is held, once for each head (R363, R395). -/
def noteHeld (s : State) (e : (Nat × Nat × Nat) × Queue) : State :=
  let l := e.1.1
  let n := e.1.2.1
  let cls := e.1.2.2
  match qHead e.2 with
  | none => s
  | some f =>
    match headHeld s l cls n f with
    | .gate => if e.2.gateHeld = some f.stamp then s
        else qPut (bump s .tmgGateWait 0 (8 * l + cls) n) e.1 { e.2 with gateHeld := some f.stamp }
    | .shaper => if e.2.shapeHeld = some f.stamp then s
        else qPut (bump s .tmgShapeWait 0 (8 * l + cls) 0) e.1 { e.2 with shapeHeld := some f.stamp }
    | .window => if e.2.klrHeld = some f.stamp then s
        else qPut (bump s .klrWindowStall (l / 2) (l % 2) 0) e.1 { e.2 with klrHeld := some f.stamp }
    | .credit => if e.2.klrHeld = some f.stamp then s
        else qPut (bump s .klrCreditStall (l / 2) (l % 2) 0) e.1 { e.2 with klrHeld := some f.stamp }
    | _ => s

/-! ## The choice (R385) -/

/-- A head that a link may start. -/
structure Head where
  key : Nat × Nat × Nat := (0, 0, 0)
  q : Queue := {}
  f : TxFrame := {}

def eligibleHeads (s : State) (l : Nat) : List Head :=
  (s.tmg.queues.filter (fun e => e.1.1 = l)).filterMap (fun e => match qHead e.2 with
    | some f => if headHeld s l e.1.2.2 e.1.2.1 f = .free then some { key := e.1, q := e.2, f := f } else none
    | none => none)

/-- The best of some heads by an order. -/
def bestHead (lt : Head → Head → Bool) (hs : List Head) : Option Head :=
  hs.foldl (fun b h => match b with
    | none => some h
    | some x => if lt h x then some h else some x) none

/-- Least start, then the higher class, then the lower pitch. -/
def sfqLt (a b : Head) : Bool :=
  decide (a.q.start < b.q.start) || (decide (a.q.start = b.q.start) &&
    (decide (b.key.2.2 < a.key.2.2) || (decide (a.key.2.2 = b.key.2.2) && decide (a.key.2.1 < b.key.2.1))))

/-- The head that the link starts: the oldest TC7, else the oldest TC6, else by start-time fair queueing. -/
def chooseHead (s : State) (l : Nat) : Option Head :=
  let hs := eligibleHeads s l
  let old (c : Nat) : Option Head := bestHead (fun a b => decide (a.f.stamp < b.f.stamp)) (hs.filter (fun h => h.key.2.2 = c))
  match old 7 with
  | some h => some h
  | none =>
    match old 6 with
    | some h => some h
    | none => bestHead sfqLt hs

/-! ## The start -/

/-- The next ALIVE value of a stream (R61). -/
def aliveNext (s : State) (st : StreamId) : State × Byte :=
  let a := match aget s.tpt.txAlive st with
    | some v => v + 1
    | none => 0
  (tptMod s (fun t => { t with txAlive := aput t.txAlive st a }), a)

/-- Give a KPP frame its ALIVE and HCRC. -/
def sealHdr (s : State) (f : TxFrame) : State × Byte × Word :=
  if f.raw.isSome then (s, 0, 0)
  else
    let a := aliveNext s f.stream
    (a.1, a.2, crc32c (txHdrBytes f a.2))

/-- A transmitted PTP event message is timestamped (R358). -/
def isEvent (m : PtpMsg) : Bool :=
  decide (m.kind = .sync ∨ m.kind = .delayReq ∨ m.kind = .pdelayReq ∨ m.kind = .pdelayResp)

/-- Put a frame on a link as it is, outside KLR. -/
def putPlain (s : State) (l : Nat) (f : TxFrame) (alive : Byte) (hcrc : Word) : State :=
  match f.raw with
  | some r =>
    let s1 := putWire s (.raw l r)
    (match r with
     | .ptp m => if isEvent m then bump s1 .prtPtpTs (l / 2) 0 0 else s1
     | .neighbour _ _ _ => s1)
  | none => putWire s (.kpp l f alive hcrc)

/-- Put a new DATA frame on a link with the next SEQ (R363). -/
def putData (s : State) (l : Nat) (f : TxFrame) (alive : Byte) (hcrc : Word) : State :=
  let k := klrGet s l
  let bytes := frameLen s l f
  let room := (makeRoom (bufferCap s l) (spillCap s l) bytes (k.unacked.length + 1) k.unacked 0).getD (k.unacked, 0)
  let ent : KlrEnt := { seq := k.next, frame := f, alive := alive, hcrc := hcrc, bytes := bytes }
  let s1 := putWire s (.klrData l (klrHdr s l 0 f.tc k.next false) f alive hcrc)
  let k1 := sentAdd { k with next := k.next + 1, unacked := room.1 ++ [ent]
                             replayDue := some (k.replayDue.getD (s.now + replayNs s l)) } f.tc.toNat (BitVec.ofNat 24 (unitsOf bytes))
  klrSent (bumpN (klrPut s1 l k1) .klrSpillOut (l / 2) (l % 2) 0 room.2) l

/-- What a frame held is freed once it is handed to the port (R110, R112). -/
def handedOver (s : State) (f : TxFrame) : State :=
  let s1 := match f.release with
    | some (id, q) => trkRelease s id q
    | none => s
  match f.refusal with
  | some p => tptMod s1 (fun t => { t with refusals := tset 0 t.refusals p (tget 0 t.refusals p - 1) })
  | none => s1

/-- Start the chosen head. -/
def startHead (s : State) (l : Nat) (h : Head) : State :=
  let cls := h.key.2.2
  let n := h.key.2.1
  let bytes := frameLen s l h.f
  let len := bytes + overhead s
  let q1 := if h.q.resp.isEmpty then { h.q with reqs := h.q.reqs.drop 1 } else { h.q with resp := h.q.resp.drop 1 }
  let s1 := if cls < 6 then tmgMod s (fun t => { t with vtime := tset 0 t.vtime l h.q.start }) else s
  let s2 := qPut s1 h.key (qHeadSet s1 h.key q1)
  let s3 := if l < 8 ∧ regField s tmgAgent (shapeReg l cls) 0 16 ≠ 0 then
      tmgMod s2 (fun t => { t with shapers := tset 0 t.shapers (8 * l + cls) (tget 0 t.shapers (8 * l + cls) - 8 * len) })
    else s2
  let s4 := if l < 8 then bumpN (bump s3 .tmgTxFrames 0 (8 * l + cls) n) .tmgTxBytes 0 (8 * l + cls) n bytes else s3
  let a := sealHdr s4 h.f
  let s5 := if linkKlr s l ∧ cls ≠ 7 then putData a.1 l h.f a.2.1 a.2.2 else putPlain a.1 l h.f a.2.1 a.2.2
  let s6 := handedOver s5 h.f
  if s6.tpt.held.isEmpty then s6 else sendHeld s6

/-- The next frame of a replay, if its class may send it (R366, R369, R392). -/
def startReplay (s : State) (l : Nat) : State :=
  let k := klrGet s l
  match k.replay with
  | [] => s
  | q :: rest =>
    match k.unacked.find? (fun e => e.seq = q) with
    | none => klrPut s l { k with replay := rest }
    | some e =>
      let c := e.frame.tc.toNat
      let u := unitsOf e.bytes
      if swapHolds s l ∨ !creditOk k c u ∨ !gateOk s l c e.frame.pitch.toNat (e.bytes + overhead s) then s
      else
        let un := k.unacked.map (fun x => if x.seq = q then { x with fresh := false } else x)
        let s1 := putWire (klrPut s l (sentAdd { k with replay := rest, unacked := un } c (BitVec.ofNat 24 u)))
          (.klrData l (klrHdr s l 0 e.frame.tc e.seq false) e.frame e.alive e.hcrc)
        let s2 := if e.fresh then s1 else bump s1 .klrReplayFrames (l / 2) (l % 2) 0
        klrSent (if e.spilled then bump s2 .klrSpillIn (l / 2) (l % 2) 0 else s2) l

/-- A free link starts a frame. -/
def linkStart (s : State) (l : Nat) : State :=
  if !linkOpen s l ∨ (l = 8 ∧ !serving (uAct s (uPort 4))) then s
  else
    let s1 := foldS (s.tmg.queues.filter (fun e => e.1.1 = l)) s noteHeld
    match chooseHead s1 l with
    | some h => if (klrGet s1 l).replay.isEmpty ∨ h.key.2.2 = 7 then startHead s1 l h else startReplay s1 l
    | none => startReplay s1 l

end Sys2Proof.Machine
end

