-- ==== Sys2Proof/Machine/Port.lean ====
section
/-! DEFINITION. Lanes, the lane-map exchange and the bring-up of the data ports; link states, sequence, acknowledgement,
replay and credits of KLR (R116, R343 to R372). -/
namespace Sys2Proof.Machine

def prtGet (s : State) (p : Nat) : Prt := tget {} s.prt p
def prtPut (s : State) (p : Nat) (x : Prt) : State := { s with prt := tset {} s.prt p x }
def prtMod (s : State) (p : Nat) (f : Prt → Prt) : State := prtPut s p (f (prtGet s p))

/-- Links of a data port (R343). -/
def portLinks (s : State) (p : Nat) : List Nat := if portSplit s p then [2 * p, 2 * p + 1] else [2 * p]

/-- PRT_CFG.SPARE_EN in 1 × 1.6 Tbit/s mode (R346, R350). -/
def spareOn (s : State) (p : Nat) : Bool := !portSplit s p && bitOf (regGet s (prtAgent p) 0x100) 4

/-- May the port use its spare lane now (R350)? -/
def spareUsable (s : State) (p : Nat) : Bool := spareOn s p && linkKlr s (2 * p) && (prtGet s p).peerLmap

/-- KLR_CFG.MODE: 0 OFF, 1 AUTO, 2 REQUIRED. -/
def klrMode (s : State) (p : Nat) : Nat := regField s (klrAgent p) 0x100 16 2

/-! ## Link down (R354, R362, R370) -/

/-- A link goes DOWN: everything it holds stays, and so does a lane's failure. -/
def linkDown (s : State) (l : Nat) : State :=
  let k := klrGet s l
  if k.state = .off ∨ k.state = .down then s
  else
    let k1 : Klr :=
      { k with state := .down, replay := [], replayDue := none, expiries := 0, ackDue := none, rqAt := none, helloRx := false,
               helloSeen := false, peerSeen := false, downSince := s.now }
    prtMod (bump (klrPut s l k1) .prtLinkDown (l / 2) 0 0) (l / 2) (fun x => { x with swap := none })

/-- A serving port retrains: it becomes TRAINING and remembers what it was (R11). -/
def portTrain (s : State) (p : Nat) : State :=
  let a := uAct s (uPort p)
  if serving a then
    let s1 := uMove (uSet s (uPort p) { uGet s (uPort p) with prior := some a }) (uPort p) .training
    prtMod s1 p (fun x => { x with fromOff := false, since := s.now, absent := false })
  else s

/-- The links of a port go down and the port retrains. -/
def portDown (s : State) (p : Nat) : State := portTrain (foldS (portLinks s p) s linkDown) p

/-- A bring-up from OFF starts: the links are DOWN until their PCS comes up (R8, R362). -/
def portBringUp (s : State) (p : Nat) : State :=
  let s1 := prtMod s p (fun x => { x with fromOff := true, since := s.now, absent := false, swap := none })
  foldS (portLinks s p) s1 (fun s l => klrMod s l (fun k => { k with state := .down, downSince := s.now }))

/-- The links of a port that stops are OFF; what they hold stays. -/
def portLinksOff (s : State) (p : Nat) : State :=
  foldS [2 * p, 2 * p + 1] (prtMod s p (fun x => { x with swap := none })) (fun s l =>
    if (klrGet s l).state = .off then s
    else klrMod s l (fun k => { k with state := .off, replay := [], replayDue := none, expiries := 0, ackDue := none,
                                       rqAt := none, helloRx := false, helloSeen := false, peerSeen := false }))

/-- Retire a port (R116, R355, R362): its links are OFF and its traffic moves. -/
def retirePort (s : State) (p cause : Nat) : State :=
  if uAct s (uPort p) = .retired then s
  else portHandoff (portLinksOff (retireUnit s (uPort p) cause 0 0) p) p

/-! ## Lane faults (R349, R352 to R355) -/

/-- A lane has failed and stays so until chip reset. -/
def laneFail (s : State) (p l cause : Nat) : State :=
  if l ∈ (prtGet s p).failed then s
  else retireUnit (bump (prtMod s p (fun x => { x with failed := insertNat l x.failed })) .prtLaneFail p 0 0) (uLane p l) cause 0 0

/-- Failed lanes among L0 to L7. -/
def failedData (s : State) (p : Nat) : List Nat := (prtGet s p).failed.filter (· < 8)

/-- The map with the one failed data lane on L8 (R354 step 3). -/
def laneMap (s : State) (p : Nat) : Word :=
  match failedData s p with
  | [n] => setBits (0x76543210 : Word) (4 * n) 4 8
  | _ => 0x76543210

/-- Does the failed set alone retire the port, whoever its peer is (R354 step 3, R355)? -/
def lanesLost (s : State) (p : Nat) : Bool :=
  let f := failedData s p
  if portSplit s p then !(prtGet s p).failed.isEmpty
  else decide (2 ≤ f.length) || (!f.isEmpty && (decide (8 ∈ (prtGet s p).failed) || !spareOn s p))

/-- Body of an LMAP frame before BCRC (R361). -/
def lmapBody (op : Nat) (w : LmapSwap) : List Byte :=
  [BitVec.ofNat 8 op, w.epoch, BitVec.ofNat 8 w.lane, BitVec.ofNat 8 w.phys] ++ beBytes 4 w.map.toNat ++ zeros 4

def sendLmap (s : State) (p op : Nat) (w : LmapSwap) : State := klrCtl s (2 * p) 3 false (lmapBody op w)

/-- A lane of a serving port, that carried `x`'s map, has failed with its link still working: a swap to the spare, the spare
consumed, or the port retired (R350, R352, R353, R355). -/
def laneSwap (s : State) (p l : Nat) (x : Prt) (cause : Nat) : State :=
  if portSplit s p ∨ !x.failed.isEmpty ∨ x.swap.isSome then retirePort s p cause
  else if l = 8 then degradeUnit s (uPort p) cause
  else if spareUsable s p then
    let w : LmapSwap :=
      { asker := true, lane := l, phys := l, map := setBits x.map (4 * l) 4 8, epoch := x.epoch + 1, since := s.now }
    sendLmap (prtMod s p (fun x => { x with swap := some w })) p 1 w
  else retirePort s p cause

/-- The threshold of corrected symbols is reached on a lane (R349, R352, R355). -/
def softFault (s : State) (p l symbols : Nat) : State :=
  let s1 := bumpN s .prtFecSym p l 0 symbols
  let x := prtGet s1 p
  if !serving (uAct s1 (uPort p)) ∨ l ∈ x.failed then s1
  else laneSwap (laneFail s1 p l 0x30) p l x 0x30

/-- A lane of a serving port loses its signal or clock lock (R349, R354): the link goes down and the port retrains, unless
R355 retires it already. -/
def hardFault (s : State) (p l : Nat) : State :=
  let x := prtGet s p
  if !serving (uAct s (uPort p)) ∨ l ∈ x.failed then s
  else
    let s1 := laneFail s p l 0x31
    if portSplit s p ∨ !x.failed.isEmpty ∨ (l < 8 ∧ !spareUsable s p) then retirePort s1 p 0x31
    else portDown s1 p

/-- 200 ms of lane bring-up end with some lanes dark at either side (R354 steps 1 to 3): all nine mean that the peer is
absent. -/
def bringUpTimeout (s : State) (p : Nat) (dark : BitVec 9) : State :=
  if uAct s (uPort p) ≠ .training ∨ dark = 0 then s
  else
    let s1 := nowTo s ((prtGet s p).since + 200000000)
    let lanes := (upto 9).filter (fun l => dark.getLsbD l)
    if lanes.length = 9 then prtMod s1 p (fun x => { x with absent := true })
    else
      let s2 := foldS lanes s1 (fun s l => laneFail s p l 0x31)
      if lanesLost s2 p then retirePort s2 p 0x31 else s2

/-- The bring-up of an absent peer's lanes is repeated (R354 step 2). -/
def absentRetry (s : State) (p : Nat) : State :=
  let x := prtGet s p
  if x.absent ∧ uAct s (uPort p) = .training then
    let s1 := nowTo s (x.since + 100000000)
    prtMod s1 p (fun x => { x with absent := false, since := s1.now })
  else s

/-- The links of a training port are all in service: the port serves in the state its lanes give, or is retired (R8, R11,
R354, R355). -/
def portTryUp (s : State) (p : Nat) : State :=
  if uAct s (uPort p) ≠ .training ∨ !(portLinks s p).all (linkOpen s) then s
  else
    let x := prtGet s p
    let data := failedData s p
    if lanesLost s p ∨ (!data.isEmpty ∧ !spareUsable s p) then retirePort s p 0x31
    else
      let dest : Actual := if x.failed.isEmpty then .up else .degraded
      let u := uGet s (uPort p)
      let s1 := uMove (prtMod s p (fun x => { x with map := laneMap s p, spareUsed := !data.isEmpty, fromOff := false })) (uPort p) dest
      let s1a := foldN 9 (fun s l => if uAct s (uLane p l) = .training then uMove s (uLane p l) .up else s) s1
      let s2 := uSet s1a (uPort p) { uGet s1a (uPort p) with prior := none }
      let s3 := if dest = .degraded ∧ u.prior ≠ some .degraded then faultUnit s2 (uPort p) 0x31 clsDegrading none 0 0 else s2
      -- R109: the timers of requests held on the port start again
      let s4 := tptMod s3 (fun t => { t with ctl := t.ctl.map (fun e =>
        (e.1, { e.2 with reqs := e.2.reqs.map (fun q => if q.port = p then { q with due := s3.now + q.timer } else q) })) })
      sendHeld s4

/-! ## Sequence and replay of the sender (R363, R366, R369) -/

/-- Take the units of frames away from SENT (R369). -/
def sentSub (k : Klr) (es : List KlrEnt) : Klr :=
  foldS es k (fun k e => sentAdd k e.frame.tc.toNat (0 - BitVec.ofNat 24 (unitsOf e.bytes)))

/-- Start a replay: every unacknowledged frame is sent again from the oldest. -/
def replayBegin (s : State) (l : Nat) : State :=
  klrMod s l (fun k =>
    let k1 := sentSub k (k.unacked.filter (fun e => e.seq ∉ k.replay))
    { k1 with replay := k.unacked.map (·.seq), replayFrom := k.heldAck + 1 })

/-- A received ACK releases frames (R365, R366). -/
def klrAcked (s : State) (l : Nat) (ack : BitVec 24) : State :=
  let k := klrGet s l
  let d := (ack - k.heldAck).toNat
  if d = 0 ∨ k.unacked.length < d then s
  else
    let rest := k.unacked.drop d
    klrPut s l { k with unacked := rest, heldAck := ack, expiries := 0, replay := k.replay.filter (fun q => rest.any (fun e => e.seq = q))
                        replayDue := if rest.isEmpty then none else some (s.now + replayNs s l) }

/-- The replay timer expires (R366). -/
def replayTimer (s : State) (l : Nat) : State :=
  let k := klrGet s l
  match k.replayDue with
  | none => s
  | some t =>
    if k.state ≠ .up ∨ k.unacked.isEmpty then s
    else
      let s1 := nowTo s t
      if regField s (klrAgent (l / 2)) 0x104 24 8 ≤ k.expiries + 1 then portTrain (linkDown s1 l) (l / 2)
      else
        let s2 := klrMod s1 l (fun k => { k with expiries := k.expiries + 1, replayDue := some (s1.now + replayNs s l) })
        replayBegin (bump s2 .klrReplayTimer (l / 2) (l % 2) 0) l

/-! ## What every received KLR frame carries (R361, R365, R369) -/

/-- Grant one block of 64 free shared units to the next class that the peer wants (R369). -/
def grantBlock (s : State) (l : Nat) : State :=
  let k := klrGet s l
  if poolShared s l < k.shared + 64 then s
  else
    match (upto 7).find? (fun i => k.peerWant.getLsbD ((k.lastGrant + 1 + i) % 7)) with
    | none => s
    | some i =>
      let c := (k.lastGrant + 1 + i) % 7
      klrPut s l { k with granted := lmod (· + 64) k.granted c, shared := k.shared + 64, lastGrant := c }

/-- Take the fields that every frame carries: ACK, WANT, and the credit limit of one class. -/
def klrFields (s : State) (l : Nat) (h : KlrHdr) : State :=
  let s1 := if h.av then klrAcked s l h.ack else s
  let s2 := klrMod s1 l (fun k => { k with
    peerWant := h.want
    limit := if h.cv ∧ h.crTc ≠ 7 then lset k.limit h.crTc.toNat (some h.crLimit) else k.limit })
  grantBlock s2 l

/-- The MAC and header checks of a KLR frame (R344, R361): none if it is dropped, with its counter. -/
def klrCheck (s : State) (typ : Nat) (rx : KlrRx) (k : State → State) : State :=
  let l := rx.link.val
  let st := (klrGet s l).state
  if st = .off ∨ st = .down ∨ st = .plain then s
  else if rx.bytes < 64 then bump s .prtRunt (l / 2) 0 0
  else if 9216 < rx.bytes then bump s .prtOversize (l / 2) 0 0
  else if crc32c (klrHdrBytes rx.hdr) ≠ rx.hdr.hcrc ∨ rx.hdr.ver ≠ 1 ∨ 3 < rx.hdr.typ.toNat then bump s .klrHcrc (l / 2) (l % 2) 0
  else if rx.hdr.typ.toNat ≠ typ then s
  else k s

/-- A control frame whose body has `n` bytes before BCRC. -/
def klrBody (s : State) (typ n : Nat) (rx : KlrRx) (k : State → State) : State :=
  klrCheck s typ rx (fun s =>
    if rx.body.length < n + 4 ∨ (crc32c (rx.body.take n)).toNat ≠ beAt rx.body n 4 then
      bump s .klrHcrc (rx.link.val / 2) (rx.link.val % 2) 0
    else k s)

/-! ## DATA and STATUS (R364 to R366, R368) -/

/-- An acknowledgement falls due after ACK_DELAY, or at once when it is 0. -/
def klrAckDue (s : State) (l : Nat) : State :=
  if klrAckNs s l = 0 then klrStatus s l false
  else klrMod s l (fun k => { k with ackDue := some (k.ackDue.getD (s.now + klrAckNs s l)) })

/-- An in-order frame is accepted if its class has credit: its units come from the class's reserve first, then from those
granted to it. -/
def klrAccept (s : State) (rx : KlrRx) : State :=
  let l := rx.link.val
  let k := klrGet s l
  let c := rx.hdr.tc.toNat
  let u := unitsOf rx.bytes
  let free := poolReserve s l - (k.held[c]?).getD 0
  if 6 < c ∨ free + (k.granted[c]?).getD 0 < u then bump s .klrProto (l / 2) (l % 2) 0
  else
    let own := min u free
    let k1 : Klr :=
      { k with rxNext := k.rxNext + 1, rcvd := lmod (· + BitVec.ofNat 24 u) k.rcvd c, held := lmod (· + own) k.held c,
               granted := lmod (· - (u - own)) k.granted c, pool := k.pool ++ [{ cls := c, units := u }], rqAt := none }
    klrAckDue (klrPut s l k1) l

/-- A received DATA frame. The frame that it carries is a command of its own. -/
def klrDataRx (s : State) (rx : KlrRx) : State :=
  klrCheck s 0 rx (fun s =>
    let l := rx.link.val
    if (klrGet s l).state ≠ .up then s
    else
      let s1 := klrFields s l rx.hdr
      let k := klrGet s1 l
      let d := (rx.hdr.seq - k.rxNext).toNat
      if d = 0 then klrAccept s1 rx
      else if d < 0x800000 then
        let s2 := bump s1 .klrGap (l / 2) (l % 2) 0
        let again := match k.rqAt with
          | none => true
          | some t => decide (t + replayNs s l / 2 ≤ s.now)
        if again then klrMod (klrStatus s2 l true) l (fun k => { k with rqAt := some s.now }) else s2
      else klrAckDue (bump s1 .klrDup (l / 2) (l % 2) 0) l)

/-- A received STATUS: limits of all classes, and a replay if it asks for one. A request sent before the replay that runs
is ignored: its ACK covers none of the replayed frames. -/
def klrStatusRx (s : State) (rx : KlrRx) : State :=
  klrBody s 1 28 rx (fun s =>
    let l := rx.link.val
    if (klrGet s l).state ≠ .up then s
    else
      let s1 := klrFields s l rx.hdr
      let s2 := klrMod s1 l (fun k => foldN 7 (fun k c =>
        let w := beAt rx.body (4 * c) 4
        if w % 2 = 1 then { k with limit := lset k.limit c (some (BitVec.ofNat 24 (w / 256))) } else k) k)
      let k := klrGet s2 l
      if !rx.hdr.rq ∨ k.unacked.isEmpty ∨ (!k.replay.isEmpty ∧ rx.hdr.ack + 1 = k.replayFrom) then s2
      else replayBegin (bump s2 .klrReplayRq (l / 2) (l % 2) 0) l)

/-- ACK_DELAY passes with no frame sent (R365). -/
def klrAckExpire (s : State) (l : Nat) : State :=
  match (klrGet s l).ackDue with
  | none => s
  | some t => if (klrGet s l).state = .up then klrStatus (nowTo s t) l false else s

/-- REPLAY / 4 passes while the link is UP (R365). -/
def klrPeriod (s : State) (l : Nat) : State :=
  if (klrGet s l).state = .up then klrStatus (nowTo s (klrGet s l).statusDue) l false else s

/-! ## Link states (R362, R371) -/

/-- The PCS of a training port's link comes up. -/
def pcsUp (s : State) (l : Nat) : State :=
  let p := l / 2
  if (klrGet s l).state ≠ .down ∨ uAct s (uPort p) ≠ .training then s
  else if klrMode s p = 0 then portTryUp (klrMod s l (fun k => { k with state := .plain })) p
  else klrMod s l (fun k => { k with state := .hello, helloSince := s.now, helloSent := s.now, helloRx := false, helloSeen := false, peerSeen := false })

/-- The PCS of a link goes down. -/
def pcsDown (s : State) (l : Nat) : State :=
  let st := (klrGet s l).state
  if st = .off ∨ st = .down then s else portTrain (linkDown s l) (l / 2)

/-- The sender's frames as a new peer numbers them. -/
def renumber (es : List KlrEnt) (first : BitVec 24) : List KlrEnt :=
  (es.zip (upto es.length)).map (fun x => { x.1 with seq := first + BitVec.ofNat 24 x.2, fresh := true })

/-- HELLO is complete: the link is UP with fresh credit, frames that the peer has are released and the rest are
replayed. -/
def klrUp (s : State) (l : Nat) : State :=
  let k := klrGet s l
  let d := (k.peerNext - (k.heldAck + 1)).toNat
  let outside := decide (k.unacked.length < d)
  let again := k.renum || outside
  let s1 := if outside ∧ !k.renum then bump (bump s .klrIncarnation (l / 2) (l % 2) 0) .klrProto (l / 2) (l % 2) 0 else s
  let es := if again then renumber k.unacked k.peerNext else k.unacked.drop d
  let k1 : Klr :=
    { k with state := .up, renum := false, unacked := es, heldAck := k.peerNext - 1, replay := es.map (·.seq), replayFrom := k.peerNext,
             next := if again then k.peerNext + BitVec.ofNat 24 es.length else k.next,
             sent := List.replicate 7 0, rcvd := List.replicate 7 0, limit := List.replicate 7 none,
             shared := k.shared - k.granted.sum, granted := List.replicate 7 0, peerWant := 0, expiries := 0, rqAt := none, ackDue := none,
             replayDue := if es.isEmpty then none else some (s.now + replayNs s l), statusDue := s.now + replayNs s l / 4 }
  portTryUp (klrPut s1 l k1) (l / 2)

/-- Has the handshake ended? -/
def helloCheck (s : State) (l : Nat) : State :=
  let k := klrGet s l
  if k.state = .hello ∧ k.helloRx ∧ k.helloSeen ∧ k.peerSeen then klrUp s l else s

/-- Every 1 µs in HELLO, a HELLO. -/
def helloSend (s : State) (l : Nat) : State :=
  let k := klrGet s l
  if k.state ≠ .hello then s
  else
    let s1 := nowTo s (k.helloSent + 1000)
    let x := prtGet s1 (l / 2)
    let flags := b2n k.helloRx + 2 * b2n (spareOn s (l / 2)) + 4 * b2n (!x.spareUsed && decide (8 ∉ x.failed) && spareOn s (l / 2))
    let body := beBytes 8 k.incarnation.toNat ++ beBytes 3 k.rxNext.toNat ++ [BitVec.ofNat 8 flags] ++
      beBytes 8 Config.serial.toNat ++ zeros 8
    let s2 := klrMod (klrCtl s1 l 2 false body) l (fun k => { k with helloSent := s1.now, helloSeen := k.helloSeen || k.helloRx })
    helloCheck s2 l

/-- A received HELLO. -/
def helloRx (s : State) (rx : KlrRx) : State :=
  klrBody s 2 28 rx (fun s =>
    let l := rx.link.val
    let k := klrGet s l
    if k.state ≠ .hello then s
    else
      let inc := BitVec.ofNat 64 (beAt rx.body 0 8)
      let flags := byteAt rx.body 11
      let other := decide (k.peerInc ≠ some inc)
      let s1 := if other ∧ k.peerInc.isSome then bump s .klrIncarnation (l / 2) (l % 2) 0 else s
      let s2 := prtMod s1 (l / 2) (fun x => { x with peerLmap := bitOf flags 1 })
      let s3 := klrPut s2 l { k with peerInc := some inc, renum := k.renum || other, helloRx := true,
                                     peerSeen := k.peerSeen || bitOf flags 0, peerNext := BitVec.ofNat 24 (beAt rx.body 8 3) }
      helloCheck s3 l)

/-- 1 ms in HELLO without a HELLO: the link is PLAIN and sends what it held as plain frames (AUTO), or bring-up from OFF
fails, or HELLOs continue (REQUIRED). -/
def helloTimeout (s : State) (l : Nat) : State :=
  let k := klrGet s l
  let p := l / 2
  if k.state ≠ .hello ∨ k.helloRx then s
  else
    let s1 := nowTo s (k.helloSince + 1000000)
    if klrMode s p = 1 then
      let s2 := klrPut s1 l { k with state := .plain, unacked := [], replay := [], replayDue := none, heldAck := k.next - 1 }
      portTryUp (foldS k.unacked s2 (fun s e => putPlain s l e.frame e.alive e.hcrc)) p
    else if (prtGet s p).fromOff then fenceUnit (portLinksOff s1 p) (uPort p) 0x02 0 0
    else klrMod s1 l (fun k => { k with helloSince := s1.now })

/-- The links of a port have all been DOWN for DOWN_RETIRE (R370). -/
def downRetire (s : State) (p : Nat) : State :=
  let t := regField s (klrAgent p) 0x110 0 12
  let ls := portLinks s p
  if t = 0 ∨ !ls.all (fun l => decide ((klrGet s l).state = .down)) ∨ uAct s (uPort p) ≠ .training then s
  else retirePort (nowTo s ((ls.map (fun l => (klrGet s l).downSince)).foldl max 0 + t * 1000000000)) p 0x33

/-! ## The lane-map exchange (R352, R353) -/

/-- What an LMAP body names. -/
def lmapOf (now : Nat) (b : List Byte) : LmapSwap :=
  { lane := (byteAt b 2).toNat, phys := (byteAt b 3).toNat, map := BitVec.ofNat 32 (beAt b 4 4), epoch := byteAt b 1, since := now }

/-- A received LMAP frame of an OP, on a link that runs KLR. -/
def lmapRx (s : State) (op : Nat) (rx : KlrRx) (k : State → Nat → LmapSwap → State) : State :=
  klrBody s 3 12 rx (fun s =>
    let l := rx.link.val
    if (klrGet s l).state ≠ .up ∨ (byteAt rx.body 0).toNat ≠ op ∨ portSplit s (l / 2) then s
    else k (klrFields s l rx.hdr) (l / 2) (lmapOf s.now rx.body))

/-- Send SWITCH: the transmitter changes its map, and DATA frames wait. -/
def sendSwitch (s : State) (p : Nat) (w : LmapSwap) : State :=
  sendLmap (prtMod s p (fun x => { x with swap := some { w with sentSwitch := true } })) p 3 w

def lmapReq (s : State) (p : Nat) (w : LmapSwap) : State :=
  let x := prtGet s p
  match x.swap with
  | some o =>
    if o.asker ∧ !o.sentSwitch ∧ o.phys = w.phys ∧ o.epoch = w.epoch then sendSwitch s p o
    else retirePort (laneFail s p w.phys 0x30) p 0x30
  | none =>
    if !x.failed.isEmpty ∨ !spareOn s p ∨ 7 < w.phys then
      retirePort (laneFail (sendLmap s p 5 w) p w.phys 0x30) p 0x30
    else
      let s1 := laneFail s p w.phys 0x30
      sendSwitch (sendLmap s1 p 2 w) p w

/-- Does a received frame belong to the exchange in progress? -/
def lmapSame (a b : LmapSwap) : Bool := decide (a.epoch = b.epoch) && decide (a.phys = b.phys)

def lmapAck (s : State) (p : Nat) (w : LmapSwap) : State :=
  match (prtGet s p).swap with
  | some o => if o.asker ∧ !o.sentSwitch ∧ lmapSame o w then sendSwitch s p o else s
  | none => s

def lmapSwitch (s : State) (p : Nat) (w : LmapSwap) : State :=
  match (prtGet s p).swap with
  | some o => if lmapSame o w then prtMod s p (fun x => { x with swap := some { o with gotSwitch := true } }) else s
  | none => s

/-- DONE was sent and received: DATA frames go on, and the spare is used. -/
def lmapFinish (s : State) (p : Nat) : State :=
  match (prtGet s p).swap with
  | some o =>
    if o.sentDone ∧ o.gotDone then
      degradeUnit (bump (prtMod s p (fun x => { x with swap := none, spareUsed := true })) .prtSwap p 0 0) (uPort p) 0x30
    else s
  | none => s

/-- 256 codewords after SWITCH the receiver takes the new map, and DONE is sent. -/
def lmapPoint (s : State) (p : Nat) : State :=
  match (prtGet s p).swap with
  | some o =>
    if o.gotSwitch ∧ o.sentSwitch ∧ !o.sentDone then
      let s1 := prtMod s p (fun x => { x with map := o.map, epoch := o.epoch, swap := some { o with sentDone := true } })
      lmapFinish (sendLmap s1 p 4 o) p
    else s
  | none => s

def lmapDone (s : State) (p : Nat) (w : LmapSwap) : State :=
  match (prtGet s p).swap with
  | some o => if lmapSame o w then lmapFinish (prtMod s p (fun x => { x with swap := some { o with gotDone := true } })) p else s
  | none => s

def lmapRefuse (s : State) (p : Nat) (_ : LmapSwap) : State :=
  match (prtGet s p).swap with
  | some o => if o.asker then retirePort s p 0x30 else s
  | none => s

/-- A swap is not complete 50 µs after it began. -/
def lmapTimeout (s : State) (p : Nat) : State :=
  match (prtGet s p).swap with
  | some o => portDown (nowTo s (o.since + 50000)) p
  | none => s

/-! ## Hand-over of a retired port (R116, R372) -/

/-- A held frame goes ahead of the unsent frames of its flow; `fs` are in SEQ order. -/
def takeBack (s : State) (fs : List TxFrame) : State :=
  foldS fs.reverse s (fun s f => match f.flow with
    | none => s
    | some id =>
      let g := { f with release := none, refusal := none }
      let link := if f.isReq then ctlLink s id else flowLink s id
      match link with
      | none => tptMod s (fun t => { t with parked := g :: t.parked })
      | some l =>
        let k := (l, f.pitch.toNat, f.tc.toNat)
        let q := qGet s k
        let g1 := { g with stamp := match (if f.isReq then q.reqs else q.resp) with
          | h :: _ => h.stamp
          | [] => s.tmg.stamp }
        let q1 := if f.isReq then { q with reqs := g1 :: q.reqs } else { q with resp := g1 :: q.resp }
        qPut s k (qHeadSet s k q1))

/-- KLR has handed its held frames to TPT. -/
def handoffDone (s : State) (p : Nat) : State :=
  if uAct s (uPort p) ≠ .retired then s
  else
    let held := [2 * p, 2 * p + 1].flatMap (fun l => (klrGet s l).unacked.map (·.frame))
    let s1 := takeBack s held
    trkReopen (foldS [2 * p, 2 * p + 1] s1 (fun s l => klrMod s l (fun k => { k with unacked := [], replay := [], replayDue := none })))

/-! ## Frames outside KPP (R344, R347) -/

/-- A frame that the MAC or the encapsulation rules drop, with the codewords that could not be corrected. -/
def macReject (s : State) (v : RxVia) (e : Encap) (fcsOk : Bool) (uncorr : Nat) : State :=
  let p := viaPort v
  let s1 := if uncorr = 0 then s else bumpN s .prtFecUncorr p 0 0 uncorr
  if e.bytes < 64 then bump s1 .prtRunt p 0 0
  else if 9216 < e.bytes then bump s1 .prtOversize p 0 0
  else if !fcsOk then bump s1 .prtFcs p 0 0
  else if 1 < e.vlanTags then bump s1 .prtVlan p 0 0
  else if e.ipOpt then bump s1 .prtIpOpt p 0 0
  else s1

/-- MAC address of a link (R347). -/
def linkMac (l : Nat) : BitVec 48 := Config.macBase + BitVec.ofNat 48 l

/-- An IPv4 address of the NETWORK section in IPv4-mapped form, 0 where none is given. -/
def netV4 (s : State) (off : Nat) : Nat :=
  let a := beAt s.img.net off 4
  if a = 0 then 0 else 0xFFFF * 2 ^ 32 + a

/-- The IPv6 link-local address formed from a MAC address. -/
def linkLocal (mac : BitVec 48) : Nat :=
  let m := mac.toNat ^^^ (2 * 2 ^ 40)
  0xFE80 * 2 ^ 112 + (m / 2 ^ 24) * 2 ^ 40 + 0xFFFE * 2 ^ 24 + m % 2 ^ 24

/-- The addresses that answer on a link (R347, R348, R438). -/
def isOwnAddr (s : State) (l : Nat) (a : BitVec 128) : Bool :=
  let n := a.toNat
  let given := [netV4 s 0, beAt s.img.net 12 16] ++ (if l = 8 then [netV4 s 48, beAt s.img.net 60 16] else [])
  decide (n ≠ 0) && decide (n ∈ given)

/-- Is the chip in ROM recovery (R455)? -/
def inRecovery (s : State) : Bool := decide (s.boot.step = 15)

/-- An ARP request or a neighbour solicitation is answered with the link's MAC address (R347); in ROM recovery only the
solicitation for MP's link-local address (R455). The answer waits in TC6. -/
def neighbourRx (s : State) (l : Nat) (nd : Bool) (target : BitVec 128) : State :=
  let ans : RawFrame := .neighbour nd target (linkMac l)
  if inRecovery s then
    if l = 8 ∧ nd ∧ target.toNat = linkLocal (linkMac 8) then putWire s (.raw 8 ans) else s
  else if linkOpen s l ∧ (l < 8 ∨ serving (uAct s (uPort 4))) ∧ isOwnAddr s l target then
    enqueue s l { tc := 6, raw := some ans }
  else s

end Sys2Proof.Machine
end

