-- ==== Sys2Proof/Machine/Ptp.lean ====
section
/-! DEFINITION. Precision time: the messages the PTP engine takes and sends, the choice of its master, and its lock
(R357 to R359, R472, R473). What IEEE 1588 adds to the spec's words is PRESUMED (log 72). -/
namespace Sys2Proof.Machine

/-- PTP settings of the NETWORK section (R438). -/
def ptpRole (s : State) : Nat := (byteAt s.img.net 96).toNat
def ptpLink (s : State) (l : Nat) : Bool := (byteAt s.img.net 97).getLsbD l
def ptpP2p (s : State) (l : Nat) : Bool := (byteAt s.img.net 102).getLsbD l
def ptpOneStep (s : State) (l : Nat) : Bool := (byteAt s.img.net 103).getLsbD l

/-- 2^LOG seconds in ns, LOG signed. -/
def logNs (b : Byte) : Nat :=
  if b.toInt < 0 then 1000000000 / 2 ^ (-b.toInt).toNat else 1000000000 * 2 ^ b.toInt.toNat

/-- The clock's identity and a port's. -/
def clockId : BitVec 64 :=
  BitVec.ofNat 64 ((Config.macBase.toNat / 2 ^ 24) * 2 ^ 40 + 0xFFFE * 2 ^ 24 + Config.macBase.toNat % 2 ^ 24)
def portId (l : Nat) : BitVec 80 := BitVec.ofNat 80 (clockId.toNat * 65536 + l + 1)

def ptpGet (s : State) (l : Nat) : PtpPort := tget {} s.ptp.ports l
def ptpPut (s : State) (l : Nat) (p : PtpPort) : State :=
  { s with ptp := { s.ptp with ports := tset {} s.ptp.ports l p } }
def ptpMod (s : State) (f : Ptp → Ptp) : State := { s with ptp := f s.ptp }

/-! ## The best master (R357) -/

/-- What this clock announces. -/
def ownAnnounce (s : State) (l : Nat) : PtpMsg :=
  { kind := .announce, domain := byteAt s.img.net 98, source := portId l, prio1 := byteAt s.img.net 99,
    quality := if ptpRole s = 1 then 0xFFFEFFFF else 0xF8FEFFFF, prio2 := byteAt s.img.net 100, grandmaster := clockId }

/-- The default order of two announced clocks: the lesser one is better. -/
def rankOfClock (m : PtpMsg) : List Nat :=
  [m.prio1.toNat, m.quality.toNat, m.prio2.toNat, m.grandmaster.toNat, m.steps.toNat, m.source.toNat]
def betterClock (a b : PtpMsg) : Bool := keyLt (rankOfClock a) (rankOfClock b)

/-- The best Announce of all PTP ports, with its link. -/
def bestHeard (s : State) : Option (Nat × PtpMsg) :=
  (upto 8).foldl (fun b l => match (ptpGet s l).best, b with
    | some m, none => some (l, m)
    | some m, some x => if betterClock m x.2 then some (l, m) else some x
    | none, x => x) none

/-- State decision of every PTP port. -/
def ptpDecide (s : State) : State :=
  foldN 8 (fun s l =>
    let p := ptpGet s l
    if !ptpLink s l ∨ p.state = .disabled ∨ p.state = .faulty then s
    else
      let slaveOnly := decide (ptpRole s = 1)
      let dest : PtpState := match bestHeard s with
        | none => if slaveOnly then .listening else .master
        | some (r, m) =>
          if !slaveOnly ∧ betterClock (ownAnnounce s l) m then .master
          else if r = l then (if p.state = .slave then .slave else .uncalibrated)
          else if slaveOnly then .listening
          else match p.best with
            | some e => if e.grandmaster = m.grandmaster ∧ e.source ≠ portId l then .passive else .master
            | none => .master
      ptpPut s l { p with state := dest, offset := if dest = .slave then p.offset else 0 }) s

/-! ## The servo (R473) -/

/-- An offset is measured; the correction that the servo gives CD10 is a free value. -/
def ptpOffset (s : State) (l : Nat) (t1 t2 : Nat) (corr : Int) : State :=
  let p := ptpGet s l
  let off := (t2 : Int) - (t1 : Int) - p.delay - corr
  let s1 := ptpPut s l { p with offset := off, state := .slave, lastSync := some (t1, t2) }
  let near := decide (-100 ≤ off ∧ off ≤ 100)
  let far := decide (off < -1000 ∨ 1000 < off)
  let good := if near then min 16 (s1.ptp.good + 1) else 0
  let s2 := ptpMod s1 (fun x => { x with good := good, locked := if far then false else x.locked || decide (16 ≤ good) })
  let d := draw s2
  cd10Put d.2 ((cd10Total d.2 : Int) + d.1.toInt).toNat

/-! ## Sending -/

/-- Put a PTP message in TC7 of a link. -/
def ptpSend (s : State) (l : Nat) (m : PtpMsg) : State :=
  enqueue s l { tc := 7, raw := some (.ptp { m with domain := byteAt s.img.net 98, source := portId l }) }

/-- A Sync, one-step or with its Follow_Up. -/
def ptpSync (s : State) (l : Nat) : State :=
  let p := ptpGet s l
  let q := p.syncSeq + 1
  let s1 := ptpPut s l { p with syncSeq := q }
  if ptpOneStep s l then ptpSend s1 l { kind := .sync, seq := q, stamp := cd10Total s }
  else ptpSend (ptpSend s1 l { kind := .sync, seq := q, twoStep := true }) l { kind := .followUp, seq := q, stamp := cd10Total s }

/-- A delay request of the port's mechanism. -/
def ptpDelayReq (s : State) (l : Nat) (kind : PtpKind) : State :=
  let p := ptpGet s l
  let q := p.reqSeq + 1
  ptpSend (ptpPut s l { p with reqSeq := q, reqTx := some (cd10Total s), pResp := none }) l { kind := kind, seq := q }

/-- At the intervals that the image sets, each PTP port sends its message, and Announce receipt is judged. -/
def ptpInterval (s : State) (l : Nat) (kind : PtpKind) : State :=
  let p := ptpGet s l
  if !s.ptp.on ∨ s.svc.restarting ∨ !ptpLink s l ∨ p.state = .disabled then s
  else
    match kind with
    | .sync => if p.state = .master then ptpSync s l else s
    | .announce =>
      if p.state = .master then
        let q := s.ptp.annSeq + 1
        ptpSend (ptpMod s (fun x => { x with annSeq := q })) l { ownAnnounce s l with seq := q }
      else if p.heard + 3 * logNs (byteAt s.img.net 105) ≤ s.now then ptpDecide (ptpPut s l { p with best := none })
      else s
    | .delayReq => if !ptpP2p s l ∧ (p.state = .slave ∨ p.state = .uncalibrated) then ptpDelayReq s l .delayReq else s
    | .pdelayReq => if ptpP2p s l then ptpDelayReq s l .pdelayReq else s
    | _ => s

/-! ## Receiving -/

/-- The engine takes a message; `t` is its receive timestamp. -/
def ptpHandle (s : State) (l : Nat) (m : PtpMsg) (t : Nat) : State :=
  let p := ptpGet s l
  let follows := decide (p.state = .uncalibrated ∨ p.state = .slave) && decide ((p.best.map (·.source)) = some m.source)
  let mine := decide (m.requester = portId l) && decide (m.seq = p.reqSeq)
  match m.kind with
  | .announce =>
    if m.grandmaster = clockId then s
    else
      let take := match p.best with
        | none => true
        | some b => decide (b.source = m.source) || betterClock m b
      if take then ptpDecide (ptpPut s l { p with best := some m, heard := s.now }) else s
  | .sync =>
    if !follows then s
    else
      let s1 := ptpMod (ptpPut s l { p with syncRx := some (m.seq, t, m.corr) }) (fun x => { x with lastSync := s.now })
      if m.twoStep then s1 else ptpOffset s1 l m.stamp t m.corr
  | .followUp =>
    if !follows then s
    else
      match p.syncRx with
      | some (q, t2, c) => if q = m.seq then ptpOffset (ptpPut s l { p with syncRx := none }) l m.stamp t2 (c + m.corr) else s
      | none => s
  | .delayReq =>
    if p.state = .master ∧ !ptpP2p s l then
      ptpSend s l { kind := .delayResp, seq := m.seq, requester := m.source, stamp := t, corr := m.corr }
    else s
  | .delayResp =>
    match p.reqTx, p.lastSync with
    | some t3, some (t1, t2) =>
      if mine ∧ follows then
        ptpPut s l { p with reqTx := none, delay := (((t2 : Int) - t1) + ((m.stamp : Int) - t3) - m.corr) / 2 }
      else s
    | _, _ => s
  | .pdelayReq =>
    if !ptpP2p s l then s
    else if ptpOneStep s l then
      ptpSend s l { kind := .pdelayResp, seq := m.seq, requester := m.source, corr := m.corr + ((cd10Total s : Int) - t) }
    else
      ptpSend (ptpSend s l { kind := .pdelayResp, seq := m.seq, requester := m.source, stamp := t, twoStep := true }) l
        { kind := .pdelayRespFollowUp, seq := m.seq, requester := m.source, stamp := cd10Total s, corr := m.corr }
  | .pdelayResp =>
    match p.reqTx with
    | some t1 =>
      if !mine then s
      else if m.twoStep then ptpPut s l { p with pResp := some (m.stamp, t, m.corr) }
      else ptpPut s l { p with reqTx := none, delay := ((t : Int) - t1 - m.corr) / 2 }
    | none => s
  | .pdelayRespFollowUp =>
    match p.reqTx, p.pResp with
    | some t1, some (t2, t4, c) =>
      if mine then
        ptpPut s l { p with reqTx := none, pResp := none, delay := (((t4 : Int) - t1) - ((m.stamp : Int) - t2) - c - m.corr) / 2 }
      else s
    | _, _ => s

/-- A PTP frame arrives on a link: it is metered in TC7, its event messages are timestamped, and the engine takes it if
the link is a PTP port of its domain. -/
def ptpRx (s : State) (l : Nat) (m : PtpMsg) : State :=
  if !linkOpen s l then s
  else
    let r := meter s 0 7 (l / 2) 0 (rawLen (byteAt s.img.net 101).toNat (.ptp m)) 0
    match r.2 with
    | none => r.1
    | some _ =>
      let s1 := if isEvent m then bump r.1 .prtPtpTs (l / 2) 0 0 else r.1
      if s1.ptp.on ∧ !s1.svc.restarting ∧ ptpLink s1 l ∧ (ptpGet s1 l).state ≠ .disabled ∧ m.domain = byteAt s1.img.net 98 then
        ptpHandle s1 l m (cd10Total s1)
      else s1

/-- No Sync for 3 s (R473). -/
def ptpSyncLost (s : State) : State :=
  if s.ptp.on then ptpMod (nowTo s (s.ptp.lastSync + 3000000000)) (fun x => { x with locked := false, good := 0 }) else s

/-- The engine starts: each PTP port listens (R448 step 8, R478). -/
def ptpStart (s : State) : State :=
  if ptpRole s = 0 then s
  else
    foldN 8 (fun s l => if ptpLink s l then ptpPut s l { state := .listening, heard := s.now } else s)
      (ptpMod s (fun x => { x with on := true, locked := false, good := 0 }))

end Sys2Proof.Machine
end

