-- ==== Sys2Proof/Machine/RegTable.lean ====
section
/-! DEFINITION. The registers that simply store what is written, with their writable bits: those open at run time (RW) and
those that the configuration lock closes (RWL) (R14, R450, R471). -/
namespace Sys2Proof.Machine

/-- The agent that stores a register: MEM registers that hold one value in all 16 instances are stored once (R146, R154,
R168, R171). -/
def storeAgent (agent : Nat) : Nat :=
  if agentDomain agent = 2 ∧ (agentBlock agent = 1 ∨ agentBlock agent = 2) then agentKey 2 (agentBlock agent) 0 else agent

/-- RW and RWL bits of a stored register, if there is one at an offset of an agent. -/
def regBits (agent off : Nat) : Option (Nat × Nat) :=
  let d := agentDomain agent
  let b := agentBlock agent
  let i := agentInst agent
  let all := 0xFFFFFFFF
  if off % 4 ≠ 0 then none
  else if agent = svcAgent then (if off = 0x100 then some (0, 0xFFFF) else none)
  else if d = 1 ∧ b = 1 then
    (if 4 ≤ i then none else if off = 0x100 then some (0, 0x3FFFF) else if off = 0x104 then some (0, 0xFFFFFF) else none)
  else if d = 1 ∧ b = 2 then
    (if off = 0x100 then some (0, 0x3FFFF) else if off = 0x104 ∨ off = 0x108 then some (0, all)
     else if off = 0x10C ∨ off = 0x110 then some (0, 0xFFF) else none)
  else if agent = tptAgent then
    (if off = 0x100 then some (0, 0x0FF0FFFF) else if off = 0x104 ∨ off = 0x108 then some (0, all) else none)
  else if agent = tmgAgent then
    (if off = 0x100 ∨ off = 0x104 then some (0, 0x3F3F3F3F) else if 0x110 ≤ off ∧ off < 0x12C then some (0, all)
     else if off = 0x12C then some (0, 0x3F) else if 0x400 ≤ off ∧ off < 0x500 then some (0, all)
     else if 0x1004 ≤ off ∧ off < 0x1400 then some (1, 0) else none)
  else if d = 2 ∧ b = 1 then (if off = 0x100 then some (0, 0x7FFFF) else none)
  else if d = 2 ∧ b = 2 then
    (if off = 0x100 then some (0, 0xF07) else if off = 0x108 ∨ off = 0x10C then some (0, 0xFF) else none)
  else if agent = swpAgent then (if off = 0x100 then some (0, 0xFF) else none)
  else if agent = swnAgent then (if off = 0x100 then some (0, 0xFFFF) else none)
  else if agent = fabAgent 0 then
    (if off = 0x104 ∨ off = 0x108 then some (all, 0) else if off = 0x118 then some (0, 0xFF) else none)
  else if agent = mirAgent then (if off = 0x100 then some (0, 0x3FFFF) else none)
  else if agent = dbgAgent then
    (if off = 0x100 then some (0, 1) else if off = 0x104 then some (0xFFFFFF01, 0)
     else if 0x140 ≤ off ∧ off < 0x180 then some (0xFFFF83FF, 0) else if off = 0x200 then some (all, 0)
     else if off = 0x204 then some (0x3F, 0) else none)
  else if agent = brdAgent then
    (if off = 0x100 then some (0, all) else if off = 0x104 then some (3, 0) else if off = 0x110 then some (0xFFF, 0xFFFFF000)
     else if off = 0x114 then some (0x1F0000, 0x1F3F) else if off = 0x118 then some (0, 0xFFFFFF)
     else if 0x300 ≤ off ∧ off < 0x360 then some (0, all) else if off = 0x500 then some (0, 0xFF7F7F7F)
     else if 0x510 ≤ off ∧ off < 0x530 then some (0, 0xFFFF0007) else none)
  else if agent = bootAgent then (if off = 0x200 then some (0x1FFFFFFF, 0) else none)
  else none

/-- The value that a write leaves: writable bits come from `v`, others stay. `mask` is what may change. -/
def mergeBits (old v : Word) (mask : Nat) : Word :=
  (old &&& ~~~BitVec.ofNat 32 mask) ||| (v &&& BitVec.ofNat 32 mask)

/-- A write to a stored register: RWL bits change only from the image, before the configuration lock (R14, R450). -/
def regStore (s : State) (src : MgmtSource) (agent off : Nat) (v : Word) : State :=
  match regBits agent off with
  | none => s
  | some (rw, rwl) =>
    let a := storeAgent agent
    regSet s a off (mergeBits (regGet s a off) v (if src = .image ∧ !s.boot.locked then rw ||| rwl else rw))

/-- What a stored register of an agent becomes when its RW bits return to their reset value. -/
def releaseEntry (agent : Nat) (e : Nat × Word) : Option (Nat × Word) :=
  if e.1 / 65536 ≠ agent then some e
  else match regBits agent (e.1 % 65536) with
    | none => some e
    | some (rw, _) =>
      let v := mergeBits e.2 (regReset e.1) rw
      if v = regReset e.1 then none else some (e.1, v)

/-- Every RW setting of an agent returns to its reset value; RWL settings stay (R8, R450). -/
def regRelease (s : State) (agent : Nat) : State := { s with csr := s.csr.filterMap (releaseEntry agent) }

end Sys2Proof.Machine
end

