-- ==== Sys2Proof/Machine/Agent.lean ====
section
/-! DEFINITION. Intents, bring-up and audits of units (R5 to R11, R186, R306, R413, R504). -/
namespace Sys2Proof.Machine

/-! ## Sources and their scope (R466) -/

/-- The pitch whose tenant a source reads as. -/
def scopeOf (s : State) : MgmtSource → Option Nat
  | .session n => (mgmtFind s n).bind (fun m => if m.scopeOn then some m.scopePitch.toNat else none)
  | _ => none

/-- Does JTAG reach registers (R452, R485)? -/
def jtagOpen (s : State) : Bool := decide (4 ≤ s.boot.step) && !(s.boot.locked && decide (regField s dbgAgent 0x100 0 1 = 0))

/-- May a source make accesses: an open session, JTAG while it is not closed, a service core that runs (R463, R466). -/
def srcOpen (s : State) : MgmtSource → Bool
  | .session n => (match mgmtFind s n with
    | some m => m.isOpen
    | none => false)
  | .jtag => jtagOpen s
  | .sc k => decide (uAct s (uSc k.val) = .up)
  | .image => false

/-- An access of a source that may make it; ROM recovery reaches the BOOT registers only (R452). -/
def fromSource (s : State) (src : MgmtSource) (s' : State) : State :=
  if srcOpen s src && decide (s.boot.step ≠ 15) then s' else s

/-- A write, which is ignored under a pitch scope (R467). -/
def asOperator (s : State) (src : MgmtSource) (s' : State) : State :=
  if (scopeOf s src).isSome then s else fromSource s src s'

/-- A write of a BOOT register, which ROM recovery reaches too. -/
def asBoot (s : State) (src : MgmtSource) (s' : State) : State :=
  if (scopeOf s src).isNone && srcOpen s src then s' else s

/-! ## Units of the grid and of the service complex (R306, R413) -/

/-- Quad of a grid core or matrix engine. -/
def gridQuad (k : Nat) : Option Nat :=
  if k / 512 = grdAgent then (if k % 512 < 64 then some (quadOf (k % 512)) else none)
  else if agentDomain (k / 512) = 3 ∧ agentBlock (k / 512) = 2 then some (agentInst (k / 512))
  else none

/-- A core, engine or quad has become RETIRED: its sessions end, and the quad of a core or engine becomes DEGRADED. -/
def gridRetired (s : State) (k cause : Nat) : State :=
  let s1 := gridUnitLost s k
  match gridQuad k with
  | some q => let s2 := bump0 s1 .grdRetire
              if uAct s2 (uQuad q) = .up then degradeUnit s2 (uQuad q) cause else s2
  | none => s1

/-- The service core that runs the chip manager: the lowest-numbered one that is UP; none stops the chip. -/
def chiefAgain (s : State) : State :=
  match (upto 4).find? (fun k => uAct s (uSc k) = .up) with
  | some k => svcMod s (fun v => { v with chief := k })
  | none => if (upto 4).all (fun k => uAct s (uSc k) = .retired) then chipStop s 0x41 else s

/-! ## Intents (R5, R8) -/

/-- An intent write refused: counted by the agent, saturating at 16 bits (R5). -/
def intentRefused (s : State) (agent : Nat) : State :=
  fltMod s (fun f => { f with refused := tset 0 f.refused agent (satAdd 0xFFFF (tget 0 f.refused agent) 1) })

/-- Move a unit to RETIRED as management asked: no record (R11). -/
def retireAsked (s : State) (k : Nat) : State :=
  let s1 := uMove s k .retired
  uSet s1 k { uGet s1 k with intent := .retired, prior := none }

/-- What the retirement of a unit takes with it. -/
def retiredRest (s : State) (k : Nat) : State :=
  let agent := k / 512
  let u := k % 512
  let d := agentDomain agent
  let b := agentBlock agent
  let i := agentInst agent
  if d = 1 ∧ b = 1 then
    if u = 0x1FF then (if i < 4 then portHandoff (portLinksOff s i) i else s)
    else
      let x := prtGet s i
      let s1 := bump (prtMod s i (fun x => { x with failed := insertNat u x.failed })) .prtLaneFail i 0 0
      if serving (uAct s1 (uPort i)) ∧ u ∉ x.failed then laneSwap s1 i u x 0 else s1
  else if d = 2 ∧ b = 2 then (if u = 0x100 then groupLost s (i / 4) 0 0 0 else retireGroup s (i / 4) 0 0 0)
  else if d = 3 then gridRetired s k 0
  else if agent = svcAgent then chiefAgain s
  else s

/-- Bring-up starts (R8): the unit is TRAINING in the cycle of the write. -/
def bringUp (s : State) (k : Nat) : State :=
  let s1 := uMove s k .training
  let s2 := uSet s1 k { uGet s1 k with prior := none }
  let agent := k / 512
  if agentDomain agent = 1 ∧ agentBlock agent = 1 ∧ k % 512 = 0x1FF ∧ agentInst agent < 4 then portBringUp s2 (agentInst agent) else s2

/-- The unit stops (R8): FENCED → OFF returns its RW settings to their reset values. -/
def unitOff (s : State) (k : Nat) : State :=
  let a := uAct s k
  let agent := k / 512
  let s1 := uMove s k .off
  let s2 := uSet s1 k { uGet s1 k with prior := none, disagree := false }
  let s3 := if agentDomain agent = 2 ∧ agentBlock agent = 2 ∧ k % 512 = 0x1FF then
      chMod s2 (agentInst agent) (fun ch => { ch with retrainTimer := none }) else s2
  if a = .fenced then regRelease s3 agent else s3

/-- An accepted intent takes effect in the cycle of the write (R8). -/
def intentSet (s : State) (k : Nat) (i : Intent) : State :=
  let u := uGet s k
  let s1 := uSet s k { u with intent := i }
  match i with
  | .up => if u.actual = .off then bringUp s1 k else s1
  | .off => if u.actual = .off then s1 else unitOff s1 k
  | .retired => retiredRest (retireAsked s1 k) k

/-- R5, by its encoding. -/
def intentOf (v : Nat) : Option Intent :=
  if v = 0 then some .off else if v = 2 then some .up else if v = 5 then some .retired else none

/-- A write of AGT_INTENT (R5, R467, R469): ignored under a pitch scope; refused and counted for another value, for no
unit, for a pitch and for a RETIRED unit. -/
def intentWrite (s : State) (src : MgmtSource) (agent u v : Nat) : State :=
  if !agentOk agent ∨ (scopeOf s src).isSome then s
  else
    let k := unitKey agent u
    match intentOf v with
    | none => intentRefused s agent
    | some i =>
      if !unitOk agent u ∨ keyPitch k ≠ none ∨ uAct s k = .retired then intentRefused s agent else intentSet s k i

/-! ## Bring-up ends (R8, R11) -/

/-- A quad that has lost a core or an engine. -/
def quadReduced (s : State) (q : Nat) : Bool :=
  decide (uAct s (uEngine q) = .retired) || (upto 64).any (fun c => decide (quadOf c = q) && decide (uAct s (uCore c) = .retired))

/-- A channel's retraining and training end by commands of their own, a port's by its links. -/
def ownBringUp (s : State) (agent u : Nat) : Bool :=
  (decide (agentDomain agent = 2) && decide (agentBlock agent = 2) && decide (u = 0x1FF) &&
    (decide ((chGet s (agentInst agent)).retrainTimer ≠ none) || decide (s.boot.step ≤ 6))) ||
  (decide (agentDomain agent = 1) && decide (agentBlock agent = 1) && decide (u = 0x1FF) && decide (agentInst agent < 4))

/-- Bring-up completes. -/
def bringUpDone (s : State) (agent u : Nat) : State :=
  let k := unitKey agent u
  if !unitOk agent u ∨ uAct s k ≠ .training then s
  else if ownBringUp s agent u then (if agentDomain agent = 1 then portTryUp s (agentInst agent) else s)
  else
    let w := uGet s k
    let s1 := uMove s k (w.prior.getD .up)
    let s2 := uSet s1 k { uGet s1 k with prior := none }
    let s3 := if agent = grdAgent ∧ 0x100 ≤ u ∧ quadReduced s2 (u - 0x100) then degradeUnit s2 k 0 else s2
    if agent = svcAgent then chiefAgain s3
    else if k = uPort 4 then sendHeld s3
    else s3

/-- Bring-up fails or passes its deadline: FENCED under cause 02h. -/
def bringUpFail (s : State) (agent u : Nat) : State :=
  let k := unitKey agent u
  if !unitOk agent u ∨ uAct s k ≠ .training ∨ (ownBringUp s agent u ∧ agentDomain agent = 2) then s
  else
    let s1 := if agentDomain agent = 1 ∧ u = 0x1FF ∧ agentInst agent < 4 then portLinksOff s (agentInst agent) else s
    fenceUnit (uSet s1 k { uGet s1 k with prior := none }) k 0x02 0 0

/-! ## Audits (R6, R7, R504) -/

/-- The PLL whose domain clocks a unit: 0 FAB, 1 GRID, 2 MTX, 3 SVC, 4 NET, 5 MEM, 6 AUX, 7 the memory PLL. -/
def unitPll (k : Nat) : Option Nat :=
  let agent := k / 512
  let d := agentDomain agent
  let b := agentBlock agent
  if agent = svcAgent then (if k % 512 < 0x100 then none else some 3)
  else if d = 2 ∧ b = 1 then some 5
  else if d = 2 ∧ b = 2 then some 7
  else if agent = grdAgent then some 1
  else if d = 3 ∧ b = 2 then some 2
  else none

/-- Has a PLL lost its lock outside a clock step (R504)? -/
def pllLost (s : State) (p : Nat) : Bool :=
  decide (5 ≤ s.boot.step ∧ s.boot.step ≤ 9) && !s.crg.lock.getLsbD p && !(s.crg.stepping && decide (p = 1 ∨ p = 2))

/-- Do intent and actual state agree (R6)? -/
def agrees (i : Intent) (a : Actual) : Bool :=
  match i, a with
  | .off, .off => true
  | .up, .training => true
  | .up, .up => true
  | .up, .degraded => true
  | .retired, .retired => true
  | _, _ => false

def unitAgrees (s : State) (k : Nat) : Bool :=
  let u := uGet s k
  agrees u.intent u.actual && !((serving u.actual || decide (u.actual = .training)) && (match unitPll k with
    | some p => pllLost s p
    | none => false))

/-- One unit's audit: the second disagreement in a row fences it, unless it is FENCED. -/
def auditUnit (s : State) (k : Nat) : State :=
  let u := uGet s k
  if unitAgrees s k then uSet s k { u with disagree := false }
  else
    let s1 := uSet s k { u with disagree := true }
    if u.disagree ∧ (serving u.actual ∨ u.actual = .training) then fenceUnit s1 k 0x01 0 0 else s1

/-- An audit, at the next multiple of 10 µs: a unit that holds nothing but its reset values agrees. -/
def audit (s : State) : State :=
  let s1 := periodic s 0 10000
  foldS (s1.units.map (·.1)) s1 auditUnit

end Sys2Proof.Machine
end

