-- ==== Sys2Proof/Machine/Reset.lean ====
section
/-! DEFINITION. Chip-level resets and the flash commands that delay them (R449, R454, R457, R458, R505, R512). -/
namespace Sys2Proof.Machine

def bootMod (s : State) (f : Boot → Boot) : State := { s with boot := f s.boot }
def brdMod (s : State) (f : Brd → Brd) : State := { s with brd := f s.brd }
def crgMod (s : State) (f : Crg → Crg) : State := { s with crg := f s.crg }

/-- Is the boot sequence running? ROM recovery is not part of it. -/
def booting (s : State) : Bool := !s.boot.serving && decide (s.boot.step ≤ 9)
def recovering (s : State) : Bool := decide (s.boot.step = 15)

/-! ## Resets (R457, R505) -/

/-- What no reset touches: the commands that wait, the free values drawn, what has left the chip. -/
def resetOver (s : State) : State :=
  { State.reset with pending := s.pending, freeCtr := s.freeCtr, wire := s.wire }

/-- Chip reset, kind 1 by pin, 2 by register, 3 recovery reset, 4 after R449: flash, fuses, BOOT_RESET_CAUSE and the TAP are
kept; both feeds are on and every fan is at 100 % at step 1 (R452). -/
def chipReset (s : State) (kind : Nat) : State :=
  let b : Boot :=
    { flash := s.boot.flash, svn := s.boot.svn, lastReset := kind, resets := satAdd 0xFF s.boot.resets 1,
      haltHeat := s.boot.haltHeat, haltFeeds := s.boot.haltFeeds, powered := s.boot.powered }
  { resetOver s with boot := b, dbg := { jtagIr := s.dbg.jtagIr, boundary := s.dbg.boundary } }

/-- A reset takes effect when BUSY clears (R458); it aborts a running check with the rest. -/
def askReset (s : State) (kind : Nat) : State :=
  if s.boot.flashOp.isSome then bootMod s (fun b => { b with resetKind := some kind, check := if b.check = 1 then 4 else b.check })
  else chipReset s kind

/-- Power-on reset: fuses and flash are kept. -/
def powerOn (s : State) : State :=
  bootMod (resetOver s) (fun b => { b with flash := s.boot.flash, svn := s.boot.svn })

/-! ## Flash (R454) -/

/-- The flash is as large as the board makes it. -/
def flashByte (s : State) (a : Nat) : Byte := tget 0xFF s.boot.flash a
def flashBytes (s : State) (a n : Nat) : List Byte := (upto n).map (fun i => flashByte s (a + i))

def flashPut : Tab Byte → Nat → List Byte → Tab Byte
  | t, _, [] => t
  | t, a, b :: bs => flashPut (tset 0xFF t a b) (a + 1) bs

/-- `n` bytes that the spec leaves open. -/
def drawBytes : Nat → State → List Byte × State
  | 0, s => ([], s)
  | n + 1, s =>
    let d := draw s
    let r := drawBytes n d.2
    (leBytes 64 d.1.toNat ++ r.1, r.2)

/-- The page or sector of a program or erase: its address and its length in 64-byte units. -/
def flashPlace (op addr : Nat) : Nat × Nat := if op = 2 then (addr / 256 * 256, 4) else (addr / 65536 * 65536, 1024)

/-- A program or erase that did not complete leaves its page or sector undefined (R512). -/
def flashSpoil (s : State) : State :=
  match s.boot.flashOp with
  | none => s
  | some (op, addr) =>
    if op = 1 then s
    else
      let p := flashPlace op addr
      let d := drawBytes p.2 s
      bootMod d.2 (fun b => { b with flash := flashPut b.flash p.1 d.1 })

/-- An accepted command starts and aborts a running check; one written while BUSY is ignored and counted. -/
def flashStart (s : State) (op : Nat) : State :=
  if s.boot.flashOp.isSome then bump0 s .bootFlashRefused
  else
    bootMod s (fun b => { b with flashOp := some (op, bitsOf (regGet s bootAgent 0x200) 0 29), flashError := false,
                                 check := if b.check = 1 then 4 else b.check })

/-- A command ends, well or not; a reset that waited takes effect. -/
def flashDone (s : State) (ok : Bool) : State :=
  match s.boot.flashOp with
  | none => s
  | some (op, addr) =>
    let beyond := decide (Config.flashBytes ≤ addr)
    let s1 :=
      if beyond then s
      else if !ok then
        if op = 1 then let d := drawBytes 4 s; bootMod d.2 (fun b => { b with flashBuf := d.1 }) else flashSpoil s
      else if op = 1 then bootMod s (fun b => { b with flashBuf := flashBytes s (addr / 256 * 256) 256 })
      else if op = 2 then bootMod s (fun b => { b with flash := flashPut b.flash (addr / 256 * 256) b.flashBuf })
      else bootMod s (fun b => { b with flash := flashPut b.flash (addr / 65536 * 65536) (List.replicate 65536 0xFF) })
    let bad := !ok || beyond
    let s2 := bootMod s1 (fun b => { b with flashOp := none, flashError := bad, resetKind := none })
    let s3 := if bad then bump0 s2 .bootFlashError else s2
    match s.boot.resetKind with
    | some k => chipReset s3 k
    | none => s3

/-! ## Pins (R449, R505, R512) -/

/-- RESET_N has been low for some nanoseconds: from 1 µs a chip reset; a pulse of less than 100 ns is ignored. Whether one
between the two resets the chip is left open. -/
def resetPin (s : State) (ns : Nat) : State :=
  if 1000 ≤ ns then askReset s 1
  else if ns < 100 then s
  else let d := draw s; if d.1.getLsbD 0 then askReset d.2 1 else d.2

/-- PWR_GOOD has been low for some nanoseconds: the chip is down until it rises. -/
def powerDown (s : State) (ns : Nat) : State :=
  if ns < 100 then s
  else
    let s1 := flashSpoil s
    bootMod (powerOn s1) (fun b => { b with powered := false })

/-- The sequence stops and the chip stays in reset until the condition has cleared (R449). -/
def haltBoot (s : State) (heat : Bool) : State :=
  askReset (bootMod s (fun b => if heat then { b with haltHeat := true } else { b with haltFeeds := true })) 4

def halted (s : State) : Bool := s.boot.haltHeat || s.boot.haltFeeds || !s.boot.powered

end Sys2Proof.Machine
end

