-- ==== Sys2Proof/Machine/Board.lean ====
section
/-! DEFINITION. Board control, measurement and clocks: the ADC, power feeds, temperatures, fans, the grid clock and the PLLs
(R486 to R504). -/
namespace Sys2Proof.Machine

/-! ## ADC (R486 to R488, R491) -/

/-- Input that a slot of a frame converts: 0 to 23, 24 the ground, 25 the reference. -/
def adcInput (slot : Nat) : Nat := if slot % 8 = 0 then 0 else if slot % 4 = 0 then 1 else slot - slot / 4 + 1

/-- VALUE of a code (R488). -/
def adcValue (s : State) (k code : Nat) : Int :=
  (BitVec.ofNat 16 (regField s brdAgent (0x300 + 4 * k) 16 16)).toInt + ((code * regField s brdAgent (0x300 + 4 * k) 0 16 / 4096 : Nat) : Int)

def ainValue (s : State) (k : Nat) : Int := ((s.brd.ain[k]?).getD (0, 0)).1

def feedUv (s : State) : Int := (regField s brdAgent 0x100 0 16 : Nat)
def feedOk (s : State) : Int := (regField s brdAgent 0x100 16 16 : Nat)

/-! ## Feeds (R489, R490) -/

/-- One sample of a feed's voltage, taken at an instant. -/
def feedSample (s : State) (f : Feed) (v : Int) (t : Nat) : Feed :=
  { f with lowRun := if v < feedUv s then f.lowRun + 1 else 0, okSince := if feedOk s < v then some (f.okSince.getD t) else none }

/-- A feed is lost at its third low sample in a row. -/
def feedFalls (f : Feed) : Bool := f.present && decide (3 ≤ f.lowRun)

/-- The pair of samples of Feed A and Feed B: a loss is an ALARM while the other feed is present and on, and otherwise stops the
chip or the boot sequence. -/
def feedPair (s : State) (va vb : Int) (t : Nat) : State :=
  let a := feedSample s s.brd.feedA va t
  let b := feedSample s s.brd.feedB vb (t + 2000)
  let la := feedFalls a
  let lb := feedFalls b
  let a1 := if la then { a with present := false } else a
  let b1 := if lb then { b with present := false } else b
  let s1 := brdMod s (fun x => { x with feedA := a1, feedB := b1 })
  let s2 := if la then bump0 s1 .brdFeedLossA else s1
  let s3 := if lb then bump0 s2 .brdFeedLossB else s2
  if !la ∧ !lb then s3
  else if a1.present ∨ b1.present then faultRec s3 { agent := brdAgent, cause := 0x50, cls := clsAlarm }
  else if booting s3 then haltBoot s3 false
  else chipStopBy s3 brdAgent 0x51

/-- A frame of 32 conversions completes. -/
def adcFrame (s0 : State) (codes : List (BitVec 12)) : State :=
  let s := periodic s0 1 16000
  let code (slot : Nat) : Nat := ((codes[slot]?).getD 0).toNat
  let bad := decide (8 < code 30) || decide (3413 + 16 < code 31) || decide (code 31 + 16 < 3413)
  let value (slot : Nat) : Int := if bad then ainValue s (adcInput slot) else adcValue s (adcInput slot) (code slot)
  let lastSlot (k : Nat) : Nat := ((upto 32).filter (fun x => adcInput x = k)).getLast?.getD 0
  let s1 := brdMod s (fun b => { b with ain := (upto 24).map (fun k => (value (lastSlot k), code (lastSlot k))) })
  let s2 := if bad then bump0 s1 .brdAdcCal else s1
  let power := value 24 * value 1 / 10000 + value 28 * value 2 / 10000
  let window := regField s2 brdAgent 0x114 0 6 * 1000000
  let s3 := brdMod s2 (fun b => { b with powers := b.powers.filter (fun p => s.now < p.1 + window) ++ [(s.now, power)] })
  foldN 4 (fun s j => if halted s ∧ !halted s3 then s
    else feedPair s (value (8 * j)) (value (8 * j + 4)) (s3.now - 16000 + 4000 * j)) s3

/-- P_avg as a sum of frame powers in 0.1 W and the number of frames (R491). -/
def powerSum (s : State) : Int × Nat := ((s.brd.powers.map (·.2)).sum, max 1 s.brd.powers.length)

/-- A lost feed's voltage has stayed above OK for 1 ms: it is present again, and the sequence that waited restarts. -/
def feedReturn (s : State) (isB : Bool) : State :=
  let f := if isB then s.brd.feedB else s.brd.feedA
  match f.okSince with
  | none => s
  | some t =>
    if f.present ∨ !f.on then s
    else
      let s1 := nowTo s (t + 1000000)
      let s2 := brdMod s1 (fun b => if isB then { b with feedB := { f with present := true, lowRun := 0 } }
        else { b with feedA := { f with present := true, lowRun := 0 } })
      bootMod s2 (fun b => { b with haltFeeds := false })

/-- A write of BRD_FEED_CTRL (R489): a feed turned off is absent. -/
def feedCtrl (s : State) (v : Word) : State :=
  let aOn := !v.getLsbD 0
  let bOn := !v.getLsbD 1
  if !((s.brd.feedA.present && aOn) || (s.brd.feedB.present && bOn)) then bump0 s .brdFeedRefused
  else
    let put (f : Feed) (on : Bool) : Feed := if on then { f with on := true } else { f with on := false, present := false, lowRun := 0 }
    brdMod (regSet s brdAgent 0x104 (v &&& 3)) (fun b => { b with feedA := put b.feedA aOn, feedB := put b.feedB bOn })

/-! ## Fans (R453, R496, R497) -/

def fanEnabled (s : State) (n : Nat) : Bool := decide (regField s brdAgent (0x510 + 4 * n) 0 1 = 1)

/-- Do all fans run at 100 %? -/
def fansFull (s : State) : Bool :=
  decide (s.boot.step ≤ 5) || recovering s || s.brd.tripped || s.brd.mods.any (fun e => e.2.present && e.2.unknown) ||
    (upto 8).any (fun n => fanEnabled s n && ((s.brd.fans[n]?).getD {}).low)

/-- Full duty where it is asked for. -/
def fanForce (s : State) : State :=
  if fansFull s then brdMod s (fun b => { b with fans := b.fans.map (fun f => { f with duty := 100 }) }) else s

def hottest (s : State) : Nat := s.brd.die.foldl max 0

/-- Hottest known temperature of a present module, in 0.25 °C. -/
def hottestModule (s : State) : Option Int :=
  ((s.brd.mods.filter (fun e => e.2.present && !e.2.unknown)).map (·.2.temp)).max?

/-- Source temperature of the fans in 1/40 °C (R496). -/
def fanTemp (s : State) : Int :=
  let die : Int := (hottest s : Int) * 5 - 800
  let mod : List Int := match hottestModule s with
    | some t => [t * 10]
    | none => []
  let src := regField s brdAgent 0x500 24 8
  let th := ((upto 8).filter (fun k => src.testBit k)).map (fun k => ainValue s (16 + k) * 4)
  (mod ++ th).foldl max die

/-- Duty at a source temperature. -/
def fanDuty (s : State) (t : Int) : Nat :=
  let least := regField s brdAgent 0x500 0 7
  let lo : Int := (regField s brdAgent 0x500 8 7 : Nat) * 40
  let hi : Int := (regField s brdAgent 0x500 16 7 : Nat) * 40
  if t ≤ lo then least
  else if hi ≤ t then 100
  else
    let num := (100 - least) * (t - lo).toNat
    let den := (hi - lo).toNat
    least + (num + den - 1) / den

/-- Every 100 ms. -/
def fanUpdate (s0 : State) : State :=
  let s := periodic s0 4 100000000
  let d := fanDuty s (fanTemp s)
  fanForce (brdMod s (fun b => { b with fans := (upto 8).map (fun n =>
    { (b.fans[n]?).getD {} with duty := if fanEnabled s n then d else 100 }) }))

/-- Every 1 s: pulses become revolutions; two seconds on one side of MIN_RPM decide. -/
def fanTach (s0 : State) (pulses : List (BitVec 32)) : State :=
  let s := periodic s0 5 1000000000
  fanForce (foldN 8 (fun s n =>
    if !fanEnabled s n then s
    else
      let cfg := 0x510 + 4 * n
      let rpm := ((pulses[n]?).getD 0).toNat * 60 / (regField s brdAgent cfg 1 2 + 1)
      let f := (s.brd.fans[n]?).getD {}
      let slow := decide (rpm < regField s brdAgent cfg 16 16)
      let below := if slow then f.below + 1 else 0
      let above := if slow then 0 else f.above + 1
      let low := if f.low then decide (above < 2) else decide (2 ≤ below)
      let s1 := brdMod s (fun b => { b with fans := lset b.fans n { f with rpm := min 0xFFFF rpm, below := below, above := above, low := low } })
      if low ∧ !f.low then bump0 s1 .brdFanLow else s1) s)

/-! ## Temperatures (R174, R492 to R495) -/

/-- A thermal trip: every fan at 100 %, and a chip stop, or the end of a boot sequence (R449). -/
def thermalTrip (s : State) : State :=
  if s.brd.tripped then s
  else
    let s1 := fanForce (brdMod s (fun b => { b with tripped := true }))
    if booting s1 then haltBoot s1 true else chipStopBy s1 brdAgent 0x52

/-- Every 10 µs: the 32 readings in 0.125 °C. -/
def dieRead (s0 : State) (temps : List (BitVec 11)) : State :=
  let s := periodic s0 3 10000
  let s1 := brdMod s (fun b => { b with die := (upto 32).map (fun k => ((temps[k]?).getD 0).toNat) })
  if regField s brdAgent 0x118 8 8 * 8 < hottest s1 then
    let s2 := brdMod s1 (fun b => { b with dieOver := b.dieOver + 1 })
    if 2 ≤ s2.brd.dieOver then thermalTrip s2 else s2
  else
    let s2 := brdMod s1 (fun b => { b with dieOver := 0 })
    bootMod s2 (fun b => { b with haltHeat := false })

/-- What one poll reads of a module: temperature in 0.25 °C and PMIC power in 0.1 W. -/
def modulePolled (s : State) (slot : Nat) (r : Option (BitVec 12 × BitVec 16)) : State :=
  let m := tget {} s.brd.mods slot
  if !m.present then s
  else
    let put (m : Module) : State := brdMod s (fun b => { b with mods := tset {} b.mods slot m })
    match r with
    | none => bump0 (put { m with fails := m.fails + 1, unknown := m.unknown || decide (2 ≤ m.fails), excess := 0 }) .brdI3cFail
    | some (t, p) =>
      let hot := decide (((regField s brdAgent 0x118 16 8 * 4 : Nat) : Int) < t.toInt)
      put { m with temp := t.toInt, power := p.toNat, fails := 0, unknown := false, excess := if hot then m.excess + 1 else 0 }

def tripWhen (o : Bool) (s : State) : State := if o then thermalTrip s else s

/-- Every 8 ms: all present modules; the refresh interval follows at the next instant (R174). -/
def modulePoll (s0 : State) (reads : List (Option (BitVec 12 × BitVec 16))) : State :=
  let s := periodic s0 9 8000000
  let s1 := foldN 32 (fun s k => modulePolled s k ((reads[k]?).getD none)) s
  let ms := (s1.brd.mods.filter (·.2.present)).map (·.2)
  let hot := ms.any (fun m => m.unknown || decide (85 * 4 < m.temp))
  let cool := ms.all (fun m => !m.unknown && decide (m.temp ≤ 82 * 4))
  let s2 := dmcMod s1 (fun d => { d with hotNext := d.hotNext || hot, coolSince := if cool then some (d.coolSince.getD s1.now) else none })
  tripWhen (ms.any (fun m => decide (2 ≤ m.excess))) (fanForce s2)

/-! ## Grid clock (R498, R499) -/

/-- The speed grade's maximum in 100 MHz units (R15). -/
def gradeMax : Nat := Config.grade.toNat

def gridFreq (s : State) : Nat := s.crg.freq.getD gradeMax

/-- ⌈a / b⌉ of an excess over a cap. -/
def ceilDiv (a b : Nat) : Nat := if b = 0 then 0 else (a + b - 1) / b

/-- The target of a decision (R498): whether the thermal rule applied, CAP_FLOOR, quiet_ms after this decision, the target. -/
structure ClockChoice where
  throttle : Bool
  floor : Bool
  quiet : Nat
  target : Nat

def clockChoice (s : State) : ClockChoice :=
  let f : Int := (gridFreq s : Int)
  let limit := regField s brdAgent 0x110 0 12
  let stepW := regField s brdAgent 0x110 12 6
  let hyst := regField s brdAgent 0x110 18 6
  let hold := regField s brdAgent 0x110 24 8
  let window := regField s brdAgent 0x114 0 6
  let fmin : Int := (regField s brdAgent 0x114 8 5 : Nat)
  let fmax : Int := ((min gradeMax (regField s brdAgent 0x114 16 5) : Nat) : Int)
  let throttleAt := regField s brdAgent 0x118 0 8 * 8
  let p := powerSum s
  -- power and limits in 0.1 W, times the number of frames
  let excess : Int := p.1 - ((limit * 10 * p.2 : Nat) : Int)
  let rested : Bool := match s.brd.stepAt with
    | none => true
    | some t => decide (t + window * 1000000 ≤ s.now)
  let t1 : Int := if 0 < limit ∧ 0 < excess ∧ rested then f - (ceilDiv excess.toNat (stepW * 10 * p.2) : Nat) else f
  let throttle := decide (throttleAt < hottest s)
  let t2 := if throttle then min t1 (f - 1) else t1
  let t3 := min t2 fmax
  let calm := (decide (limit = 0) || decide (excess + ((hyst * 10 * p.2 : Nat) : Int) ≤ 0)) && decide (hottest s + 24 ≤ throttleAt)
  let quiet := if calm then s.brd.quiet + 1 else 0
  let t4 := if t3 = f ∧ f < fmax ∧ hold ≤ quiet then f + 1 else t3
  { throttle := throttle, floor := decide (t4 < fmin), quiet := quiet, target := (max t4 fmin).toNat }

/-- Every 1 ms from boot step 5: a decision, and a step if the target differs (R499 steps 1 to 3). One that falls within a step
or a service complex restart is skipped (R499, R505). -/
def capDecision (s0 : State) : State :=
  let s := periodic s0 6 1000000
  if s.crg.stepping ∨ s.svc.restarting ∨ s.boot.step < 5 ∨ recovering s then s
  else
    let c := clockChoice s
    let s1 := brdMod s (fun b => { b with throttling := c.throttle, capFloor := c.floor, quiet := c.quiet })
    let s2 := if c.throttle then bump0 s1 .brdThrottle else s1
    if c.target = gridFreq s then s2
    else
      let s3 := brdMod s2 (fun b => { b with stepAt := some s.now, quiet := 0 })
      crgMod s3 (fun x => { x with target := some c.target, stepping := true, lock := x.lock &&& 0xF9 })

/-- Relock: CD02 and CD03 restart, and every RUNNING session counts the step (R304, R499 step 4). -/
def stepRelock (s : State) : State :=
  if !s.crg.stepping then s
  else
    let dest := s.crg.target.getD gradeMax
    let s1 := bump0 s (if dest < gridFreq s then .brdStepDown else .brdStepUp)
    let s2 := crgMod s1 (fun x => { x with freq := some dest, steps := satAdd 0xFFFF x.steps 1, stepping := false, lock := x.lock ||| 6 })
    { s2 with grd := { s2.grd with sess := s2.grd.sess.map (fun e =>
        if e.2.state = .running then (e.1, { e.2 with clkSteps := satAdd 0xFF e.2.clkSteps 1 }) else e) } }

/-! ## PLLs (R504) -/

/-- A PLL loses lock outside a step: 0 to 6 in the order of CRG_PLL_STATUS, 7 the memory PLL. -/
def pllUnlock (s : State) (p : Nat) : State :=
  if !s.crg.lock.getLsbD p then s else bump0 (crgMod s (fun x => { x with lock := setBits x.lock p 1 0 })) .crgUnlock

def pllRelock (s : State) (p : Nat) : State :=
  if s.crg.stepping ∧ (p = 1 ∨ p = 2) then s else crgMod s (fun x => { x with lock := setBits x.lock p 1 1 })

end Sys2Proof.Machine
end

