-- ==== Sys2Proof/Machine/BoardCmds.lean ====
section
/-! DEFINITION. Commands of the board, the clocks and the PLLs, one meaning each. -/
namespace Sys2Proof.Machine

/-- An ADC frame of 32 conversions completes, updating input values, feed presence and board power (R486). -/
def execAdcFrame (codes : List (BitVec 12)) (s : State) : Host.Outcome State Fault Refusal :=
  .next (adcFrame s codes)

/-- A lost feed's voltage stays above OK for 1 ms and the feed is present again (R490). -/
def execFeedReturn (feedB : Bool) (s : State) : Host.Outcome State Fault Refusal :=
  .next (feedReturn s feedB)

/-- A BRD_FEED_CTRL write drives a feed's enable low unless it would leave no feed present and on (R489). -/
def execFeedOffWrite (src : MgmtSource) (value : BitVec 32) (s : State) : Host.Outcome State Fault Refusal :=
  .next (asOperator s src (feedCtrl s value))

/-- Every 10 µs the 32 die sensors are read and the hottest die temperature updated (R492). -/
def execDieTempRead (temps : List (BitVec 11)) (s : State) : Host.Outcome State Fault Refusal :=
  .next (dieRead s temps)

/-- Every 8 ms BRD reads each module's temperature sensors and PMIC power over I3C, marking UNKNOWN after three
failures (R493). -/
def execModulePoll (reads : List (Option (BitVec 12 × BitVec 16))) (s : State) : Host.Outcome State Fault Refusal :=
  .next (modulePoll s reads)

/-- Every 100 ms BRD computes the source temperature and sets every enabled fan's duty (R496). -/
def execFanUpdate (s : State) : Host.Outcome State Fault Refusal :=
  .next (fanUpdate s)

/-- Every 1 s BRD converts tachometer pulses to speed and marks fans LOW or not (R497). -/
def execFanTachCount (pulses : List (BitVec 32)) (s : State) : Host.Outcome State Fault Refusal :=
  .next (fanTach s pulses)

/-- Every 1 ms BRD decides the grid frequency from power and temperature and starts a clock step if it changes
(R498). -/
def execCapDecision (s : State) : Host.Outcome State Fault Refusal :=
  .next (capDecision s)

/-- PLL_GRID and PLL_MTX relock at the new frequency and paused sessions resume with CLK_STEPS incremented (R499).
-/
def execClockStepRelock (s : State) : Host.Outcome State Fault Refusal :=
  .next (stepRelock s)

/-- A PLL loses lock outside a step, gating its domains' clocks until relock (R504). -/
def execPllUnlock (pll : Fin 8) (s : State) : Host.Outcome State Fault Refusal :=
  .next (pllUnlock s pll.val)

/-- An unlocked PLL relocks and its domains' clocks run again (R504). -/
def execPllRelock (pll : Fin 8) (s : State) : Host.Outcome State Fault Refusal :=
  .next (pllRelock s pll.val)

end Sys2Proof.Machine
end

