-- ==== Sys2Proof/Machine/Debug.lean ====
section
/-! DEFINITION. The counter directory, trace samples, debug reads of memory and of the grid stores, and the TAP (R470, R480 to
R485). -/
namespace Sys2Proof.Machine

/-! ## Counter directory (R470) -/

def digit (n : Nat) : String := if n < 10 then toString n else (["A", "B", "C", "D", "E", "F"]).getD (n - 10) ""

/-- Entries of a counter in an instance: division and suffix of the name. -/
def cntSubs (inst : Nat) : CntDiv → List (Nat × String)
  | .one => [(0, "")]
  | .lane => (upto 9).map (fun l => (l, "_L" ++ digit l))
  | .status => (upto 17).map (fun c => (c, "_" ++ digit (c / 16) ++ digit (c % 16)))
  | .svc => (upto 4).map (fun c => (c, digit c))
  | .class => (upto 8).map (fun c => (c, "_C" ++ digit c))
  | .half => (upto 2).map (fun h => (h, "_L" ++ digit (2 * inst + h)))
  | .linkClass => (upto 64).map (fun i => (i, "_L" ++ digit (i / 8) ++ "_C" ++ digit (i % 8)))
  | .epoch => (upto 2).map (fun e => (e, digit e))

/-- The directory of an agent: counter, division, name (log 12). -/
def directory (agent : Nat) : List (Cnt × Nat × String) :=
  (cntAll.filter (fun c => (cntInfo c).domain = agentDomain agent ∧ (cntInfo c).block = agentBlock agent)).flatMap (fun c =>
    (cntSubs (agentInst agent) (cntInfo c).div).map (fun x => (c, x.1, (cntInfo c).name ++ x.2)))

/-- Count of a directory entry over all pitches, or a pitch's copy; 0 beyond the directory. -/
def dirCount (s : State) (agent index : Nat) (pitch : Option Nat) : DWord :=
  match (directory agent)[index]? with
  | none => 0
  | some e => match pitch with
    | none => cntGet s e.1 (agentInst agent) e.2.1
    | some n => if n = 0 ∨ !cntPerPitch e.1 then 0 else cntGetP s e.1 (agentInst agent) e.2.1 n

/-- Word k of a directory entry's name. -/
def dirName (agent index k : Nat) : Word :=
  match (directory agent)[index]? with
  | none => 0
  | some e => BitVec.ofNat 32 (leNat (((e.2.2.toList.map (fun c => BitVec.ofNat 8 c.toNat) ++ zeros 24).drop (4 * k)).take 4))

/-! ## Trace samples (R480, R483) -/

/-- At the next multiple of PERIOD, each enabled selector adds a record. -/
def traceSample (s0 : State) : State :=
  let us := regField s0 dbgAgent 0x104 16 16
  if us = 0 then s0
  else
    let s := periodicCd10 s0 8 (max 10 us * 1000)
    foldN 16 (fun s k =>
      let sel := regGet s dbgAgent (0x140 + 4 * k)
      if !sel.getLsbD 15 then s
      else
        let index := bitsOf sel 0 10
        let agent := bitsOf sel 16 16
        trace s 7 0 agent 0 (leBytes 2 index ++ zeros 6 ++ leBytes 8 (dirCount s agent index none).toNat)) s

/-! ## Memory reads (R481) -/

/-- GO: the read of the line that the address registers name joins its channel's queue in S0. -/
def memReadGo (s : State) : State :=
  let a := ((regGet s dbgAgent 0x200).toNat + bitsOf (regGet s dbgAgent 0x204) 0 6 * 2 ^ 32) * 64
  let s1 := dbgMod s (fun d => { d with memState := 1, memAddr := a })
  if (granGet s (granOf a)).state = .absent then s1 else dmcRead s1 a 0 0 false none

/-- The read ends: plaintext only of a line under key slot 00h. The status for an address that no granule has is left open. -/
def memReadDone (s : State) : State :=
  if s.dbg.memState ≠ 1 then s
  else
    let a := s.dbg.memAddr
    let failed (s : State) (st : Nat) : State := dbgMod s (fun d => { d with memState := 3, memPlain := false, memStatus := BitVec.ofNat 8 st })
    if (granGet s (granOf a)).state = .absent then
      let d := draw s
      failed d.2 (d.1.toNat % 256)
    else
      match unitsVerdict s [{ pva := 0, ppa := a, len := 64, entry := 0 }] with
      | some st => failed s st
      | none =>
        match lineVerdict s a with
        | .good =>
          let m := metaGet s a
          let plain := decide (m.keySlot = 0)
          let data := if plain then memBytes s a 64 else lineCipherBytes s a
          let bits := lineMetaBits s a
          dbgMod s (fun d => { d with memState := 2, memPlain := plain, memStatus := 0, memData := data,
                                      memMeta := (upto 4).map (fun k => BitVec.ofNat 32 (bits / 2 ^ (32 * k))) })
        | v => failed (badLine s a 0 v) (verdictStatus v)

/-! ## Store captures (R480, R482) -/

/-- Does a session of a pitch with a READY cocoon hold a core (R216)? -/
def coreSealed (s : State) (core : Nat) : Bool :=
  s.grd.sess.any (fun e => decide (e.2.state ≠ .queued) && !e.2.cleared && decide (core ∈ e.2.cores ++ e.2.reserved) &&
    (pkGet s e.2.pitch.toNat).cocoons.any (fun c => decide (c.state = .ready)))

def bytesOfBits (n : Nat) {w : Nat} (x : BitVec w) : List Byte := leBytes n x.toNat

/-- The 128 bytes of a grid store that UNIT, STORE and ADDR name; a store or place that does not exist reads zero. -/
def storeBytes (s : State) (sel : Word) (a : Nat) : List Byte :=
  let unit := bitsOf sel 0 6
  let store := bitsOf sel 8 3
  let quadStore := decide (store = 4 ∨ store = 5)
  let sealed_ := if quadStore then (upto 4).any (fun i => coreSealed s (quadCore unit i)) else coreSealed s unit
  let c := coreGet s unit
  let q := quadGet s unit
  if sealed_ ∨ (quadStore ∧ 16 ≤ unit) then zeros 128
  else if store = 0 then (upto 128).map (fun i => tget 0 c.hold (a / 128 * 128 + i))
  else if store = 1 then (if 2 ≤ a then zeros 128 else (upto 16).flatMap (fun i => bytesOfBits 8 (tget 0 c.s (16 * a + i))))
  else if store = 2 then (if 32 ≤ a then zeros 128 else bytesOfBits 128 (tget 0 c.v a))
  else if store = 3 then (upto 8).flatMap (fun i => bytesOfBits 16 (tget 0 c.p i))
  else if store = 4 then
    (upto 32).flatMap (fun i => bytesOfBits 4 (tget 0 q.acc (4096 * (a / 64 % 8) + 64 * (a % 64) + 32 * (a / 512 % 2) + i)))
  else if store = 5 then (upto 128).map (fun i => tget 0 q.opbuf (a / 128 * 128 + i))
  else zeros 128

/-- A write of DBG_STORE_ADDR starts a capture for its source; an earlier one of that source has ended, since its later entries
wait for it. -/
def captureStart (s : State) (src : MgmtSource) (a : Nat) : State :=
  dbgMod s (fun d => { d with capturing := d.capturing.filter (fun e => e.1 ≠ src) ++ [(src, (selGet s src dbgAgent 0x300).toNat, a)] })

/-- A source's capture ends: its bytes can be read. -/
def captureEnd (s : State) (src : MgmtSource) : State :=
  match s.dbg.capturing.find? (fun e => e.1 = src) with
  | none => s
  | some e =>
    dbgMod s (fun d => { d with capturing := d.capturing.filter (fun x => x.1 ≠ src),
                                captures := aput d.captures src (storeBytes s (BitVec.ofNat 32 e.2.1) e.2.2) })

/-! ## TAP (R484) -/

/-- IDCODE. -/
def idcodeWord : Word := BitVec.ofNat 32 (Config.stepMajor.toNat * 2 ^ 28 + 0x9416 * 4096 + 0x1D3 * 2 + 1)

/-- An instruction is loaded: IDCODE selects its register, MGMT the result of the last access, the others but for boundary
scan the 1-bit bypass register. -/
def tapLoad (s : State) (ir : Byte) : State :=
  let dr : BitVec 68 := if ir = 1 then idcodeWord.zeroExtend 68 else 0
  dbgMod s (fun d => { d with jtagIr := ir, jtagDr := dr })

/-- Boundary scan: the register is loaded, and drives the balls under EXTEST. -/
def tapScan (s : State) (ir : Byte) (bits : List Bool) : State :=
  dbgMod (tapLoad s ir) (fun d => { d with boundary := bits })

/-- BYPASS and every unlisted value. -/
def tapBypass (s : State) (ir : Byte) : State :=
  if ir = 1 ∨ ir = 2 ∨ ir = 3 ∨ ir = 4 ∨ ir = 5 ∨ ir = 0x10 then s else tapLoad s ir

/-- Reset of the TAP only: IDCODE is selected (log 9). -/
def tapReset (s : State) : State := tapLoad s 1

end Sys2Proof.Machine
end

