-- ==== Sys2Proof/Machine/Fabric.lean ====
section
/-! DEFINITION. The on-chip fabric: routing tables and epochs, the deflecting mesh, reflections, starvation and link
parity (R396 to R408). -/
namespace Sys2Proof.Machine

def fabMod (s : State) (f : Fab → Fab) : State := { s with fab := f s.fab }

/-! ## Mesh (R396) -/

def rx (n : Nat) : Nat := n % 8
def ry (n : Nat) : Nat := n / 8

/-- The neighbour of a router in direction 0 +x, 1 −x, 2 +y, 3 −y. -/
def neighbour (n dir : Nat) : Option Nat :=
  if dir = 0 then (if rx n < 7 then some (n + 1) else none)
  else if dir = 1 then (if 0 < rx n then some (n - 1) else none)
  else if dir = 2 then (if ry n < 5 then some (n + 8) else none)
  else (if 0 < ry n then some (n - 8) else none)

/-- Manhattan distance of two routers. -/
def meshDist (a b : Nat) : Nat := (rx a - rx b) + (rx b - rx a) + (ry a - ry b) + (ry b - ry a)

/-- Mesh outputs of a router, by direction code. -/
def meshOuts (n : Nat) : List Nat := (upto 4).filter (fun d => (neighbour n d).isSome)

/-- CD01 cycles at a time (R396, R407): 2.2 GHz. -/
def fabCycle (ns : Nat) : Nat := ns * 11 / 5
def fabTime (s : State) : Nat := fabCycle s.now

/-! ## Headers (R398) -/

def hEpoch (h : BitVec 128) : Nat := bitsOf h 1 1
def hDst (h : BitVec 128) : Nat := bitsOf h 4 6
def hSrc (h : BitVec 128) : Nat := bitsOf h 13 6
def hSrcEp (h : BitVec 128) : Nat := bitsOf h 19 3
def hAge (h : BitVec 128) : Nat := bitsOf h 22 16
def hTag (h : BitVec 128) : Nat := bitsOf h 104 16

/-- AGE rises, saturating at FFFFh. -/
def aged (h : BitVec 128) (n : Nat) : BitVec 128 := setBits h 22 16 (satAdd 0xFFFF (hAge h) n)

/-- The reflected form of a request: REFL and RSP set, source and destination exchanged (R401). -/
def reflected (h : BitVec 128) : BitVec 128 :=
  let a := setBits (setBits h 4 6 (hSrc h)) 10 3 (hSrcEp h)
  let b := setBits (setBits a 13 6 (hDst h)) 19 3 (bitsOf h 10 3)
  setBits (setBits b 2 1 1) 3 1 1

/-- A packet as its source injects it again: REFL and RSP cleared, its way as it was, stamped with an epoch. -/
def reinjected (h : BitVec 128) (epoch : Nat) : BitVec 128 :=
  setBits (setBits (setBits (reflected h) 2 1 0) 3 1 0) 1 1 epoch

/-! ## Routing tables (R404, R405) -/

def rtIx (n bank plane d : Nat) : Nat := ((n * 2 + bank) * 4 + plane) * 48 + d
def rtGet (s : State) (n bank plane d : Nat) : BitVec 6 := tget 0 s.fab.rt (rtIx n bank plane d)
def rtPut (s : State) (n bank plane d : Nat) (v : Word) : State :=
  fabMod s (fun f => { f with rt := tset 0 f.rt (rtIx n bank plane d) (v.truncate 6) })

/-- An entry names outputs that lead nearer, and LOCAL exactly at its own router. -/
def rtEntryOk (n d : Nat) (e : BitVec 6) : Bool :=
  let near (dir : Nat) : Bool := match neighbour n dir with
    | some m => decide (meshDist m d < meshDist n d)
    | none => false
  if d = n then e.getLsbD 5
  else !e.getLsbD 5 && near (bitsOf e 0 2) && (!e.getLsbD 4 || near (bitsOf e 2 2))

/-- Is a bank valid (R405)? -/
def bankOk (s : State) (bank : Nat) : Bool :=
  (upto 48).all (fun n => (upto 4).all (fun p => (upto 48).all (fun d => rtEntryOk n d (rtGet s n bank p d))))

/-- A write of an entry; the image's records load B0 at start-up. -/
def rtWrite (s : State) (src : MgmtSource) (n bank plane d : Nat) (v : Word) : State :=
  if 48 ≤ n ∨ 48 ≤ d ∨ (scopeOf s src).isSome then s
  else if src = .image ∨ (bank ≠ b2n s.fab.current ∧ s.fab.oldDrained ∧ !s.fab.pending) then rtPut s n bank plane d v
  else bump s .fabRtRefused n 0 0

/-! ## Epoch switch (R406) -/

/-- FAB_EPOCH_GO. -/
def epochGo (s : State) : State :=
  let t := (regGet s (fabAgent 0) 0x104).toNat + (regGet s (fabAgent 0) 0x108).toNat * 2 ^ 32
  let next := 1 - b2n s.fab.current
  if t < fabTime s + 1024 then fabMod s (fun f => { f with status := 2 })
  else if !s.fab.oldDrained ∨ s.fab.pending then fabMod s (fun f => { f with status := 3 })
  else if !bankOk s next then fabMod s (fun f => { f with status := 4 })
  else fabMod s (fun f => { f with status := 1, pending := true, switchAt := t })

/-- T comes: the current bank changes. -/
def epochSwitch (s : State) : State :=
  if !s.fab.pending then s
  else
    let s1 := nowTo s ((s.fab.switchAt * 5 + 10) / 11)
    let s2 := fabMod s1 (fun f => { f with current := !f.current, pending := false, oldDrained := false })
    trace s2 5 0 (fabAgent 0) 0 [BitVec.ofNat 8 (b2n s2.fab.current)]

/-- Sum of a counter over the routers. -/
def fabSum (s : State) (c : Cnt) (epoch : Nat) : BitVec 64 := foldN 48 (fun a n => a + cntGet s c n epoch) 0

/-- FAB0 compares the old epoch's injections and ejections. -/
def drainCheck (s : State) : State :=
  let old := 1 - b2n s.fab.current
  if !s.fab.oldDrained ∧ fabSum s .fabInjE old = fabSum s .fabEjE old then fabMod s (fun f => { f with oldDrained := true }) else s

/-! ## Deflection (R400, R403) -/

/-- Older first: greater AGE, then lower SRC, SRC_EP, TAG. -/
def ageKey (p : FabPkt) : List Nat := [0xFFFF - hAge p.hdr, hSrc p.hdr, hSrcEp p.hdr, hTag p.hdr]
def olderFirst (ps : List FabPkt) : List FabPkt :=
  let ins (p : FabPkt) : List FabPkt → List FabPkt := fun l =>
    (l.takeWhile (fun q => !keyLt (ageKey p) (ageKey q))) ++ p :: (l.dropWhile (fun q => !keyLt (ageKey p) (ageKey q)))
  ps.foldl (fun l p => ins p l) []

/-- The output a packet takes at a router among those that are free: FIRST, SECOND, else the lowest direction code. -/
def outputOf (s : State) (n : Nat) (p : FabPkt) (free : List Nat) : Option (Nat × Bool) :=
  let e := rtGet s n (hEpoch p.hdr) p.plane (hDst p.hdr)
  let a := bitsOf e 0 2
  let b := bitsOf e 2 2
  if a ∈ free then some (a, false)
  else if e.getLsbD 4 ∧ b ∈ free then some (b, false)
  else free.head?.map (fun d => (d, true))

/-- One packet at a router: ejected, or sent on; `free` are the outputs left, `out` whether one has been ejected. -/
structure RouterStep where
  s : State
  free : List Nat
  out : Bool
  moved : List FabPkt

def routeOne (n : Nat) (r : RouterStep) (p : FabPkt) : RouterStep :=
  if hDst p.hdr = n ∧ !r.out then { r with s := bump r.s .fabEjE n (hEpoch p.hdr) 0, out := true }
  else
    match outputOf r.s n p r.free with
    | none => { r with moved := r.moved ++ [p] }
    | some (d, deflected) =>
      { r with s := if deflected then bump r.s .fabDeflect n 0 0 else r.s, free := r.free.filter (· ≠ d),
               moved := r.moved ++ [{ p with router := (neighbour n d).getD n, hdr := aged p.hdr 1 }] }

/-- One plane of one router for one cycle: its arrivals in order of age, then at most one injection if an output is free
and no other router starves. -/
def routerCycle (s : State) (here : List FabPkt) (n plane : Nat) (starving : Bool) : State × List FabPkt :=
  let r := (olderFirst here).foldl (routeOne n) { s := s, free := meshOuts n, out := false, moved := [] }
  match r.s.fab.waiting.find? (fun w => w.router = n ∧ w.plane = plane ∧ (!starving ∨ w.starve)) with
  | none => (r.s, r.moved)
  | some w =>
    if r.free.isEmpty then (r.s, r.moved)
    else
      let s1 := fabMod (bump r.s .fabInjE n (hEpoch w.hdr) 0) (fun f => { f with waiting := f.waiting.erase w })
      let r1 := routeOne n { r with s := s1 } { w with wait := 0, starve := false }
      (r1.s, r1.moved)

/-- One fabric cycle of every router and plane that has work. -/
def meshCycle (s : State) : State :=
  if s.fab.flight.isEmpty ∧ s.fab.waiting.isEmpty then s
  else
    let all := s.fab.flight
    let s0 := fabMod s (fun f => { f with flight := [], waiting := f.waiting.map (fun w => { w with wait := w.wait + 1, hdr := aged w.hdr 1 }) })
    let starve := s0.fab.waiting.filter (·.starve)
    let r := foldN 48 (fun a n => foldN 4 (fun (a : State × List FabPkt) plane =>
      let x := routerCycle a.1 (all.filter (fun p => p.router = n ∧ p.plane = plane)) n plane (starve.any (fun w => w.plane = plane))
      (x.1, a.2 ++ x.2)) a) (s0, [])
    fabMod r.1 (fun f => { f with flight := r.2 })

/-- Fabric cycles of a span of time. -/
def meshTick (s : State) (before : Nat) : State := foldN (fabTime s - fabCycle before) (fun s _ => meshCycle s) s

/-- An injector that has waited 128 cycles on a plane asserts STARVE (R403): time moves to that cycle. -/
def fabStarve (s : State) (n plane : Nat) : State :=
  match s.fab.waiting.find? (fun w => w.router = n ∧ w.plane = plane ∧ !w.starve) with
  | none => s
  | some w =>
    let on (x : FabPkt) : FabPkt := if x = w then { x with starve := true, wait := max 128 x.wait } else x
    bump (fabMod s (fun f => { f with waiting := f.waiting.map on })) .fabStarve n 0 0

/-! ## Reflection and link parity (R399, R401) -/

/-- A packet is reflected at its endpoint, and HOLD cycles later its source injects it again. `fails` is how many times a
link of its source's router found its parity wrong before it left. A packet that the mesh does not hold counts as
injected with its header's epoch. -/
def reflectReinject (s : State) (h : BitVec 128) (payload : BitVec 512) (plane fails : Nat) : State :=
  let src := hSrc h
  let dst := hDst h
  if 48 ≤ src ∨ 48 ≤ dst ∨ bitsOf h 0 1 = 0 ∨ bitsOf h 3 1 = 1 then s
  else
    let held (p : FabPkt) : Bool := decide (hSrc p.hdr = src) && decide (hSrcEp p.hdr = hSrcEp h) && decide (hTag p.hdr = hTag h)
    let s1 := if s.fab.flight.any held then fabMod s (fun f => { f with flight := f.flight.filter (fun p => !held p) })
      else bump s .fabInjE src (hEpoch h) 0
    let s2 := bump (bump s1 .fabEjE dst (hEpoch h) 0) .fabReflect dst 0 0
    let s3 := bumpN s2 .fabParityReplay src 0 0 (min 2 fails)
    if 3 ≤ fails then chipStopBy s3 (fabAgent src) 0x10
    else
      let hold := regField s3 (fabAgent 0) 0x118 0 8
      let w : FabPkt :=
        { router := src, plane := plane % 2, hdr := aged (reinjected (reflected h) (b2n s3.fab.current)) (hold + fails), payload := payload }
      fabMod s3 (fun f => { f with waiting := f.waiting ++ [w] })

end Sys2Proof.Machine
end

