-- ==== Sys2Proof/Machine/Life.lean ====
section
/-! DEFINITION. Events of the lifecycle, and management sessions (R22, R27, R32, R36, R43 to R45, R78, R197). -/
namespace Sys2Proof.Machine

/-! ## Events of creation, strike and repitch -/

/-- What firmware does waits while the service complex restarts; the restart ends creations and repitches itself (R479). -/
def unlessRestart (s s' : State) : State := if s.svc.restarting then s else s'

/-- No mirror role was fixed within 50 ms of acceptance (R22). -/
def createTimeout (s : State) (n : Nat) : State :=
  match (pGet s n).work with
  | some (.create _ at_) =>
    if (pGet s n).settings.flyReq ∧ (mirGet s n).role = .none_ then createFails (nowTo s (at_ + 50000000)) n rsFlyRefused else s
  | _ => s

/-- Every admitted operation and recall of a strike has completed (R27). -/
def drainEnd (s : State) (n : Nat) : State := if (pGet s n).draining ∧ drained s n then strikeEnds s n else s

/-- t0 + D (R27). -/
def drainDeadline (s : State) (n : Nat) : State :=
  match (pGet s n).work with
  | some (.strike _ d _ _ _) => if (pGet s n).draining then strikeDeadline (nowTo s d) n else s
  | _ => s

/-- 2 ms passed without every target's confirmation (R32). -/
def repitchTimeout (s : State) (n : Nat) : State :=
  match (pGet s n).work with
  | some (.repitch _ _ _ _ at_) => repitchFails (nowTo s (at_ + 2000000)) n
  | _ => s

/-! ## Sweep and key slots (R36, R197) -/

/-- SWP has written the last line of a granule (R36 steps 4 and 5); during a restart the granule returns once that ends (R479). -/
def sweepDone (s : State) (g : Nat) : State :=
  if (granGet s g).state = .sweeping ∧ g ∈ s.sweeping ∧ g ∉ s.svc.lateGranules then
    let s1 := bumpN (granuleFree s g) .swpLines 0 0 0 0x1000000
    if s.svc.restarting then svcMod s1 (fun v => { v with lateGranules := v.lateGranules ++ [g] }) else granuleReturned s1 g false
  else s

/-- New keys are in every MCE for a destroyed slot (R197). -/
def slotRefresh (s : State) (k : Nat) : State :=
  let v := slotGet s k
  if v.state = .destroyed then slotPut s k { v with state := .free, pitch := 0, refreshes := min 0xFFFF (v.refreshes + 1), gen := v.gen + 1 }
  else s

/-! ## Management sessions (R43, R44, R64, R78) -/

/-- A management session closes: its flows go with it (R44). -/
def mgmtClose (s : State) (number : BitVec 32) : State :=
  match mgmtFind s number with
  | none => s
  | some m =>
    let mine (id : FlowId) : Bool := match id with
      | .sess a p _ => decide (a = m.addr) && decide (p = m.port)
      | .ep _ _ _ => false
    dropFlows (tptMod s (fun t => { t with sessions := t.sessions.filter (fun x => x.number ≠ number) })) mine

def openSessions (s : State) : Nat := (s.tpt.sessions.filter (·.isOpen)).length

/-- The first number from `n` on that no session has. -/
def freshNumber (used : List (BitVec 32)) : Nat → BitVec 32 → BitVec 32
  | 0, n => n
  | k + 1, n => if n ∈ used then freshNumber used k (n + 1) else n

/-- OPEN: a nonce, a number and a session key wrapped to the operator key (R43). -/
def mgmtOpen (s : State) (r : Req) : State :=
  if r.payload.length ≠ 4 then answer s r stLength []
  else if 4 ≤ openSessions s then answer s r stDenied []
  else
    let a := draw s
    let b := draw a.2
    let c := draw b.2
    let used := c.2.tpt.sessions.map (·.number)
    let number := freshNumber used used.length (c.1.truncate 32)
    let m : MgmtSess := { number := number, nonce := a.1, key := b.1, lastValid := s.now, addr := r.srcAddr, port := r.srcPort }
    let s1 := tptMod c.2 (fun t => { t with sessions := t.sessions ++ [m] })
    let wrapped := Config.rsaWrap s.img.operatorKey (beBytes 64 m.key.toNat)
    answer s1 r stOk (beBytes 64 m.nonce.toNat ++ beBytes 4 number.toNat ++ beBytes 512 wrapped.toNat)

/-- PROOF: the signature over nonce and number opens the session (R43). -/
def mgmtProof (s : State) (r : Req) : State :=
  if r.payload.length ≠ 520 then answer s r stLength []
  else
    let number : BitVec 32 := BitVec.ofNat 32 (beAt r.payload 4 4)
    match mgmtFind s number with
    | none => answer s r stDenied []
    | some m =>
      let good := !m.isOpen && decide (openSessions s < 4) &&
        Config.rsaVerify s.img.operatorKey (beBytes 64 m.nonce.toNat ++ beBytes 4 number.toNat) (r.payload.drop 8)
      if good then
        answer (mgmtMod s number (fun m => { m with isOpen := true, lastCounter := 0, respCounter := 1, lastValid := s.now })) r stOk []
      else answer s r stDenied []

/-- CLOSE of the session that authenticated the message. -/
def mgmtCloseMsg (s : State) (r : Req) : State :=
  if r.payload.length ≠ 4 then answer s r stLength []
  else
    match r.sess with
    | none => answer s r stDenied []
    | some k => mgmtClose (answer s r stOk []) k

/-- General checks of a session-bound message that is no lifecycle message (R59, R64, R66): flags, then class. -/
def mgmtChecks (s : State) (r : Req) (f : RxFrame) (body : State → State) : State :=
  if flagH r.flags ∨ flagX r.flags then answer s r stUnsupported []
  else if r.tc ≠ 6 then answer s r stDenied []
  else if r.length.toNat ≠ f.payload.length then answer s r stLength []
  else body s

/-- MGMT_SESSION by its sub-operation; an undefined one is answered UNSUPPORTED. -/
def mgmtSession (s : State) (f : RxFrame) : State :=
  withRequest s 0x7C f (fun s r => mgmtChecks s r f (fun s =>
    let k := byteAt r.payload 0
    if k = 1 then mgmtOpen s r else if k = 2 then mgmtProof s r else if k = 3 then mgmtCloseMsg s r
    else answer s r stUnsupported []))

/-- 600 s passed without a valid message (R44). -/
def mgmtExpire (s : State) (number : BitVec 32) : State :=
  match mgmtFind s number with
  | none => s
  | some m => mgmtClose (nowTo s (m.lastValid + 600000000000)) number

end Sys2Proof.Machine
end

