-- ==== Sys2Proof/Machine/Service.lean ====
section
/-! DEFINITION. The service complex: check-value units, watchdog, restart, cache parity (R413, R474 to R479). -/
namespace Sys2Proof.Machine

/-! ## Check-value units (R474 to R476) -/

/-- Does a service core run? -/
def scRuns (s : State) (k : Nat) : Bool := decide (uAct s (uSc k) = .up) && !s.svc.restarting

def cvuGet (s : State) (k : Nat) : Cvu := (s.cvus[k]?).getD {}

/-- What a service core does to its CVU. -/
def cvuMod (s : State) (k : Nat) (f : Cvu → Cvu) : State :=
  if scRuns s k then { s with cvus := lset s.cvus k (f (cvuGet s k)) } else s

def cvuInit (poly : BitVec 2) (c : Cvu) : Cvu := if poly = 3 then c else { c with poly := poly, value := cvuInitial poly }
def cvuPoly (poly : BitVec 2) (c : Cvu) : Cvu := if poly = 3 then c else { c with poly := poly }

/-- A feed of n bytes, the lowest first. -/
def cvuFeedN (n : Nat) (data : Word) (c : Cvu) : Cvu :=
  { c with value := (leBytes n data.toNat).foldl (cvuFeed c.poly) c.value }

def cvuValue (v : Word) (c : Cvu) : Cvu :=
  { c with value := if c.poly = 2 then (c.value &&& 0xFFFFFF00) ||| (v &&& 0xFF) else v }

/-! ## Watchdog and restart (R477 to R479) -/

def wdogNs (s : State) : Nat := regField s svcAgent 0x100 0 16 * 1000000

def wdogKick (s : State) (k : Nat) : State :=
  if scRuns s k then svcMod s (fun v => { v with kicks := lset v.kicks k s.now }) else s

/-- Restarts of the last 10 minutes. -/
def recentRestarts (s : State) : List Nat := s.svc.restartTimes.filter (fun t => s.now < t + 600000000000)

/-- A restart begins, or the third within 10 minutes stops the chip (R413, R478 steps 1 and 2). -/
def restartBegin (s : State) : State :=
  if s.svc.restarting then s
  else if 2 ≤ (recentRestarts s).length then chipStop s 0x41
  else
    let s1 := faultRec s { agent := svcAgent, cause := 0x41, cls := clsTransient }
    let s2 := svcMod s1 (fun v => { v with restarting := true, restarts := satAdd 0xFF v.restarts 1,
                                           restartTimes := recentRestarts s ++ [s.now] })
    let s3 := trace s2 8 0 svcAgent 0 [BitVec.ofNat 8 s2.svc.restarts]
    let s4 := tptMod s3 (fun t => { t with sessions := t.sessions.filter (·.isOpen) })
    -- CD04 logic is reset, the CVUs of the service cores with it (R505)
    ptpMod { s4 with cvus := List.replicate 4 {} } (fun p => { p with locked := false, good := 0 })

/-- A running service core has missed its kick, at its TIMEOUT, or the shared SRAM has failed parity. -/
def wdogExpire (s : State) (sram : Bool) : State :=
  let due := ((upto 4).filter (fun k => scRuns s k)).map (fun k => (s.svc.kicks[k]?).getD 0 + wdogNs s)
  if sram then restartBegin s
  else match due.min? with
    | none => s
    | some t => restartBegin (nowTo s t)

/-- Work that a pitch had running when the restart began ends (R479). -/
def resumeWork (s : State) (n : Nat) : State :=
  match (pGet s n).work with
  | some (.create _ _) => createFails s n rsApplyFailed
  | some (.repitch _ _ _ _ _) => repitchFails s n
  | some (.strike _ _ _ _ _) => if (pGet s n).drained then strikeEnds s n else s
  | none => s

/-- Step 4: the chip manager has rebuilt its state; without a good copy of the firmware the chip stops (R478 step 3). -/
def restartDone (s : State) (firmwareOk : Bool) : State :=
  if !s.svc.restarting then s
  else if !firmwareOk then chipStop s 0x41
  else
    let recalls := s.svc.lateRecalls
    let granules := s.svc.lateGranules
    let s1 := svcMod s (fun v => { v with restarting := false, lateRecalls := [], lateGranules := [], kicks := [s.now, s.now, s.now, s.now] })
    let s2 := foldS (s1.pitches.map (·.1)) s1 resumeWork
    let s3 := foldS recalls s2 (fun s r => revokeAll s r.1 r.2)
    ptpStart (foldS granules s3 (fun s g => granuleReturned s g false))

/-- Parity in a service core's cache (R413, 40h): cleared by one refetch; again, it costs a restart, and the second such error
on one core in 24 hours retires the core. -/
def scParity (s : State) (k : Nat) (again : Bool) : State :=
  if !again then s
  else
    let last := tfind s.svc.cacheErr k
    let s1 := svcMod s (fun v => { v with cacheErr := tins v.cacheErr k s.now })
    let twice : Bool := match last with
      | some t => decide (s.now < t + 86400000000000)
      | none => false
    let s2 := if twice ∧ uAct s1 (uSc k) ≠ .retired then chiefAgain (retireUnit s1 (uSc k) 0x40 0 0) else s1
    if s2.flt.stopped then s2 else restartBegin s2

end Sys2Proof.Machine
end

