-- ==== Sys2Proof/Machine/Trust.lean ====
section
/-! DEFINITION. Attestation, key delivery, cocoons and measurement registers (R17, R200 to R213). -/
namespace Sys2Proof.Machine

/-- FUM_DEVICE_ID (R17). -/
def deviceId : Word :=
  BitVec.ofNat 32 (0x9416 * 65536 + Config.stepMajor.toNat * 4096 + Config.stepMinor.toNat * 256 + Config.grade.toNat)

/-! ## Measurement registers (R202, R203) -/

def mrGet (s : State) (n : Nat) : BitVec 512 := (s.fum.mr[n]?).getD 0

/-- MRn ← SHA-512(MRn ‖ d). -/
def mrExtend (s : State) (n : Nat) (d : List Byte) : State :=
  fumMod s (fun f => { f with mr := lset f.mr n (Config.sha512 (beBytes 64 (mrGet s n).toNat ++ d)) })

/-- Word k of MRn: bytes 4k to 4k + 3 with byte 4k in bits [7:0]. -/
def mrWord (s : State) (n k : Nat) : Word := BitVec.ofNat 32 (leNat (((beBytes 64 (mrGet s n).toNat).drop (4 * k)).take 4))

/-- FUM_MR5_EXTEND.GO: MR5 is extended with the data registers, which are zeroed. -/
def mr5Go (s : State) : State :=
  let d := s.fum.mr5data.flatMap (fun w => leBytes 4 w.toNat)
  fumMod (mrExtend s 5 d) (fun f => { f with mr5data := List.replicate 16 0 })

/-! ## Quotes (R204 to R206) -/

/-- A trust request: checks 1 to 12 (R63), then `body`. `len` is the LENGTH its payload has. -/
def trust (s : State) (op : Byte) (f : RxFrame) (len : Nat) (body : State → Req → State) : State :=
  withRequest s op f (fun s r =>
    checks s r (decide (r.length.toNat = len) && decide (r.payload.length = len)) true (fun s => body s r))

/-- MAX_SEG 0h of a requester. -/
def smallSegs (s : State) (r : Req) : Bool :=
  match tfind s.act.src r.endpoint.toNat with
  | some e => decide (e.maxSeg = 0)
  | none => false

/-- ATTEST_QUOTE: the pitch's ephemeral key is bound at its first quote, and signing starts. -/
def quoteStart (s : State) (r : Req) : State :=
  let n := r.pitch.toNat
  let k := pkGet s n
  if smallSegs s r then answer s r stDenied []
  else if !pCocoon s n then
    fumMod (markWindow s r) (fun f => { f with quotes := f.quotes ++ [{ req := r }] })
  else
    match k.eph with
    | some e => fumMod (markWindow s r) (fun f => { f with quotes := f.quotes ++ [{ req := r, eph := some e }] })
    | none =>
      match s.fum.ephPool with
      | [] => answer (bump s .fumEphEmpty 0 0 n) r stRetry []
      | e :: rest =>
        let s1 := pkPut (fumMod s (fun f => { f with ephPool := rest })) n { k with eph := some e }
        fumMod (markWindow s1 r) (fun f => { f with quotes := f.quotes ++ [{ req := r, eph := some e }] })

/-- Bytes 0–799 of a quote (R204). -/
def quoteBytes (s : State) (q : Quote) : List Byte :=
  let n := q.req.pitch.toNat
  let p := pGet s n
  let k := pkGet s n
  let t := tmplOf s p
  let mrs := (upto 6).flatMap (fun i => beBytes 64 (mrGet s i).toNat)
  let flags := b2n t.walled + b2n (k.cocoons.any (fun c => c.state = .ready)) * 2 + b2n k.content.isSome * 4
  let eph := match q.eph with
    | some e => beBytes 4 e.1.toNat ++ beBytes 512 (Config.ephModulus e.2).toNat
    | none => zeros 516
  [0, 1, 0, 0] ++ (q.req.payload ++ zeros 64).take 64 ++ beBytes 64 s.img.hash.toNat ++
    beBytes 64 (Config.sha512 mrs).toNat ++ beBytes 8 s.clx.dclass.toNat ++ beBytes 64 (Config.sha512 t.bytes).toNat ++
    [BitVec.ofNat 8 n, p.generation] ++ beBytes 2 flags ++ beBytes 8 Config.serial.toNat ++
    beBytes 4 deviceId.toNat ++ eph

/-- A quote is signed and returned, if its request still holds its tracker. -/
def quoteSigned (s : State) (id : FlowId) (seq : BitVec 24) : State :=
  let is (q : Quote) : Bool := decide (q.req.flow = id) && decide (q.req.seq = seq)
  match s.fum.quotes.find? is with
  | none => s
  | some q =>
    let s1 := fumMod s (fun f => { f with quotes := f.quotes.filter (fun x => !is x) })
    if (trkFind s1 id seq).isNone then s1
    else
      let b := quoteBytes s1 q
      respond (bump s1 .fumQuote 0 0 q.req.pitch.toNat) q.req stOk (b ++ beBytes 512 (Config.rsaSign b).toNat)

/-- A key pair joins the pool of 4 under the next number (R205). -/
def ephGenerated (s : State) : State :=
  if 4 ≤ s.fum.ephPool.length then s
  else
    fumMod { s with freeCtr := s.freeCtr + 1 } (fun f =>
      { f with ephPool := f.ephPool ++ [(f.ephNext, s.freeCtr)], ephNext := f.ephNext + 1 })

/-! ## KEY_DELIVER (R207, R208) -/

/-- A wrapped key under the pitch's ephemeral key: the key, if the plaintext names this pitch, the kind and
the EPH_ID. -/
def unwrapKey (n : Nat) (e : BitVec 32 × Nat) (kind : Byte) (w : List Byte) : Option (BitVec 256) :=
  match Config.rsaUnwrap e.2 w with
  | none => none
  | some p =>
    if p.length = 38 ∧ beAt p 32 1 = n ∧ byteAt p 33 = kind ∧ beAt p 34 4 = e.1.toNat then
      some (BitVec.ofNat 256 (beAt p 0 32))
    else none

def keyDeliver (s : State) (r : Req) : State :=
  let n := r.pitch.toNat
  let k := pkGet s n
  let no (s : State) : State := answer (bump s .fumUnwrapFail 0 0 n) r stDenied []
  match k.eph with
  | none => no s
  | some e =>
    if !pCocoon s n ∨ (pGet s n).life ≠ .up ∨ k.cocoons.any (fun c => c.state = .loading) then no s
    else
      match unwrapKey n e 1 (r.payload.take 512), unwrapKey n e 2 (r.payload.drop 512) with
      | some c, some t =>
        answer (pkPut s n { k with eph := none, content := some c, session := some t, owner := r.context, sealExec := 0 }) r stOk []
      | _, _ => no s

/-! ## COCOON_LOAD (R210 to R212) -/

/-- Pieces of a range of a pitch by its page tables, none if a page is not mapped. -/
def tablePieces (s : State) (n : Nat) : Nat → Nat → Nat → Option (List Piece)
  | 0, _, _ => none
  | fuel + 1, pva, len =>
    if len = 0 then some []
    else
      match walk s n pva with
      | .leaf level e =>
        let here := min (pageSize level - pva % pageSize level) len
        match tablePieces s n fuel (pva + here) (len - here) with
        | some t => some ({ pva := pva, ppa := entAddr e + pva % pageSize level, len := here, entry := e } :: t)
        | none => none
      | _ => none

/-- The pieces of a range whose slots the pitch holds. -/
def mapped (s : State) (n pva len : Nat) : Option (List Piece) :=
  if (upto ((pva + len - 1) / 0x40000000 - pva / 0x40000000 + 1)).all (fun i =>
      (slotGran s n (pva + i * 0x40000000)).isSome) then tablePieces s n (len / 65536 + 2) pva len
  else none

/-- Header bytes 0–319 of a blob, if they can be read. -/
def blobHeader (s : State) (n blob : Nat) : Option (List Byte) := (mapped s n blob 320).map (piecesBytes s)

/-- Checks 1 to 6 of R211: the status that fails, or PLAIN_LEN. A blob whose header is not mapped has no
PLAIN_LEN to judge, and fails check 5. -/
def cocoonCheck (s : State) (r : Req) (b c : Desc) : Sum Nat Nat :=
  let n := r.pitch.toNat
  let k := pkGet s n
  let hdr := blobHeader s n b.base
  let plain := match hdr with
    | some h => beAt h 16 8
    | none => 0
  let redo (x : Cocoon) : Bool := decide (x.state = .failed) && decide (x.base = c.base) && decide (x.len = plain)
  let good := decide (0x10000 ≤ plain) && decide (plain ≤ 0xFFFFF0000) && decide (plain % 65536 = 0)
  let size := 384 + plain
  if !pCocoon s n ∨ k.content.isNone ∨ k.cocoons.any (fun x => x.state = .loading) ∨
      (8 ≤ k.cocoons.length ∧ !k.cocoons.any redo) then .inl stDenied
  else if b.rowLen ≠ 0 ∨ c.rowLen ≠ 0 then .inl stDenied
  else if hdr.isSome ∧ (!good ∨ (b.base < c.base + plain ∧ c.base < b.base + size)) then .inl stLength
  else if b.base % 64 ≠ 0 ∨ c.base % 65536 ≠ 0 then .inl stAlign
  else
    match hdr, mapped s n b.base size, mapped s n c.base plain with
    | some _, some bp, some cp =>
      if bp.any (fun p => entCocoon p.entry) ∨ (cp.any (fun p => entCocoon p.entry) ∧ !k.cocoons.any redo) then .inl stDenied
      else .inr plain
    | _, _, _ => .inl stNotMapped

/-- An accepted load (R212 step 1). -/
def cocoonStart (s : State) (r : Req) : State :=
  let n := r.pitch.toNat
  let b := readDesc r.payload 0
  let c := readDesc r.payload 24
  match cocoonCheck s r b c with
  | .inl st => answer s r st []
  | .inr plain =>
    let h := (blobHeader s n b.base).getD []
    let allow := (upto (min 4 (beAt h 24 1))).map (fun i => BitVec.ofNat 512 (beAt h (64 + 64 * i) 64))
    let e : Cocoon := { base := c.base, len := plain, state := .loading, allow := allow, blob := b.base, req := r }
    let k := pkGet s n
    let kept := k.cocoons.filter (fun x => !(decide (x.state = .failed) && decide (x.base = c.base) && decide (x.len = plain)))
    let s1 := fumWindows (pkPut (markWindow s r) n { k with cocoons := kept ++ [e] })
    ptChanged (setPageAttrs s1 n c.base plain true true false) n c.base plain

/-- The first line of some pieces that fails parity or its tag; internal masters meet no owner check (R130). -/
def firstSick (s : State) (ps : List Piece) : Option (Nat × LineVerdict) :=
  ((pieceLines ps).find? (fun l => lineVerdict s l ≠ .good)).map (fun l => (l, lineVerdict s l))

/-- A load ends: the tag is compared, and the cocoon is READY or FAILED (R212 step 3). -/
def cocoonDone (s : State) (n : Nat) : State :=
  let k := pkGet s n
  match k.cocoons.find? (fun c => c.state = .loading), k.content with
  | some c, some key =>
    let finish (s : State) (st : CocoonState) : State :=
      let k := pkGet s n
      fumWindows (pkPut s n { k with cocoons := k.cocoons.map (fun x => if x.state = .loading then { x with state := st } else x) })
    let fail (s : State) (status : Nat) : State :=
      respond (bump (finish s .failed) .fumCocoonFail 0 0 n) c.req status []
    match mapped s n c.blob (384 + c.len), mapped s n c.base c.len with
    | some bp, some cp =>
      match firstSick s bp with
      | some (l, v) => fail (badLine s l n v) (verdictStatus v)
      | none =>
        let blob := piecesBytes s bp
        let iv := blob.take 12
        let aad := blob.take 320
        let ct := (blob.drop 320).take c.len
        let tag := (blob.drop (320 + c.len)).take 16
        let plain := (Config.gcmPlain key iv ct ++ zeros c.len).take c.len
        let s1 := writePieces s n k.owner cp plain
        if Config.gcmOk key iv aad ct tag then
          respond (bump (finish s1 .ready) .fumCocoonOk 0 0 n) c.req stOk (beBytes 8 c.len)
        else fail s1 stIntegrity
    | _, _ => fail s stNotMapped
  | _, _ => s

/-! ## CERT_GET (R201) -/

def certGet (s : State) (r : Req) : State :=
  let d := Config.certChain.take 8192
  let seg := segSize s r
  sendSegs (d.length / seg + 1) (markWindow s r) r seg r.address.toNat d [] []

end Sys2Proof.Machine
end

