-- ==== Sys2Proof/Machine/Regs.lean ====
section
/-! DEFINITION. Registers as they are read and written at a management address: the agent header, selectors, pitch scope, and the
registers of every block (R14, R461 to R472, R474, R480). -/
namespace Sys2Proof.Machine

/-! ## Selectors (R465) -/

/-- Writable bits of a selector register. -/
def selMask (agent off : Nat) : Option Nat :=
  let d := agentDomain agent
  let b := agentBlock agent
  if off = 0x04 then some 0x1FF
  else if off = 0x80 then some 0x7FFFF
  else if agent = svcAgent ∧ off = 0x2004 then some 0xFFF
  else if d = 2 ∧ b = 1 ∧ off = 0x200 then some 0x1FFF
  else if d = 2 ∧ b = 1 ∧ off = 0x300 then some 0x3FFF
  else if d = 2 ∧ b = 2 ∧ off = 0x200 then some 0xFF
  else if agent = fumAgent ∧ off = 0x200 then some 0x1FF
  else if agent = swnAgent ∧ off = 0x200 then some 0xFFFF
  else if agent = clxAgent ∧ off = 0x200 then some 0x7F
  else if agent = grdAgent ∧ off = 0x200 then some 0xFF
  else if agent = tmgAgent ∧ off = 0x200 then some 0xF
  else if agent = tmgAgent ∧ off = 0x204 then some 0x3FF
  else if agent = tmgAgent ∧ off = 0x300 then some 0x3FFF
  else if agent = mirAgent ∧ off = 0x200 then some 0xF
  else if agent = brdAgent ∧ off = 0x400 then some 0x1F
  else if agent = dbgAgent ∧ off = 0x300 then some 0x73F
  else if agent = dbgAgent ∧ off = 0x304 then some 0x3FFFFF
  else none

/-- k of an array of registers at `base + 4 · k`, for k below `n`. -/
def regIx (off base n : Nat) : Option Nat :=
  if base ≤ off ∧ off < base + 4 * n ∧ (off - base) % 4 = 0 then some ((off - base) / 4) else none

def w32 (n : Nat) : Word := BitVec.ofNat 32 n

/-! ## Agent header (R468, R470) -/

/-- Unit that a source has selected in an agent. -/
def selUnit (s : State) (src : MgmtSource) (agent : Nat) : Nat := (selGet s src agent 0x04).toNat

/-- The latest record that AGT_FAULT_Wk reads. -/
def headerRecord (s : State) (src : MgmtSource) (agent : Nat) : List Word :=
  if (agentUnits agent).isEmpty then (tfind s.flt.agentRec agent).getD []
  else if unitOk agent (selUnit s src agent) then (uGet s (unitKey agent (selUnit s src agent))).record else []

/-- Directory entry and pitch that a source has selected; under a pitch scope the pitch is the scope's (R467). -/
def cntSelected (s : State) (src : MgmtSource) (agent : Nat) : Nat × Option Nat :=
  let v := selGet s src agent 0x80
  (bitsOf v 0 10, match scopeOf s src with
    | some n => some n
    | none => if v.getLsbD 18 then some (bitsOf v 10 8) else none)

def cntSelValue (s : State) (src : MgmtSource) (agent : Nat) : DWord :=
  let x := cntSelected s src agent
  dirCount s agent x.1 x.2

/-- A register of the agent header. -/
def headerRead (s : State) (src : MgmtSource) (agent off : Nat) : Word :=
  let u := selUnit s src agent
  let x := uGet s (unitKey agent u)
  let known := unitOk agent u
  let c := cntSelected s src agent
  if off = 0x00 then w32 (agentDomain agent + agentBlock agent * 2 ^ 4 + agentInst agent * 2 ^ 10 + (agentUnits agent).length * 2 ^ 16)
  else if off = 0x04 then selGet s src agent 0x04
  else if off = 0x08 then (if known then w32 (intCode x.intent) else 0)
  else if off = 0x0C then (if known then w32 (actCode x.actual + b2n x.disagree * 2 ^ 4) else 0)
  else if off = 0x10 then w32 (tget 0 s.flt.refused agent)
  else if off = 0x80 then selGet s src agent 0x80
  else if off = 0x84 then
    w32 ((directory agent).length + b2n (match (directory agent)[c.1]? with
      | some e => cntPerPitch e.1 && decide (c.2 ≠ some 0)
      | none => false) * 2 ^ 16)
  else if off = 0x88 then (cntSelValue s src agent).truncate 32
  else if off = 0x8C then (((aget s.cntCap src).getD 0) >>> 32).truncate 32
  else match regIx off 0x40 8, regIx off 0x90 6 with
    | some k, _ => (headerRecord s src agent).getD k 0
    | _, some k => dirName agent c.1 k
    | _, _ => 0

/-! ## Blocks, register by register (R471) -/

/-- SVC_MGMT_SCOPE of a session (R466). -/
def scopeWord (s : State) : MgmtSource → Word
  | .session n => (match mgmtFind s n with
    | some m => w32 (b2n m.scopeOn + m.scopePitch.toNat * 256)
    | none => 0)
  | _ => 0

def svcRead (s : State) (src : MgmtSource) (off : Nat) : Option Word :=
  if off = 0x100 then some (regGet s svcAgent off)
  else if off = 0x104 then
    some (w32 (s.svc.restarts + min 2 (recentRestarts s).length * 2 ^ 8 + b2n s.svc.restarting * 2 ^ 10 +
      ((upto 4).map (fun k => if uAct s (uSc k) = .up then 2 ^ (11 + k) else 0)).sum))
  else if off = 0x108 then some 0
  else if off = 0x2000 then some s.flt.next
  else if off = 0x2004 then some (selGet s src svcAgent off)
  else if off = 0x3000 then some (scopeWord s src)
  else match regIx off 0x1000 256, regIx off 0x2040 8 with
    | some n, _ => some (pitchStateWord s n)
    | _, some k => some (((tget {} s.flt.log (selGet s src svcAgent 0x2004).toNat).words).getD k 0)
    | _, _ => none

/-- PRT_PTP_STATUS of a link (R472). -/
def ptpStatusWord (s : State) (l : Nat) : Word :=
  let p := ptpGet s l
  let o : Int := if p.state = .slave then max (-32767) (min 32767 p.offset) else 0
  w32 (b2n s.ptp.locked + p.state.ctorIdx * 2 + (BitVec.ofInt 16 o).toNat * 2 ^ 16)

def prtRead (s : State) (i off : Nat) : Option Word :=
  let a := prtAgent i
  if 4 ≤ i then none
  else if off = 0x100 ∨ off = 0x104 then some (regGet s a off)
  else if off = 0x108 then some (prtGet s i).map
  else if off = 0x10C then
    let x := prtGet s i
    some (w32 ((x.failed.map (fun l => 2 ^ l)).sum + b2n x.spareUsed * 2 ^ 9 + b2n x.peerLmap * 2 ^ 10 + x.epoch.toNat * 2 ^ 12))
  else if off = 0x110 then some (ptpStatusWord s (2 * i))
  else if off = 0x114 then some (if portSplit s i then ptpStatusWord s (2 * i + 1) else 0)
  else none

/-- KLR_STATUS and KLR_UNACKED of a link (R373). -/
def klrStatusWord (s : State) (l : Nat) : Word :=
  let k := klrGet s l
  let spilled := ((k.unacked.filter (·.spilled)).map (·.bytes)).sum
  w32 (k.state.ctorIdx + b2n (k.unacked.any (·.spilled)) * 2 ^ 3 + (spilled + 1048575) / 1048576 * 2 ^ 4)

def klrRead (s : State) (i off : Nat) : Option Word :=
  let h1 (v : Word) : Word := if portSplit s i then v else 0
  if (regBits (klrAgent i) off).isSome then some (regGet s (klrAgent i) off)
  else if off = 0x114 then some (klrStatusWord s (2 * i))
  else if off = 0x118 then some (w32 (klrGet s (2 * i)).unacked.length)
  else if off = 0x124 then some (h1 (klrStatusWord s (2 * i + 1)))
  else if off = 0x128 then some (h1 (w32 (klrGet s (2 * i + 1)).unacked.length))
  else none

def tptRead (s : State) (off : Nat) : Option Word :=
  if off = 0x100 then some (regGet s tptAgent off ||| 0x10000)
  else if off = 0x104 ∨ off = 0x108 then some (regGet s tptAgent off)
  else match regIx off 0x110 4 with
    | some p => some (w32 (trkInUse s p + b2n (decide (p ∈ s.tpt.closed)) * 2 ^ 15 + (64 - tget 0 s.tpt.refusals p) * 2 ^ 16))
    | none => none

/-- Queued frames and 256-byte units of a queue (R394). -/
def queueWord (s : State) (sel : Word) : Word :=
  let l := bitsOf sel 11 3
  let q := qGet s (l, bitsOf sel 3 8, bitsOf sel 0 3)
  let fs := q.resp ++ q.reqs
  w32 (min 0xFFFF fs.length + min 0xFFFF (((fs.map (frameLen s l)).sum + 255) / 256) * 2 ^ 16)

/-- The gate list that a source has selected; a value above Bh selects an empty one (R393). -/
def glSelected (s : State) (src : MgmtSource) : Nat × GateList :=
  let l := (selGet s src tmgAgent 0x200).toNat
  (l, if l < 12 then glGet s l else {})

def tmgRead (s : State) (src : MgmtSource) (off : Nat) : Option Word :=
  let g := (glSelected s src).2
  let e := tget (0, 0) g.shadow (selGet s src tmgAgent 0x204).toNat
  if off = 0x200 ∨ off = 0x204 ∨ off = 0x300 then some (selGet s src tmgAgent off)
  else if off = 0x208 then some e.1
  else if off = 0x20C then some e.2
  else if off = 0x210 then some (w32 g.len)
  else if off = 0x214 then some (w32 g.tSec)
  else if off = 0x218 then some (w32 (g.tSec / 2 ^ 32))
  else if off = 0x21C then some (w32 g.tNs)
  else if off = 0x220 then some 0
  else if off = 0x224 then some (w32 (g.status.toNat + g.active.length * 2 ^ 8 + g.entry * 2 ^ 19))
  else if off = 0x304 then some (queueWord s (selGet s src tmgAgent 0x300))
  else if (regBits tmgAgent off).isSome then some (regGet s tmgAgent off)
  else none

/-- A granule-table entry (R190). -/
def granuleWord (s : State) (g : Nat) : Word :=
  let e := granGet s g
  let p := if e.state = .held ∨ e.state = .sweeping then e.pitch.toNat else 0
  w32 (e.group + e.localIx * 2 ^ 2 + grCode e.state * 2 ^ 14 + p * 2 ^ 17 + e.retired * 2 ^ 25)

def actRead (s : State) (src : MgmtSource) (i off : Nat) : Option Word :=
  let a := actAgent i
  if off = 0x100 then some (regGet s (actAgent 0) off)
  else if off = 0x104 then some (w32 (s.act.misses.filter (fun m => m.slice = i)).length)
  else if off = 0x200 ∨ off = 0x300 then some (selGet s src a off)
  else if off = 0x304 then some (granuleWord s (selGet s src a 0x300).toNat)
  else match regIx off 0x240 16, regIx off 0x1000 256 with
    | some k, _ =>
      let n := (selGet s src a 0x200).toNat
      some (if n < 4224 then (mtGet s n).getD k 0 else 0)
    | _, some n => some (if n = 0 ∨ (pGet s n).life = .empty then 0 else w32 ((Config.ptRoot n).toNat + 2 ^ 31))
    | _, _ => none

def dmcRegRead (s : State) (src : MgmtSource) (c off : Nat) : Option Word :=
  let ch := chGet s c
  if off = 0x100 ∨ off = 0x108 ∨ off = 0x10C then some (regGet s (dmcAgent 0) off)
  else if off = 0x104 then
    some (w32 (ch.geom.rowBits + ch.geom.rankBits * 2 ^ 5 + b2n ch.geom.twoSlots * 2 ^ 8 + b2n ch.geom.x8 * 2 ^ 9 + ch.geom.share * 2 ^ 16))
  else if off = 0x110 then
    let again := match tfind s.dmc.retrains (c / 4) with
      | some t => decide (s.now < t + 600000000000)
      | none => false
    some (w32 (ch.pages.length + min 2 (max ch.subA.consec ch.subB.consec) * 2 ^ 9 + b2n again * 2 ^ 11 + b2n s.dmc.hot * 2 ^ 13 +
      b2n ch.initDone * 2 ^ 14))
  else if off = 0x200 then some (selGet s src (dmcAgent c) off)
  else if off = 0x204 then
    some (match ch.pages[(selGet s src (dmcAgent c) 0x200).toNat]? with
      | some e => w32 (e.page % 2 ^ 28 + e.cause * 2 ^ 28 + 2 ^ 31)
      | none => 0)
  else none

def swnRead (s : State) (src : MgmtSource) (off : Nat) : Option Word :=
  let ix := (selGet s src swnAgent 0x200).toNat
  let e := tfind s.swn.dir ix
  let f (g : SwEnt → Word) : Option Word := some (match e with
    | some x => g x
    | none => 0)
  if off = 0x100 then some (regGet s swnAgent off)
  else if off = 0x104 then some (w32 (s.swn.dir.length + txnUsed s * 2 ^ 17))
  else if off = 0x108 then some (w32 (syncTotalBut s 0))
  else if off = 0x200 then some (selGet s src swnAgent off)
  else if off = 0x240 then
    f (fun x => w32 (homeCode x.state + b2n x.txn.isSome * 2 ^ 3 + 2 ^ 4 + x.pitch * 2 ^ 8 + x.owner.getD 0 * 2 ^ 16))
  else if off = 0x244 then f (fun x => x.sharers.truncate 32)
  else if off = 0x248 then f (fun x => (x.sharers >>> 32).truncate 32)
  else if off = 0x24C then f (fun x => w32 (x.sc.toNat + b2n x.stale.isSome * 2 ^ 4 + x.stale.getD 0 * 2 ^ 5))
  else if off = 0x250 then f (fun x => w32 (x.line / 64))
  else if off = 0x254 then f (fun x => w32 (x.line / 2 ^ 38))
  else none

def grdRead (s : State) (src : MgmtSource) (off : Nat) : Option Word :=
  let k := tfind s.grd.sess (selGet s src grdAgent 0x200).toNat
  let mine := match scopeOf s src, k with
    | some n, some x => decide (x.pitch.toNat = n)
    | _, _ => true
  let f (g : KSess → Word) : Option Word := some (match k with
    | some x => if mine then g x else 0
    | none => 0)
  if off = 0x100 then
    let live := (s.grd.sess.filter (fun e => sessLive e.2)).length
    let free := ((upto 64).filter (fun c => uAct s (uCore c) = .up ∧ c ∉ heldCores s)).length
    some (w32 (live + s.grd.queue.length * 2 ^ 8 + free * 2 ^ 16))
  else if off = 0x200 then some (selGet s src grdAgent off)
  else if off = 0x240 then f (fun x => w32 (kStateWord x + x.pitch.toNat * 2 ^ 24))
  else if off = 0x244 then f (fun x => w32 (x.number + x.quadMask.toNat * 2 ^ 16))
  else if off = 0x248 then f (fun x => w32 x.cycles)
  else if off = 0x24C then f (fun x => w32 (x.cycles / 2 ^ 32))
  else if off = 0x250 then
    f (fun x => w32 (x.stageStatus + x.faultCore.getD 0 * 2 ^ 8 + b2n x.faultCore.isSome * 2 ^ 14 + x.coreMask.toNat * 2 ^ 16))
  else none

def clxRead (s : State) (src : MgmtSource) (off : Nat) : Option Word :=
  let k := tfind s.clx.recs (selGet s src clxAgent 0x200).toNat
  let mine := match scopeOf s src, k with
    | some n, some x => decide (x.pitch.toNat = n)
    | _, _ => true
  let f (g : CollRec → Word) : Option Word := some (match k with
    | some x => if mine then g x else 0
    | none => 0)
  if off = 0x100 then some (s.clx.dclass.truncate 32)
  else if off = 0x104 then some ((s.clx.dclass >>> 32).truncate 32)
  else if off = 0x108 then some (w32 (s.clx.recs.length + (16777216 - stagingUsed s) / 1024 * 2 ^ 8))
  else if off = 0x200 then some (selGet s src clxAgent off)
  else if off = 0x240 then f (fun x => w32 (collCode x.state + x.cause * 2 ^ 8 + x.pitch.toNat * 2 ^ 16 + b2n x.desc.exact * 2 ^ 24))
  else if off = 0x244 then f (fun x => w32 x.desc.id)
  else if off = 0x248 then f (fun x => w32 x.desc.position)
  else if off = 0x24C then f (fun x => w32 x.done)
  else none

def fabRead (s : State) (n off : Nat) : Option Word :=
  match regIx off 0x1000 512 with
  | some k =>
    let d := k % 64
    if 48 ≤ d then none else some ((rtGet s n (k / 256) (k / 64 % 4) d).zeroExtend 32)
  | none =>
    if n ≠ 0 then none
    else if off = 0x100 then
      some (w32 (b2n s.fab.current + b2n s.fab.pending * 2 + b2n s.fab.oldDrained * 4 + s.fab.status * 8))
    else if off = 0x10C then some 0
    else if off = 0x110 then some (w32 (fabTime s))
    else if off = 0x114 then some (w32 (fabTime s / 2 ^ 32))
    else if (regBits (fabAgent 0) off).isSome then some (regGet s (fabAgent 0) off)
    else none

def fumRead (s : State) (src : MgmtSource) (off : Nat) : Option Word :=
  if off = 0x100 then some deviceId
  else if off = 0x200 then some (selGet s src fumAgent off)
  else if off = 0x204 then
    let k := (selGet s src fumAgent 0x200).toNat
    let v := slotGet s k
    let p := if v.state = .held then v.pitch.toNat else 0
    some (if 0x100 < k then 0 else w32 (slotCode v.state + p * 2 ^ 2 + v.refreshes * 2 ^ 10))
  else if off = 0x640 ∨ (regIx off 0x600 16).isSome then some 0
  else match regIx off 0x400 96 with
    | some k => some (mrWord s (k / 16) (k % 16))
    | none => none

def cvuRead (s : State) (i off : Nat) : Option Word :=
  let c := cvuGet s (i - 4)
  if i < 4 then none
  else if off = 0x100 then some (c.poly.zeroExtend 32)
  else if off = 0x104 ∨ off = 0x108 ∨ off = 0x10C then some 0
  else if off = 0x110 then some (if c.poly = 2 then c.value &&& 0xFF else c.value)
  else if off = 0x114 then some (cvuResult c.poly c.value)
  else none

/-- Value and code of an input (R501). -/
def ainWord (s : State) (k : Nat) : Word :=
  let x := (s.brd.ain[k]?).getD (0, 0)
  w32 ((BitVec.ofInt 20 x.1).toNat + x.2 * 2 ^ 20)

/-- P_avg in 0.1 W: the mean, its fraction dropped. -/
def powerAvg (s : State) : Nat := let p := powerSum s; p.1.toNat / p.2

def brdRead (s : State) (src : MgmtSource) (off : Nat) : Option Word :=
  if off = 0x108 then
    some (w32 (b2n s.brd.feedA.present + b2n s.brd.feedB.present * 2 + b2n s.brd.feedA.on * 4 + b2n s.brd.feedB.on * 8))
  else if off = 0x10C then some (w32 (powerAvg s % 65536))
  else if off = 0x11C then
    let h := hottest s
    let at_ := (firstIdx (fun x => decide (x = h)) s.brd.die 0).getD 0
    some (w32 (h + at_ * 2 ^ 11 + b2n s.brd.throttling * 2 ^ 16 + b2n s.brd.capFloor * 2 ^ 17 +
      b2n (s.brd.mods.any (fun e => e.2.present && e.2.unknown)) * 2 ^ 18))
  else if off = 0x400 then some (selGet s src brdAgent off)
  else if off = 0x404 then
    let m := tget {} s.brd.mods (selGet s src brdAgent 0x400).toNat
    some (w32 ((BitVec.ofInt 12 m.temp).toNat + b2n m.present * 2 ^ 12 + b2n m.unknown * 2 ^ 13 + m.power * 2 ^ 16))
  else if (regBits brdAgent off).isSome then some (regGet s brdAgent off)
  else match regIx off 0x200 32, regIx off 0x380 24, regIx off 0x540 8 with
    | some k, _, _ => some (w32 (s.brd.die.getD k 0))
    | _, some k, _ => some (ainWord s k)
    | _, _, some n =>
      let f := s.brd.fans.getD n {}
      some (w32 (f.duty + b2n f.low * 2 ^ 7 + f.rpm * 2 ^ 16))
    | _, _, _ => none

/-- MIR_PEER_STATUS and MIR_PITCH_n (R434). -/
def mirRegRead (s : State) (src : MgmtSource) (off : Nat) : Option Word :=
  if off = 0x100 then some (regGet s mirAgent off)
  else if off = 0x200 then some (selGet s src mirAgent off)
  else if off = 0x204 then
    let k := (selGet s src mirAgent 0x200).toNat
    let flies (r : Role) : Nat := (s.mir.pitch.filter (fun e => e.2.role = r ∧ e.2.confirmed ∧ e.2.peer = k)).length
    some (match tfind s.mir.peers k with
      | none => 0
      | some p => w32 (b2n (p.alive.getD 0 false) + b2n (p.alive.getD 1 false) * 2 + b2n p.direct.isSome * 4 +
          flies .active * 2 ^ 4 + flies .standby * 2 ^ 12))
  else match regIx off 0x1004 255 with
    | some k =>
      let m := mirGet s (k + 1)
      some (w32 (roleCode m.role + b2n m.confirmed * 4 + b2n m.selfFenced * 8 + b2n m.resync * 16 + m.peer * 32))
    | none => none

def crgRead (s : State) (off : Nat) : Option Word :=
  if off = 0x100 then some (s.crg.lock.zeroExtend 32)
  else if off = 0x104 then some (w32 (gridFreq s % 32 + s.crg.target.getD gradeMax % 32 * 2 ^ 5 + s.crg.steps * 2 ^ 16))
  else if off = 0x108 then some (w32 s.crg.memMhz)
  else none

/-- MIN_SVN: the population count of the fuses (R445). -/
def minSvn (s : State) : Nat := max Config.fuseSvn s.boot.svn

def bootRead (s : State) (off : Nat) : Option Word :=
  if off = 0x100 then some (w32 (s.boot.step + b2n s.boot.serving * 2 ^ 4 + s.boot.cause * 2 ^ 8))
  else if off = 0x104 then some (w32 (s.boot.failAddr % 2 ^ 29))
  else if off = 0x110 ∨ off = 0x204 ∨ off = 0x20C then some 0
  else if off = 0x114 then some (w32 (s.boot.lastReset + s.boot.resets * 2 ^ 8))
  else if off = 0x118 then some (w32 (minSvn s))
  else if off = 0x200 then some (regGet s bootAgent off)
  else if off = 0x208 then some (w32 (b2n s.boot.flashOp.isSome + b2n s.boot.flashError * 2))
  else if off = 0x210 then some (w32 (s.boot.check + s.boot.checkFail.cause * 2 ^ 4))
  else if off = 0x214 then some (w32 (s.boot.checkFail.addr % 2 ^ 29))
  else match regIx off 0x240 64 with
    | some k => some (w32 (leNat ((s.boot.flashBuf.drop (4 * k)).take 4)))
    | none => none

def dbgRead (s : State) (src : MgmtSource) (off : Nat) : Option Word :=
  if off = 0x108 then some s.flt.traceHead
  else if off = 0x10C then some (w32 (s.flt.traceBase / 4096))
  else if off = 0x208 then some (w32 (s.dbg.memState * 2 + b2n s.dbg.memPlain * 8 + s.dbg.memStatus.toNat * 2 ^ 8))
  else if off = 0x300 ∨ off = 0x304 then some (selGet s src dbgAgent off)
  else if (regBits dbgAgent off).isSome then some (regGet s dbgAgent off)
  else match regIx off 0x240 16, regIx off 0x280 4, regIx off 0x340 32 with
    | some k, _, _ => some (w32 (leNat ((s.dbg.memData.drop (4 * k)).take 4)))
    | _, some k, _ => some (s.dbg.memMeta.getD k 0)
    | _, _, some k => some (w32 (leNat ((((aget s.dbg.captures src).getD []).drop (4 * k)).take 4)))
    | _, _, _ => none

/-- The value of a register to a source in operator scope; none where no register lies. -/
def regValue (s : State) (src : MgmtSource) (agent off : Nat) : Option Word :=
  let d := agentDomain agent
  let b := agentBlock agent
  let i := agentInst agent
  if !agentOk agent ∨ off % 4 ≠ 0 then none
  else if off < 0x100 then some (headerRead s src agent off)
  else if d = 0 then svcRead s src off
  else if d = 1 then
    (if b = 1 then prtRead s i off else if b = 2 then klrRead s i off else if b = 3 then tptRead s off else tmgRead s src off)
  else if d = 2 then
    (if b = 1 then actRead s src i off else if b = 2 then dmcRegRead s src i off
     else if b = 4 then (if off = 0x100 then some (regGet s swpAgent off) else none)
     else if b = 5 then swnRead s src off else none)
  else if d = 3 then (if b = 1 then grdRead s src off else if b = 3 then clxRead s src off else none)
  else if d = 4 then fabRead s i off
  else if d = 5 then (if b = 1 then fumRead s src off else cvuRead s i off)
  else if b = 1 then brdRead s src off
  else if b = 2 then mirRegRead s src off
  else if b = 3 then crgRead s off
  else if b = 4 then bootRead s off
  else dbgRead s src off

/-! ## Pitch scope (R415, R467) -/

/-- A record that a tenant reads: PITCH_VALID with its own pitch. -/
def ownRecord (words : List Word) (n : Nat) : Bool :=
  let w := words.getD 5 0
  w.getLsbD 16 && decide (bitsOf w 8 8 = n)

/-- What a source reads under the scope of PTn. -/
def scopedValue (s : State) (src : MgmtSource) (n agent off : Nat) : Option Word :=
  match regValue s src agent off with
  | none => none
  | some v =>
    let d := agentDomain agent
    let b := agentBlock agent
    let ownUnit := decide (agent = svcAgent) && decide (selUnit s src agent = n)
    let shown : Bool :=
      if off = 0 then true
      else if off = 0x08 ∨ off = 0x0C ∨ (regIx off 0x40 8).isSome then ownUnit
      else if off = 0x80 ∨ off = 0x84 ∨ off = 0x88 ∨ off = 0x8C ∨ (regIx off 0x90 6).isSome then true
      else if off < 0x100 then false
      else if agent = svcAgent then
        decide (off = 0x3000) || decide (off = 0x1000 + 4 * n) || decide (off = 0x2004) ||
          ((regIx off 0x2040 8).isSome && ownRecord (tget {} s.flt.log (selGet s src svcAgent 0x2004).toNat).words n)
      else if agent = grdAgent then decide (0x240 ≤ off)
      else if agent = clxAgent then decide (off = 0x100 ∨ off = 0x104 ∨ 0x240 ≤ off)
      else if agent = mirAgent then decide (off = 0x1000 + 4 * n)
      else if agent = fumAgent then decide (off = 0x100 ∨ (0x400 ≤ off ∧ off < 0x580))
      else decide (d = 6) && decide (b = 4) && decide (off = 0x100)
    some (if shown then v else 0)

/-- A read: AGT_CNT_LO captures the counter for its source (R470). -/
def agentRead (s : State) (src : MgmtSource) (agent off : Nat) : State × Option Word :=
  let v := match scopeOf s src with
    | some n => scopedValue s src n agent off
    | none => regValue s src agent off
  if off = 0x88 ∧ agentOk agent then ({ s with cntCap := aput s.cntCap src (cntSelValue s src agent) }, v) else (s, v)

/-! ## Writes -/

/-- A write of SVC_MGMT_SCOPE sets the scope of the session that carries it (R466). -/
def scopeWrite (s : State) (src : MgmtSource) (v : Word) : State :=
  match src with
  | .session n =>
    if v.getLsbD 0 ∧ bitsOf v 8 8 = 0 then s
    else mgmtMod s n (fun m => { m with scopeOn := v.getLsbD 0, scopePitch := BitVec.ofNat 8 (bitsOf v 8 8) })
  | _ => s

/-- A write of a gate-list register, for the list that the source has selected (R393). -/
def glWrite (s : State) (src : MgmtSource) (off : Nat) (v : Word) : State :=
  let x := glSelected s src
  let e := (selGet s src tmgAgent 0x204).toNat
  let old := tget (0, 0) x.2.shadow e
  if 12 ≤ x.1 then s
  else if off = 0x208 then glPut s x.1 { x.2 with shadow := tset (0, 0) x.2.shadow e (v, old.2) }
  else if off = 0x20C then glPut s x.1 { x.2 with shadow := tset (0, 0) x.2.shadow e (old.1, v) }
  else if off = 0x210 then glPut s x.1 { x.2 with len := bitsOf v 0 11 }
  else if off = 0x214 then glPut s x.1 { x.2 with tSec := x.2.tSec / 2 ^ 32 * 2 ^ 32 + v.toNat }
  else if off = 0x218 then glPut s x.1 { x.2 with tSec := bitsOf v 0 16 * 2 ^ 32 + x.2.tSec % 2 ^ 32 }
  else if off = 0x21C then glPut s x.1 { x.2 with tNs := bitsOf v 0 30 }
  else if off = 0x220 then (if v.getLsbD 0 then glCommit s x.1 else s)
  else s

/-- A write of a CVU's registers by its service core (R474). -/
def cvuWrite (s : State) (src : MgmtSource) (k off : Nat) (v : Word) : State :=
  match src with
  | .sc j =>
    if j.val ≠ k then s
    else if off = 0x100 then cvuMod s k (if v.getLsbD 2 then cvuInit (v.truncate 2) else cvuPoly (v.truncate 2))
    else if off = 0x104 then cvuMod s k (cvuFeedN 1 v)
    else if off = 0x108 then cvuMod s k (cvuFeedN 2 v)
    else if off = 0x10C then cvuMod s k (cvuFeedN 4 v)
    else if off = 0x110 then cvuMod s k (cvuValue v)
    else s
  | _ => s

/-- BOOT_CHECK.GO starts or restarts a check (R454). -/
def checkStart (s : State) : State := bootMod s (fun b => { b with check := 1, checkFail := {} })

/-- BOOT_RESET (R459). -/
def resetWrite (s : State) (v : Word) : State :=
  if bitsOf v 16 16 ≠ 0x9416 then s
  else if bitsOf v 0 2 = 1 then askReset s 2
  else if bitsOf v 0 2 = 2 then askReset s 3
  else s

def bootWrite (s : State) (src : MgmtSource) (off : Nat) (v : Word) : State :=
  if off = 0x110 then resetWrite s v
  else if off = 0x204 then (if bitsOf v 0 2 = 0 then s else flashStart s (bitsOf v 0 2))
  else if off = 0x20C then (if v.getLsbD 0 then checkStart s else s)
  else match regIx off 0x240 64 with
    | some k => bootMod s (fun b => { b with flashBuf := b.flashBuf.take (4 * k) ++ leBytes 4 v.toNat ++ b.flashBuf.drop (4 * k + 4) })
    | none => regStore s src bootAgent off v

/-- A register with behaviour of its own, or a stored one. -/
def blockWrite (s : State) (src : MgmtSource) (agent off : Nat) (v : Word) : State :=
  let d := agentDomain agent
  let b := agentBlock agent
  let i := agentInst agent
  if agent = svcAgent then
    (if off = 0x108 then (match src with
      | .sc k => if v.getLsbD 0 then wdogKick s k.val else s
      | _ => s)
     else regStore s src agent off v)
  else if agent = tmgAgent then
    (if 0x208 ≤ off ∧ off ≤ 0x220 then glWrite s src off v
     else match regIx off 0x1004 255 with
      | some k => pcfgWrite s (k + 1) v
      | none => regStore s src agent off v)
  else if d = 4 then
    (match regIx off 0x1000 512 with
     | some k => if 48 ≤ k % 64 then s else rtWrite s src i (k / 256) (k / 64 % 4) (k % 64) v
     | none => if i ≠ 0 then s else if off = 0x10C then (if v.getLsbD 0 then epochGo s else s) else regStore s src agent off v)
  else if agent = fumAgent then
    (if off = 0x640 then (if v.getLsbD 0 then mr5Go s else s)
     else match regIx off 0x600 16 with
      | some k => fumMod s (fun f => { f with mr5data := lset f.mr5data k v })
      | none => s)
  else if d = 5 ∧ b = 2 then (if i < 4 then s else cvuWrite s src (i - 4) off v)
  else if agent = brdAgent ∧ off = 0x104 then feedCtrl s v
  else if agent = bootAgent then bootWrite s src off v
  else if agent = dbgAgent ∧ off = 0x208 then (if v.getLsbD 0 then memReadGo s else s)
  else regStore s src agent off v

/-- A write to one instance: selectors and the scope take effect in every scope, the rest in operator scope (R465 to R467). -/
def agentWrite (s : State) (src : MgmtSource) (agent off : Nat) (v : Word) : State :=
  if !agentOk agent ∨ off % 4 ≠ 0 then s
  else if agent = svcAgent ∧ off = 0x3000 then scopeWrite s src v
  else
    match selMask agent off with
    | some m =>
      let s1 := selSet s src agent off (v &&& BitVec.ofNat 32 m)
      if agent = dbgAgent ∧ off = 0x304 then captureStart s1 src (bitsOf v 0 22) else s1
    | none =>
      if (scopeOf s src).isSome then s
      else if off = 0x08 then intentWrite s src agent (selUnit s src agent) (bitsOf v 0 4)
      else if off < 0x100 then s
      else blockWrite s src agent off v

/-! ## Accesses by address (R14, R462) -/

/-- Instances that an address reaches. -/
def instancesOf (agent : Nat) : List Nat :=
  let n := blockCount (agentDomain agent) (agentBlock agent)
  if agentInst agent = 63 then (if 1 < n then (upto n).map (fun i => agent - 63 + i) else []) else [agent]

/-- A source's capture has ended before its next access (R482). -/
def regRead (s0 : State) (src : MgmtSource) (a : Nat) : State × Option Word :=
  let s := captureEnd s0 src
  match instancesOf (a / 65536) with
  | [] => (s, none)
  | g :: _ => agentRead s src g (a % 65536)

/-- A write, then the register as read back, with WO fields 0 (R463). -/
def regWrite (s0 : State) (src : MgmtSource) (a : Nat) (v : Word) : State × Option Word :=
  let s := captureEnd s0 src
  match instancesOf (a / 65536) with
  | [] => (s, none)
  | g :: t =>
    let off := a % 65536
    let s1 := foldS (g :: t) s (fun s x => agentWrite s src x off v)
    (s1, match scopeOf s1 src with
      | some n => scopedValue s1 src n g off
      | none => regValue s1 src g off)

end Sys2Proof.Machine
end

