-- ==== Sys2Proof/Machine/Image.lean ====
section
/-! DEFINITION. The Xanzen image in flash and every check of it (R18, R19, R209, R220, R419, R436 to R447). A check is a list of
tests, each with the flash address of the byte that fails it; the first test that fails decides (R446). -/
namespace Sys2Proof.Machine

/-- Tests with the address of their byte. -/
abbrev Checks := List (Bool × Nat)

/-- The first test that fails, under a cause. -/
def firstFail (cause : Nat) (cs : Checks) : Option BootFail :=
  (cs.find? (fun c => !c.1)).map (fun c => { cause := cause, addr := c.2 })

/-- The first failure of a list of outcomes. -/
def firstOf : List (Option BootFail) → Option BootFail
  | [] => none
  | some f :: _ => some f
  | none :: t => firstOf t

/-- Bytes `i` to `i + n - 1` are zero; `at_` is the flash address of byte 0. -/
def zeroRun (bs : List Byte) (at_ i n : Nat) : Checks := (upto n).map (fun k => (decide (byteAt bs (i + k) = 0), at_ + i + k))

/-- Bytes from `i` on are the given ones. -/
def sameRun (bs : List Byte) (at_ i : Nat) (want : List Byte) : Checks :=
  (upto want.length).map (fun k => (decide (byteAt bs (i + k) = byteAt want k), at_ + i + k))

/-! ## Header and section table (R436, R437) -/

def imgHeader (s : State) : List Byte := flashBytes s 0 4096
def imgCount (s : State) : Nat := (flashByte s 9).toNat
def imgSignedLen (s : State) : Nat := 4096 + 128 * imgCount s
def imgTable (s : State) : List Byte := flashBytes s 4096 (128 * imgCount s)

/-- Entry i of the section table. -/
def secEntry (tbl : List Byte) (i : Nat) : ImgSec :=
  let e := tbl.drop (128 * i)
  { typ := leAt e 0 1, off := leAt e 4 4, len := leAt e 8 4, digest := BitVec.ofNat 512 (beAt e 16 64) }

def imgSecs (s : State) : List ImgSec := let t := imgTable s; (upto (imgCount s)).map (secEntry t)

/-- Types that n entries hold: all eight, or all but PARTNERS. -/
def wantTypes (n : Nat) : List Nat := if n = 8 then [1, 2, 3, 4, 5, 6, 7, 8] else [1, 2, 4, 5, 6, 7, 8]

/-- One entry's tests. -/
def entryChecks (tbl : List Byte) (n signed imageLen i : Nat) : Checks :=
  let x := secEntry tbl i
  let e := tbl.drop (128 * i)
  let at_ := 4096 + 128 * i
  let clear := (upto i).all (fun j => let y := secEntry tbl j; decide (x.off + x.len ≤ y.off ∨ y.off + y.len ≤ x.off))
  [(decide ((wantTypes n)[i]? = some x.typ), at_)] ++ zeroRun e at_ 1 3 ++
    [(decide (x.off % 4096 = 0) && decide (signed + 512 ≤ x.off) && clear, at_ + 4),
     (decide (1 ≤ x.len) && decide (x.off + x.len ≤ imageLen), at_ + 8)] ++ zeroRun e at_ 12 4 ++ zeroRun e at_ 80 48

/-- Cause FORMAT. -/
def formatChecks (s : State) : Checks :=
  let h := imgHeader s
  let n := imgCount s
  let len := leAt h 12 4
  let tbl := imgTable s
  sameRun h 0 0 [0x58, 0x41, 0x4E, 0x5A, 1, 0] ++
    [(decide (byteAt h 7 ≤ 1), 7), (decide (n = 7 ∨ n = 8), 9), (decide (len % 4096 = 0 ∧ len ≤ 0x10000000), 12)] ++
    (upto n).flatMap (entryChecks tbl n (imgSignedLen s) len)

/-- What FORMAT does not cover of the header (CONTENT). -/
def headerChecks (s : State) : Checks :=
  let h := imgHeader s
  [(decide ((byteAt h 6).toNat ≤ 63), 6), (decide ((byteAt h 8).toNat ≤ 1), 8)] ++ zeroRun h 0 10 2 ++
    sameRun h 0 536 [1, 0, 1, 0] ++ zeroRun h 0 540 3556

def imgModulus (s : State) : List Byte := flashBytes s 24 512
def rootKey (s : State) : List Byte := imgModulus s ++ [0, 1, 0, 1]
def imgSigned (s : State) : List Byte := flashBytes s 0 (imgSignedLen s)

/-- The checks of step 2, in their order (R443, R445, R446). -/
def signChecks (s : State) (flashOk : Bool) (badAddr : Nat) : Option BootFail :=
  firstOf [firstFail 1 [(flashOk, badAddr)], firstFail 2 (formatChecks s),
    firstFail 3 [(decide (Config.sha512 (rootKey s) = Config.rootKeyHash), 0)],
    firstFail 4 [(Config.rsaVerify (rootKey s) (imgSigned s) (flashBytes s (imgSignedLen s) 512), 0)],
    firstFail 5 [(decide (minSvn s ≤ (flashByte s 6).toNat), 6)]]

/-! ## CONFIG (R441, R447) -/

/-- Does a routing entry lie at an offset of FAB (R404)? -/
def rtOffset (off : Nat) : Bool :=
  match regIx off 0x1000 512 with
  | some k => decide (k % 64 < 48)
  | none => false

/-- Bits of RW, RWL and WO fields and of RO fields other than reserved ones, of a register with an RW or RWL field. -/
def imageBits (agent off : Nat) : Option (Nat × Nat) :=
  let d := agentDomain agent
  let b := agentBlock agent
  let i := agentInst agent
  let all := 0xFFFFFFFF
  if !agentOk agent ∨ off % 4 ≠ 0 then none
  else match selMask agent off, regBits agent off with
    | some m, _ => some (m, 0)
    | none, some (rw, rwl) => some (rw ||| rwl, if agent = tptAgent ∧ off = 0x100 then 0xF0000 else 0)
    | none, none =>
      if off = 0x08 then some (0xF, 0)
      else if agent = svcAgent ∧ off = 0x3000 then some (0xFF01, 0)
      else if agent = tmgAgent ∧ (off = 0x208 ∨ off = 0x20C ∨ off = 0x214) then some (all, 0)
      else if agent = tmgAgent ∧ off = 0x210 then some (0x7FF, 0)
      else if agent = tmgAgent ∧ off = 0x218 then some (0xFFFF, 0)
      else if agent = tmgAgent ∧ off = 0x21C then some (0x3FFFFFFF, 0)
      else if d = 4 ∧ rtOffset off then some (0x3F, 0)
      else if d = 5 ∧ b = 2 ∧ 4 ≤ i ∧ off = 0x100 then some (7, 0)
      else if d = 5 ∧ b = 2 ∧ 4 ≤ i ∧ off = 0x110 then some (all, 0)
      else if agent = bootAgent ∧ (regIx off 0x240 64).isSome then some (all, 0)
      else none

def inRange (x lo hi : Nat) : Bool := decide (lo ≤ x ∧ x ≤ hi)

/-- Value ranges that the register tables ask of the image. -/
def valueOk (agent off : Nat) (v : Word) : Bool :=
  let d := agentDomain agent
  let b := agentBlock agent
  let f (lo n : Nat) : Nat := bitsOf v lo n
  if agent = svcAgent ∧ off = 0x100 then inRange (f 0 16) 10 1000
  else if d = 1 ∧ b = 1 ∧ off = 0x100 then decide (f 0 2 ≠ 3) && decide (f 2 2 ≠ 3)
  else if d = 1 ∧ b = 1 ∧ off = 0x104 then decide (1 ≤ f 0 16) && decide (1 ≤ f 16 8)
  else if d = 1 ∧ b = 2 ∧ off = 0x100 then
    decide (f 0 16 ∉ [0x0800, 0x86DD, 0x88F7, 0x8100, 0x8808]) && decide (f 16 2 ≠ 3)
  else if d = 1 ∧ b = 2 ∧ off = 0x104 then inRange (f 0 16) 1 10000 && decide (1 ≤ f 24 8)
  else if d = 1 ∧ b = 2 ∧ off = 0x108 then decide (f 0 8 = 0)
  else if d = 1 ∧ b = 2 ∧ off = 0x10C then decide (f 0 12 ≤ 2048)
  else if d = 1 ∧ b = 2 ∧ off = 0x110 then decide (f 0 12 ≤ 3600)
  else if agent = tptAgent ∧ off = 0x100 then decide (1 ≤ f 20 8)
  else if agent = tptAgent ∧ off = 0x104 then decide (1 ≤ f 8 8)
  else if agent = tptAgent ∧ off = 0x108 then decide (1 ≤ f 0 12) && decide (1 ≤ f 12 4)
  else if agent = tmgAgent ∧ 0x110 ≤ off ∧ off ≤ 0x11C then (upto 16).all (fun j => decide (f (2 * j) 2 ≠ 3))
  else if agent = tmgAgent ∧ (off = 0x120 ∨ off = 0x124) then (upto 4).all (fun c => decide (1 ≤ f (8 * c) 8))
  else if agent = tmgAgent ∧ off = 0x128 then decide (1 ≤ f 0 16) && decide (1 ≤ f 16 16)
  else if agent = tmgAgent ∧ 0x400 ≤ off ∧ off < 0x500 then decide (0x25 ≤ f 16 16)
  else if d = 2 ∧ b = 1 ∧ off = 0x100 then inRange (f 0 16) 100 10000 && inRange (f 16 3) 1 4
  else if d = 2 ∧ b = 2 ∧ off = 0x100 then decide (f 1 2 ≠ 3) && decide (f 8 2 ≠ f 10 2)
  else if d = 2 ∧ b = 2 ∧ off = 0x108 then inRange (f 0 8) 5 0x64
  else if d = 2 ∧ b = 2 ∧ off = 0x10C then decide (f 0 8 ≤ 0xC8)
  else if agent = swpAgent ∧ off = 0x100 then inRange (f 0 8) 1 0xC8
  else if agent = swnAgent ∧ off = 0x100 then inRange (f 0 16) 100 10000
  else if agent = fabAgent 0 ∧ off = 0x118 then decide (1 ≤ f 0 8)
  else if agent = mirAgent ∧ off = 0x100 then inRange (f 0 10) 50 1000 && inRange (f 10 8) 1 0xC8
  else if agent = brdAgent ∧ off = 0x100 then decide (f 0 16 < f 16 16)
  else if agent = brdAgent ∧ off = 0x110 then decide (1 ≤ f 12 6) && decide (1 ≤ f 24 8)
  else if agent = brdAgent ∧ off = 0x114 then decide (1 ≤ f 0 6) && inRange (f 8 5) 5 20
  else if agent = brdAgent ∧ off = 0x118 then inRange (f 0 8) 80 104 && inRange (f 8 8) 105 115 && inRange (f 16 8) 86 105
  else if agent = brdAgent ∧ off = 0x500 then decide (f 0 7 ≤ 100) && decide (f 8 7 < f 16 7)
  else true

/-- The CONFIG records: management address and value. -/
def configRecords (bs : List Byte) : List (Nat × Word) :=
  (upto (bs.length / 8)).map (fun k => (leAt bs (8 * k) 4, BitVec.ofNat 32 (leAt bs (8 * k + 4) 4)))

/-- Does an address reach an instance, by itself or as the broadcast instance (R462)? -/
def recordHits (a agent off : Nat) : Bool := decide (a % 65536 = off) && decide (agent ∈ instancesOf (a / 65536))

/-- What the records leave in a register of a port. -/
def configValue (rs : List (Nat × Word)) (agent off : Nat) : Word :=
  rs.foldl (fun v r => if recordHits r.1 agent off then r.2 else v) (regReset (regAddr agent off))

/-- A record's own tests. -/
def recordChecks (rs : List (Nat × Word)) (at_ k : Nat) : Checks :=
  let r := (rs[k]?).getD (0, 0)
  let a := r.1
  let agent := ((instancesOf (a / 65536)).head?).getD 0
  let place := at_ + 8 * k
  match imageBits agent (a % 65536) with
  | none => [(false, place)]
  | some (w, ro) =>
    [(decide ((instancesOf (a / 65536)) ≠ []) && !((rs.take k).any (fun x => x.1 = a)), place),
     (decide (r.2 &&& ~~~BitVec.ofNat 32 (w ||| ro) = 0), place + 4), (valueOk agent (a % 65536) r.2, place + 4)]

/-- Port mode (R346) that the records give. -/
def imgMode (rs : List (Nat × Word)) (p : Nat) : Nat := bitsOf (configValue rs (prtAgent p) 0x100) 0 2
def imgSpill (rs : List (Nat × Word)) (p : Nat) : Nat := bitsOf (configValue rs (klrAgent p) 0x10C) 0 12

/-- Flash address of the last record for a register, or of the section. -/
def recordPlace (rs : List (Nat × Word)) (at_ agent off : Nat) : Nat :=
  match ((upto rs.length).filter (fun k => recordHits ((rs[k]?).getD (0, 0)).1 agent off)).getLast? with
  | some k => at_ + 8 * k + 4
  | none => at_

/-- The spill layout of R447, and R371's even size. -/
def spillChecks (rs : List (Nat × Word)) (at_ : Nat) : Checks :=
  (upto 4).flatMap (fun p =>
    let before := ((upto p).map (imgSpill rs)).sum
    [(decide ((configValue rs (klrAgent p) 0x108).toNat = (2048 + before) * 256), recordPlace rs at_ (klrAgent p) 0x108),
     (decide (imgMode rs p ≠ 1 ∨ imgSpill rs p % 2 = 0), recordPlace rs at_ (klrAgent p) 0x10C)])

/-- Every entry of B0 is given. -/
def bankChecks (rs : List (Nat × Word)) (at_ : Nat) : Checks :=
  (upto 48).flatMap (fun n => (upto 4).flatMap (fun p => (upto 48).map (fun d =>
    (rs.any (fun r => recordHits r.1 (fabAgent n) (0x1000 + 0x100 * p + 4 * d)), at_))))

def configChecks (bs : List Byte) (at_ : Nat) : Checks :=
  let rs := configRecords bs
  (upto rs.length).flatMap (recordChecks rs at_) ++ [(decide (bs.length % 8 = 0), at_ + bs.length / 8 * 8)] ++
    spillChecks rs at_ ++ bankChecks rs at_

/-! ## NETWORK and PARTNERS (R438, R439) -/

/-- Has the port's mode link l? -/
def imgLink (rs : List (Nat × Word)) (l : Nat) : Bool :=
  let m := imgMode rs (l / 2)
  decide (l < 8) && (decide (m = 1) || (decide (m = 0) && decide (l % 2 = 0)))

/-- A gateway that is given lies inside the prefix of its address; all are at byte offsets, `n` bytes long. -/
def gatewayOk (bs : List Byte) (addr plen gw n : Nat) : Bool :=
  let drop := 2 ^ (8 * n - leAt bs plen 1)
  decide (beAt bs gw n = 0) || decide (beAt bs gw n / drop = beAt bs addr n / drop)

def logOk (bs : List Byte) (i : Nat) (lo hi : Int) : Bool := decide (lo ≤ (byteAt bs i).toInt ∧ (byteAt bs i).toInt ≤ hi)

def networkChecks (rs : List (Nat × Word)) (bs : List Byte) (at_ : Nat) : Checks :=
  let b (i : Nat) : Nat := (byteAt bs i).toNat
  let role := b 96
  let links := b 97
  [(decide (bs.length = 128), at_), (decide (beAt bs 0 4 ≠ 0 ∨ beAt bs 12 16 ≠ 0), at_), (decide (b 4 ≤ 32), at_ + 4)] ++
    zeroRun bs at_ 5 3 ++ [(gatewayOk bs 0 4 8 4, at_ + 8), (decide (b 28 ≤ 128), at_ + 28)] ++ zeroRun bs at_ 29 3 ++
    [(gatewayOk bs 12 28 32 16, at_ + 32), (decide (b 52 ≤ 32), at_ + 52), (decide (b 53 ≤ 2), at_ + 53)] ++
    zeroRun bs at_ 54 2 ++ [(gatewayOk bs 48 52 56 4, at_ + 56), (decide (b 76 ≤ 128), at_ + 76)] ++ zeroRun bs at_ 77 3 ++
    [(gatewayOk bs 60 76 80 16, at_ + 80), (decide (role ≤ 3), at_ + 96),
     ((decide (role ≠ 1 ∧ role ≠ 2) || decide (popN 8 links = 1)) && (upto 8).all (fun l => !links.testBit l || imgLink rs l), at_ + 97),
     (decide (b 98 ≤ 127), at_ + 98), (decide (b 101 ≤ 2), at_ + 101), (logOk bs 104 (-7) 4, at_ + 104),
     (logOk bs 105 (-3) 4, at_ + 105), (logOk bs 106 (-7) 5, at_ + 106)] ++ zeroRun bs at_ 107 21

/-- The partner that an entry of the section describes. -/
def partnerAt (bs : List Byte) (k : Nat) : Peer :=
  let e := bs.drop (16 + 64 * k)
  let direct := leAt e 18 1
  { addr := BitVec.ofNat 128 (beAt e 0 16), port := BitVec.ofNat 16 (leAt e 16 2), mpAddr := BitVec.ofNat 128 (beAt e 20 16)
    direct := if direct = 0 then none else some (direct - 1), localBase := leAt e 36 2, remoteBase := leAt e 38 2
    serial := BitVec.ofNat 64 (leAt e 40 8) }

def partnersOf (bs : List Byte) : List Peer := (upto (leAt bs 0 4)).map (partnerAt bs)

def partnerChecks (rs : List (Nat × Word)) (bs : List Byte) (at_ : Nat) : Checks :=
  let n := leAt bs 0 4
  let ps := if n ≤ 16 then partnersOf bs else []
  [(decide (n ≤ 16), at_)] ++ zeroRun bs at_ 4 12 ++ [(decide (bs.length = 16 + 64 * n), at_)] ++
    (upto ps.length).flatMap (fun k =>
      let p := (ps[k]?).getD {}
      let e := bs.drop (16 + 64 * k)
      let o := at_ + 16 + 64 * k
      let before := ps.take k
      [(!(before.any (fun q => decide (q.addr = p.addr) && decide (q.port = p.port))), o),
       (decide (leAt e 18 1 ≤ 8) && (match p.direct with | some l => imgLink rs l | none => true), o + 18)] ++ zeroRun e o 19 1 ++
      [(decide (p.localBase ≤ 4080) && before.all (fun q => decide (q.localBase + 16 ≤ p.localBase ∨ p.localBase + 16 ≤ q.localBase)), o + 36),
       (decide (p.serial ≠ 0), o + 40)] ++ zeroRun e o 48 16)

/-! ## TABLES (R331, R437) -/

def tableChecks (bs : List Byte) (at_ : Nat) : Checks := [(decide (bs.length = 7684), at_)] ++ zeroRun bs at_ 2 2

def tableEntries (bs : List Byte) : List (Int × Int × Int) :=
  let w (o : Nat) : Int := (BitVec.ofNat 32 (leAt bs o 4)).toInt
  (upto 640).map (fun i => (w (4 + 12 * i), w (8 + 12 * i), w (12 + 12 * i)))

/-! ## LIBRARY (R440) -/

/-- ID, offset and length of a directory entry. -/
def libEntry (bs : List Byte) (k : Nat) : Nat × Nat × Nat :=
  (leAt bs (16 + 16 * k) 2, leAt bs (20 + 16 * k) 4, leAt bs (24 + 16 * k) 4)

def libObject (bs : List Byte) (k : Nat) : List Byte := let e := libEntry bs k; (bs.drop e.2.1).take e.2.2

def libraryChecks (bs : List Byte) (at_ : Nat) : Checks :=
  let n := leAt bs 4 4
  zeroRun bs at_ 2 2 ++ [(inRange n 1 1024 && decide (16 + 16 * n ≤ bs.length), at_ + 4)] ++ zeroRun bs at_ 8 8 ++
    (upto (if n ≤ 1024 then n else 0)).flatMap (fun k =>
      let e := libEntry bs k
      let o := libObject bs k
      let place := at_ + 16 + 16 * k
      let before := (upto k).map (libEntry bs)
      [(!(before.any (fun x => x.1 = e.1)), place)] ++ zeroRun bs at_ (18 + 16 * k) 2 ++
      [(decide (e.2.1 % 64 = 0) && before.all (fun x => decide (e.2.1 + e.2.2 ≤ x.2.1 ∨ x.2.1 + x.2.2 ≤ e.2.1)), place + 4),
       (decide (e.2.1 + e.2.2 ≤ bs.length) && decide (e.2.2 = objTotal o), place + 8)] ++ zeroRun bs at_ (28 + 16 * k) 4 ++
      [(objHeadFits (leAt bs 0 2) o && objSectionsOk o (leAt o 8 1 * leAt o 9 1), at_ + e.2.1)])

/-! ## TEMPLATES (R18, R19, R209, R220, R419, R442) -/

/-- The template that a record of 192 bytes holds, with its number. -/
def templateOf (r : List Byte) : Nat × Template :=
  let rate (c i : Nat) : Nat := leAt r (64 + 16 * c + 4 * i) 4
  let t : Template :=
    { walled := decide (leAt r 1 1 = 1), held := decide (leAt r 2 1 = 0), capMin := leAt r 8 4, capMax := leAt r 12 4
      groupMask := BitVec.ofNat 4 (leAt r 3 1), ctxMin := leAt r 16 1, ctxMax := leAt r 17 1
      rates := (upto 8).map (fun c => { cMin := rate c 0, cMax := rate c 1, pMin := rate c 2, pMax := rate c 3 })
      quadMin := leAt r 18 1, quadMax := leAt r 19 1, syncMin := leAt r 20 2, syncMax := leAt r 22 2, fly := leAt r 4 1
      cocoon := decide (leAt r 5 1 = 1), drainMin := leAt r 24 4, drainMax := leAt r 28 4, attMin := leAt r 32 2
      attMax := leAt r 34 2, bytes := r }
  (leAt r 0 1, t)

/-- Minimum and maximum of a Bounded field: in range and in order. -/
def bounded (lo hi least most : Nat) : Bool := inRange lo least most && inRange hi least most && decide (lo ≤ hi)

def templateChecks (r : List Byte) (o : Nat) (before : List Nat) : Checks :=
  let t := (templateOf r).2
  let n := leAt r 0 1
  [(decide (n < 32 ∧ n ∉ before), o), (decide (leAt r 1 1 ≤ 1), o + 1), (decide (leAt r 2 1 ≤ 1), o + 2),
   (decide (leAt r 3 1 < 16), o + 3), (decide (t.fly ≤ 2), o + 4),
   (decide (leAt r 5 1 ≤ 1) && (!t.cocoon || (decide (t.fly = 0) && decide (t.syncMax = 0))), o + 5)] ++ zeroRun r o 6 2 ++
  [(bounded t.capMin t.capMax 1 8192, o + 8), (bounded t.ctxMin t.ctxMax 1 16, o + 16),
   (bounded t.quadMin t.quadMax 0 16 && (t.walled || decide (t.quadMax = 0)), o + 18),
   (bounded t.syncMin t.syncMax 0 64 && (decide (t.fly = 0) || decide (t.syncMax = 0)), o + 20),
   (bounded t.drainMin t.drainMax 100 100000, o + 24), (bounded t.attMin t.attMax 1 4096, o + 32)] ++ zeroRun r o 36 28 ++
  (upto 8).flatMap (fun c =>
    let b := (t.rates[c]?).getD {}
    [(bounded b.cMin b.cMax 0 800000, o + 64 + 16 * c), (bounded b.pMin b.pMax 0 800000, o + 72 + 16 * c)])

def templateRecord (bs : List Byte) (k : Nat) : List Byte := (bs.drop (4 + 192 * k)).take 192

def templatesChecks (bs : List Byte) (at_ : Nat) : Checks :=
  let n := leAt bs 0 4
  [(inRange n 1 32, at_), (decide (bs.length = 4 + 192 * n), at_)] ++
    (upto (if n ≤ 32 then n else 0)).flatMap (fun k =>
      templateChecks (templateRecord bs k) (at_ + 4 + 192 * k) ((upto k).map (fun j => leAt (templateRecord bs j) 0 1)))

def templatesOf (bs : List Byte) : Tab Template :=
  foldN (leAt bs 0 4) (fun t k => let x := templateOf (templateRecord bs k); tins t x.1 x.2) []

/-! ## Sections (R444, R446) -/

/-- The section of a type; PARTNERS may be absent. -/
def secOf (xs : List ImgSec) (typ : Nat) : Option ImgSec := xs.find? (fun x => x.typ = typ)

def secBytes (s : State) (x : ImgSec) : List Byte := flashBytes s x.off x.len

/-- Cause DIGEST of the sections of some types; the failing address is the section's. -/
def digestChecks (s : State) (xs : List ImgSec) (types : List Nat) : Checks :=
  (xs.filter (fun x => x.typ ∈ types)).map (fun x => (decide (Config.sha512 (secBytes s x) = x.digest), x.off))

/-- Cause CONTENT of one section, given the CONFIG records. -/
def contentChecks (s : State) (rs : List (Nat × Word)) (x : ImgSec) : Checks :=
  let bs := secBytes s x
  if x.typ = 1 then configChecks bs x.off
  else if x.typ = 2 then networkChecks rs bs x.off
  else if x.typ = 3 then partnerChecks rs bs x.off
  else if x.typ = 4 then [(decide (bs.length = 516), x.off)]
  else if x.typ = 5 then tableChecks bs x.off
  else if x.typ = 7 then libraryChecks bs x.off
  else if x.typ = 8 then templatesChecks bs x.off
  else []

/-- Bytes of the section of a type, none if it is absent. -/
def typedBytes (s : State) (xs : List ImgSec) (typ : Nat) : List Byte :=
  match secOf xs typ with
  | some x => secBytes s x
  | none => []

/-- The first CONTENT failure of the sections of some types. -/
def contentFail (s : State) (rs : List (Nat × Word)) (xs : List ImgSec) (types : List Nat) : Option BootFail :=
  firstFail 7 ((xs.filter (fun x => x.typ ∈ types)).flatMap (contentChecks s rs))

/-- BOOT_CHECK: causes FLASH to SVN, and CONTENT (R454). -/
def imageCheck (s : State) (flashOk : Bool) (badAddr : Nat) : Option BootFail :=
  let xs := imgSecs s
  firstOf [signChecks s flashOk badAddr, firstFail 7 (headerChecks s),
    contentFail s (configRecords (typedBytes s xs 1)) xs [1, 2, 3, 4, 5, 7, 8]]

end Sys2Proof.Machine
end

