-- ==== Sys2Proof/Machine/Boot.lean ====
section
/-! DEFINITION. The boot sequence step by step, ROM recovery, memory training and initialisation (R153, R155, R183 to R185,
R443 to R456). -/
namespace Sys2Proof.Machine

/-- Latest time of a step's end, ns (R448). -/
def bootLimit (step : Nat) : Nat :=
  if step = 1 then 200000000 else if step ≤ 3 then 500000000 else if step = 4 then 1000000000 else if step = 5 then 3000000000
  else if step = 6 then 27000000000 else if step = 7 then 28000000000 else if step = 8 then 29800000000 else 30000000000

def uartPut (s : State) (u : Uart) : State := { s with wire := s.wire ++ [.uart u] }

/-- ROM recovery (R455): no pitch, no trained memory; MP is UP; what was counted, recorded and measured stays readable. -/
def recover (s : State) (cause addr : Nat) : State :=
  let b : Boot := { s.boot with step := 15, serving := false, cause := cause, failAddr := addr, trained := [] }
  let r : State :=
    { resetOver s with
      now := s.now, cd10Sec := s.cd10Sec, cd10Ns := s.cd10Ns, cd10Frac := s.cd10Frac, ticks := s.ticks, cnt := s.cnt
      csr := s.csr, sel := s.sel, fum := s.fum, flt := s.flt, brd := s.brd, dbg := s.dbg, boot := b, pitches := []
      crg := { lock := s.crg.lock &&& 0x40 }, units := [(uPort 4, { intent := .up, actual := .up })] }
  fanForce (uartPut r (.cause cause))

/-- A check's outcome: recovery, or what follows. -/
def checked (s : State) (f : Option BootFail) (go : State) : State :=
  match f with
  | some x => recover s x.cause x.addr
  | none => go

def stepTo (s : State) (n : Nat) : State := bootMod s (fun b => { b with step := n })

/-! ## Units at boot -/

/-- BOOT gives a unit intent UP, and its bring-up starts; a unit that the image has retired stays so. -/
def bootUp (s : State) (k : Nat) : State :=
  if uAct s k = .off then bringUp (uSet s k { uGet s k with intent := .up }) k else s

/-- Its bring-up has ended well. -/
def bootServe (s : State) (k : Nat) : State := if uAct s k = .training then uMove s k .up else s

def gridUnits : List Nat := (upto 64).map uCore ++ (upto 16).map uEngine ++ (upto 16).map uQuad
def groupUnits (g : Nat) : List Nat := uGroup g :: ((upto 4).map (fun i => uChan (4 * g + i)) ++ (upto 4).map (fun i => uSlice (4 * g + i)))

/-! ## Steps 1 to 3 -/

/-- The ROM has seeded the generator: every link draws its incarnation. -/
def bootStep1 (s : State) : State :=
  let s1 := foldN 8 (fun s l => let d := draw s; klrMod d.2 l (fun k => { k with incarnation := d.1.truncate 64 })) s
  stepTo (uartPut (crgMod s1 (fun c => { c with lock := c.lock ||| 0x40 })) .k1) 2

/-- The ROM accepts the image and measures it into MR0 (R443, R445). -/
def bootStep2 (s : State) (flashOk : Bool) (badAddr : Nat) : State :=
  let hash := Config.sha512 (imgSigned s)
  let im : Img :=
    { s.img with secs := imgSecs s, svn := (flashByte s 6).toNat, burn := (flashByte s 8).getLsbD 0, hash := hash }
  checked s (signChecks s flashOk badAddr) (stepTo (uartPut (mrExtend { s with img := im } 0 (beBytes 64 hash.toNat)) .k2) 3)

/-- The ROM hands control to BOOT, or enters recovery after a recovery reset (R457). -/
def bootStep3 (s : State) : State := if s.boot.lastReset = 3 then recover s 0x0A 0 else stepTo s 4

/-! ## Step 4 -/

/-- Extend a measurement register with the digests of the sections of some types, in table order. -/
def mrSections (s : State) (n : Nat) (types : List Nat) : State :=
  foldS (s.img.secs.filter (fun x => x.typ ∈ types)) s (fun s x => mrExtend s n (beBytes 64 x.digest.toNat))

/-- What the checked sections give. -/
def imageTaken (s : State) : State :=
  let xs := s.img.secs
  let tb := typedBytes s xs 5
  let ps := partnersOf (typedBytes s xs 3)
  let im : Img :=
    { s.img with config := configRecords (typedBytes s xs 1), net := typedBytes s xs 2, operatorKey := typedBytes s xs 4,
                 tables := tableEntries tb, tablesId := BitVec.ofNat 16 (leAt tb 0 2) }
  mirMod { s with img := im, templates := templatesOf (typedBytes s xs 8) }
    (fun m => { m with peers := (upto ps.length).zip ps })

def bootStep4 (s : State) (flashOk : Bool) (badAddr : Nat) : State :=
  let xs := s.img.secs
  let types := [1, 2, 3, 4, 5, 8]
  checked s
    (firstOf [firstFail 1 [(flashOk, badAddr)], firstFail 6 (digestChecks s xs types), firstFail 7 (headerChecks s),
      contentFail s (configRecords (typedBytes s xs 1)) xs types])
    (stepTo (mrSections (mrSections (imageTaken s) 1 [1, 2, 3, 4, 5]) 4 [8]) 5)

/-! ## Step 5 -/

def modeC (s : State) : Bool := decide (regField s (dmcAgent 0) 0x100 0 1 = 1)

/-- Frequency of CD20 to CD35 at a rate of the mode: an eighth of the data rate (R152, R503). -/
def rateMhz (c : Bool) (rate : Nat) : Nat :=
  if c then (if rate = 0 then 800 else if rate = 1 then 900 else 1000)
  else (if rate = 0 then 1100 else if rate = 1 then 1300 else 1600)

/-- Is a module fitted in slot D0 or D1 of a channel? -/
def slotFitted (s : State) (c j : Nat) : Bool := s.boot.slots.getLsbD (2 * c + j)
def groupPopulated (s : State) (g : Nat) : Bool :=
  (upto 4).any (fun i => slotFitted s (4 * g + i) 0 || slotFitted s (4 * g + i) 1)

/-- Memory training starts; an unpopulated group is RETIRED as management requested, with no record (R153). -/
def memoryStart (s : State) : State :=
  foldN 4 (fun s g => if groupPopulated s g then foldS (groupUnits g) s bootUp
    else foldS (groupUnits g) s (fun s k => if uAct s k = .retired then s else retireAsked s k)) s

/-- Ports start their bring-up 1 ms apart; a port that the image does not use stays OFF (R346, R451). -/
def portsStart (s : State) : State :=
  foldN 4 (fun s p =>
    if regField s (prtAgent p) 0x100 0 2 = 2 then s
    else
      let s1 := foldN 9 (fun s l => bootUp s (uLane p l)) (bootUp s (uPort p))
      prtMod s1 p (fun x => { x with since := x.since + p * 1000000 })) s

/-- CONFIG is written, the PLLs lock, and training and the bring-up of the ports start. -/
def bootStep5 (s : State) (slots : BitVec 32) : State :=
  let s1 := foldS s.img.config s (fun s r => (regWrite s .image r.1 r.2).1)
  let s2 := crgMod s1 (fun c => { c with lock := 0xFF, memMhz := rateMhz (modeC s1) (regField s1 (dmcAgent 0) 0x100 1 2) })
  let s3 := bootMod s2 (fun b => { b with slots := slots, trained := [] })
  let s4 := brdMod s3 (fun b => { b with mods := ((upto 32).filter (fun k => slots.getLsbD k)).map (fun k => (k, { present := true })) })
  stepTo (foldS gridUnits (bootUp (portsStart (memoryStart s4)) (uPort 4)) bootUp) 6

/-! ## Step 6 -/

/-- Channels that have not reported. -/
def untrained (s : State) : List Nat :=
  (upto 16).filter (fun c => groupPopulated s (c / 4) && decide (c ∉ s.boot.trained) && decide (uAct s (uGroup (c / 4)) ≠ .retired))

/-- A channel's training ends (R183, R184); refresh starts with the last one (R173). -/
def channelTrained (s : State) (c : Nat) (ok : Bool) (tr : Trained) : State :=
  if s.boot.step ≠ 6 ∨ c ∉ untrained s then s
  else
    let s1 := bootMod s (fun b => { b with trained := insertNat c b.trained })
    let d1 := slotFitted s c 1
    let good := ok && slotFitted s c 0 && (!d1 || modeC s)
    let g : Geom :=
      { rowBits := tr.rowBits.toNat, rankBits := tr.rankBits.toNat, twoSlots := d1, x8 := tr.x8, share := 4 * tr.gib,
        tRc := tr.tRc, tRp := tr.tRp, tRfc := tr.tRfc }
    let s2 := if good then chMod s1 c (fun ch => { ch with geom := g }) else retireGroup s1 (c / 4) 0x18 0 0
    let s3 := crgMod s2 (fun x => { x with memMhz := min x.memMhz (rateMhz (modeC s) tr.rate.toNat) })
    if (untrained s3).isEmpty then dmcMod s3 (fun d => { d with refreshNext := some s3.now }) else s3

/-- Granules of a group: four times its smallest channel, none if it did not survive (R153, R155). -/
def groupSize (s : State) (g : Nat) : Nat :=
  if uAct s (uGroup g) = .retired then 0
  else (((upto 4).map (fun i => (chGet s (4 * g + i)).geom.share)).min?).getD 0

def groupFirst (s : State) (g : Nat) : Nat := ((upto g).map (groupSize s)).sum

/-- Granules of the system region in each system group (R447). -/
def sysGranules (s : State) : Nat := 2 + (((upto 4).map (fun p => regField s (klrAgent p) 0x10C 0 12)).sum + 1023) / 1024

def isSysGroup (s : State) (g : Nat) : Bool := decide (g = sysGroupA s ∨ g = sysGroupB s)

/-- The numbered granules. -/
def granuleTable (s : State) : Tab Granule :=
  (upto 4).flatMap (fun g => (upto (groupSize s g)).map (fun i =>
    let e : Granule :=
      { group := g, localIx := i, state := if isSysGroup s g ∧ i < sysGranules s then .system else .init }
    (groupFirst s g + i, e)))

/-- The system group that serves reads (R156). -/
def sysServing (s : State) : Nat := if uAct s (uGroup (sysGroupA s)) ≠ .retired then sysGroupA s else sysGroupB s

/-- PPA of an offset of the system region. -/
def sysPpa (s : State) (o : Nat) : Nat := (groupFirst s (sysServing s) + o / 0x40000000) * 0x40000000 + o % 0x40000000

/-- BOOT binds each partner's 16 indices (R419). -/
def bindPartners (s : State) : State :=
  foldS s.mir.peers s (fun s e => foldN 16 (fun s i =>
    let x : SrcEntry := { addr := e.2.addr, port := e.2.port, maxSeg := 3 }
    actMod s (fun a => { a with src := tins a.src (e.2.localBase + i) x })) s)

/-- All channels have reported: the granules are numbered. -/
def bootStep6 (s : State) : State :=
  if !(untrained s).isEmpty then s
  else
    let lost (g : Nat) : Bool := decide (uAct s (uGroup g) = .retired)
    let small (g : Nat) : Bool := !lost g && decide (groupSize s g < sysGranules s)
    if lost (sysGroupA s) ∧ lost (sysGroupB s) then recover s 8 0
    else if small (sysGroupA s) ∨ small (sysGroupB s) then recover s 8 0
    else
      let s1 := dmcMod s (fun d => { d with gran := granuleTable s })
      let s2 := foldN 16 (fun s' c => chMod s' c (fun ch => { ch with geom := { ch.geom with share := groupSize s (c / 4) } })) s1
      let s3 := foldN 4 (fun s g => foldS (groupUnits g) s bootServe) s2
      let s4 := fltMod (bootServe s3 (uPort 4)) (fun f => { f with traceBase := sysPpa s (Config.traceOffset.toNat * 4096) })
      stepTo (bindPartners s4) 7

/-! ## Step 7 and the initialisation of memory (R185) -/

/-- INIT_DONE of the channels of a group with no granule in INIT. -/
def initFlags (s : State) (g : Nat) : State :=
  if s.dmc.gran.any (fun e => e.2.group = g ∧ e.2.state = .init) ∨ uAct s (uGroup g) = .retired then s
  else foldN 4 (fun s i => chMod s (4 * g + i) (fun ch => { ch with initDone := true })) s

/-- The last line of a granule is written: it enters the free list. -/
def granuleInit (s : State) (g : Nat) : State :=
  let e := granGet s g
  if e.state ≠ .init ∨ s.boot.step < 7 then s
  else initFlags (granPut (bumpN (granuleFree s g) .swpLines 0 0 0 0x1000000) g { e with state := .free }) e.group

/-- Arithmetic identity of the stepping (R269). -/
def arith : Nat := if Config.stepMajor = 1 then 0x00B1 else 0x00A1

def formDclass (s : State) : State :=
  let v := 0x01 * 2 ^ 56 + arith * 2 ^ 40 + s.img.libVersion.toNat * 2 ^ 24 + s.img.tablesId.toNat * 2 ^ 8
  { s with clx := { s.clx with dclass := BitVec.ofNat 64 v } }

/-- The kernels of the library. -/
def libraryTaken (s : State) : State :=
  let bs := typedBytes s s.img.secs 7
  let ks := foldN (leAt bs 4 4) (fun (t : Tab (List Byte)) k => tins t (libEntry bs k).1 (libObject bs k)) []
  { s with img := { s.img with lib := ks, libVersion := BitVec.ofNat 16 (leAt bs 0 2) } }

/-- The system region is initialised, FIRMWARE and LIBRARY are copied and checked, and the service cores start. -/
def bootStep7 (s : State) (flashOk : Bool) (badAddr : Nat) : State :=
  let xs := s.img.secs
  let sys := (s.dmc.gran.filter (fun e => e.2.state = .system)).length
  let s1 := bumpN s .swpLines 0 0 0 (sys * 0x1000000)
  let s2 := formDclass (mrSections (mrSections (libraryTaken (foldN 4 initFlags s1)) 2 [6]) 3 [7])
  checked s
    (firstOf [firstFail 1 [(flashOk, badAddr)], firstFail 6 (digestChecks s xs [6, 7]), contentFail s s.img.config xs [7]])
    (stepTo (foldN 4 (fun s k => bootUp s (uSc k)) s2) 8)

/-! ## Steps 8 and 9 -/

/-- Firmware runs on the service cores; units whose stores step 5 has checked are UP. -/
def bootStep8 (s : State) : State :=
  let s1 := foldN 4 (fun s k => bootServe s (uSc k)) s
  let s2 := foldS gridUnits s1 (fun s k =>
    let s1 := bootServe s k
    if k / 512 = grdAgent ∧ 0x100 ≤ k % 512 ∧ uAct s k = .training ∧ quadReduced s1 (k % 512 - 0x100) then degradeUnit s1 k 0 else s1)
  let s3 := svcMod s2 (fun v => { v with kicks := List.replicate 4 s2.now })
  stepTo (ptpStart (chiefAgain s3)) 9

/-- The configuration lock, and admission (R450). -/
def bootStep9 (s : State) : State :=
  let s1 := bootMod s (fun b => { b with serving := true, locked := true })
  uartPut (tptMod s1 (fun t => { t with admitting := true })) .k9

/-- A step passes its limit (R449). -/
def bootTimeout (s : State) : State :=
  if !booting s ∨ halted s then s else recover (nowTo s (bootLimit s.boot.step)) 9 0

/-- The running step completes. -/
def bootStep (s : State) (flashOk : Bool) (badAddr : Nat) (slots : BitVec 32) : State :=
  let n := s.boot.step
  if !booting s ∨ halted s then s
  else if bootLimit n < s.now then recover s 9 0
  else if n = 1 then bootStep1 s
  else if n = 2 then bootStep2 s flashOk badAddr
  else if n = 3 then bootStep3 s
  else if n = 4 then bootStep4 s flashOk badAddr
  else if n = 5 then bootStep5 s slots
  else if n = 6 then bootStep6 s
  else if n = 7 then bootStep7 s flashOk badAddr
  else if n = 8 then bootStep8 s
  else bootStep9 s

/-! ## After the boot (R445, R454) -/

/-- SVN fuses are blown up to the image's SVN. -/
def svnBurn (s : State) : State :=
  if s.boot.serving ∧ s.img.burn ∧ minSvn s < s.img.svn then bootMod s (fun b => { b with svn := s.img.svn }) else s

/-- A running image check ends. -/
def checkDone (s : State) (flashOk : Bool) (badAddr : Nat) : State :=
  if s.boot.check ≠ 1 then s
  else
    match imageCheck s flashOk badAddr with
    | none => bump0 (bootMod s (fun b => { b with check := 2, checkFail := {} })) .bootCheckPass
    | some f => bump0 (bootMod s (fun b => { b with check := 3, checkFail := f })) .bootCheckFail

end Sys2Proof.Machine
end

