-- ==== Sys2Proof/Machine/BootCmds.lean ====
section
/-! DEFINITION. Commands of start-up, of the flash and of resets, one meaning each. -/
namespace Sys2Proof.Machine

/-- PWR_GOOD rises and the boot sequence starts at step 1 (R448). -/
def execPowerOn (s : State) : Host.Outcome State Fault Refusal :=
  .next (powerOn s)

/-- A boot step completes and the next step of the boot sequence begins (R448). -/
def execBootStepComplete (flashOk : Bool) (badAddr : BitVec 29) (slots : BitVec 32) (s : State) : Host.Outcome State Fault Refusal :=
  .next (bootStep s flashOk badAddr.toNat slots)

/-- A boot step passes its limit and the chip enters ROM recovery with cause TIMEOUT (R449). -/
def execBootStepTimeout (s : State) : Host.Outcome State Fault Refusal :=
  .next (bootTimeout s)

/-- Within 1 s after serving BOOT blows SVN fuses up to the image's SVN (R445). -/
def execSvnBurn (s : State) : Host.Outcome State Fault Refusal :=
  .next (svnBurn s)

/-- A channel completes boot training steps 1 to 6 or fails one, retiring its group (R183). -/
def execChannelTrainingDone (chan : BitVec 4) (ok : Bool) (tr : Trained) (s : State) : Host.Outcome State Fault Refusal :=
  .next (channelTrained s chan.toNat ok tr)

/-- SWP writes the last line of a granule at initialisation and the granule enters the free list (R185). -/
def execInitGranuleDone (granule : BitVec 14) (s : State) : Host.Outcome State Fault Refusal :=
  .next (granuleInit s granule.toNat)

/-- BOOT_FLASH_CMD OP 01b reads 256 bytes into the buffer (R454). -/
def execFlashRead (src : MgmtSource) (s : State) : Host.Outcome State Fault Refusal :=
  .next (asBoot s src (flashStart s 1))

/-- BOOT_FLASH_CMD OP 10b programs a 256-byte page from the buffer (R454). -/
def execFlashProgram (src : MgmtSource) (s : State) : Host.Outcome State Fault Refusal :=
  .next (asBoot s src (flashStart s 2))

/-- BOOT_FLASH_CMD OP 11b erases a 64 KiB sector (R454). -/
def execFlashErase (src : MgmtSource) (s : State) : Host.Outcome State Fault Refusal :=
  .next (asBoot s src (flashStart s 3))

/-- A flash command finishes, clearing BUSY and setting ERROR on failure (R454). -/
def execFlashCmdDone (ok : Bool) (s : State) : Host.Outcome State Fault Refusal :=
  .next (flashDone s ok)

/-- Writing BOOT_CHECK.GO starts or restarts a check of the flash image without applying it (R454). -/
def execBootCheck (src : MgmtSource) (s : State) : Host.Outcome State Fault Refusal :=
  .next (asBoot s src (checkStart s))

/-- An image check ends, reporting passed or failed with cause and address (R454). -/
def execBootCheckDone (flashOk : Bool) (badAddr : BitVec 29) (s : State) : Host.Outcome State Fault Refusal :=
  .next (checkDone s flashOk badAddr.toNat)

/-- BOOT_RESET KIND 01b with KEY 9416h starts a chip reset once any flash command ends (R457). -/
def execChipResetCmd (src : MgmtSource) (key : BitVec 16) (s : State) : Host.Outcome State Fault Refusal :=
  .next (asBoot s src (resetWrite s (key ++ (1 : BitVec 16))))

/-- BOOT_RESET KIND 10b with KEY 9416h runs steps 1–3 and enters ROM recovery with cause FORCED (R457). -/
def execRecoveryReset (src : MgmtSource) (key : BitVec 16) (s : State) : Host.Outcome State Fault Refusal :=
  .next (asBoot s src (resetWrite s (key ++ (2 : BitVec 16))))

/-- RESET_N low for at least 1 µs starts a chip reset (R505). -/
def execResetNPin (ns : BitVec 32) (s : State) : Host.Outcome State Fault Refusal :=
  .next (resetPin s ns.toNat)

/-- PWR_GOOD low for 100 ns or more turns off transmitters, asserts module resets and floats board outputs (R512).
-/
def execPowerDown (ns : BitVec 32) (s : State) : Host.Outcome State Fault Refusal :=
  .next (powerDown s ns.toNat)

end Sys2Proof.Machine
end

