-- ==== Sys2Proof/Machine/ChanCmds.lean ====
section
/-! DEFINITION. Commands of the memory channels and of the traffic manager, one meaning each. -/
namespace Sys2Proof.Machine

/-- A line read completes and MCE applies parity, tag, key-slot and owner checks, re-reading or ending the access
MEDIA or INTEGRITY (R163). -/
def execLineReadDone (chan : BitVec 4) (sub : Bool) (entryBad : Bool) (outs : List ReadOut) (s : State) : Host.Outcome State Fault Refusal :=
  .next (lineReadDone s chan.toNat (b2n sub) entryBad outs)

/-- A line leaves the write buffer to the DRAM, checked for buffer parity and written poisoned if the re-read
still fails (R180). -/
def execWriteBufferIssue (chan : BitVec 4) (sub : Bool) (bad : BitVec 16) (s : State) : Host.Outcome State Fault Refusal :=
  .next (writeIssue s chan.toNat (b2n sub) bad)

/-- At each tREFI instant all 16 channels precharge and refresh all banks, adjusting tREFI for module temperature
(R173). -/
def execRefreshInstant (s : State) : Host.Outcome State Fault Refusal :=
  .next (refreshInstant s)

/-- A request waits longer than DMC_AGE_LIMIT and is promoted with the requests ahead of it in an in-order bank
(R167). -/
def execAgePromotion (chan : BitVec 4) (s : State) : Host.Outcome State Fault Refusal :=
  .next (agePromote s chan.toNat)

/-- A bank with no access for DMC_PAGE_CFG.IDLE is precharged (R171). -/
def execPageIdlePrecharge (chan : BitVec 4) (sub : Bool) (rank : BitVec 4) (bank : BitVec 5) (s : State) : Host.Outcome State Fault Refusal :=
  .next (pageIdle s chan.toNat (b2n sub, rank.toNat, bank.toNat))

/-- ALERT_n is sampled asserted, the DMC stops the subchannel, clears the parity log and replays or retrains
(R181). -/
def execCaAlert (chan : BitVec 4) (sub : Bool) (s : State) : Host.Outcome State Fault Refusal :=
  .next (caAlert s chan.toNat (b2n sub))

/-- The command/address replay completes and normal scheduling resumes (R181). -/
def execCaReplayDone (chan : BitVec 4) (sub : Bool) (s : State) : Host.Outcome State Fault Refusal :=
  .next (caReplayDone s chan.toNat (b2n sub))

/-- 64 commands issue on the subchannel after a replay without an alert, and the consecutive-alert count resets
(R181). -/
def execCaConsecReset (chan : BitVec 4) (sub : Bool) (s : State) : Host.Outcome State Fault Refusal :=
  .next (caConsecReset s chan.toNat (b2n sub))

/-- A retraining ends, returning the channel to its previous state and replaying deferred commands, or retiring
the group on failure (R182). -/
def execRetrainDone (chan : BitVec 4) (ok : Bool) (s : State) : Host.Outcome State Fault Refusal :=
  .next (retrainDone s chan.toNat ok)

/-- A retraining passes 20 ms without success and the group is retired (R182). -/
def execRetrainTimeout (chan : BitVec 4) (s : State) : Host.Outcome State Fault Refusal :=
  .next (retrainTimeout s chan.toNat)

/-- A committed list takes over at the first end of the running cycle at or after T, exchanging banks (R389). -/
def execGateListTakeover (list : BitVec 4) (s : State) : Host.Outcome State Fault Refusal :=
  .next (glTakeover s list.toNat)

/-- A gate-list interval begins, judging its OWNER, opening or closing classes and precharging memory at window
boundaries (R391). -/
def execGateIntervalBoundary (list : BitVec 4) (s : State) : Host.Outcome State Fault Refusal :=
  .next (glBoundary s list.toNat)

/-- A free link starts the oldest eligible TC7, then TC6, head, or the fair-queueing choice among TC0–TC5, giving
a KLR DATA frame its SEQ (R385). -/
def execLinkFrameStart (link : Fin 9) (s : State) : Host.Outcome State Fault Refusal :=
  .next (linkStart s link.val)

/-- At every 125 ns tick of CD10 each policer bucket and each class shaper bucket gains its rate in eighths of a
byte, stopping at its depth (R378). -/
def execTokenRefillTick (s : State) : Host.Outcome State Fault Refusal :=
  .next (refillTick s)

end Sys2Proof.Machine
end

