-- ==== Sys2Proof/Machine/CollCmds.lean ====
section
/-! DEFINITION. The collective and kernel commands, one meaning each. -/
namespace Sys2Proof.Machine

/-- Apply an event to the record of a pitch with an ID. -/
def onRec (s : State) (pitch : BitVec 8) (id : BitVec 24) (f : State → Nat → State) : State :=
  match recFind s pitch.toNat id.toNat with
  | some ix => f s ix
  | none => s

/-- COLL_OPEN is checked in the order of R259 and, if accepted, creates a session record WAITING or RUNNING and
answers D0h with the ID (R259). -/
def execCollOpen (f : RxFrame) (s : State) : Host.Outcome State Fault Refusal :=
  .next (collOpenReq s 0x50 f)

/-- A COLL_CONTRIB frame from a local rank is checked and its units are combined in the fixed order or added to
the exact accumulator (R264). -/
def execCollContrib (f : RxFrame) (s : State) : Host.Outcome State Fault Refusal :=
  .next (settle (collRequest s 0x51 f))

/-- A COLL_PARTIAL frame from a child chip is checked and its units are combined as the partner operand of its
node (R264). -/
def execCollPartial (f : RxFrame) (s : State) : Host.Outcome State Fault Refusal :=
  .next (settle (collRequest s 0x52 f))

/-- A COLL_RESULT frame from the parent chip is forwarded to child chips and applied to this chip's destinations
(R266). -/
def execCollResult (f : RxFrame) (s : State) : Host.Outcome State Fault Refusal :=
  .next (settle (collRequest s 0x53 f))

/-- COLL_CLOSE without ABORT is held until the record ends; with ABORT it fails a WAITING or RUNNING record and
passes the abort on (R261). -/
def execCollClose (f : RxFrame) (s : State) : Host.Outcome State Fault Refusal :=
  .next (settle (collRequest s 0x54 f))

/-- COLL_QUERY returns the record's state, cause and CHUNKS_DONE, or NONE for an ID with no record (R260). -/
def execCollQuery (f : RxFrame) (s : State) : Host.Outcome State Fault Refusal :=
  .next (settle (collRequest s 0x55 f))

/-- PTP time reaches a WAITING record's START, and the record becomes RUNNING with pacing and deadline started
(R260). -/
def execCollStartTime (pitch : BitVec 8) (id : BitVec 24) (s : State) : Host.Outcome State Fault Refusal :=
  .next (onRec s pitch id collStart)

/-- The slot START + k·PERIOD arrives, releasing the ready partial or result frames of chunk k (R271). -/
def execCollPaceSlot (pitch : BitVec 8) (id : BitVec 24) (chunk : BitVec 16) (s : State) : Host.Outcome State Fault Refusal :=
  .next (onRec s pitch id (fun s ix => collPace s ix chunk.toNat))

/-- A chunk's partial is acknowledged, its destinations written and its results acknowledged, so CHUNKS_DONE
counts it and the record becomes DONE after the last (R266). -/
def execCollChunkFinished (pitch : BitVec 8) (id : BitVec 24) (chunk : BitVec 16) (s : State) : Host.Outcome State Fault Refusal :=
  .next (settle (onRec s pitch id (fun s ix => collFinished (chunkStep s ix chunk.toNat) ix chunk.toNat)))

/-- The session deadline passes before the record is DONE, so the record fails with cause DEADLINE and aborts its
neighbours (R273). -/
def execCollDeadline (pitch : BitVec 8) (id : BitVec 24) (s : State) : Host.Outcome State Fault Refusal :=
  .next (settle (onRec s pitch id collDeadline))

/-- 100 ms after a record ends without its opener's close being answered, the record and its CLX windows are freed
(R260). -/
def execCollRecordExpire (pitch : BitVec 8) (id : BitVec 24) (s : State) : Host.Outcome State Fault Refusal :=
  .next (onRec s pitch id collExpire)

/-- An ID remembered for an ABORT with no record is forgotten 1 s later (R273). -/
def execCollAbortIdExpire (pitch : BitVec 8) (id : BitVec 24) (s : State) : Host.Outcome State Fault Refusal :=
  .next (collForgetId s pitch id.toNat)

/-- KERNEL_LAUNCH is checked in the order of R290 and, if accepted, enters LOADING or the launch queue with its
deadline started (R290). -/
def execKernelLaunch (f : RxFrame) (s : State) : Host.Outcome State Fault Refusal :=
  .next (kernelLaunch s 0x60 f)

/-- KERNEL_QUERY returns the session's state, cause, CLK_STEPS and CYCLES, or NONE for a session of another pitch
(R293). -/
def execKernelQuery (f : RxFrame) (s : State) : Host.Outcome State Fault Refusal :=
  .next (kernelMsg s 0x61 f)

/-- KERNEL_ABORT fails a RUNNING session with cause ABORT and is always answered OK (R293). -/
def execKernelAbort (f : RxFrame) (s : State) : Host.Outcome State Fault Refusal :=
  .next (kernelMsg s 0x62 f)

/-- A queued launch's cores become free with no earlier queued launch needing them, so it reserves them and enters
LOADING (R291). -/
def execKernelDequeue (session : BitVec 16) (s : State) : Host.Outcome State Fault Refusal :=
  .next (onSess s session dequeue)

/-- The object reads end, GRD checks digest, allow list and routes, installs windows and registers, and the
session becomes RUNNING with the launch answered (R292). -/
def execKernelLoadDone (session : BitVec 16) (s : State) : Host.Outcome State Fault Refusal :=
  .next (onSess s session loadDone)

/-- A load read ends in NOT_MAPPED, MEDIA or INTEGRITY, the launch is answered with that status and the cores are
cleared (R291). -/
def execKernelLoadFail (session : BitVec 16) (s : State) : Host.Outcome State Fault Refusal :=
  .next (onSess s session loadFail)

/-- Every core has halted and every stage command is complete, so the session becomes DONE and KERNEL_EVENT is
sent if NOTIFY (R291). -/
def execKernelSessionDone (session : BitVec 16) (s : State) : Host.Outcome State Fault Refusal :=
  .next (onSess s session sessDone)

/-- A launch or session's deadline passes, ending a queued or loading launch with SESSION_FAILED or failing a
running session with cause DEADLINE (R305). -/
def execKernelDeadline (session : BitVec 16) (s : State) : Host.Outcome State Fault Refusal :=
  .next (onSess s session sessDeadline)

/-- Clearing of an ended session's cores and engines completes and they return to the free set (R294). -/
def execKernelClearDone (session : BitVec 16) (s : State) : Host.Outcome State Fault Refusal :=
  .next (onSess s session sessCleared)

/-- A session record that ended 1 s ago is freed (R284). -/
def execKernelRecordExpire (session : BitVec 16) (s : State) : Host.Outcome State Fault Refusal :=
  .next (onSess s session sessExpire)

/-- A stage command's last byte reaches its target or write buffer, updating its tag's completion count and
releasing waiting gates (R296). -/
def execStageCommandDone (quad : BitVec 4) (s : State) : Host.Outcome State Fault Refusal :=
  .next (settle (stageRun s quad.toNat))

end Sys2Proof.Machine
end

