-- ==== Sys2Proof/Machine/DebugCmds.lean ====
section
/-! DEFINITION. Commands of debug and of the TAP, one meaning each. -/
namespace Sys2Proof.Machine

/-- Writing DBG_MEM_CTRL.GO starts a debug read of one line as system master (R481). -/
def execDbgMemRead (src : MgmtSource) (s : State) : Host.Outcome State Fault Refusal :=
  .next (asOperator s src (memReadGo s))

/-- The debug line read completes, returning plaintext for slot 00h or ciphertext otherwise (R481). -/
def execDbgMemReadDone (s : State) : Host.Outcome State Fault Refusal :=
  .next (memReadDone s)

/-- Writing DBG_STORE_ADDR captures 128 bytes of a grid store through the stage port (R482). -/
def execDbgStoreCapture (src : MgmtSource) (addr : BitVec 22) (s : State) : Host.Outcome State Fault Refusal :=
  .next (fromSource s src (captureStart (selSet (captureEnd s src) src dbgAgent 0x304 (addr.zeroExtend 32)) src addr.toNat))

/-- A grid store capture completes within 1 µs and the captured bytes become readable, releasing later entries of
the same source that wait for it (R482). -/
def execDbgStoreCaptureDone (src : MgmtSource) (s : State) : Host.Outcome State Fault Refusal :=
  .next (captureEnd s src)

/-- At each multiple of PERIOD each enabled selector writes a SAMPLE trace record (R483). -/
def execTraceSample (s : State) : Host.Outcome State Fault Refusal :=
  .next (traceSample s)

/-- The IDCODE instruction selects the 32-bit IDCODE register (R484). -/
def execIdcode (s : State) : Host.Outcome State Fault Refusal :=
  .next (tapLoad s 1)

/-- The SAMPLE/PRELOAD instruction samples or preloads the boundary scan register (R484). -/
def execSamplePreload (bits : List Bool) (s : State) : Host.Outcome State Fault Refusal :=
  .next (tapScan s 2 bits)

/-- The EXTEST instruction drives balls from the boundary scan register (R484). -/
def execExtest (bits : List Bool) (s : State) : Host.Outcome State Fault Refusal :=
  .next (tapScan s 3 bits)

/-- The CLAMP instruction holds outputs from the boundary register and selects bypass (R484). -/
def execClamp (s : State) : Host.Outcome State Fault Refusal :=
  .next (tapLoad s 4)

/-- The HIGHZ instruction floats outputs and selects bypass (R484). -/
def execHighz (s : State) : Host.Outcome State Fault Refusal :=
  .next (tapLoad s 5)

/-- The BYPASS instruction, or any unlisted value, selects the 1-bit bypass register (R484). -/
def execBypass (ir : BitVec 8) (s : State) : Host.Outcome State Fault Refusal :=
  .next (tapBypass s ir)

/-- TRST_N or the TAP's own reset resets the TAP only (R457). -/
def execTapReset (s : State) : Host.Outcome State Fault Refusal :=
  .next (tapReset s)

end Sys2Proof.Machine
end

