-- ==== Sys2Proof/Machine/FabCmds.lean ====
section
/-! DEFINITION. Commands of intents, audits, gate lists and the fabric, one meaning each. -/
namespace Sys2Proof.Machine

/-- A write of a unit's intent is checked against R5 and, if accepted, moves the unit along the transition table
of R8 in the cycle of the write (R8). -/
def execAgtIntentWrite (src : MgmtSource) (agent : BitVec 16) (unit : BitVec 9) (value : BitVec 4) (s : State) : Host.Outcome State Fault Refusal :=
  .next (fromSource s src (intentWrite s src agent.toNat unit.toNat value.toNat))

/-- Every 10 µs each agent compares the intent of each unit with its actual state and records agreement or
disagreement (R6). -/
def execAudit (s : State) : Host.Outcome State Fault Refusal :=
  .next (audit s)

/-- A unit in TRAINING completes bring-up and becomes UP, admitting work (R8). -/
def execBringUpComplete (agent : BitVec 16) (unit : BitVec 9) (s : State) : Host.Outcome State Fault Refusal :=
  .next (bringUpDone s agent.toNat unit.toNat)

/-- A unit's bring-up fails or passes its deadline, and the unit becomes FENCED with a fault record of cause 02h
(R8). -/
def execBringUpFail (agent : BitVec 16) (unit : BitVec 9) (s : State) : Host.Outcome State Fault Refusal :=
  .next (bringUpFail s agent.toNat unit.toNat)

/-- Writing TMG_GL_COMMIT.GO checks the shadow list and, if it passes, makes it PENDING for take-over at T (R388).
-/
def execGateListCommit (src : MgmtSource) (list : BitVec 4) (s : State) : Host.Outcome State Fault Refusal :=
  .next (asOperator s src (glCommit s list.toNat))

/-- A write of TMG_PCFG_n is accepted only while the pitch is EMPTY or STRUCK, otherwise ignored and counted
(R383). -/
def execTmgPcfgWrite (src : MgmtSource) (pitch : BitVec 8) (value : BitVec 32) (s : State) : Host.Outcome State Fault Refusal :=
  .next (asOperator s src (pcfgWrite s pitch.toNat value))

/-- HOLD cycles after a reflection the source re-injects the packet with REFL and RSP cleared (R401). -/
def execFabReflectReinject (hdr : BitVec 128) (payload : BitVec 512) (plane : BitVec 1) (fails : BitVec 2) (s : State) : Host.Outcome State Fault Refusal :=
  .next (reflectReinject s hdr payload plane.toNat fails.toNat)

/-- An injector waiting 128 cycles asserts STARVE, stopping other injectors on the plane (R403). -/
def execFabStarve (router : BitVec 6) (plane : BitVec 2) (s : State) : Host.Outcome State Fault Refusal :=
  .next (fabStarve s router.toNat plane.toNat)

/-- A routing-table entry write is ignored and counted if it targets the current bank or the old epoch has not
drained (R404). -/
def execFabRtWrite (src : MgmtSource) (router : BitVec 6) (bank : BitVec 1) (plane : BitVec 2) (dest : BitVec 6) (value : BitVec 32) (s : State) : Host.Outcome State Fault Refusal :=
  .next (fromSource s src (rtWrite s src router.toNat bank.toNat plane.toNat dest.toNat value))

/-- Writing FAB_EPOCH_GO checks T, drain state and the bank and accepts the switch as PENDING or refuses it
(R406). -/
def execFabEpochGo (src : MgmtSource) (s : State) : Host.Outcome State Fault Refusal :=
  .next (asOperator s src (epochGo s))

/-- Fabric time reaches T, injectors stamp the new epoch and CURRENT flips (R406). -/
def execFabEpochSwitch (s : State) : Host.Outcome State Fault Refusal :=
  .next (epochSwitch s)

/-- Every 64 cycles FAB0 compares old-epoch injections and ejections and sets OLD_DRAINED when equal (R406). -/
def execFabDrainCheck (s : State) : Host.Outcome State Fault Refusal :=
  .next (drainCheck s)

/-- Writing FUM_MR5_EXTEND.GO extends MR5 with the data registers and zeroes them (R203). -/
def execFumMr5Extend (src : MgmtSource) (s : State) : Host.Outcome State Fault Refusal :=
  .next (asOperator s src (mr5Go s))

end Sys2Proof.Machine
end

