-- ==== Sys2Proof/Machine/Parity.lean ====
section
/-! DEFINITION. Parity of holds, operand buffers and accumulators: the single re-read, the failure of the session, and the unit
that it is charged to (R305, R306, R309, R413). -/
namespace Sys2Proof.Machine

/-- A failure charged to a core or engine; the second within 24 hours retires it. `number` is the session's. -/
def parityCharge (s : State) (k cause number : Nat) : State :=
  let recent := s.grd.parity.any (fun e => decide (e.1 = k) && decide (s.now < e.2 + 86400000000000))
  let s1 := grdMod s (fun g => { g with parity := g.parity ++ [(k, s.now)] })
  if recent ∧ uAct s1 k ≠ .retired then gridRetired (retireUnit s1 k cause number 0) k cause else s1

/-- A read of a hold: a re-read that passes costs wall time alone. -/
def holdRead (s : State) (ix c : Nat) (again : Reread) (go : State) : State :=
  match again with
  | .good => go
  | .passed => bump0 go .grdHoldReread
  | .failed =>
    let k := sessGet s ix
    parityCharge (bump (coreFails s ix c 5) .grdHoldParity 0 0 k.pitch.toNat) (uCore c) 0x20 k.number

/-- A matrix command's reads of its operand buffer and accumulator. -/
def mxRead (s : State) (quad : Nat) (again : Reread) (go : State) : State :=
  match again, engineSess s quad with
  | .good, _ => go
  | _, none => go
  | .passed, some _ => bump go .mtxReread quad 0 0
  | .failed, some ix =>
    let k := sessGet s ix
    parityCharge (bump (endSess s ix 6 none 0) .mtxParity quad 0 k.pitch.toNat) (uEngine quad) 0x21 k.number

end Sys2Proof.Machine
end

