-- ==== Sys2Proof/Machine/GridInstr.lean ====
section
/-! DEFINITION. The commands of the grid core instruction set (R310 to R342), one meaning each. -/
namespace Sys2Proof.Machine

/-- NOP does nothing in any slot (R313). -/
def execNop (core : BitVec 6) (s : State) : Host.Outcome State Fault Refusal :=
  .next (slotOp s core (.nop core) (fun s _ _ => s))

/-- SALU ADD writes sa + sb to sd (R322). -/
def execAdd (core : BitVec 6) (sd : BitVec 5) (sa : BitVec 5) (sb : BitVec 5) (s : State) : Host.Outcome State Fault Refusal :=
  .next (sOp s core (.add core sd sa sb) 1 sd (fun c => sReg s c sa + sReg s c sb))

/-- SALU SUB writes sa − sb to sd (R322). -/
def execSub (core : BitVec 6) (sd : BitVec 5) (sa : BitVec 5) (sb : BitVec 5) (s : State) : Host.Outcome State Fault Refusal :=
  .next (sOp s core (.sub core sd sa sb) 1 sd (fun c => sReg s c sa - sReg s c sb))

/-- SALU AND writes the bitwise AND of sa and sb to sd (R322). -/
def execAnd (core : BitVec 6) (sd : BitVec 5) (sa : BitVec 5) (sb : BitVec 5) (s : State) : Host.Outcome State Fault Refusal :=
  .next (sOp s core (.and core sd sa sb) 1 sd (fun c => sReg s c sa &&& sReg s c sb))

/-- SALU OR writes the bitwise OR of sa and sb to sd (R322). -/
def execOr (core : BitVec 6) (sd : BitVec 5) (sa : BitVec 5) (sb : BitVec 5) (s : State) : Host.Outcome State Fault Refusal :=
  .next (sOp s core (.or core sd sa sb) 1 sd (fun c => sReg s c sa ||| sReg s c sb))

/-- SALU XOR writes the bitwise XOR of sa and sb to sd (R322). -/
def execXor (core : BitVec 6) (sd : BitVec 5) (sa : BitVec 5) (sb : BitVec 5) (s : State) : Host.Outcome State Fault Refusal :=
  .next (sOp s core (.xor core sd sa sb) 1 sd (fun c => sReg s c sa ^^^ sReg s c sb))

/-- SALU SHL shifts sa left by sb[5:0] (R322). -/
def execShl (core : BitVec 6) (sd : BitVec 5) (sa : BitVec 5) (sb : BitVec 5) (s : State) : Host.Outcome State Fault Refusal :=
  .next (sOp s core (.shl core sd sa sb) 1 sd (fun c => sReg s c sa <<< shAmount (sReg s c sb)))

/-- SALU SHR shifts sa right logically by sb[5:0] (R322). -/
def execShr (core : BitVec 6) (sd : BitVec 5) (sa : BitVec 5) (sb : BitVec 5) (s : State) : Host.Outcome State Fault Refusal :=
  .next (sOp s core (.shr core sd sa sb) 1 sd (fun c => sReg s c sa >>> shAmount (sReg s c sb)))

/-- SALU SRA shifts sa right arithmetically by sb[5:0] (R322). -/
def execSra (core : BitVec 6) (sd : BitVec 5) (sa : BitVec 5) (sb : BitVec 5) (s : State) : Host.Outcome State Fault Refusal :=
  .next (sOp s core (.sra core sd sa sb) 1 sd (fun c => (sReg s c sa).sshiftRight (shAmount (sReg s c sb))))

/-- SALU MIN writes the signed minimum of sa and sb (R322). -/
def execMin (core : BitVec 6) (sd : BitVec 5) (sa : BitVec 5) (sb : BitVec 5) (s : State) : Host.Outcome State Fault Refusal :=
  .next (sOp s core (.min core sd sa sb) 1 sd (fun c => if (sReg s c sa).toInt < (sReg s c sb).toInt then sReg s c sa else sReg s c sb))

/-- SALU MAX writes the signed maximum of sa and sb (R322). -/
def execMax (core : BitVec 6) (sd : BitVec 5) (sa : BitVec 5) (sb : BitVec 5) (s : State) : Host.Outcome State Fault Refusal :=
  .next (sOp s core (.max core sd sa sb) 1 sd (fun c => if (sReg s c sa).toInt < (sReg s c sb).toInt then sReg s c sb else sReg s c sa))

/-- SALU MINU writes the unsigned minimum of sa and sb (R322). -/
def execMinu (core : BitVec 6) (sd : BitVec 5) (sa : BitVec 5) (sb : BitVec 5) (s : State) : Host.Outcome State Fault Refusal :=
  .next (sOp s core (.minu core sd sa sb) 1 sd (fun c => if (sReg s c sa).toNat < (sReg s c sb).toNat then sReg s c sa else sReg s c sb))

/-- SALU MAXU writes the unsigned maximum of sa and sb (R322). -/
def execMaxu (core : BitVec 6) (sd : BitVec 5) (sa : BitVec 5) (sb : BitVec 5) (s : State) : Host.Outcome State Fault Refusal :=
  .next (sOp s core (.maxu core sd sa sb) 1 sd (fun c => if (sReg s c sa).toNat < (sReg s c sb).toNat then sReg s c sb else sReg s c sa))

/-- SALU CEQ writes 1 if sa equals sb, else 0 (R322). -/
def execCeq (core : BitVec 6) (sd : BitVec 5) (sa : BitVec 5) (sb : BitVec 5) (s : State) : Host.Outcome State Fault Refusal :=
  .next (sOp s core (.ceq core sd sa sb) 1 sd (fun c => boolD (decide (sReg s c sa = sReg s c sb))))

/-- SALU CNE writes 1 if sa differs from sb, else 0 (R322). -/
def execCne (core : BitVec 6) (sd : BitVec 5) (sa : BitVec 5) (sb : BitVec 5) (s : State) : Host.Outcome State Fault Refusal :=
  .next (sOp s core (.cne core sd sa sb) 1 sd (fun c => boolD (decide (sReg s c sa ≠ sReg s c sb))))

/-- SALU CLT writes 1 if sa is signed-less than sb (R322). -/
def execClt (core : BitVec 6) (sd : BitVec 5) (sa : BitVec 5) (sb : BitVec 5) (s : State) : Host.Outcome State Fault Refusal :=
  .next (sOp s core (.clt core sd sa sb) 1 sd (fun c => boolD (decide ((sReg s c sa).toInt < (sReg s c sb).toInt))))

/-- SALU CLTU writes 1 if sa is unsigned-less than sb (R322). -/
def execCltu (core : BitVec 6) (sd : BitVec 5) (sa : BitVec 5) (sb : BitVec 5) (s : State) : Host.Outcome State Fault Refusal :=
  .next (sOp s core (.cltu core sd sa sb) 1 sd (fun c => boolD (decide ((sReg s c sa).toNat < (sReg s c sb).toNat))))

/-- SALU CLE writes 1 if sa is signed-less than or equal to sb (R322). -/
def execCle (core : BitVec 6) (sd : BitVec 5) (sa : BitVec 5) (sb : BitVec 5) (s : State) : Host.Outcome State Fault Refusal :=
  .next (sOp s core (.cle core sd sa sb) 1 sd (fun c => boolD (decide ((sReg s c sa).toInt ≤ (sReg s c sb).toInt))))

/-- SALU CLEU writes 1 if sa is unsigned-less than or equal to sb (R322). -/
def execCleu (core : BitVec 6) (sd : BitVec 5) (sa : BitVec 5) (sb : BitVec 5) (s : State) : Host.Outcome State Fault Refusal :=
  .next (sOp s core (.cleu core sd sa sb) 1 sd (fun c => boolD (decide ((sReg s c sa).toNat ≤ (sReg s c sb).toNat))))

/-- SMUL MUL writes the low 64 bits of sa · sb with latency 3 (R321). -/
def execMul (core : BitVec 6) (sd : BitVec 5) (sa : BitVec 5) (sb : BitVec 5) (s : State) : Host.Outcome State Fault Refusal :=
  .next (sOp s core (.mul core sd sa sb) 3 sd (fun c => sReg s c sa * sReg s c sb))

/-- SMUL MULH writes the signed high 64 bits of sa · sb (R321). -/
def execMulh (core : BitVec 6) (sd : BitVec 5) (sa : BitVec 5) (sb : BitVec 5) (s : State) : Host.Outcome State Fault Refusal :=
  .next (sOp s core (.mulh core sd sa sb) 3 sd (fun c => BitVec.ofInt 64 (((sReg s c sa).toInt * (sReg s c sb).toInt).fdiv (2 ^ 64))))

/-- SMUL MULHU writes the unsigned high 64 bits of sa · sb (R321). -/
def execMulhu (core : BitVec 6) (sd : BitVec 5) (sa : BitVec 5) (sb : BitVec 5) (s : State) : Host.Outcome State Fault Refusal :=
  .next (sOp s core (.mulhu core sd sa sb) 3 sd (fun c => BitVec.ofNat 64 ((sReg s c sa).toNat * (sReg s c sb).toNat / 2 ^ 64)))

/-- SFP FADD adds FP32 values in bits [31:0] and zeroes bits [63:32] (R321). -/
def execFadd (core : BitVec 6) (sd : BitVec 5) (sa : BitVec 5) (sb : BitVec 5) (s : State) : Host.Outcome State Fault Refusal :=
  .next (sOp s core (.fadd core sd sa sb) 4 sd (fun c => fpD (addF fp32 (lo32 (sReg s c sa)) (lo32 (sReg s c sb)))))

/-- SFP FSUB subtracts FP32 values (R321). -/
def execFsub (core : BitVec 6) (sd : BitVec 5) (sa : BitVec 5) (sb : BitVec 5) (s : State) : Host.Outcome State Fault Refusal :=
  .next (sOp s core (.fsub core sd sa sb) 4 sd (fun c => fpD (subF fp32 (lo32 (sReg s c sa)) (lo32 (sReg s c sb)))))

/-- SFP FMUL multiplies FP32 values (R321). -/
def execFmul (core : BitVec 6) (sd : BitVec 5) (sa : BitVec 5) (sb : BitVec 5) (s : State) : Host.Outcome State Fault Refusal :=
  .next (sOp s core (.fmul core sd sa sb) 4 sd (fun c => fpD (mulF fp32 (lo32 (sReg s c sa)) (lo32 (sReg s c sb)))))

/-- SFP FDIV divides FP32 values, correctly rounded, with latency 24 (R322). -/
def execFdiv (core : BitVec 6) (sd : BitVec 5) (sa : BitVec 5) (sb : BitVec 5) (s : State) : Host.Outcome State Fault Refusal :=
  .next (sOp s core (.fdiv core sd sa sb) 24 sd (fun c => fpD (divF fp32 (lo32 (sReg s c sa)) (lo32 (sReg s c sb)))))

/-- SFP FSQRT takes the correctly rounded FP32 square root of sa (R322). -/
def execFsqrt (core : BitVec 6) (sd : BitVec 5) (sa : BitVec 5) (s : State) : Host.Outcome State Fault Refusal :=
  .next (sOp s core (.fsqrt core sd sa) 24 sd (fun c => fpD (sqrtF fp32 (lo32 (sReg s c sa)))))

/-- SFP FMIN writes the FP32 minimum under the rules of R324 (R321). -/
def execFmin (core : BitVec 6) (sd : BitVec 5) (sa : BitVec 5) (sb : BitVec 5) (s : State) : Host.Outcome State Fault Refusal :=
  .next (sOp s core (.fmin core sd sa sb) 4 sd (fun c => fpD (fminF fp32 (lo32 (sReg s c sa)) (lo32 (sReg s c sb)))))

/-- SFP FMAX writes the FP32 maximum under the rules of R324 (R321). -/
def execFmax (core : BitVec 6) (sd : BitVec 5) (sa : BitVec 5) (sb : BitVec 5) (s : State) : Host.Outcome State Fault Refusal :=
  .next (sOp s core (.fmax core sd sa sb) 4 sd (fun c => fpD (fmaxF fp32 (lo32 (sReg s c sa)) (lo32 (sReg s c sb)))))

/-- SFP I2F converts a signed 64-bit integer to FP32 (R321). -/
def execI2f (core : BitVec 6) (sd : BitVec 5) (sa : BitVec 5) (s : State) : Host.Outcome State Fault Refusal :=
  .next (sOp s core (.i2f core sd sa) 4 sd (fun c => fpD (roundT 0 0 false (numOfInt (sReg s c sa).toInt)).1))

/-- SFP F2I converts FP32 to signed 64-bit toward zero, saturating, with NaN to 0 (R321). -/
def execF2i (core : BitVec 6) (sd : BitVec 5) (sa : BitVec 5) (s : State) : Host.Outcome State Fault Refusal :=
  .next (sOp s core (.f2i core sd sa) 4 sd (fun c => BitVec.ofInt 64 (numToInt 64 1 (decodeF fp32 (lo32 (sReg s c sa))))))

/-- ADDI writes sa plus the sign-extended IMM16 to sd (R321). -/
def execAddi (core : BitVec 6) (sd : BitVec 5) (sa : BitVec 5) (imm : BitVec 16) (s : State) : Host.Outcome State Fault Refusal :=
  .next (sOp s core (.addi core sd sa imm) 1 sd (fun c => sReg s c sa + imm.signExtend 64))

/-- ANDI writes sa AND the zero-extended IMM16 (R321). -/
def execAndi (core : BitVec 6) (sd : BitVec 5) (sa : BitVec 5) (imm : BitVec 16) (s : State) : Host.Outcome State Fault Refusal :=
  .next (sOp s core (.andi core sd sa imm) 1 sd (fun c => sReg s c sa &&& imm.zeroExtend 64))

/-- ORI writes sa OR the zero-extended IMM16 (R321). -/
def execOri (core : BitVec 6) (sd : BitVec 5) (sa : BitVec 5) (imm : BitVec 16) (s : State) : Host.Outcome State Fault Refusal :=
  .next (sOp s core (.ori core sd sa imm) 1 sd (fun c => sReg s c sa ||| imm.zeroExtend 64))

/-- XORI writes sa XOR the zero-extended IMM16 (R321). -/
def execXori (core : BitVec 6) (sd : BitVec 5) (sa : BitVec 5) (imm : BitVec 16) (s : State) : Host.Outcome State Fault Refusal :=
  .next (sOp s core (.xori core sd sa imm) 1 sd (fun c => sReg s c sa ^^^ imm.zeroExtend 64))

/-- LUI writes the sign-extended IMM21 times 2^16 to sd (R321). -/
def execLui (core : BitVec 6) (sd : BitVec 5) (imm : BitVec 21) (s : State) : Host.Outcome State Fault Refusal :=
  .next (sOp s core (.lui core sd imm) 1 sd (fun _ => (imm.signExtend 64) <<< 16))

/-- SLD loads 8 bytes of hold at sa plus IMM16 into sd with latency 5 (R321). -/
def execSld (core : BitVec 6) (sd : BitVec 5) (sa : BitVec 5) (imm : BitVec 16) (s : State) : Host.Outcome State Fault Refusal :=
  .next (slotOp s core (.sld core sd sa imm) (fun s ix c =>
    let a := sAddr s c sa imm
    holdOp s ix c a 8 false (fun s => landIn s ix c 5 (.sreg sd.toNat (BitVec.ofNat 64 (leNat (holdBytes s c a 8)))))
      (fun s => landIn s ix c 5 (.sreg sd.toNat 0))))

/-- SST stores sd into 8 bytes of hold at sa plus IMM16 (R321). -/
def execSst (core : BitVec 6) (sd : BitVec 5) (sa : BitVec 5) (imm : BitVec 16) (s : State) : Host.Outcome State Fault Refusal :=
  .next (slotOp s core (.sst core sd sa imm) (fun s ix c =>
    let a := sAddr s c sa imm
    holdOp s ix c a 8 true (fun s => landIn s ix c 1 (.hold a 0xFF (leBytes 8 (sReg s c sd).toNat))) id))

/-- BR branches to PC + OFF16 after two delay bundles (R318). -/
def execBr (core : BitVec 6) (off : BitVec 16) (s : State) : Host.Outcome State Fault Refusal :=
  .next (branchOp s core (.br core off) off (fun _ => true) (fun s _ _ => s))

/-- BZ branches after two delay bundles if sa is zero (R318). -/
def execBz (core : BitVec 6) (sa : BitVec 5) (off : BitVec 16) (s : State) : Host.Outcome State Fault Refusal :=
  .next (branchOp s core (.bz core sa off) off (fun c => decide (sReg s c sa = 0)) (fun s _ _ => s))

/-- BNZ branches after two delay bundles if sa is non-zero (R318). -/
def execBnz (core : BitVec 6) (sa : BitVec 5) (off : BitVec 16) (s : State) : Host.Outcome State Fault Refusal :=
  .next (branchOp s core (.bnz core sa off) off (fun c => decide (sReg s c sa ≠ 0)) (fun s _ _ => s))

/-- BNZD decrements sa and branches if the new value is non-zero (R321). -/
def execBnzd (core : BitVec 6) (sa : BitVec 5) (off : BitVec 16) (s : State) : Host.Outcome State Fault Refusal :=
  .next (branchOp s core (.bnzd core sa off) off (fun c => decide (sReg s c sa - 1 ≠ 0))
    (fun s ix c => landIn s ix c 1 (.sreg sa.toNat (sReg s c sa - 1))))

/-- HALT stops the core issuing bundles; later flits to its receive slots are discarded (R321). -/
def execHalt (core : BitVec 6) (s : State) : Host.Outcome State Fault Refusal :=
  .next (slotOp s core (.halt core) (fun s ix c => corePut s c { coreGet s c with halted := some (sessGet s ix).cycles }))

/-- VFP VADD adds governed elements in the element type with round-to-nearest-even (R324). -/
def execVadd (core : BitVec 6) (vd : BitVec 5) (va : BitVec 5) (vb : BitVec 5) (pg : BitVec 3) (ty : BitVec 3) (s : State) : Host.Outcome State Fault Refusal :=
  .next (vFp2 s core (.vadd core vd va vb pg ty) vd va vb pg ty addF)

/-- VFP VSUB subtracts governed elements (R324). -/
def execVsub (core : BitVec 6) (vd : BitVec 5) (va : BitVec 5) (vb : BitVec 5) (pg : BitVec 3) (ty : BitVec 3) (s : State) : Host.Outcome State Fault Refusal :=
  .next (vFp2 s core (.vsub core vd va vb pg ty) vd va vb pg ty subF)

/-- VFP VMUL multiplies governed elements (R324). -/
def execVmul (core : BitVec 6) (vd : BitVec 5) (va : BitVec 5) (vb : BitVec 5) (pg : BitVec 3) (ty : BitVec 3) (s : State) : Host.Outcome State Fault Refusal :=
  .next (vFp2 s core (.vmul core vd va vb pg ty) vd va vb pg ty mulF)

/-- VFP VMIN writes the minimum, canonical NaN if either operand is NaN (R324). -/
def execVmin (core : BitVec 6) (vd : BitVec 5) (va : BitVec 5) (vb : BitVec 5) (pg : BitVec 3) (ty : BitVec 3) (s : State) : Host.Outcome State Fault Refusal :=
  .next (vFp2 s core (.vmin core vd va vb pg ty) vd va vb pg ty fminF)

/-- VFP VMAX writes the maximum, canonical NaN if either operand is NaN (R324). -/
def execVmax (core : BitVec 6) (vd : BitVec 5) (va : BitVec 5) (vb : BitVec 5) (pg : BitVec 3) (ty : BitVec 3) (s : State) : Host.Outcome State Fault Refusal :=
  .next (vFp2 s core (.vmax core vd va vb pg ty) vd va vb pg ty fmaxF)

/-- VFP VFMA computes va · vb + vd with one rounding (R324). -/
def execVfma (core : BitVec 6) (vd : BitVec 5) (va : BitVec 5) (vb : BitVec 5) (pg : BitVec 3) (ty : BitVec 3) (s : State) : Host.Outcome State Fault Refusal :=
  .next (vOp s core (.vfma core vd va vb pg ty) 4 vd pg (tyBytes ty.toNat) (fun s c e =>
    let f := tyFmt ty.toNat
    let el (v : BitVec 5) : Num := decodeF f (elAt (vReg s c v) (8 * tyBytes ty.toNat) e)
    encodeF f (numAdd ((numMul (el va) (el vb))) (el vd))))

/-- VFP VFMS computes vd − va · vb with one rounding (R324). -/
def execVfms (core : BitVec 6) (vd : BitVec 5) (va : BitVec 5) (vb : BitVec 5) (pg : BitVec 3) (ty : BitVec 3) (s : State) : Host.Outcome State Fault Refusal :=
  .next (vOp s core (.vfms core vd va vb pg ty) 4 vd pg (tyBytes ty.toNat) (fun s c e =>
    let f := tyFmt ty.toNat
    let el (v : BitVec 5) : Num := decodeF f (elAt (vReg s c v) (8 * tyBytes ty.toNat) e)
    encodeF f (numAdd (numNeg (numMul (el va) (el vb))) (el vd))))

/-- VFP VABS writes the absolute value of va (R323). -/
def execVabs (core : BitVec 6) (vd : BitVec 5) (va : BitVec 5) (pg : BitVec 3) (ty : BitVec 3) (s : State) : Host.Outcome State Fault Refusal :=
  .next (vOp s core (.vabs core vd va pg ty) 4 vd pg (tyBytes ty.toNat) (fun s c e =>
    encodeF (tyFmt ty.toNat) (match decodeF (tyFmt ty.toNat) (elAt (vReg s c va) (8 * tyBytes ty.toNat) e) with
      | .nan => .nan
      | .inf _ => .inf false
      | .fin _ m x => .fin false m x)))

/-- VFP VNEG writes the negation of va (R323). -/
def execVneg (core : BitVec 6) (vd : BitVec 5) (va : BitVec 5) (pg : BitVec 3) (ty : BitVec 3) (s : State) : Host.Outcome State Fault Refusal :=
  .next (vOp s core (.vneg core vd va pg ty) 4 vd pg (tyBytes ty.toNat) (fun s c e =>
    encodeF (tyFmt ty.toNat) (numNeg (decodeF (tyFmt ty.toNat) (elAt (vReg s c va) (8 * tyBytes ty.toNat) e)))))

/-- VFP VDIV divides FP32 elements with latency 24 (R323). -/
def execVdiv (core : BitVec 6) (vd : BitVec 5) (va : BitVec 5) (vb : BitVec 5) (pg : BitVec 3) (s : State) : Host.Outcome State Fault Refusal :=
  .next (vOp s core (.vdiv core vd va vb pg) 24 vd pg 4 (fun s c e => divF fp32 (elAt (vReg s c va) 32 e) (elAt (vReg s c vb) 32 e)))

/-- VFP VSQRT takes FP32 element square roots with latency 24 (R323). -/
def execVsqrt (core : BitVec 6) (vd : BitVec 5) (va : BitVec 5) (pg : BitVec 3) (s : State) : Host.Outcome State Fault Refusal :=
  .next (vFp1 s core (.vsqrt core vd va pg) 24 vd va pg (sqrtF fp32))

/-- VRSUM sums governed elements in the fixed pairwise order into element 0 and zeroes the rest (R325). -/
def execVrsum (core : BitVec 6) (vd : BitVec 5) (va : BitVec 5) (pg : BitVec 3) (ty : BitVec 3) (s : State) : Host.Outcome State Fault Refusal :=
  .next (vrsumOp s core (.vrsum core vd va pg ty) vd va pg ty)

/-- VINT VIADD adds integer elements modulo 2^(8w) (R323). -/
def execViadd (core : BitVec 6) (vd : BitVec 5) (va : BitVec 5) (vb : BitVec 5) (pg : BitVec 3) (ty : BitVec 3) (s : State) : Host.Outcome State Fault Refusal :=
  .next (vInt2 s core (.viadd core vd va vb pg ty) vd va vb pg ty (fun w a b => (a + b) % 2 ^ w))

/-- VINT VISUB subtracts integer elements modulo 2^(8w) (R323). -/
def execVisub (core : BitVec 6) (vd : BitVec 5) (va : BitVec 5) (vb : BitVec 5) (pg : BitVec 3) (ty : BitVec 3) (s : State) : Host.Outcome State Fault Refusal :=
  .next (vInt2 s core (.visub core vd va vb pg ty) vd va vb pg ty (fun w a b => (a + 2 ^ w - b) % 2 ^ w))

/-- VINT VAND writes the element-wise AND (R323). -/
def execVand (core : BitVec 6) (vd : BitVec 5) (va : BitVec 5) (vb : BitVec 5) (pg : BitVec 3) (ty : BitVec 3) (s : State) : Host.Outcome State Fault Refusal :=
  .next (vInt2 s core (.vand core vd va vb pg ty) vd va vb pg ty (fun _ a b => a &&& b))

/-- VINT VOR writes the element-wise OR (R323). -/
def execVor (core : BitVec 6) (vd : BitVec 5) (va : BitVec 5) (vb : BitVec 5) (pg : BitVec 3) (ty : BitVec 3) (s : State) : Host.Outcome State Fault Refusal :=
  .next (vInt2 s core (.vor core vd va vb pg ty) vd va vb pg ty (fun _ a b => a ||| b))

/-- VINT VXOR writes the element-wise XOR (R323). -/
def execVxor (core : BitVec 6) (vd : BitVec 5) (va : BitVec 5) (vb : BitVec 5) (pg : BitVec 3) (ty : BitVec 3) (s : State) : Host.Outcome State Fault Refusal :=
  .next (vInt2 s core (.vxor core vd va vb pg ty) vd va vb pg ty (fun _ a b => a ^^^ b))

/-- VINT VSHL shifts elements left by the low bits of vb (R323). -/
def execVshl (core : BitVec 6) (vd : BitVec 5) (va : BitVec 5) (vb : BitVec 5) (pg : BitVec 3) (ty : BitVec 3) (s : State) : Host.Outcome State Fault Refusal :=
  .next (vInt2 s core (.vshl core vd va vb pg ty) vd va vb pg ty (fun w a b => (a <<< (b % w)) % 2 ^ w))

/-- VINT VSHR shifts elements right logically (R323). -/
def execVshr (core : BitVec 6) (vd : BitVec 5) (va : BitVec 5) (vb : BitVec 5) (pg : BitVec 3) (ty : BitVec 3) (s : State) : Host.Outcome State Fault Refusal :=
  .next (vInt2 s core (.vshr core vd va vb pg ty) vd va vb pg ty (fun w a b => a >>> (b % w)))

/-- VINT VSRA shifts elements right arithmetically (R323). -/
def execVsra (core : BitVec 6) (vd : BitVec 5) (va : BitVec 5) (vb : BitVec 5) (pg : BitVec 3) (ty : BitVec 3) (s : State) : Host.Outcome State Fault Refusal :=
  .next (vInt2 s core (.vsra core vd va vb pg ty) vd va vb pg ty (fun w a b => ((BitVec.ofNat w a).sshiftRight (b % w)).toNat))

/-- VINT VIMIN writes the signed element minimum (R323). -/
def execVimin (core : BitVec 6) (vd : BitVec 5) (va : BitVec 5) (vb : BitVec 5) (pg : BitVec 3) (ty : BitVec 3) (s : State) : Host.Outcome State Fault Refusal :=
  .next (vInt2 s core (.vimin core vd va vb pg ty) vd va vb pg ty (fun w a b => if signedOf w a < signedOf w b then a else b))

/-- VINT VIMAX writes the signed element maximum (R323). -/
def execVimax (core : BitVec 6) (vd : BitVec 5) (va : BitVec 5) (vb : BitVec 5) (pg : BitVec 3) (ty : BitVec 3) (s : State) : Host.Outcome State Fault Refusal :=
  .next (vInt2 s core (.vimax core vd va vb pg ty) vd va vb pg ty (fun w a b => if signedOf w a < signedOf w b then b else a))

/-- VCMP EQ writes predicate bits for elements where va equals vb (R323). -/
def execVcmpEq (core : BitVec 6) (pd : BitVec 3) (va : BitVec 5) (vb : BitVec 5) (pg : BitVec 3) (ty : BitVec 3) (s : State) : Host.Outcome State Fault Refusal :=
  .next (vCmp s core (.vcmpEq core pd va vb pg ty) pd va vb pg ty (fun x => decide (x = some 0)))

/-- VCMP NE writes predicate bits for elements where va differs from vb (R323). -/
def execVcmpNe (core : BitVec 6) (pd : BitVec 3) (va : BitVec 5) (vb : BitVec 5) (pg : BitVec 3) (ty : BitVec 3) (s : State) : Host.Outcome State Fault Refusal :=
  .next (vCmp s core (.vcmpNe core pd va vb pg ty) pd va vb pg ty (fun x => decide (x ≠ some 0)))

/-- VCMP LT writes predicate bits for elements where va is less than vb (R323). -/
def execVcmpLt (core : BitVec 6) (pd : BitVec 3) (va : BitVec 5) (vb : BitVec 5) (pg : BitVec 3) (ty : BitVec 3) (s : State) : Host.Outcome State Fault Refusal :=
  .next (vCmp s core (.vcmpLt core pd va vb pg ty) pd va vb pg ty (fun x => x.any (fun d => decide (d < 0))))

/-- VCMP LE writes predicate bits for elements where va is at most vb (R323). -/
def execVcmpLe (core : BitVec 6) (pd : BitVec 3) (va : BitVec 5) (vb : BitVec 5) (pg : BitVec 3) (ty : BitVec 3) (s : State) : Host.Outcome State Fault Refusal :=
  .next (vCmp s core (.vcmpLe core pd va vb pg ty) pd va vb pg ty (fun x => x.any (fun d => decide (d ≤ 0))))

/-- VSEL selects va or vb per element by pg (R323). -/
def execVsel (core : BitVec 6) (vd : BitVec 5) (va : BitVec 5) (vb : BitVec 5) (pg : BitVec 3) (ty : BitVec 3) (s : State) : Host.Outcome State Fault Refusal :=
  .next (slotOp s core (.vsel core vd va vb pg ty) (fun s ix c =>
    let m := govMask (pReg s c pg) (tyBytes ty.toNat)
    landIn s ix c 1 (.vreg vd.toNat (BitVec.allOnes 1024) ((vReg s c va &&& m) ||| (vReg s c vb &&& ~~~m)))))

/-- VPRED PAND writes the AND of two predicates (R323). -/
def execPand (core : BitVec 6) (pd : BitVec 3) (pa : BitVec 3) (pb : BitVec 3) (s : State) : Host.Outcome State Fault Refusal :=
  .next (pOp s core (.pand core pd pa pb) pd (fun s c => pReg s c pa &&& pReg s c pb))

/-- VPRED POR writes the OR of two predicates (R323). -/
def execPor (core : BitVec 6) (pd : BitVec 3) (pa : BitVec 3) (pb : BitVec 3) (s : State) : Host.Outcome State Fault Refusal :=
  .next (pOp s core (.por core pd pa pb) pd (fun s c => pReg s c pa ||| pReg s c pb))

/-- VPRED PXOR writes the XOR of two predicates (R323). -/
def execPxor (core : BitVec 6) (pd : BitVec 3) (pa : BitVec 3) (pb : BitVec 3) (s : State) : Host.Outcome State Fault Refusal :=
  .next (pOp s core (.pxor core pd pa pb) pd (fun s c => pReg s c pa ^^^ pReg s c pb))

/-- VPRED PNOT writes the complement of a predicate (R323). -/
def execPnot (core : BitVec 6) (pd : BitVec 3) (pa : BitVec 3) (s : State) : Host.Outcome State Fault Refusal :=
  .next (pOp s core (.pnot core pd pa) pd (fun s c => ~~~(pReg s c pa)))

/-- VBCAST writes the low bits of a scalar into every governed element (R323). -/
def execVbcast (core : BitVec 6) (vd : BitVec 5) (sa : BitVec 5) (pg : BitVec 3) (ty : BitVec 3) (s : State) : Host.Outcome State Fault Refusal :=
  .next (vOp s core (.vbcast core vd sa pg ty) 1 vd pg (tyBytes ty.toNat) (fun s c _ => (sReg s c sa).toNat % 2 ^ (8 * tyBytes ty.toNat)))

/-- VEXT writes one element of va, zero-extended, to a scalar register (R323). -/
def execVext (core : BitVec 6) (sd : BitVec 5) (va : BitVec 5) (sb : BitVec 5) (ty : BitVec 3) (s : State) : Host.Outcome State Fault Refusal :=
  .next (sOp s core (.vext core sd va sb ty) 2 sd (fun c =>
    let b := 8 * tyBytes ty.toNat
    BitVec.ofNat 64 (elAt (vReg s c va) b ((sReg s c sb).toNat % elCount b))))

/-- VTR RCP computes reciprocals bit-exactly from the image tables (R330). -/
def execVtrRcp (core : BitVec 6) (vd : BitVec 5) (va : BitVec 5) (pg : BitVec 3) (s : State) : Host.Outcome State Fault Refusal :=
  .next (vFp1 s core (.vtrRcp core vd va pg) 8 vd va pg (vtr s.img.tables 0))

/-- VTR RSQ computes reciprocal square roots from the image tables (R330). -/
def execVtrRsq (core : BitVec 6) (vd : BitVec 5) (va : BitVec 5) (pg : BitVec 3) (s : State) : Host.Outcome State Fault Refusal :=
  .next (vFp1 s core (.vtrRsq core vd va pg) 8 vd va pg (vtr s.img.tables 1))

/-- VTR EXP2 computes base-2 exponentials from the image tables (R330). -/
def execVtrExp2 (core : BitVec 6) (vd : BitVec 5) (va : BitVec 5) (pg : BitVec 3) (s : State) : Host.Outcome State Fault Refusal :=
  .next (vFp1 s core (.vtrExp2 core vd va pg) 8 vd va pg (vtr s.img.tables 2))

/-- VTR LOG2 computes base-2 logarithms from the image tables (R330). -/
def execVtrLog2 (core : BitVec 6) (vd : BitVec 5) (va : BitVec 5) (pg : BitVec 3) (s : State) : Host.Outcome State Fault Refusal :=
  .next (vFp1 s core (.vtrLog2 core vd va pg) 8 vd va pg (vtr s.img.tables 3))

/-- VCVT converts va from SRC to DST with a deterministic rounding mode, writing the part PART selects (R326). -/
def execVcvt (core : BitVec 6) (vd : BitVec 5) (va : BitVec 5) (srcT : BitVec 4) (dstT : BitVec 4) (rm : BitVec 3) (sat : Bool) (part : BitVec 2) (s : State) : Host.Outcome State Fault Refusal :=
  .next (cvtOp s core (.vcvt core vd va srcT dstT rm sat part) vd va srcT.toNat dstT.toNat rm.toNat sat part.toNat)

/-- VCVT with RM stochastic rounds FP32 elements using four Philox blocks and advances SRCTR by 4 (R327). -/
def execVcvtSr (core : BitVec 6) (vd : BitVec 5) (va : BitVec 5) (dstT : BitVec 4) (sat : Bool) (part : BitVec 2) (s : State) : Host.Outcome State Fault Refusal :=
  .next (cvtSrOp s core (.vcvtSr core vd va dstT sat part) vd va dstT.toNat sat part.toNat)

/-- VMX encodes 32 FP32 elements as an MX block, writing the scale to a scalar and the packed elements into vd
(R329). -/
def execVmx (core : BitVec 6) (vd : BitVec 5) (va : BitVec 5) (elt : BitVec 4) (part : BitVec 3) (sd : BitVec 5) (s : State) : Host.Outcome State Fault Refusal :=
  .next (vmxOp s core (.vmx core vd va elt part sd) vd va elt.toNat part.toNat sd)

/-- VLD loads one 128-byte hold row into a vector register with latency 5 (R332). -/
def execVld (core : BitVec 6) (v : BitVec 5) (sa : BitVec 5) (off : BitVec 13) (again : Reread) (s : State) : Host.Outcome State Fault Refusal :=
  .next (slotOp s core (.vld core v sa off again) (fun s ix c =>
    let a := vAddr s c sa off
    let all := BitVec.allOnes 1024
    holdOp s ix c a 128 false (fun s => holdRead s ix c again (landIn s ix c 5 (.vreg v.toNat all (BitVec.ofNat 1024 (leNat (holdBytes s c a 128))))))
      (fun s => landIn s ix c 5 (.vreg v.toNat all 0))))

/-- VST stores a vector register to a hold row under the byte predicate (R332). -/
def execVst (core : BitVec 6) (v : BitVec 5) (sa : BitVec 5) (pg : BitVec 3) (off : BitVec 13) (s : State) : Host.Outcome State Fault Refusal :=
  .next (slotOp s core (.vst core v sa pg off) (fun s ix c =>
    let a := vAddr s c sa off
    holdOp s ix c a 128 true (fun s => landIn s ix c 1 (.hold a (pReg s c pg) (leBytes 128 (vReg s c v).toNat))) id))

/-- SEND puts 256 bits of a vector on a fixed route, occupying each hop's link in its fixed cycle (R335). -/
def execSend (core : BitVec 6) (vs : BitVec 5) (q : BitVec 2) (route : BitVec 12) (s : State) : Host.Outcome State Fault Refusal :=
  .next (sendOp s core (.send core vs q route) vs q route)

/-- RECV takes the flit from the receive slot of its direction into 256 bits of a vector, failing on underrun
(R335). -/
def execRecv (core : BitVec 6) (vd : BitVec 5) (q : BitVec 2) (dir : BitVec 2) (s : State) : Host.Outcome State Fault Refusal :=
  .next (recvOp s core (.recv core vd q dir) vd q dir)

/-- MX.MUL issues a matrix command that multiplies A by B from the operand buffer into an accumulator (R337). -/
def execMxMul (core : BitVec 6) (ad : BitVec 3) (ty : BitVec 3) (z : Bool) (sa : BitVec 5) (sb : BitVec 5) (sk : BitVec 5) (s : State) : Host.Outcome State Fault Refusal :=
  .next (mxMulOp s core (.mxMul core ad ty z sa sb sk) ad.toNat ty.toNat z sa sb sk)

/-- A matrix command starts at t + 1 or in the cycle after the engine's previous command ends, and reads its
accumulator (R338). -/
def execMxMulStart (quad : BitVec 4) (again : Reread) (s : State) : Host.Outcome State Fault Refusal :=
  .next (mxRead s quad.toNat again (mxStart s quad.toNat))

/-- A matrix command writes the whole accumulator at the end of cycle t0 + D + 39 (R338). -/
def execMxMulDone (quad : BitVec 4) (s : State) : Host.Outcome State Fault Refusal :=
  .next (mxDone s quad.toNat)

/-- ACC.RD reads 32 FP32 elements of an accumulator row into a vector with latency 6 (R337). -/
def execAccRd (core : BitVec 6) (v : BitVec 5) (an : BitVec 3) (sr : BitVec 5) (h : Bool) (s : State) : Host.Outcome State Fault Refusal :=
  .next (mxOp s core (.accRd core v an sr h) (fun s ix c =>
    let a := accFirst an (sReg s c sr) h
    let w := (upto 32).map (fun i => (tget 0 (quadGet s (quadOf c)).acc (a + i)).toNat)
    landIn s ix c 6 (.vreg v.toNat (BitVec.allOnes 1024) (BitVec.ofNat 1024 (vecOf 32 w)))))

/-- ACC.WR writes 32 elements of an accumulator row from a vector (R337). -/
def execAccWr (core : BitVec 6) (v : BitVec 5) (an : BitVec 3) (sr : BitVec 5) (h : Bool) (s : State) : Host.Outcome State Fault Refusal :=
  .next (mxOp s core (.accWr core v an sr h) (fun s ix c =>
    landIn s ix c 1 (.acc (accFirst an (sReg s c sr) h) ((elList (vReg s c v) 32).map (BitVec.ofNat 32)))))

/-- ACC.ZERO sets every element of an accumulator to +0 (R337). -/
def execAccZero (core : BitVec 6) (an : BitVec 3) (s : State) : Host.Outcome State Fault Refusal :=
  .next (mxOp s core (.accZero core an) (fun s ix c => landIn s ix c 1 (.acc (4096 * an.toNat) (List.replicate 4096 0))))

/-- STG.IN issues a stage-in command from a four-register descriptor, checking local fields and windows (R339). -/
def execStgIn (core : BitVec 6) (sn : BitVec 5) (s : State) : Host.Outcome State Fault Refusal :=
  .next (stageOp s core (.stgIn core sn) sn false)

/-- STG.OUT issues a stage-out command from a four-register descriptor (R339). -/
def execStgOut (core : BitVec 6) (sn : BitVec 5) (s : State) : Host.Outcome State Fault Refusal :=
  .next (stageOp s core (.stgOut core sn) sn true)

/-- GATE.T pauses the session until every earlier command of the masked tags has completed (R296). -/
def execGateT (core : BitVec 6) (mask : BitVec 16) (s : State) : Host.Outcome State Fault Refusal :=
  .next (slotOp s core (.gateT core mask) (fun s ix c =>
    let k := sessGet s ix
    gateOp s ix c (.tags (((upto 16).filter (fun t => mask.getLsbD t)).map (fun t => (t, tget 0 k.issued t))))))

/-- GATE.C pauses the session until the linked collective record has posted at least the given number of chunks
(R296). -/
def execGateC (core : BitVec 6) (sa : BitVec 5) (sb : BitVec 5) (s : State) : Host.Outcome State Fault Refusal :=
  .next (slotOp s core (.gateC core sa sb) (fun s ix c =>
    let a := sReg s c sa
    if bitsOf a 24 40 ≠ 0 then coreFails s ix c 8 else gateOp s ix c (.coll (bitsOf a 0 24) (sReg s c sb).toNat)))

end Sys2Proof.Machine
end

