-- ==== Sys2Proof/Machine/LifeCmds.lean ====
section
/-! DEFINITION. Pitch lifecycle and management session commands, one meaning each. -/
namespace Sys2Proof.Machine

/-- An authenticated PITCH_CREATE is checked and, if accepted, reserves granules, contexts, key slot and quads and
moves the pitch from EMPTY to PITCHING (R22). -/
def execPitchCreate (f : RxFrame) (s : State) : Host.Outcome State Fault Refusal :=
  .next (lifecycle s 0x70 f pitchCreate)

/-- Installation of a PITCHING pitch's resources completes and, with its mirror role fixed where required, the
pitch becomes UP and the create is answered OK (R22). -/
def execPitchInstallDone (pitch : BitVec 8) (s : State) : Host.Outcome State Fault Refusal :=
  .next (unlessRestart s (createDone s pitch.toNat))

/-- No mirror role is fixed within 50 ms of acceptance, so every resource is released, the pitch returns to EMPTY
and the create is answered DENIED FLY_REFUSED (R22). -/
def execPitchCreateTimeout (pitch : BitVec 8) (s : State) : Host.Outcome State Fault Refusal :=
  .next (unlessRestart s (createTimeout s pitch.toNat))

/-- Installation of a PITCHING pitch fails, every resource is released and the create is answered DENIED
APPLY_FAILED (R22). -/
def execPitchInstallFail (pitch : BitVec 8) (s : State) : Host.Outcome State Fault Refusal :=
  .next (unlessRestart s (createFails s pitch.toNat rsApplyFailed))

/-- An accepted PITCH_STRIKE closes admission, sets the pitch STRUCK with DRAINING, ends its kernel and collective
sessions and starts the drain (R27). -/
def execPitchStrike (f : RxFrame) (s : State) : Host.Outcome State Fault Refusal :=
  .next (settle (lifecycle s 0x71 f (fun s r n => startStrike s r n 0x71 false)))

/-- Every admitted operation and recall of a strike completes, DRAINING clears and the strike response carries OK
with the completed and failed counts (R27). -/
def execStrikeDrainEnd (pitch : BitVec 8) (s : State) : Host.Outcome State Fault Refusal :=
  .next (drainEnd s pitch.toNat)

/-- The drain deadline t0 + D passes, operations still holding trackers fail with PITCH_DOWN and the strike
response follows (R27). -/
def execStrikeDrainDeadline (pitch : BitVec 8) (s : State) : Host.Outcome State Fault Refusal :=
  .next (settle (drainDeadline s pitch.toNat))

/-- An accepted PITCH_REPITCH checks its complete settings record against the template and free resources, refuses
on the first failure, or starts applying the settings with admission closed (R31). -/
def execPitchRepitch (f : RxFrame) (s : State) : Host.Outcome State Fault Refusal :=
  .next (lifecycle s 0x72 f pitchRepitch)

/-- Every target confirms the new settings, admission reopens on all ports in one TMG cycle, the pitch becomes UP
and GENERATION increments (R32). -/
def execRepitchApplied (pitch : BitVec 8) (s : State) : Host.Outcome State Fault Refusal :=
  .next (unlessRestart s (repitchApplied s pitch.toNat))

/-- A target fails to confirm within 2 ms, the previous settings are restored at every target and the repitch is
refused APPLY_FAILED (R32). -/
def execRepitchApplyTimeout (pitch : BitVec 8) (s : State) : Host.Outcome State Fault Refusal :=
  .next (unlessRestart s (repitchTimeout s pitch.toNat))

/-- An accepted PITCH_FOLD runs the strike sequence if UP, then destroys the key slot, detaches endpoints and
starts the sweep of every granule (R36). -/
def execPitchFold (f : RxFrame) (s : State) : Host.Outcome State Fault Refusal :=
  .next (settle (lifecycle s 0x73 f pitchFold))

/-- New keys are generated and loaded into every MCE for a destroyed slot, which becomes FREE within 100 µs
(R197). -/
def execKeySlotRefresh (slot : BitVec 8) (s : State) : Host.Outcome State Fault Refusal :=
  .next (slotRefresh s slot.toNat)

/-- The last line of a swept granule is written and the granule returns to the free list; when every granule has
returned the pitch becomes EMPTY (R36). -/
def execSweepGranuleDone (granule : BitVec 14) (s : State) : Host.Outcome State Fault Refusal :=
  .next (sweepDone s granule.toNat)

/-- PITCH_ADJUST changes one live setting of an UP pitch, a class rate or the drain deadline, at all four ports in
the same TMG cycle (R26). -/
def execPitchAdjust (f : RxFrame) (s : State) : Host.Outcome State Fault Refusal :=
  .next (lifecycle s 0x74 f pitchAdjust)

/-- ATTACH is checked in the order of R41 and, if accepted, writes the master-table entries, TPT's copy and the
source-table entry for one endpoint (R40). -/
def execAttach (f : RxFrame) (s : State) : Host.Outcome State Fault Refusal :=
  .next (lifecycle s 0x75 f attach)

/-- DETACH invalidates an endpoint's source entry or removes the named pitch's context words, and frees its
handles at once (R42). -/
def execDetach (f : RxFrame) (s : State) : Host.Outcome State Fault Refusal :=
  .next (settle (lifecycle s 0x76 f detach))

/-- PITCH_QUERY returns the pitch's SVC_PITCH_STATE value and the number of granules it holds, in any state (R50).
-/
def execPitchQuery (f : RxFrame) (s : State) : Host.Outcome State Fault Refusal :=
  .next (lifecycle s 0x77 f pitchQuery)

/-- A session OPEN request is answered with a nonce, a session number and a session key wrapped to the operator
key, or DENIED beyond 4 sessions (R43). -/
def execMgmtSessionOpen (f : RxFrame) (s : State) : Host.Outcome State Fault Refusal :=
  .next (mgmtSession s f)

/-- A PROOF carrying an RSA-PSS signature over the nonce and session number is verified against the operator key
and opens the session (R43). -/
def execMgmtSessionProof (f : RxFrame) (s : State) : Host.Outcome State Fault Refusal :=
  .next (mgmtSession s f)

/-- An authenticated CLOSE closes the management session and destroys its flows (R44). -/
def execMgmtSessionClose (f : RxFrame) (s : State) : Host.Outcome State Fault Refusal :=
  .next (mgmtSession s f)

/-- A session closes after 600 s without a valid message, and its flows are destroyed (R44). -/
def execMgmtSessionExpire (number : BitVec 32) (s : State) : Host.Outcome State Fault Refusal :=
  .next (mgmtExpire s number)

end Sys2Proof.Machine
end

