-- ==== Sys2Proof/Machine/MemCmds.lean ====
section
/-! DEFINITION. Memory, sync-window, transport and translation commands, one meaning each. -/
namespace Sys2Proof.Machine

/-- READ translates and checks its range and returns the data as response segments of MAX_SEG bytes, sealed when X
is set (R81). -/
def execRead (f : RxFrame) (s : State) : Host.Outcome State Fault Refusal :=
  .next (settle (memRequest s 0x01 f))

/-- WRITE checks every owner tag of its lines before writing any byte, then writes the data and answers once the
lines enter the write buffer (R131). -/
def execWrite (f : RxFrame) (s : State) : Host.Outcome State Fault Refusal :=
  .next (kppWrite s 0x02 f)

/-- WRITE_NOTIFY writes its data and then adds 1 to the 64-bit notify word, returning the new notify value (R68).
-/
def execWriteNotify (f : RxFrame) (s : State) : Host.Outcome State Fault Refusal :=
  .next (settle (memRequest s 0x03 f))

/-- A_ADD indivisibly adds v to the target modulo 2^32 or 2^64 and returns the old value (R69). -/
def execAAdd (f : RxFrame) (s : State) : Host.Outcome State Fault Refusal :=
  .next (settle (memRequest s 0x10 f))

/-- A_SWAP indivisibly replaces the target with v and returns the old value (R69). -/
def execASwap (f : RxFrame) (s : State) : Host.Outcome State Fault Refusal :=
  .next (settle (memRequest s 0x11 f))

/-- A_CAS indivisibly writes v if the old value equals c and always answers OK with the old value (R69). -/
def execACas (f : RxFrame) (s : State) : Host.Outcome State Fault Refusal :=
  .next (settle (memRequest s 0x12 f))

/-- A_AND indivisibly writes the AND of the old value and v and returns the old value (R69). -/
def execAAnd (f : RxFrame) (s : State) : Host.Outcome State Fault Refusal :=
  .next (settle (memRequest s 0x13 f))

/-- A_OR indivisibly writes the OR of the old value and v and returns the old value (R69). -/
def execAOr (f : RxFrame) (s : State) : Host.Outcome State Fault Refusal :=
  .next (settle (memRequest s 0x14 f))

/-- A_XOR indivisibly writes the XOR of the old value and v and returns the old value (R69). -/
def execAXor (f : RxFrame) (s : State) : Host.Outcome State Fault Refusal :=
  .next (settle (memRequest s 0x15 f))

/-- A_SMIN indivisibly writes the signed minimum of the old value and v and returns the old value (R69). -/
def execASmin (f : RxFrame) (s : State) : Host.Outcome State Fault Refusal :=
  .next (settle (memRequest s 0x16 f))

/-- A_SMAX indivisibly writes the signed maximum of the old value and v and returns the old value (R69). -/
def execASmax (f : RxFrame) (s : State) : Host.Outcome State Fault Refusal :=
  .next (settle (memRequest s 0x17 f))

/-- A_UMIN indivisibly writes the unsigned minimum of the old value and v and returns the old value (R69). -/
def execAUmin (f : RxFrame) (s : State) : Host.Outcome State Fault Refusal :=
  .next (settle (memRequest s 0x18 f))

/-- A_UMAX indivisibly writes the unsigned maximum of the old value and v and returns the old value (R69). -/
def execAUmax (f : RxFrame) (s : State) : Host.Outcome State Fault Refusal :=
  .next (settle (memRequest s 0x19 f))

/-- A_FADD32 indivisibly adds FP32 elements with round-to-nearest-even and returns the old values (R69). -/
def execAFadd32 (f : RxFrame) (s : State) : Host.Outcome State Fault Refusal :=
  .next (settle (memRequest s 0x1A f))

/-- A_FADDBF16 indivisibly adds BF16 elements, rounded once to BF16, and returns the old values (R69). -/
def execAFaddbf16 (f : RxFrame) (s : State) : Host.Outcome State Fault Refusal :=
  .next (settle (memRequest s 0x1B f))

/-- BULK_GET translates its whole descriptor range when queued and streams the data as response segments by
transfer offset (R71). -/
def execBulkGet (f : RxFrame) (s : State) : Host.Outcome State Fault Refusal :=
  .next (settle (memRequest s 0x20 f))

/-- BULK_PUT opens a transfer, translates its descriptor, and waits for BULK_DATA frames until their received
count equals LENGTH (R72). -/
def execBulkPut (f : RxFrame) (s : State) : Host.Outcome State Fault Refusal :=
  .next (kppWrite s 0x21 f)

/-- BULK_COPY translates both non-overlapping descriptors and copies LENGTH bytes from source to destination,
answering with A2h (R71). -/
def execBulkCopy (f : RxFrame) (s : State) : Host.Outcome State Fault Refusal :=
  .next (settle (memRequest s 0x22 f))

/-- BULK_DATA is written into its open BULK_PUT and counted, waits for it, or is answered RETRY or LENGTH when no
BULK_PUT is open (R72). -/
def execBulkData (f : RxFrame) (s : State) : Host.Outcome State Fault Refusal :=
  .next (kppWrite s 0x23 f)

/-- XLATE on a HELD pitch translates ADDRESS and issues a handle with COVER and PAGE, evicting the endpoint's
oldest handle beyond its quota (R140). -/
def execXlate (f : RxFrame) (s : State) : Host.Outcome State Fault Refusal :=
  .next (settle (memRequest s 0x30 f))

/-- XLATE_RELEASE frees the handle entries it names, ignoring invalid handles, and answers OK (R141). -/
def execXlateRelease (f : RxFrame) (s : State) : Host.Outcome State Fault Refusal :=
  .next (settle (memRequest s 0x32 f))

/-- BULK_IDLE passes with no accepted BULK_DATA, so the BULK_PUT is answered TIMEOUT and its range is undefined
(R72). -/
def execBulkIdleTimeout (flow : FlowId) (tag : BitVec 32) (s : State) : Host.Outcome State Fault Refusal :=
  .next (settle (bulkIdle s flow tag))

/-- A holder's B1h frees its recalled entries on OK, causes a resend on RETRY, or revokes the holder on any other
status (R142). -/
def execXlateInvalResponse (f : RxFrame) (s : State) : Host.Outcome State Fault Refusal :=
  .next (ctlAnswer s 0xB1 f)

/-- A request carrying a reserved opcode or one defined only towards an endpoint is answered UNSUPPORTED at check
9 (R67). -/
def execReservedOpcodeRequest (op : BitVec 8) (f : RxFrame) (s : State) : Host.Outcome State Fault Refusal :=
  .next (if opKnown op then s else withRequest s op f (fun s r => answer s r stUnsupported []))

/-- SW_READ_SHARED is ordered at SWN and served by data from home or a forward to the owner according to the home
state (R230). -/
def execSwReadShared (f : RxFrame) (s : State) : Host.Outcome State Fault Refusal :=
  .next (syncRequest s 0x40 f)

/-- SW_READ_OWN is ordered at SWN and grants M after invalidating sharers or forwarding to the owner (R230). -/
def execSwReadOwn (f : RxFrame) (s : State) : Host.Outcome State Fault Refusal :=
  .next (syncRequest s 0x41 f)

/-- SW_UPGRADE is served exactly as SW_READ_OWN, always supplying data (R230). -/
def execSwUpgrade (f : RxFrame) (s : State) : Host.Outcome State Fault Refusal :=
  .next (syncRequest s 0x42 f)

/-- SW_WRITEBACK is accepted, held or discarded according to R235 and answered C3h with its disposal (R235). -/
def execSwWriteback (f : RxFrame) (s : State) : Host.Outcome State Fault Refusal :=
  .next (syncRequest s 0x43 f)

/-- SW_EVICT from the owner of a line in HX turns it to HI; from any other agent it is answered C4h and changes
nothing (R236). -/
def execSwEvict (f : RxFrame) (s : State) : Host.Outcome State Fault Refusal :=
  .next (syncRequest s 0x44 f)

/-- SW_DONE from the requester counts towards completing the line's transaction and clearing BUSY (R230). -/
def execSwDone (f : RxFrame) (s : State) : Host.Outcome State Fault Refusal :=
  .next (syncRequest s 0x48 f)

/-- A C5h from a forward target reports the data sent and kept state, completing or advancing the transaction and
disposing of held write-backs (R235). -/
def execSwForwardResponse (f : RxFrame) (s : State) : Host.Outcome State Fault Refusal :=
  .next (ctlAnswer s 0xC5 f)

/-- A C6h from an invalidation target reports whether a write-back was sent and counts towards the transaction's
completion (R233). -/
def execSwInvalidateResponse (f : RxFrame) (s : State) : Host.Outcome State Fault Refusal :=
  .next (ctlAnswer s 0xC6 f)

/-- No SW_DONE arrives within DONE_LIMIT after SW_DATA was sent, so SWN sends SW_INVALIDATE to the requester
(R242). -/
def execSwDoneTimeout (line : BitVec 38) (s : State) : Host.Outcome State Fault Refusal :=
  .next (settle (swDoneTimeout s (line.toNat * 64)))

/-- A response of RETRY or SESSION_FAILED to a COLL_PARTIAL or COLL_RESULT the controller sent schedules a resend
or fails the record with cause TRANSPORT (R264). -/
def execCollFrameResponse (op : BitVec 8) (f : RxFrame) (s : State) : Host.Outcome State Fault Refusal :=
  .next (if op = 0xD2 ∨ op = 0xD3 then ctlAnswer s op f else s)

/-- The D4h answer of a neighbour chip to a COLL_CLOSE with ABORT that this chip sent completes that controller
request and releases its tracker (R273). -/
def execCollCloseResponse (f : RxFrame) (s : State) : Host.Outcome State Fault Refusal :=
  .next (ctlAnswer s 0xD4 f)

/-- The endpoint's E3h answer to a KERNEL_EVENT completes that controller request (R293). -/
def execKernelEventResponse (f : RxFrame) (s : State) : Host.Outcome State Fault Refusal :=
  .next (ctlAnswer s 0xE3 f)

/-- A controller request's retransmission timer expires, resending it if unacknowledged, doubling the timer and
failing it at RTX_LIMIT (R108). -/
def execRequestTimeoutRetransmit (flow : FlowId) (seq : BitVec 24) (s : State) : Host.Outcome State Fault Refusal :=
  .next (settle (requestTimeout s flow seq))

/-- A controller request answered RETRY is sent again with its original FLOW_SEQ every RTO_INIT (R108). -/
def execRetryResend (flow : FlowId) (seq : BitVec 24) (s : State) : Host.Outcome State Fault Refusal :=
  .next (retryResend s flow seq)

/-- A received ACK or NACK acknowledges the numbers it reports received and triggers resends of NACKed numbers
(R105). -/
def execTransportAck (f : RxFrame) (s : State) : Host.Outcome State Fault Refusal :=
  .next (transportAck s f)

/-- ACK_DELAY passes after the earliest uncovered new request, and an ACK is sent on the flow (R104). -/
def execAckDelayExpire (flow : FlowId) (s : State) : Host.Outcome State Fault Refusal :=
  .next (ackDelayExpire s flow)

/-- A missing number becomes due after NACK_DELAY, and a NACK listing due numbers is sent (R104). -/
def execNackDelayExpire (flow : FlowId) (s : State) : Host.Outcome State Fault Refusal :=
  .next (nackDelayExpire s flow)

/-- After 50 µs without congestion signals a controller flow's rate rises by 1 GB/s (R115). -/
def execFlowRateRaise (flow : FlowId) (s : State) : Host.Outcome State Fault Refusal :=
  .next (rateRaise s flow)

/-- Firmware answers a translation miss, filling the slice's cache or failing waiting requests NOT_MAPPED (R138).
-/
def execMissServiceDone (slice : BitVec 4) (pitch : BitVec 8) (page : BitVec 27) (s : State) : Host.Outcome State Fault Refusal :=
  .next (settle (missServed s slice.toNat pitch.toNat page.toNat))

/-- A miss is unanswered after 20 µs, so waiting requests get RETRY and a fault record is charged to SVC (R138).
-/
def execMissTimeout (slice : BitVec 4) (pitch : BitVec 8) (page : BitVec 27) (s : State) : Host.Outcome State Fault Refusal :=
  .next (missTimeout s slice.toNat pitch.toNat page.toNat)

/-- Every slice confirms that changed pages are dropped from its cache, completing the change and starting recall
of covering handles (R135). -/
def execPageTableChangeDone (pitch : BitVec 8) (s : State) : Host.Outcome State Fault Refusal :=
  .next (settle (changesDone s pitch.toNat))

/-- RECALL_DEADLINE passes with a holder silent, so the holder's context is revoked and its entries freed (R142).
-/
def execRecallDeadline (endpoint : BitVec 12) (context : BitVec 16) (s : State) : Host.Outcome State Fault Refusal :=
  .next (settle (recallDeadline s endpoint context))

end Sys2Proof.Machine
end

