-- ==== Sys2Proof/Machine/MirCmds.lean ====
section
/-! DEFINITION. Mirroring commands, one meaning each. -/
namespace Sys2Proof.Machine

/-- At each multiple of HB_PERIOD and half a period later MIR sends HEARTBEAT on the two guy lines (R425). -/
def execHeartbeatTx (peer : BitVec 4) (mpLine : Bool) (s : State) : Host.Outcome State Fault Refusal :=
  .next (heartbeatTx s peer.toNat mpLine)

/-- A received heartbeat is validated, revives its guy line and updates confirmation from its ACTIVE bits (R426).
-/
def execHeartbeat (f : RxFrame) (s : State) : Host.Outcome State Fault Refusal :=
  .next (heartbeatRx s f)

/-- No valid beat arrives on a guy line for 5 · HB_PERIOD and the line is lost, an ALARM (R426). -/
def execGuyLineLost (peer : BitVec 4) (mpLine : Bool) (s : State) : Host.Outcome State Fault Refusal :=
  .next (guyLost s peer.toNat mpLine)

/-- An active pitch with a confirmed fly self-fences at t_L + 5 · HB_PERIOD with both guy lines lost, failing
unmirrored writes and sending RELEASE (R428). -/
def execMirrorSelfFence (pitch : BitVec 8) (s : State) : Host.Outcome State Fault Refusal :=
  .next (mirrorSelfFence s pitch.toNat)

/-- A confirmed standby takes over at t_L + 7 · HB_PERIOD with both guy lines lost, serving UP and DEGRADED
(R429). -/
def execMirrorTakeover (pitch : BitVec 8) (s : State) : Host.Outcome State Fault Refusal :=
  .next (mirrorTakeover s pitch.toNat)

/-- A PITCHING pitch with FLY_REQ 01h sends a PROBE to its partner every 1 ms (R420). -/
def execProbeTimer (pitch : BitVec 8) (s : State) : Host.Outcome State Fault Refusal :=
  .next (probeTimer s pitch.toNat)

/-- A received PROBE is answered OK, MOVED or DENIED, fixing mirror roles (R420). -/
def execProbe (f : RxFrame) (s : State) : Host.Outcome State Fault Refusal :=
  .next (if mirKind f 1 then kppWrite s 0x02 f else s)

/-- An OK or MOVED answer to a PROBE fixes this pitch's role as active or standby (R420). -/
def execProbeResponse (f : RxFrame) (s : State) : Host.Outcome State Fault Refusal :=
  .next (ctlResponse s 0x82 f probeAnswered)

/-- A received RELEASE makes a confirmed standby take over and is answered OK (R429). -/
def execRelease (f : RxFrame) (s : State) : Host.Outcome State Fault Refusal :=
  .next (if mirKind f 2 then kppWrite s 0x02 f else s)

/-- The OK answer to RELEASE makes the takeover known, so the self-fenced pitch answers MOVED (R430). -/
def execReleaseResponse (f : RxFrame) (s : State) : Host.Outcome State Fault Refusal :=
  .next (ctlAnswer s 0x82 f)

/-- A mirror DATA frame on the fly is executed by MIR under its mirror rights, keeping CARRY and C (R423). -/
def execMirrorData (op : BitVec 8) (f : RxFrame) (s : State) : Host.Outcome State Fault Refusal :=
  .next (if op = 0x02 ∨ op = 0x21 ∨ op = 0x23 then kppWrite s op f else s)

/-- The fly's answer to a mirror frame completes the operation on OK or loses the fly otherwise (R422). -/
def execMirrorResponse (op : BitVec 8) (f : RxFrame) (s : State) : Host.Outcome State Fault Refusal :=
  .next (if op = 0x82 ∨ op = 0xA1 ∨ op = 0xA3 then ctlResponse s op f probeAnswered else s)

/-- The last resynchronisation line is acknowledged and the fly becomes confirmed (R432). -/
def execResyncDone (pitch : BitVec 8) (s : State) : Host.Outcome State Fault Refusal :=
  .next (resyncDone s pitch.toNat)

end Sys2Proof.Machine
end

