-- ==== Sys2Proof/Machine/PortCmds.lean ====
section
/-! DEFINITION. Commands of the ports, of link retry and of precision time, one meaning each. -/
namespace Sys2Proof.Machine

/-- A lane's corrected-symbol count reaches THRESHOLD within WINDOW, failing it and starting the LMAP swap (R352).
-/
def execLaneSoftFault (port : BitVec 2) (lane : Fin 9) (symbols : BitVec 32) (s : State) : Host.Outcome State Fault Refusal :=
  .next (softFault s port.toNat lane.val symbols.toNat)

/-- A lane loses signal or lock while UP, the link goes down and the port retrains or is retired (R354). -/
def execLaneHardFault (port : BitVec 2) (lane : Fin 9) (s : State) : Host.Outcome State Fault Refusal :=
  .next (hardFault s port.toNat lane.val)

/-- A received LMAP REQ is checked against the spare and answered ACK followed by SWITCH, or REFUSE (R352). -/
def execLmapReq (rx : KlrRx) (s : State) : Host.Outcome State Fault Refusal :=
  .next (lmapRx s 1 rx lmapReq)

/-- A received LMAP ACK causes the side that requested to send SWITCH and switch its transmitter (R352). -/
def execLmapAck (rx : KlrRx) (s : State) : Host.Outcome State Fault Refusal :=
  .next (lmapRx s 2 rx lmapAck)

/-- A received LMAP SWITCH starts the count of 256 idle codewords before the receiver switches map (R352). -/
def execLmapSwitch (rx : KlrRx) (s : State) : Host.Outcome State Fault Refusal :=
  .next (lmapRx s 3 rx lmapSwitch)

/-- The 256 codewords after SWITCH pass, the receiver takes the next codeword under the new map and sends DONE
(R352). -/
def execLmapSwitchPoint (port : BitVec 2) (s : State) : Host.Outcome State Fault Refusal :=
  .next (lmapPoint s port.toNat)

/-- A received LMAP DONE, with DONE sent, resumes DATA frames and makes the port DEGRADED (R352). -/
def execLmapDone (rx : KlrRx) (s : State) : Host.Outcome State Fault Refusal :=
  .next (lmapRx s 4 rx lmapDone)

/-- A received LMAP REFUSE retires the port (R353). -/
def execLmapRefuse (rx : KlrRx) (s : State) : Host.Outcome State Fault Refusal :=
  .next (lmapRx s 5 rx lmapRefuse)

/-- A swap is not complete 50 µs after detection, so the link goes down and retrains with the lane squelched
(R352). -/
def execLmapSwapTimeout (port : BitVec 2) (s : State) : Host.Outcome State Fault Refusal :=
  .next (lmapTimeout s port.toNat)

/-- A lane does not lock or train within 200 ms of retraining and is failed (R354). -/
def execLaneBringupTimeout (port : BitVec 2) (dark : BitVec 9) (s : State) : Host.Outcome State Fault Refusal :=
  .next (bringUpTimeout s port.toNat dark)

/-- With all lanes dark the port repeats lane bring-up every 100 ms (R354). -/
def execPeerAbsentRetry (port : BitVec 2) (s : State) : Host.Outcome State Fault Refusal :=
  .next (absentRetry s port.toNat)

/-- The PCS link comes up and the link enters PLAIN or HELLO by KLR_CFG.MODE (R362). -/
def execPcsLinkUp (link : Fin 8) (s : State) : Host.Outcome State Fault Refusal :=
  .next (pcsUp s link.val)

/-- The PCS link goes down, KLR holds everything and the port becomes TRAINING (R362). -/
def execPcsLinkDown (link : Fin 8) (s : State) : Host.Outcome State Fault Refusal :=
  .next (pcsDown s link.val)

/-- A received HELLO advances the handshake to UP, resets credit, releases frames up to NEXT − 1, or renumbers on
a new incarnation (R362). -/
def execHello (rx : KlrRx) (s : State) : Host.Outcome State Fault Refusal :=
  .next (helloRx s rx)

/-- Every 1 µs in HELLO state the link sends a HELLO (R362). -/
def execHelloSendTimer (link : Fin 8) (s : State) : Host.Outcome State Fault Refusal :=
  .next (helloSend s link.val)

/-- No HELLO arrives within 1 ms, so the link goes PLAIN, stays HELLO, or fails bring-up by MODE (R362). -/
def execHelloTimeout (link : Fin 8) (s : State) : Host.Outcome State Fault Refusal :=
  .next (helloTimeout s link.val)

/-- A received KLR DATA frame is accepted in order with credit, or discarded as Ahead or Behind (R364). -/
def execKlrData (rx : KlrRx) (s : State) : Host.Outcome State Fault Refusal :=
  .next (klrDataRx s rx)

/-- A received STATUS releases acknowledged frames, updates credit limits and starts a replay when RQ is set
(R366). -/
def execKlrStatus (rx : KlrRx) (s : State) : Host.Outcome State Fault Refusal :=
  .next (klrStatusRx s rx)

/-- NEXT has advanced and no frame has left for ACK_DELAY, so a STATUS is sent (R365). -/
def execKlrAckDelayExpire (link : Fin 8) (s : State) : Host.Outcome State Fault Refusal :=
  .next (klrAckExpire s link.val)

/-- REPLAY / 4 passes while UP and a periodic STATUS is sent (R365). -/
def execKlrStatusPeriod (link : Fin 8) (s : State) : Host.Outcome State Fault Refusal :=
  .next (klrPeriod s link.val)

/-- The replay timer expires, unacknowledged frames are replayed, and the link goes DOWN at REPLAY_LIMIT (R366).
-/
def execKlrReplayTimer (link : Fin 8) (s : State) : Host.Outcome State Fault Refusal :=
  .next (replayTimer s link.val)

/-- All links of a port have been DOWN for DOWN_RETIRE and the port is retired (R370). -/
def execKlrDownRetire (port : BitVec 2) (s : State) : Host.Outcome State Fault Refusal :=
  .next (downRetire s port.toNat)

/-- KLR finishes handing its held frames to TPT, the spill region is released and ADMIT_CLOSED clears where IN_USE
falls (R116). -/
def execKlrHandoffDone (port : BitVec 2) (s : State) : Host.Outcome State Fault Refusal :=
  .next (handoffDone s port.toNat)

/-- A PTP event or general frame is timestamped and processed by the PTP engine (R357). -/
def execPtpFrameRx (link : Fin 8) (msg : PtpMsg) (s : State) : Host.Outcome State Fault Refusal :=
  .next (ptpRx s link.val msg)

/-- No Sync arrives for 3 s and LOCKED is cleared (R473). -/
def execPtpSyncTimeout (s : State) : Host.Outcome State Fault Refusal :=
  .next (ptpSyncLost s)

/-- At each Sync, Announce and Delay_Req or Pdelay_Req interval set by LOG_SYNC, LOG_ANNOUNCE and LOG_DELAY_REQ,
the PTP engine sends its message on each PTP port and judges announce receipt (R357). -/
def execPtpMessageInterval (link : Fin 8) (kind : PtpKind) (s : State) : Host.Outcome State Fault Refusal :=
  .next (ptpInterval s link.val kind)

/-- An ARP or neighbour-discovery request for the chip's addresses is answered with the link's MAC address (R347).
-/
def execArpNdRequest (link : Fin 9) (nd : Bool) (target : BitVec 128) (s : State) : Host.Outcome State Fault Refusal :=
  .next (neighbourRx s link.val nd target)

/-- A received frame with EtherType 8808h is dropped and counted in PRT_CNT_PAUSE (R344). -/
def execPauseFrameRx (via : RxVia) (s : State) : Host.Outcome State Fault Refusal :=
  .next (bump s .prtPause (viaPort via) 0 0)

/-- A frame that is runt, oversize, fails its FCS or breaks encapsulation is dropped and counted (R344). -/
def execMacFrameReject (via : RxVia) (encap : Encap) (fcsOk : Bool) (uncorr : BitVec 16) (s : State) : Host.Outcome State Fault Refusal :=
  .next (macReject s via encap fcsOk uncorr.toNat)

end Sys2Proof.Machine
end

