-- ==== Sys2Proof/Machine/Access.lean ====
section
/-! DEFINITION. Register accesses as they arrive: MGMT_ACCESS, the recovery protocol, JTAG, and a record of the image
(R79, R441, R456, R463, R485). -/
namespace Sys2Proof.Machine

/-- The registers of R454, BOOT_STATUS and BOOT_RESET. -/
def recoveryReach (a : Nat) : Bool :=
  let off := a % 65536
  decide (a / 65536 = bootAgent) && (decide (off ∈ [0x100, 0x110, 0x200, 0x204, 0x208, 0x20C, 0x210, 0x214]) || (regIx off 0x240 64).isSome)

/-- May a source write a value at an address? A CONFIG record is written at step 5 alone, as the image gives it (R441). -/
def sourceOk (s : State) (src : MgmtSource) (a : Nat) (v : Word) : Bool :=
  if src = .image then decide (s.boot.step = 5) && decide ((a, v) ∈ s.img.config)
  else srcOpen s src && (!recovering s || recoveryReach a)

/-- A write of a source. -/
def sourceWrite (s : State) (src : MgmtSource) (a : Nat) (v : Word) : State :=
  if sourceOk s src a v then (regWrite s src a v).1 else s

/-- A read of a source, for what it does. -/
def sourceRead (s : State) (src : MgmtSource) (a : Nat) : State :=
  if sourceOk s src a 0 then (regRead s src a).1 else s

/-- One entry's access: its VALUE and its ENTRY_STATUS. An OP other than 01h and 02h has no access; what is answered to it, and
the VALUE where no register lies, are left open. -/
def entryAccess (s : State) (src : MgmtSource) (reach : Nat → Bool) (e : List Byte) : State × List Byte :=
  let op := byteAt e 0
  let a := beAt e 4 4
  let open_ (s : State) (status : List Byte) : State × List Byte :=
    let d := draw s
    (d.2, beBytes 4 d.1.toNat ++ (if status.isEmpty then beBytes 1 (d.1 >>> 32).toNat else status) ++ zeros 3)
  if op ≠ 1 ∧ op ≠ 2 then open_ s []
  else if !reach a then open_ s [0x0A]
  else
    let r := if op = 1 then regRead s src a else regWrite s src a (BitVec.ofNat 32 (beAt e 8 4))
    match r.2 with
    | some v => (r.1, beBytes 4 v.toNat ++ zeros 4)
    | none => open_ r.1 [0x0A]

/-- The entries of a message in order, and the response's payload. An entry that resets the chip is its last (R458). -/
def entriesRun (src : MgmtSource) (reach : Nat → Bool) : Nat → State → List Byte → State × List Byte
  | 0, s, _ => (s, [])
  | n + 1, s, p =>
    let x := entryAccess s src reach p
    if x.1.boot.step ≠ s.boot.step then (x.1, [])
    else
      let t := entriesRun src reach n x.1 (p.drop 12)
      (t.1, x.2 ++ t.2)

/-- The entries of a message, and what answers them; a chip that was reset answers nothing. -/
def entriesThen (s : State) (src : MgmtSource) (reach : Nat → Bool) (k : Nat) (p : List Byte)
    (go : State → List Byte → State) : State :=
  let x := entriesRun src reach k s p
  if x.1.boot.step ≠ s.boot.step then x.1 else go x.1 x.2

/-- 1 to 64 entries of 12 bytes. -/
def entryCount (p : List Byte) : Option Nat :=
  if p.length % 12 = 0 ∧ 12 ≤ p.length ∧ p.length ≤ 768 then some (p.length / 12) else none

/-- MGMT_ACCESS of an open session (R79); one without a trailer is DENIED (log 39). -/
def mgmtAccess (s : State) (f : RxFrame) : State :=
  withRequest s 0x7D f (fun s r => mgmtChecks s r f (fun s =>
    match r.sess, entryCount r.payload with
    | none, _ => answer s r stDenied []
    | some n, some k => entriesThen s (.session n) (fun _ => true) k r.payload (fun s p => answer s r stOk p)
    | some _, none => answer s r stLength []))

/-! ## Recovery (R456) -/

/-- The recovery protocol: executed each time it arrives, no flow state. -/
def recoveryAccess (s : State) (f : RxFrame) : State :=
  if !recovering s ∨ f.via ≠ .mp then s
  else if f.encap.udpDst.toNat ≠ 50371 ∨ flagA f.hdr.flags ∨ f.hdr.endpoint ≠ 0 ∨ f.hdr.context ≠ 0 ∨ f.hdr.tc ≠ 6 then s
  else
    match earlyFail 0x7D f with
    | some c => bump s c.1 c.2 0 0
    | none =>
      let id : FlowId := .sess f.srcAddr f.srcPort f.hdr.tc
      let r := mkReq 0x7D f id 0
      let send (s : State) (status : Nat) (p : List Byte) : State :=
        enqueue s 8 { respFrame s r status p r.address true with flow := none, release := none }
      match (if f.hdr.length.toNat = f.payload.length then entryCount f.payload else none) with
      | none => send s stLength []
      | some k => entriesThen s .jtag recoveryReach k f.payload (fun s p => send s stOk p)

/-! ## JTAG (R485) -/

/-- Is JTAG's access to an address closed? -/
def jtagClosed (s : State) (a : Nat) : Bool :=
  !jtagOpen s || (recovering s && !recoveryReach a)

/-- Update-DR of the MGMT data register, its access and its result: STATUS 0 done, 2 no register, 3 CLOSED. -/
def jtagAccess (s : State) (op : Nat) (a : Nat) (v : Word) : State :=
  let result (s : State) (status : Nat) (data : Word) : State :=
    dbgMod s (fun d => { d with jtagIr := 0x10, jtagAddr := BitVec.ofNat 32 a, jtagData := data, jtagStatus := status
                                jtagDr := BitVec.ofNat 68 (a * 4 + data.toNat * 2 ^ 34 + status * 2 ^ 66) })
  if op ≠ 1 ∧ op ≠ 2 then
    dbgMod s (fun d => { d with jtagIr := 0x10
                                jtagDr := BitVec.ofNat 68 (d.jtagAddr.toNat * 4 + d.jtagData.toNat * 2 ^ 34 + d.jtagStatus * 2 ^ 66) })
  else if jtagClosed s a then let d := draw s; result d.2 3 (d.1.truncate 32)
  else
    let r := if op = 1 then regRead s .jtag a else regWrite s .jtag a v
    match r.2 with
    | some x => result r.1 0 x
    | none => let d := draw r.1; result d.2 2 (d.1.truncate 32)

end Sys2Proof.Machine
end

