-- ==== Sys2Proof/Machine/RegCmds.lean ====
section
/-! DEFINITION. Commands that are register accesses, one meaning each. -/
namespace Sys2Proof.Machine

/-- MGMT_ACCESS executes 1 to 64 register read and write entries in order, contiguously, and returns one value and
status per entry (R79). -/
def execMgmtAccess (f : RxFrame) (s : State) : Host.Outcome State Fault Refusal :=
  .next (mgmtAccess s f)

/-- A write to a register without behaviour of its own updates its RW fields, ignoring RO fields and RWL fields
after the configuration lock (R14). -/
def execRegisterWrite (src : MgmtSource) (addr : BitVec 32) (value : BitVec 32) (s : State) : Host.Outcome State Fault Refusal :=
  .next (sourceWrite s src addr.toNat value)

/-- In ROM recovery an unauthenticated MGMT_ACCESS reaches only the flash, status and reset registers (R456). -/
def execRecoveryAccess (f : RxFrame) (s : State) : Host.Outcome State Fault Refusal :=
  .next (recoveryAccess s f)

/-- A write of SVC_MGMT_SCOPE sets the carrying session's scope for the entries that follow (R466). -/
def execSvcMgmtScopeWrite (src : MgmtSource) (value : BitVec 32) (s : State) : Host.Outcome State Fault Refusal :=
  .next (sourceWrite s src (regAddr svcAgent 0x3000) value)

/-- A read of AGT_CNT_LO captures all 64 bits of the selected counter for the source (R470). -/
def execAgtCntRead (src : MgmtSource) (agent : BitVec 16) (s : State) : Host.Outcome State Fault Refusal :=
  .next (sourceRead s src (regAddr agent.toNat 0x88))

/-- Update-DR of the MGMT data register starts a register read or write unless one is running (R485). -/
def execJtagMgmtAccess (op : BitVec 2) (addr : BitVec 32) (data : BitVec 32) (s : State) : Host.Outcome State Fault Refusal :=
  .next (jtagAccess s op.toNat addr.toNat data)

end Sys2Proof.Machine
end

