-- ==== Sys2Proof/Machine/ServiceCmds.lean ====
section
/-! DEFINITION. Commands of the service complex, one meaning each. -/
namespace Sys2Proof.Machine

/-- Writing CVU_CTRL with INIT 1b loads the selected polynomial's initial value into VALUE (R474). -/
def execCvuInit (sc : Fin 4) (poly : BitVec 2) (s : State) : Host.Outcome State Fault Refusal :=
  .next (cvuMod s sc.val (cvuInit poly))

/-- Writing CVU_CTRL with INIT 0b changes POLY and leaves VALUE unchanged (R476). -/
def execCvuCtrlPoly (sc : Fin 4) (poly : BitVec 2) (s : State) : Host.Outcome State Fault Refusal :=
  .next (cvuMod s sc.val (cvuPoly poly))

/-- CVU_FEED_B feeds one byte into the running CRC (R476). -/
def execCvuFeedB (sc : Fin 4) (data : BitVec 8) (s : State) : Host.Outcome State Fault Refusal :=
  .next (cvuMod s sc.val (cvuFeedN 1 (data.zeroExtend 32)))

/-- CVU_FEED_H feeds two bytes into the running CRC (R476). -/
def execCvuFeedH (sc : Fin 4) (data : BitVec 16) (s : State) : Host.Outcome State Fault Refusal :=
  .next (cvuMod s sc.val (cvuFeedN 2 (data.zeroExtend 32)))

/-- CVU_FEED_W feeds four bytes into the running CRC (R476). -/
def execCvuFeedW (sc : Fin 4) (data : BitVec 32) (s : State) : Host.Outcome State Fault Refusal :=
  .next (cvuMod s sc.val (cvuFeedN 4 data))

/-- Writing CVU_VALUE replaces the running register after every earlier feed (R476). -/
def execCvuValueWrite (sc : Fin 4) (data : BitVec 32) (s : State) : Host.Outcome State Fault Refusal :=
  .next (cvuMod s sc.val (cvuValue data))

/-- A service core writes SVC_WDOG_KICK and restarts its watchdog period (R477). -/
def execSvcWdogKick (sc : Fin 4) (s : State) : Host.Outcome State Fault Refusal :=
  .next (wdogKick s sc.val)

/-- A service core misses its kick or SRAM fails parity, and a service complex restart begins, or a chip stop on
the third in 10 minutes (R478). -/
def execWatchdogExpire (sram : Bool) (s : State) : Host.Outcome State Fault Refusal :=
  .next (wdogExpire s sram)

/-- The chip manager rebuilds its state, resumes lifecycle work and clears RESTARTING (R478). -/
def execSvcRestartDone (firmwareOk : Bool) (s : State) : Host.Outcome State Fault Refusal :=
  .next (restartDone s firmwareOk)

/-- A service-core cache parity error is refetched once, then causes a watchdog restart (R413). -/
def execScCacheParity (sc : Fin 4) (again : Bool) (s : State) : Host.Outcome State Fault Refusal :=
  .next (scParity s sc.val again)

end Sys2Proof.Machine
end

