-- ==== Sys2Proof/Machine/TrustCmds.lean ====
section
/-! DEFINITION. Trust commands, one meaning each. -/
namespace Sys2Proof.Machine

/-- ATTEST_QUOTE binds or reuses the pitch's ephemeral key and starts signing a quote over the nonce and
measurements (R204). -/
def execAttestQuote (f : RxFrame) (s : State) : Host.Outcome State Fault Refusal :=
  .next (trust s 0x78 f 64 quoteStart)

/-- Quote signing completes and the 1,312-byte quote is returned (R204). -/
def execAttestQuoteSigned (flow : FlowId) (seq : BitVec 24) (s : State) : Host.Outcome State Fault Refusal :=
  .next (quoteSigned s flow seq)

/-- FUM finishes generating an ephemeral RSA key into the pool of 4 (R205). -/
def execEphKeyGenerated (s : State) : Host.Outcome State Fault Refusal :=
  .next (ephGenerated s)

/-- KEY_DELIVER unwraps the content and session keys inside FUM, consumes the ephemeral key and resets SEAL_EXEC
(R208). -/
def execKeyDeliver (f : RxFrame) (s : State) : Host.Outcome State Fault Refusal :=
  .next (trust s 0x79 f 1024 keyDeliver)

/-- COCOON_LOAD is checked, marks the cocoon LOADING and starts FUM's decryption of the blob into the cocoon lines
(R211). -/
def execCocoonLoad (f : RxFrame) (s : State) : Host.Outcome State Fault Refusal :=
  .next (trust s 0x7A f 48 cocoonStart)

/-- FUM compares the GCM tag at the end of a load, making the cocoon READY or FAILED (R212). -/
def execCocoonLoadDone (pitch : BitVec 8) (s : State) : Host.Outcome State Fault Refusal :=
  .next (cocoonDone s pitch.toNat)

/-- CERT_GET returns the device certificate and device CA certificate in DER (R201). -/
def execCertGet (f : RxFrame) (s : State) : Host.Outcome State Fault Refusal :=
  .next (trust s 0x7B f 4 certGet)

end Sys2Proof.Machine
end

