-- ==== Sys2Proof/Machine/Dispatch.lean ====
section
/-! DEFINITION. One arm for each command: what it does to everything but the queue. -/
namespace Sys2Proof.Machine

open Host

/-- The effect of a command (spec/opcode_table.json), one meaning each. -/
def exec (i : Instr) (s : State) : Host.Outcome State Fault Refusal :=
  match i with
  | .agtIntentWrite src agent unit value => Sys2Proof.Machine.execAgtIntentWrite src agent unit value s
  | .audit => Sys2Proof.Machine.execAudit s
  | .bringUpComplete agent unit => Sys2Proof.Machine.execBringUpComplete agent unit s
  | .bringUpFail agent unit => Sys2Proof.Machine.execBringUpFail agent unit s
  | .pitchCreate f => Sys2Proof.Machine.execPitchCreate f s
  | .pitchInstallDone pitch => Sys2Proof.Machine.execPitchInstallDone pitch s
  | .pitchCreateTimeout pitch => Sys2Proof.Machine.execPitchCreateTimeout pitch s
  | .pitchInstallFail pitch => Sys2Proof.Machine.execPitchInstallFail pitch s
  | .pitchStrike f => Sys2Proof.Machine.execPitchStrike f s
  | .strikeDrainEnd pitch => Sys2Proof.Machine.execStrikeDrainEnd pitch s
  | .strikeDrainDeadline pitch => Sys2Proof.Machine.execStrikeDrainDeadline pitch s
  | .pitchRepitch f => Sys2Proof.Machine.execPitchRepitch f s
  | .repitchApplied pitch => Sys2Proof.Machine.execRepitchApplied pitch s
  | .repitchApplyTimeout pitch => Sys2Proof.Machine.execRepitchApplyTimeout pitch s
  | .pitchFold f => Sys2Proof.Machine.execPitchFold f s
  | .keySlotRefresh slot => Sys2Proof.Machine.execKeySlotRefresh slot s
  | .sweepGranuleDone granule => Sys2Proof.Machine.execSweepGranuleDone granule s
  | .pitchAdjust f => Sys2Proof.Machine.execPitchAdjust f s
  | .attach f => Sys2Proof.Machine.execAttach f s
  | .detach f => Sys2Proof.Machine.execDetach f s
  | .pitchQuery f => Sys2Proof.Machine.execPitchQuery f s
  | .mgmtSessionOpen f => Sys2Proof.Machine.execMgmtSessionOpen f s
  | .mgmtSessionProof f => Sys2Proof.Machine.execMgmtSessionProof f s
  | .mgmtSessionClose f => Sys2Proof.Machine.execMgmtSessionClose f s
  | .mgmtSessionExpire number => Sys2Proof.Machine.execMgmtSessionExpire number s
  | .mgmtAccess f => Sys2Proof.Machine.execMgmtAccess f s
  | .registerWrite src addr value => Sys2Proof.Machine.execRegisterWrite src addr value s
  | .read f => Sys2Proof.Machine.execRead f s
  | .write f => Sys2Proof.Machine.execWrite f s
  | .writeNotify f => Sys2Proof.Machine.execWriteNotify f s
  | .aAdd f => Sys2Proof.Machine.execAAdd f s
  | .aSwap f => Sys2Proof.Machine.execASwap f s
  | .aCas f => Sys2Proof.Machine.execACas f s
  | .aAnd f => Sys2Proof.Machine.execAAnd f s
  | .aOr f => Sys2Proof.Machine.execAOr f s
  | .aXor f => Sys2Proof.Machine.execAXor f s
  | .aSmin f => Sys2Proof.Machine.execASmin f s
  | .aSmax f => Sys2Proof.Machine.execASmax f s
  | .aUmin f => Sys2Proof.Machine.execAUmin f s
  | .aUmax f => Sys2Proof.Machine.execAUmax f s
  | .aFadd32 f => Sys2Proof.Machine.execAFadd32 f s
  | .aFaddbf16 f => Sys2Proof.Machine.execAFaddbf16 f s
  | .bulkGet f => Sys2Proof.Machine.execBulkGet f s
  | .bulkPut f => Sys2Proof.Machine.execBulkPut f s
  | .bulkCopy f => Sys2Proof.Machine.execBulkCopy f s
  | .bulkData f => Sys2Proof.Machine.execBulkData f s
  | .bulkIdleTimeout flow tag => Sys2Proof.Machine.execBulkIdleTimeout flow tag s
  | .xlate f => Sys2Proof.Machine.execXlate f s
  | .xlateRelease f => Sys2Proof.Machine.execXlateRelease f s
  | .xlateInvalResponse f => Sys2Proof.Machine.execXlateInvalResponse f s
  | .reservedOpcodeRequest op f => Sys2Proof.Machine.execReservedOpcodeRequest op f s
  | .swReadShared f => Sys2Proof.Machine.execSwReadShared f s
  | .swReadOwn f => Sys2Proof.Machine.execSwReadOwn f s
  | .swUpgrade f => Sys2Proof.Machine.execSwUpgrade f s
  | .swWriteback f => Sys2Proof.Machine.execSwWriteback f s
  | .swEvict f => Sys2Proof.Machine.execSwEvict f s
  | .swDone f => Sys2Proof.Machine.execSwDone f s
  | .swForwardResponse f => Sys2Proof.Machine.execSwForwardResponse f s
  | .swInvalidateResponse f => Sys2Proof.Machine.execSwInvalidateResponse f s
  | .swDoneTimeout line => Sys2Proof.Machine.execSwDoneTimeout line s
  | .collOpen f => Sys2Proof.Machine.execCollOpen f s
  | .collContrib f => Sys2Proof.Machine.execCollContrib f s
  | .collPartial f => Sys2Proof.Machine.execCollPartial f s
  | .collResult f => Sys2Proof.Machine.execCollResult f s
  | .collClose f => Sys2Proof.Machine.execCollClose f s
  | .collQuery f => Sys2Proof.Machine.execCollQuery f s
  | .collFrameResponse op f => Sys2Proof.Machine.execCollFrameResponse op f s
  | .collStartTime pitch id => Sys2Proof.Machine.execCollStartTime pitch id s
  | .collPaceSlot pitch id chunk => Sys2Proof.Machine.execCollPaceSlot pitch id chunk s
  | .collChunkFinished pitch id chunk => Sys2Proof.Machine.execCollChunkFinished pitch id chunk s
  | .collDeadline pitch id => Sys2Proof.Machine.execCollDeadline pitch id s
  | .collRecordExpire pitch id => Sys2Proof.Machine.execCollRecordExpire pitch id s
  | .collAbortIdExpire pitch id => Sys2Proof.Machine.execCollAbortIdExpire pitch id s
  | .kernelLaunch f => Sys2Proof.Machine.execKernelLaunch f s
  | .kernelQuery f => Sys2Proof.Machine.execKernelQuery f s
  | .kernelAbort f => Sys2Proof.Machine.execKernelAbort f s
  | .kernelEventResponse f => Sys2Proof.Machine.execKernelEventResponse f s
  | .kernelDequeue session => Sys2Proof.Machine.execKernelDequeue session s
  | .kernelLoadDone session => Sys2Proof.Machine.execKernelLoadDone session s
  | .kernelLoadFail session => Sys2Proof.Machine.execKernelLoadFail session s
  | .kernelSessionDone session => Sys2Proof.Machine.execKernelSessionDone session s
  | .kernelDeadline session => Sys2Proof.Machine.execKernelDeadline session s
  | .kernelClearDone session => Sys2Proof.Machine.execKernelClearDone session s
  | .kernelRecordExpire session => Sys2Proof.Machine.execKernelRecordExpire session s
  | .stageCommandDone quad => Sys2Proof.Machine.execStageCommandDone quad s
  | .nop core => Sys2Proof.Machine.execNop core s
  | .add core sd sa sb => Sys2Proof.Machine.execAdd core sd sa sb s
  | .sub core sd sa sb => Sys2Proof.Machine.execSub core sd sa sb s
  | .and core sd sa sb => Sys2Proof.Machine.execAnd core sd sa sb s
  | .or core sd sa sb => Sys2Proof.Machine.execOr core sd sa sb s
  | .xor core sd sa sb => Sys2Proof.Machine.execXor core sd sa sb s
  | .shl core sd sa sb => Sys2Proof.Machine.execShl core sd sa sb s
  | .shr core sd sa sb => Sys2Proof.Machine.execShr core sd sa sb s
  | .sra core sd sa sb => Sys2Proof.Machine.execSra core sd sa sb s
  | .min core sd sa sb => Sys2Proof.Machine.execMin core sd sa sb s
  | .max core sd sa sb => Sys2Proof.Machine.execMax core sd sa sb s
  | .minu core sd sa sb => Sys2Proof.Machine.execMinu core sd sa sb s
  | .maxu core sd sa sb => Sys2Proof.Machine.execMaxu core sd sa sb s
  | .ceq core sd sa sb => Sys2Proof.Machine.execCeq core sd sa sb s
  | .cne core sd sa sb => Sys2Proof.Machine.execCne core sd sa sb s
  | .clt core sd sa sb => Sys2Proof.Machine.execClt core sd sa sb s
  | .cltu core sd sa sb => Sys2Proof.Machine.execCltu core sd sa sb s
  | .cle core sd sa sb => Sys2Proof.Machine.execCle core sd sa sb s
  | .cleu core sd sa sb => Sys2Proof.Machine.execCleu core sd sa sb s
  | .mul core sd sa sb => Sys2Proof.Machine.execMul core sd sa sb s
  | .mulh core sd sa sb => Sys2Proof.Machine.execMulh core sd sa sb s
  | .mulhu core sd sa sb => Sys2Proof.Machine.execMulhu core sd sa sb s
  | .fadd core sd sa sb => Sys2Proof.Machine.execFadd core sd sa sb s
  | .fsub core sd sa sb => Sys2Proof.Machine.execFsub core sd sa sb s
  | .fmul core sd sa sb => Sys2Proof.Machine.execFmul core sd sa sb s
  | .fdiv core sd sa sb => Sys2Proof.Machine.execFdiv core sd sa sb s
  | .fsqrt core sd sa => Sys2Proof.Machine.execFsqrt core sd sa s
  | .fmin core sd sa sb => Sys2Proof.Machine.execFmin core sd sa sb s
  | .fmax core sd sa sb => Sys2Proof.Machine.execFmax core sd sa sb s
  | .i2f core sd sa => Sys2Proof.Machine.execI2f core sd sa s
  | .f2i core sd sa => Sys2Proof.Machine.execF2i core sd sa s
  | .addi core sd sa imm => Sys2Proof.Machine.execAddi core sd sa imm s
  | .andi core sd sa imm => Sys2Proof.Machine.execAndi core sd sa imm s
  | .ori core sd sa imm => Sys2Proof.Machine.execOri core sd sa imm s
  | .xori core sd sa imm => Sys2Proof.Machine.execXori core sd sa imm s
  | .lui core sd imm => Sys2Proof.Machine.execLui core sd imm s
  | .sld core sd sa imm => Sys2Proof.Machine.execSld core sd sa imm s
  | .sst core sd sa imm => Sys2Proof.Machine.execSst core sd sa imm s
  | .br core off => Sys2Proof.Machine.execBr core off s
  | .bz core sa off => Sys2Proof.Machine.execBz core sa off s
  | .bnz core sa off => Sys2Proof.Machine.execBnz core sa off s
  | .bnzd core sa off => Sys2Proof.Machine.execBnzd core sa off s
  | .halt core => Sys2Proof.Machine.execHalt core s
  | .vadd core vd va vb pg ty => Sys2Proof.Machine.execVadd core vd va vb pg ty s
  | .vsub core vd va vb pg ty => Sys2Proof.Machine.execVsub core vd va vb pg ty s
  | .vmul core vd va vb pg ty => Sys2Proof.Machine.execVmul core vd va vb pg ty s
  | .vfma core vd va vb pg ty => Sys2Proof.Machine.execVfma core vd va vb pg ty s
  | .vfms core vd va vb pg ty => Sys2Proof.Machine.execVfms core vd va vb pg ty s
  | .vmin core vd va vb pg ty => Sys2Proof.Machine.execVmin core vd va vb pg ty s
  | .vmax core vd va vb pg ty => Sys2Proof.Machine.execVmax core vd va vb pg ty s
  | .vabs core vd va pg ty => Sys2Proof.Machine.execVabs core vd va pg ty s
  | .vneg core vd va pg ty => Sys2Proof.Machine.execVneg core vd va pg ty s
  | .vdiv core vd va vb pg => Sys2Proof.Machine.execVdiv core vd va vb pg s
  | .vsqrt core vd va pg => Sys2Proof.Machine.execVsqrt core vd va pg s
  | .vrsum core vd va pg ty => Sys2Proof.Machine.execVrsum core vd va pg ty s
  | .viadd core vd va vb pg ty => Sys2Proof.Machine.execViadd core vd va vb pg ty s
  | .visub core vd va vb pg ty => Sys2Proof.Machine.execVisub core vd va vb pg ty s
  | .vand core vd va vb pg ty => Sys2Proof.Machine.execVand core vd va vb pg ty s
  | .vor core vd va vb pg ty => Sys2Proof.Machine.execVor core vd va vb pg ty s
  | .vxor core vd va vb pg ty => Sys2Proof.Machine.execVxor core vd va vb pg ty s
  | .vshl core vd va vb pg ty => Sys2Proof.Machine.execVshl core vd va vb pg ty s
  | .vshr core vd va vb pg ty => Sys2Proof.Machine.execVshr core vd va vb pg ty s
  | .vsra core vd va vb pg ty => Sys2Proof.Machine.execVsra core vd va vb pg ty s
  | .vimin core vd va vb pg ty => Sys2Proof.Machine.execVimin core vd va vb pg ty s
  | .vimax core vd va vb pg ty => Sys2Proof.Machine.execVimax core vd va vb pg ty s
  | .vcmpEq core pd va vb pg ty => Sys2Proof.Machine.execVcmpEq core pd va vb pg ty s
  | .vcmpNe core pd va vb pg ty => Sys2Proof.Machine.execVcmpNe core pd va vb pg ty s
  | .vcmpLt core pd va vb pg ty => Sys2Proof.Machine.execVcmpLt core pd va vb pg ty s
  | .vcmpLe core pd va vb pg ty => Sys2Proof.Machine.execVcmpLe core pd va vb pg ty s
  | .vsel core vd va vb pg ty => Sys2Proof.Machine.execVsel core vd va vb pg ty s
  | .pand core pd pa pb => Sys2Proof.Machine.execPand core pd pa pb s
  | .por core pd pa pb => Sys2Proof.Machine.execPor core pd pa pb s
  | .pxor core pd pa pb => Sys2Proof.Machine.execPxor core pd pa pb s
  | .pnot core pd pa => Sys2Proof.Machine.execPnot core pd pa s
  | .vbcast core vd sa pg ty => Sys2Proof.Machine.execVbcast core vd sa pg ty s
  | .vext core sd va sb ty => Sys2Proof.Machine.execVext core sd va sb ty s
  | .vtrRcp core vd va pg => Sys2Proof.Machine.execVtrRcp core vd va pg s
  | .vtrRsq core vd va pg => Sys2Proof.Machine.execVtrRsq core vd va pg s
  | .vtrExp2 core vd va pg => Sys2Proof.Machine.execVtrExp2 core vd va pg s
  | .vtrLog2 core vd va pg => Sys2Proof.Machine.execVtrLog2 core vd va pg s
  | .vcvt core vd va srcT dstT rm sat part => Sys2Proof.Machine.execVcvt core vd va srcT dstT rm sat part s
  | .vcvtSr core vd va dstT sat part => Sys2Proof.Machine.execVcvtSr core vd va dstT sat part s
  | .vmx core vd va elt part sd => Sys2Proof.Machine.execVmx core vd va elt part sd s
  | .vld core v sa off again => Sys2Proof.Machine.execVld core v sa off again s
  | .vst core v sa pg off => Sys2Proof.Machine.execVst core v sa pg off s
  | .send core vs q route => Sys2Proof.Machine.execSend core vs q route s
  | .recv core vd q dir => Sys2Proof.Machine.execRecv core vd q dir s
  | .mxMul core ad ty z sa sb sk => Sys2Proof.Machine.execMxMul core ad ty z sa sb sk s
  | .mxMulStart quad again => Sys2Proof.Machine.execMxMulStart quad again s
  | .mxMulDone quad => Sys2Proof.Machine.execMxMulDone quad s
  | .accRd core v an sr h => Sys2Proof.Machine.execAccRd core v an sr h s
  | .accWr core v an sr h => Sys2Proof.Machine.execAccWr core v an sr h s
  | .accZero core an => Sys2Proof.Machine.execAccZero core an s
  | .stgIn core sn => Sys2Proof.Machine.execStgIn core sn s
  | .stgOut core sn => Sys2Proof.Machine.execStgOut core sn s
  | .gateT core mask => Sys2Proof.Machine.execGateT core mask s
  | .gateC core sa sb => Sys2Proof.Machine.execGateC core sa sb s
  | .requestTimeoutRetransmit flow seq => Sys2Proof.Machine.execRequestTimeoutRetransmit flow seq s
  | .retryResend flow seq => Sys2Proof.Machine.execRetryResend flow seq s
  | .transportAck f => Sys2Proof.Machine.execTransportAck f s
  | .ackDelayExpire flow => Sys2Proof.Machine.execAckDelayExpire flow s
  | .nackDelayExpire flow => Sys2Proof.Machine.execNackDelayExpire flow s
  | .flowRateRaise flow => Sys2Proof.Machine.execFlowRateRaise flow s
  | .klrHandoffDone port => Sys2Proof.Machine.execKlrHandoffDone port s
  | .missServiceDone slice pitch page => Sys2Proof.Machine.execMissServiceDone slice pitch page s
  | .missTimeout slice pitch page => Sys2Proof.Machine.execMissTimeout slice pitch page s
  | .pageTableChangeDone pitch => Sys2Proof.Machine.execPageTableChangeDone pitch s
  | .recallDeadline endpoint context => Sys2Proof.Machine.execRecallDeadline endpoint context s
  | .lineReadDone chan sub entryBad outs => Sys2Proof.Machine.execLineReadDone chan sub entryBad outs s
  | .writeBufferIssue chan sub bad => Sys2Proof.Machine.execWriteBufferIssue chan sub bad s
  | .refreshInstant => Sys2Proof.Machine.execRefreshInstant s
  | .agePromotion chan => Sys2Proof.Machine.execAgePromotion chan s
  | .pageIdlePrecharge chan sub rank bank => Sys2Proof.Machine.execPageIdlePrecharge chan sub rank bank s
  | .caAlert chan sub => Sys2Proof.Machine.execCaAlert chan sub s
  | .caReplayDone chan sub => Sys2Proof.Machine.execCaReplayDone chan sub s
  | .caConsecReset chan sub => Sys2Proof.Machine.execCaConsecReset chan sub s
  | .retrainDone chan ok => Sys2Proof.Machine.execRetrainDone chan ok s
  | .retrainTimeout chan => Sys2Proof.Machine.execRetrainTimeout chan s
  | .channelTrainingDone chan ok tr => Sys2Proof.Machine.execChannelTrainingDone chan ok tr s
  | .initGranuleDone granule => Sys2Proof.Machine.execInitGranuleDone granule s
  | .gateListCommit src list => Sys2Proof.Machine.execGateListCommit src list s
  | .gateListTakeover list => Sys2Proof.Machine.execGateListTakeover list s
  | .gateIntervalBoundary list => Sys2Proof.Machine.execGateIntervalBoundary list s
  | .tmgPcfgWrite src pitch value => Sys2Proof.Machine.execTmgPcfgWrite src pitch value s
  | .linkFrameStart link => Sys2Proof.Machine.execLinkFrameStart link s
  | .laneSoftFault port lane symbols => Sys2Proof.Machine.execLaneSoftFault port lane symbols s
  | .laneHardFault port lane => Sys2Proof.Machine.execLaneHardFault port lane s
  | .lmapReq rx => Sys2Proof.Machine.execLmapReq rx s
  | .lmapAck rx => Sys2Proof.Machine.execLmapAck rx s
  | .lmapSwitch rx => Sys2Proof.Machine.execLmapSwitch rx s
  | .lmapSwitchPoint port => Sys2Proof.Machine.execLmapSwitchPoint port s
  | .lmapDone rx => Sys2Proof.Machine.execLmapDone rx s
  | .lmapRefuse rx => Sys2Proof.Machine.execLmapRefuse rx s
  | .lmapSwapTimeout port => Sys2Proof.Machine.execLmapSwapTimeout port s
  | .laneBringupTimeout port dark => Sys2Proof.Machine.execLaneBringupTimeout port dark s
  | .peerAbsentRetry port => Sys2Proof.Machine.execPeerAbsentRetry port s
  | .pcsLinkUp link => Sys2Proof.Machine.execPcsLinkUp link s
  | .pcsLinkDown link => Sys2Proof.Machine.execPcsLinkDown link s
  | .hello rx => Sys2Proof.Machine.execHello rx s
  | .helloSendTimer link => Sys2Proof.Machine.execHelloSendTimer link s
  | .helloTimeout link => Sys2Proof.Machine.execHelloTimeout link s
  | .klrData rx => Sys2Proof.Machine.execKlrData rx s
  | .klrStatus rx => Sys2Proof.Machine.execKlrStatus rx s
  | .klrAckDelayExpire link => Sys2Proof.Machine.execKlrAckDelayExpire link s
  | .klrStatusPeriod link => Sys2Proof.Machine.execKlrStatusPeriod link s
  | .klrReplayTimer link => Sys2Proof.Machine.execKlrReplayTimer link s
  | .klrDownRetire port => Sys2Proof.Machine.execKlrDownRetire port s
  | .ptpFrameRx link msg => Sys2Proof.Machine.execPtpFrameRx link msg s
  | .ptpSyncTimeout => Sys2Proof.Machine.execPtpSyncTimeout s
  | .arpNdRequest link nd target => Sys2Proof.Machine.execArpNdRequest link nd target s
  | .pauseFrameRx via => Sys2Proof.Machine.execPauseFrameRx via s
  | .macFrameReject via encap fcsOk uncorr => Sys2Proof.Machine.execMacFrameReject via encap fcsOk uncorr s
  | .fabReflectReinject hdr payload plane fails => Sys2Proof.Machine.execFabReflectReinject hdr payload plane fails s
  | .fabStarve router plane => Sys2Proof.Machine.execFabStarve router plane s
  | .fabRtWrite src router bank plane dest value => Sys2Proof.Machine.execFabRtWrite src router bank plane dest value s
  | .fabEpochGo src => Sys2Proof.Machine.execFabEpochGo src s
  | .fabEpochSwitch => Sys2Proof.Machine.execFabEpochSwitch s
  | .fabDrainCheck => Sys2Proof.Machine.execFabDrainCheck s
  | .heartbeatTx peer mpLine => Sys2Proof.Machine.execHeartbeatTx peer mpLine s
  | .heartbeat f => Sys2Proof.Machine.execHeartbeat f s
  | .guyLineLost peer mpLine => Sys2Proof.Machine.execGuyLineLost peer mpLine s
  | .mirrorSelfFence pitch => Sys2Proof.Machine.execMirrorSelfFence pitch s
  | .mirrorTakeover pitch => Sys2Proof.Machine.execMirrorTakeover pitch s
  | .probeTimer pitch => Sys2Proof.Machine.execProbeTimer pitch s
  | .probe f => Sys2Proof.Machine.execProbe f s
  | .probeResponse f => Sys2Proof.Machine.execProbeResponse f s
  | .release f => Sys2Proof.Machine.execRelease f s
  | .releaseResponse f => Sys2Proof.Machine.execReleaseResponse f s
  | .mirrorData op f => Sys2Proof.Machine.execMirrorData op f s
  | .mirrorResponse op f => Sys2Proof.Machine.execMirrorResponse op f s
  | .resyncDone pitch => Sys2Proof.Machine.execResyncDone pitch s
  | .powerOn => Sys2Proof.Machine.execPowerOn s
  | .bootStepComplete flashOk badAddr slots => Sys2Proof.Machine.execBootStepComplete flashOk badAddr slots s
  | .bootStepTimeout => Sys2Proof.Machine.execBootStepTimeout s
  | .svnBurn => Sys2Proof.Machine.execSvnBurn s
  | .flashRead src => Sys2Proof.Machine.execFlashRead src s
  | .flashProgram src => Sys2Proof.Machine.execFlashProgram src s
  | .flashErase src => Sys2Proof.Machine.execFlashErase src s
  | .flashCmdDone ok => Sys2Proof.Machine.execFlashCmdDone ok s
  | .bootCheck src => Sys2Proof.Machine.execBootCheck src s
  | .bootCheckDone flashOk badAddr => Sys2Proof.Machine.execBootCheckDone flashOk badAddr s
  | .chipResetCmd src key => Sys2Proof.Machine.execChipResetCmd src key s
  | .recoveryReset src key => Sys2Proof.Machine.execRecoveryReset src key s
  | .resetNPin ns => Sys2Proof.Machine.execResetNPin ns s
  | .powerDown ns => Sys2Proof.Machine.execPowerDown ns s
  | .tapReset => Sys2Proof.Machine.execTapReset s
  | .recoveryAccess f => Sys2Proof.Machine.execRecoveryAccess f s
  | .svcMgmtScopeWrite src value => Sys2Proof.Machine.execSvcMgmtScopeWrite src value s
  | .agtCntRead src agent => Sys2Proof.Machine.execAgtCntRead src agent s
  | .fumMr5Extend src => Sys2Proof.Machine.execFumMr5Extend src s
  | .cvuInit sc poly => Sys2Proof.Machine.execCvuInit sc poly s
  | .cvuCtrlPoly sc poly => Sys2Proof.Machine.execCvuCtrlPoly sc poly s
  | .cvuFeedB sc data => Sys2Proof.Machine.execCvuFeedB sc data s
  | .cvuFeedH sc data => Sys2Proof.Machine.execCvuFeedH sc data s
  | .cvuFeedW sc data => Sys2Proof.Machine.execCvuFeedW sc data s
  | .cvuValueWrite sc data => Sys2Proof.Machine.execCvuValueWrite sc data s
  | .svcWdogKick sc => Sys2Proof.Machine.execSvcWdogKick sc s
  | .watchdogExpire sram => Sys2Proof.Machine.execWatchdogExpire sram s
  | .svcRestartDone firmwareOk => Sys2Proof.Machine.execSvcRestartDone firmwareOk s
  | .scCacheParity sc again => Sys2Proof.Machine.execScCacheParity sc again s
  | .dbgMemRead src => Sys2Proof.Machine.execDbgMemRead src s
  | .dbgMemReadDone => Sys2Proof.Machine.execDbgMemReadDone s
  | .dbgStoreCapture src addr => Sys2Proof.Machine.execDbgStoreCapture src addr s
  | .traceSample => Sys2Proof.Machine.execTraceSample s
  | .jtagMgmtAccess op addr data => Sys2Proof.Machine.execJtagMgmtAccess op addr data s
  | .idcode => Sys2Proof.Machine.execIdcode s
  | .samplePreload bits => Sys2Proof.Machine.execSamplePreload bits s
  | .extest bits => Sys2Proof.Machine.execExtest bits s
  | .clamp => Sys2Proof.Machine.execClamp s
  | .highz => Sys2Proof.Machine.execHighz s
  | .bypass ir => Sys2Proof.Machine.execBypass ir s
  | .attestQuote f => Sys2Proof.Machine.execAttestQuote f s
  | .attestQuoteSigned flow seq => Sys2Proof.Machine.execAttestQuoteSigned flow seq s
  | .ephKeyGenerated => Sys2Proof.Machine.execEphKeyGenerated s
  | .keyDeliver f => Sys2Proof.Machine.execKeyDeliver f s
  | .cocoonLoad f => Sys2Proof.Machine.execCocoonLoad f s
  | .cocoonLoadDone pitch => Sys2Proof.Machine.execCocoonLoadDone pitch s
  | .certGet f => Sys2Proof.Machine.execCertGet f s
  | .adcFrame codes => Sys2Proof.Machine.execAdcFrame codes s
  | .feedReturn feedB => Sys2Proof.Machine.execFeedReturn feedB s
  | .feedOffWrite src value => Sys2Proof.Machine.execFeedOffWrite src value s
  | .dieTempRead temps => Sys2Proof.Machine.execDieTempRead temps s
  | .modulePoll reads => Sys2Proof.Machine.execModulePoll reads s
  | .fanUpdate => Sys2Proof.Machine.execFanUpdate s
  | .fanTachCount pulses => Sys2Proof.Machine.execFanTachCount pulses s
  | .capDecision => Sys2Proof.Machine.execCapDecision s
  | .clockStepRelock => Sys2Proof.Machine.execClockStepRelock s
  | .pllUnlock pll => Sys2Proof.Machine.execPllUnlock pll s
  | .pllRelock pll => Sys2Proof.Machine.execPllRelock pll s
  | .collCloseResponse f => Sys2Proof.Machine.execCollCloseResponse f s
  | .ptpMessageInterval link kind => Sys2Proof.Machine.execPtpMessageInterval link kind s
  | .tokenRefillTick => Sys2Proof.Machine.execTokenRefillTick s
  | .dbgStoreCaptureDone src => Sys2Proof.Machine.execDbgStoreCaptureDone src s

end Sys2Proof.Machine
end

