-- ==== Sys2Proof/Machine/Tick.lean ====
section
/-! DEFINITION. What passes while no command waits (log 1). -/
namespace Sys2Proof.Machine

/-- One nanosecond of the clocks: the packets on the mesh move, then the grid's session cycle. -/
def tick (s : State) : State := gridTick (meshTick (elapse s 1) s.now)

end Sys2Proof.Machine
end

