-- ==== Sys2Proof/Safety.lean ====
section
/-! DEFINITION. What counts as a sound state of the block, and what the configuration lock fixes, in the terms the statements use. -/
namespace Sys2Proof.Machine

/-- Memory in its canonical form (R161): rising addresses, and no entry holds what an unlisted one reads as (log 3). -/
def Memory.wf (m : Tab Byte) : Bool := tcanon 0 m

/-- The tables whose form a write relies on are in it: memory, line metadata, stored registers, partners. -/
def tablesOk (s : State) : Bool :=
  Memory.wf s.dmc.mem && tcanon {} s.dmc.meta_ && tsorted s.csr && tsorted s.mir.peers

/-- BOOT_STATUS says something R448, R450 and R455 allow: a step of the sequence or ROM recovery; the chip serves exactly
from the configuration lock on, at step 9. -/
def bootLegal (s : State) : Bool :=
  (decide (1 ≤ s.boot.step ∧ s.boot.step ≤ 9) || decide (s.boot.step = 15)) && (s.boot.serving == s.boot.locked) &&
    (!s.boot.serving || decide (s.boot.step = 9))

/-- Bits of a register that only the image writes, before the lock (R14, RWL). -/
def rwlMask (agent off : Nat) : Nat := match regBits agent off with | none => 0 | some (_, rwl) => rwl

/-- What those bits hold. -/
def lockedBits (s : State) (agent off : Nat) : Word := regGet s (storeAgent agent) off &&& BitVec.ofNat 32 (rwlMask agent off)

/-- An entry of the partner table, without the beats that its guy lines count. -/
def partnerEntry (s : State) (k : Nat) : BitVec 128 × BitVec 16 × BitVec 128 × Option Nat × Nat × Nat × BitVec 64 :=
  let p := peerGet s k
  (p.addr, p.port, p.mpAddr, p.direct, p.localBase, p.remoteBase, p.serial)

/-- Two states agree on everything that the configuration lock fixes (R450): RWL bits, MR0 to MR4, templates, partners, and
the rest of the image: network section, operator key, tables, library. -/
def sameLocked (s t : State) : Prop :=
  t.templates = s.templates ∧ t.img = s.img ∧ t.fum.mr.take 5 = s.fum.mr.take 5 ∧ (∀ k, partnerEntry t k = partnerEntry s k) ∧
    ∀ agent off, lockedBits t agent off = lockedBits s agent off

/-- The answer is the landing of a vector result of elements of w bytes: element e of it is `f e`, and exactly the elements that
the predicate governs are written (R311, R316). -/
def landsElements (o : Host.Outcome State Fault Refusal) (s : State) (ix c lat vd : Nat) (p : BitVec 128) (w : Nat) (f : Nat → Nat) : Prop :=
  ∃ m v, o = .next (landIn s ix c lat (.vreg vd m v)) ∧ ∀ e, e < 128 / w →
    elAt v (8 * w) e = f e % 2 ^ (8 * w) ∧ elAt m (8 * w) e = (if p.getLsbD (w * e) then 2 ^ (8 * w) - 1 else 0)

/-- Checks 9 to 13 pass for a request of an endpoint with good lengths and addresses (R63). -/
def Checked (t : State) (r : Req) : Prop :=
  flagMisuse t r = false ∧ permitted t r = true ∧ isMirror t r = false ∧ pitchCheck t r = none

/-- Checks 9 to 14 pass, with the pieces `ps` of each range the operation needs, and the lines of sync pages among them are
obtained (R237): the operation runs at state `u`. -/
def Served (t : State) (r : Req) (ps : List (List Piece)) (u : State) : Prop :=
  Checked t r ∧ lenOk t r = true ∧ alignOk t r = true ∧ (∃ slice, check14 t r (needsOf t r) = .ok ps slice) ∧
    obtainLines t r ((ps[0]?).getD []) ((ps[1]?).getD []) = (u, true)

/-- A request frame passes checks 1 to 8 and policing (R63), and checks 9 to 14. -/
def Ready (s : State) (op : Byte) (f : RxFrame) (r : Req) (ps : List (List Piece)) (u : State) : Prop :=
  ∃ t, receive s op f = .go t r ∧ Served t r ps u

/-- The operation of a request is done: its lines go free, an acknowledgement may fall due, and requests whose lines came
free run (R104, R227, R237). -/
def operated (t : State) (r : Req) : Host.Outcome State Fault Refusal := .next (settle (ackNow (releaseLines t r) r.flow))

end Sys2Proof.Machine
end

