-- ==== Sys2Proof/Certificates/Slice0/Obligations.lean ====
section
/-! DEFINITION. The statements for the provers: what each family of commands does, what an instruction, a frame, a register access or
an event leaves in the state, the invariants that every step keeps, and rules of the spec in their own words. Where a statement
says `exec … = .next t` with `t` written out, everything that `t` does not name is unchanged. -/
open Sys2Proof Sys2Proof.Machine

/-! ## The kernel grid (R275 to R342) -/

/-- R321, R322: the integer instructions of slots S and X; a RUNNING session holds the core. Each result lands with the latency
of R319, and nothing else changes. MIN, MAX and the high halves of products are given by what they are as numbers. R321, R322:
the FP32 instructions of slot S, on bits [31:0], bits [63:32] of sd written 0, with the latencies of R319. F2I goes toward zero,
saturates, and gives 0 for a NaN. -/
def Obligations.ScalarResults : Prop :=
  (
    ∀ (s : State) (core : BitVec 6) (ix : Nat) (sd sa sb : BitVec 5) (imm : BitVec 16) (up : BitVec 21),
      coreSess s core.toNat = some ix →
      let A := sReg s core.toNat sa
      let B := sReg s core.toNat sb
      let lands (lat : Nat) (v : DWord) := Host.Outcome.next (φ := Fault) (ρ := Refusal) (landIn s ix core.toNat lat (.sreg sd.toNat v))
      exec (.add core sd sa sb) s = lands 1 (A + B) ∧
      exec (.sub core sd sa sb) s = lands 1 (A - B) ∧
      exec (.and core sd sa sb) s = lands 1 (A &&& B) ∧
      exec (.or core sd sa sb) s = lands 1 (A ||| B) ∧
      exec (.xor core sd sa sb) s = lands 1 (A ^^^ B) ∧
      exec (.shl core sd sa sb) s = lands 1 (BitVec.ofNat 64 (A.toNat * 2 ^ (B.toNat % 64))) ∧
      exec (.shr core sd sa sb) s = lands 1 (BitVec.ofNat 64 (A.toNat / 2 ^ (B.toNat % 64))) ∧
      (∃ v, exec (.sra core sd sa sb) s = lands 1 v ∧ v.toInt = A.toInt >>> (B.toNat % 64)) ∧
      (∃ v, exec (.min core sd sa sb) s = lands 1 v ∧ v.toInt = min A.toInt B.toInt) ∧
      (∃ v, exec (.max core sd sa sb) s = lands 1 v ∧ v.toInt = max A.toInt B.toInt) ∧
      (∃ v, exec (.minu core sd sa sb) s = lands 1 v ∧ v.toNat = min A.toNat B.toNat) ∧
      (∃ v, exec (.maxu core sd sa sb) s = lands 1 v ∧ v.toNat = max A.toNat B.toNat) ∧
      exec (.ceq core sd sa sb) s = lands 1 (if A = B then 1 else 0) ∧
      exec (.cne core sd sa sb) s = lands 1 (if A = B then 0 else 1) ∧
      exec (.clt core sd sa sb) s = lands 1 (if A.toInt < B.toInt then 1 else 0) ∧
      exec (.cltu core sd sa sb) s = lands 1 (if A.toNat < B.toNat then 1 else 0) ∧
      exec (.cle core sd sa sb) s = lands 1 (if B.toInt < A.toInt then 0 else 1) ∧
      exec (.cleu core sd sa sb) s = lands 1 (if B.toNat < A.toNat then 0 else 1) ∧
      exec (.mul core sd sa sb) s = lands 3 (A * B) ∧
      (∃ v, exec (.mulh core sd sa sb) s = lands 3 v ∧ v.toInt * 2 ^ 64 + ((A * B).toNat : Int) = A.toInt * B.toInt) ∧
      (∃ v, exec (.mulhu core sd sa sb) s = lands 3 v ∧ v.toNat * 2 ^ 64 + (A * B).toNat = A.toNat * B.toNat) ∧
      exec (.addi core sd sa imm) s = lands 1 (A + BitVec.ofInt 64 imm.toInt) ∧
      exec (.andi core sd sa imm) s = lands 1 (A &&& BitVec.ofNat 64 imm.toNat) ∧
      exec (.ori core sd sa imm) s = lands 1 (A ||| BitVec.ofNat 64 imm.toNat) ∧
      exec (.xori core sd sa imm) s = lands 1 (A ^^^ BitVec.ofNat 64 imm.toNat) ∧
      exec (.lui core sd up) s = lands 1 (BitVec.ofInt 64 (up.toInt * 2 ^ 16))) ∧
  (
    ∀ (s : State) (core : BitVec 6) (ix : Nat) (sd sa sb : BitVec 5), coreSess s core.toNat = some ix →
      let A := (sReg s core.toNat sa).toNat % 2 ^ 32
      let B := (sReg s core.toNat sb).toNat % 2 ^ 32
      let lands (lat : Nat) (v : DWord) := Host.Outcome.next (φ := Fault) (ρ := Refusal) (landIn s ix core.toNat lat (.sreg sd.toNat v))
      let single (lat x : Nat) := lands lat (BitVec.ofNat 64 (x % 2 ^ 32))
      exec (.fadd core sd sa sb) s = single 4 (encodeF fp32 (numAdd (decodeF fp32 A) (decodeF fp32 B))) ∧
      exec (.fsub core sd sa sb) s = single 4 (encodeF fp32 (numAdd (decodeF fp32 A) (numNeg (decodeF fp32 B)))) ∧
      exec (.fmul core sd sa sb) s = single 4 (encodeF fp32 (numMul (decodeF fp32 A) (decodeF fp32 B))) ∧
      exec (.fdiv core sd sa sb) s = single 24 (divF fp32 A B) ∧
      exec (.fsqrt core sd sa) s = single 24 (sqrtF fp32 A) ∧
      exec (.fmin core sd sa sb) s = single 4 (encodeF fp32 (minNum (decodeF fp32 A) (decodeF fp32 B))) ∧
      exec (.fmax core sd sa sb) s = single 4 (encodeF fp32 (maxNum (decodeF fp32 A) (decodeF fp32 B))) ∧
      exec (.i2f core sd sa) s = single 4 (roundT 0 0 false (numOfInt (sReg s core.toNat sa).toInt)).1 ∧
      exec (.f2i core sd sa) s = lands 4 (BitVec.ofInt 64 (match decodeF fp32 A with
        | .nan => 0
        | .inf neg => if neg then -(2 ^ 63) else 2 ^ 63 - 1
        | .fin neg m x =>
          let whole : Int := if 0 ≤ x then (m : Int) * 2 ^ x.toNat else (m : Int) / 2 ^ (-x).toNat
          if neg then max (-whole) (-(2 ^ 63)) else min whole (2 ^ 63 - 1))))

/-- R318, R321, R322: NOP does nothing, a branch to a target within 0 to 16,383 records it for the bundle after its two delay
bundles, BNZD also lands sa − 1, and HALT halts the core. A target outside is a reserved encoding (R314): ILLEGAL. -/
def Obligations.BranchesAndHalt : Prop :=
  ∀ (s : State) (core : BitVec 6) (ix : Nat) (sa : BitVec 5) (off : BitVec 16), coreSess s core.toNat = some ix →
    let c := core.toNat
    let A := sReg s c sa
    let dest : Int := ((coreGet s c).pc : Int) + off.toInt
    let ends (t : State) := Host.Outcome.next (φ := Fault) (ρ := Refusal) t
    let jump (t : State) := corePut t c { coreGet t c with target := some dest.toNat }
    let less := landIn s ix c 1 (.sreg sa.toNat (A - 1))
    exec (.nop core) s = ends s ∧
    exec (.halt core) s = ends (corePut s c { coreGet s c with halted := some (sessGet s ix).cycles }) ∧
    (0 ≤ dest ∧ dest ≤ 16383 →
      exec (.br core off) s = ends (jump s) ∧
      exec (.bz core sa off) s = ends (if A = 0 then jump s else s) ∧
      exec (.bnz core sa off) s = ends (if A = 0 then s else jump s) ∧
      exec (.bnzd core sa off) s = ends (if A = 1 then less else jump less)) ∧
    (dest < 0 ∨ 16383 < dest →
      exec (.br core off) s = ends (endSess s ix 8 (some c) 0) ∧
      exec (.bz core sa off) s = ends (endSess s ix 8 (some c) 0) ∧
      exec (.bnz core sa off) s = ends (endSess s ix 8 (some c) 0) ∧
      exec (.bnzd core sa off) s = ends (endSess s ix 8 (some c) 0))

/-- R298, R312, R332, R333: a scalar access moves 8 bytes at an address with bits [2:0] ignored, a vector access 128 bytes with
bits [6:0] ignored, little-endian; VST writes byte b only where pg bit b is 1. At or above 18_0000h a load gives zero and a store
writes nothing, and the access is counted. -/
def Obligations.HoldAccess : Prop :=
  ∀ (s : State) (core : BitVec 6) (ix : Nat) (r sa : BitVec 5) (pg : BitVec 3) (imm : BitVec 16) (off : BitVec 13),
    coreSess s core.toNat = some ix →
    let c := core.toNat
    let k := sessGet s ix
    let sc := (sReg s c sa + BitVec.ofInt 64 imm.toInt).toNat / 8 * 8
    let vec := (sReg s c sa + BitVec.ofInt 64 (128 * off.toInt)).toNat / 128 * 128
    let ends (t : State) := Host.Outcome.next (φ := Fault) (ρ := Refusal) t
    let counted := bump s .grdHoldOor 0 0 k.pitch.toNat
    (sc < 0x180000 → (k.pend.all (fun p => p.quad ≠ quadOf c ∨ p.target ≠ coreIn c)) = true →
      exec (.sld core r sa imm) s = ends (landIn s ix c 5 (.sreg r.toNat (BitVec.ofNat 64 (leNat (holdBytes s c sc 8))))) ∧
      exec (.sst core r sa imm) s = ends (landIn s ix c 1 (.hold sc 0xFF (leBytes 8 (sReg s c r).toNat)))) ∧
    (0x180000 ≤ sc →
      exec (.sld core r sa imm) s = ends (landIn counted ix c 5 (.sreg r.toNat 0)) ∧
      exec (.sst core r sa imm) s = ends counted) ∧
    (vec < 0x180000 → (k.pend.all (fun p => p.quad ≠ quadOf c ∨ p.target ≠ coreIn c)) = true →
      exec (.vld core r sa off .good) s =
        ends (landIn s ix c 5 (.vreg r.toNat (BitVec.allOnes 1024) (BitVec.ofNat 1024 (leNat (holdBytes s c vec 128))))) ∧
      exec (.vst core r sa pg off) s = ends (landIn s ix c 1 (.hold vec (pReg s c pg) (leBytes 128 (vReg s c r).toNat)))) ∧
    (0x180000 ≤ vec →
      exec (.vld core r sa off .good) s = ends (landIn counted ix c 5 (.vreg r.toNat (BitVec.allOnes 1024) 0)) ∧
      exec (.vst core r sa pg off) s = ends counted)

/-- R311, R319, R323, R324: floating-point vector instructions, element by element, in the format of TY; ungoverned elements keep
their value. VFMA and VFMS round once, and the FP32-only VDIV and VSQRT take 24 cycles. R325: VRSUM puts the rounded total of the
pairwise sum into element 0 and 0 everywhere else, whatever the predicate leaves out of it. -/
def Obligations.VectorFloatResults : Prop :=
  (
    ∀ (s : State) (core : BitVec 6) (ix : Nat) (vd va vb : BitVec 5) (pg ty : BitVec 3),
      coreSess s core.toNat = some ix → ty.toNat ≤ 2 →
      let c := core.toNat
      let p := pReg s c pg
      let w := if ty.toNat = 0 then 4 else 2
      let f := if ty.toNat = 0 then fp32 else if ty.toNat = 1 then bf16 else fp16
      let el (r : BitVec 5) (e : Nat) := decodeF f (elAt (vReg s c r) (8 * w) e)
      let gives (i : Instr) (g : Nat → Nat) := landsElements (exec i s) s ix c 4 vd.toNat p w g
      gives (.vadd core vd va vb pg ty) (fun e => encodeF f (numAdd (el va e) (el vb e))) ∧
      gives (.vsub core vd va vb pg ty) (fun e => encodeF f (numAdd (el va e) (numNeg (el vb e)))) ∧
      gives (.vmul core vd va vb pg ty) (fun e => encodeF f (numMul (el va e) (el vb e))) ∧
      gives (.vfma core vd va vb pg ty) (fun e => encodeF f (numAdd (numMul (el va e) (el vb e)) (el vd e))) ∧
      gives (.vfms core vd va vb pg ty) (fun e => encodeF f (numAdd (numNeg (numMul (el va e) (el vb e))) (el vd e))) ∧
      gives (.vmin core vd va vb pg ty) (fun e => encodeF f (minNum (el va e) (el vb e))) ∧
      gives (.vmax core vd va vb pg ty) (fun e => encodeF f (maxNum (el va e) (el vb e))) ∧
      gives (.vabs core vd va pg ty) (fun e => encodeF f (match el va e with
        | .nan => .nan
        | .inf _ => .inf false
        | .fin _ m x => .fin false m x)) ∧
      gives (.vneg core vd va pg ty) (fun e => encodeF f (numNeg (el va e))) ∧
      landsElements (exec (.vdiv core vd va vb pg) s) s ix c 24 vd.toNat p 4
        (fun e => divF fp32 (elAt (vReg s c va) 32 e) (elAt (vReg s c vb) 32 e)) ∧
      landsElements (exec (.vsqrt core vd va pg) s) s ix c 24 vd.toNat p 4 (fun e => sqrtF fp32 (elAt (vReg s c va) 32 e))) ∧
  (
    ∀ (s : State) (core : BitVec 6) (ix : Nat) (vd va : BitVec 5) (pg ty : BitVec 3),
      coreSess s core.toNat = some ix → ty.toNat ≤ 2 →
      let c := core.toNat
      let w := if ty.toNat = 0 then 4 else 2
      let leaf (e : Nat) := if (pReg s c pg).getLsbD (w * e) then widenT ty.toNat (elAt (vReg s c va) (8 * w) e) else 0x80000000
      let leaves := (upto (128 / w)).map leaf
      let total := (roundT ty.toNat 0 false (decodeF fp32 ((spanBy (addF fp32) (leaves.length + 1) leaves).getD 0))).1
      exec (.vrsum core vd va pg ty) s =
        .next (landIn s ix c 8 (.vreg vd.toNat (BitVec.allOnes 1024) (BitVec.ofNat 1024 total))))

/-- R311, R323: integer vector instructions, element by element: add and subtract modulo 2^(8w), shifts by the low bits of the vb
element, minimum and maximum as signed numbers; VBCAST puts the low 8w bits of a scalar into every governed element. R311, R323:
a compare writes all w predicate bits of a governed element with its outcome and 0 for the others, VSEL takes each element from
va or vb, the predicate instructions work on all 128 bits, VEXT zero-extends one element. -/
def Obligations.VectorIntegerAndSelectResults : Prop :=
  (
    ∀ (s : State) (core : BitVec 6) (ix : Nat) (vd va vb : BitVec 5) (pg ty : BitVec 3),
      coreSess s core.toNat = some ix → ty.toNat ≤ 5 →
      let c := core.toNat
      let p := pReg s c pg
      let w := if ty.toNat = 0 ∨ ty.toNat = 3 then 4 else if ty.toNat = 5 then 1 else 2
      let el (r : BitVec 5) (e : Nat) := elAt (vReg s c r) (8 * w) e
      let num (r : BitVec 5) (e : Nat) := signedOf (8 * w) (el r e)
      let gives (i : Instr) (g : Nat → Nat) := landsElements (exec i s) s ix c 1 vd.toNat p w g
      gives (.vbcast core vd va pg ty) (fun _ => (sReg s c va).toNat) ∧
      (3 ≤ ty.toNat →
        gives (.viadd core vd va vb pg ty) (fun e => el va e + el vb e) ∧
        gives (.visub core vd va vb pg ty) (fun e => el va e + 2 ^ (8 * w) - el vb e) ∧
        gives (.vand core vd va vb pg ty) (fun e => el va e &&& el vb e) ∧
        gives (.vor core vd va vb pg ty) (fun e => el va e ||| el vb e) ∧
        gives (.vxor core vd va vb pg ty) (fun e => el va e ^^^ el vb e) ∧
        gives (.vshl core vd va vb pg ty) (fun e => el va e * 2 ^ (el vb e % (8 * w))) ∧
        gives (.vshr core vd va vb pg ty) (fun e => el va e / 2 ^ (el vb e % (8 * w))) ∧
        gives (.vsra core vd va vb pg ty) (fun e => ((num va e >>> (el vb e % (8 * w))) % 2 ^ (8 * w)).toNat) ∧
        gives (.vimin core vd va vb pg ty) (fun e => if num va e < num vb e then el va e else el vb e) ∧
        gives (.vimax core vd va vb pg ty) (fun e => if num va e < num vb e then el vb e else el va e))) ∧
  (
    ∀ (s : State) (core : BitVec 6) (ix : Nat) (vd va vb : BitVec 5) (pd pa pb pg ty : BitVec 3),
      coreSess s core.toNat = some ix → ty.toNat ≤ 5 →
      let c := core.toNat
      let w := if ty.toNat = 0 ∨ ty.toNat = 3 then 4 else if ty.toNat = 5 then 1 else 2
      let f := if ty.toNat = 0 then fp32 else if ty.toNat = 1 then bf16 else fp16
      let el (r : BitVec 5) (e : Nat) := elAt (vReg s c r) (8 * w) e
      let diff (e : Nat) : Option Int :=
        if 3 ≤ ty.toNat then some (signedOf (8 * w) (el va e) - signedOf (8 * w) (el vb e))
        else if isNanF f (el va e) ∨ isNanF f (el vb e) then none
        else some (cmpNum (decodeF f (el va e)) (decodeF f (el vb e)))
      let holds (i : Instr) (test : Option Int → Prop) := ∃ v,
        exec i s = .next (landIn s ix c 1 (.pred pd.toNat v)) ∧
        ∀ e, e < 128 / w → ∀ b, b < w → (v.getLsbD (w * e + b) = true ↔ (pReg s c pg).getLsbD (w * e) = true ∧ test (diff e))
      let lands (dest : LandTo) := Host.Outcome.next (φ := Fault) (ρ := Refusal) (landIn s ix c 1 dest)
      holds (.vcmpEq core pd va vb pg ty) (fun x => x = some 0) ∧
      holds (.vcmpNe core pd va vb pg ty) (fun x => x ≠ some 0) ∧
      holds (.vcmpLt core pd va vb pg ty) (fun x => ∃ d, x = some d ∧ d < 0) ∧
      holds (.vcmpLe core pd va vb pg ty) (fun x => ∃ d, x = some d ∧ d ≤ 0) ∧
      (∃ v, exec (.vsel core vd va vb pg ty) s = lands (.vreg vd.toNat (BitVec.allOnes 1024) v) ∧
        ∀ e, e < 128 / w → elAt v (8 * w) e = if (pReg s c pg).getLsbD (w * e) then el va e else el vb e) ∧
      exec (.pand core pd pa pb) s = lands (.pred pd.toNat (pReg s c pa &&& pReg s c pb)) ∧
      exec (.por core pd pa pb) s = lands (.pred pd.toNat (pReg s c pa ||| pReg s c pb)) ∧
      exec (.pxor core pd pa pb) s = lands (.pred pd.toNat (pReg s c pa ^^^ pReg s c pb)) ∧
      exec (.pnot core pd pa) s = lands (.pred pd.toNat (~~~(pReg s c pa))) ∧
      exec (.vext core vd va vb ty) s =
        .next (landIn s ix c 2 (.sreg vd.toNat (BitVec.ofNat 64 (el va ((sReg s c vb).toNat % (128 / w)))))))

/-- R330: a VTR is applied to each governed FP32 element, from the image's tables; latency 8. The fixed results of R330 hold
whatever the tables say. R326: VCVT lands after 3 cycles. Narrowing by k writes the k-th part of vd that PART selects and leaves
the rest; at the same width and when widening it writes the whole of vd, from the part of va that PART selects. Floating-point
results are rounded as R252 does, floating point to integer saturates and takes NaN to 0, and integers keep their value where the
type holds it (elsewhere the spec states no result, log 21). -/
def Obligations.TranscendentalAndConversionResults : Prop :=
  (
    (∀ (s : State) (core : BitVec 6) (ix : Nat) (vd va : BitVec 5) (pg : BitVec 3), coreSess s core.toNat = some ix →
      let c := core.toNat
      let gives (i : Instr) (fn : Nat) := landsElements (exec i s) s ix c 8 vd.toNat (pReg s c pg) 4
        (fun e => vtr s.img.tables fn (elAt (vReg s c va) 32 e))
      gives (.vtrRcp core vd va pg) 0 ∧ gives (.vtrRsq core vd va pg) 1 ∧
      gives (.vtrExp2 core vd va pg) 2 ∧ gives (.vtrLog2 core vd va pg) 3) ∧
    ∀ (t : List (Int × Int × Int)) (fn x : Nat), fn < 4 →
      (decodeF fp32 x = .nan → vtr t fn x = 0x7FC00000) ∧
      vtr t 0 0x00000000 = 0x7F800000 ∧ vtr t 1 0x00000000 = 0x7F800000 ∧ vtr t 2 0x00000000 = 0x3F800000 ∧
      vtr t 3 0x00000000 = 0xFF800000 ∧ vtr t 0 0x80000000 = 0xFF800000 ∧ vtr t 1 0x80000000 = 0xFF800000 ∧
      vtr t 2 0x80000000 = 0x3F800000 ∧ vtr t 3 0x80000000 = 0xFF800000 ∧ vtr t 0 0x7F800000 = 0 ∧ vtr t 1 0x7F800000 = 0 ∧
      vtr t 2 0x7F800000 = 0x7F800000 ∧ vtr t 3 0x7F800000 = 0x7F800000 ∧ vtr t 0 0xFF800000 = 0x80000000 ∧
      vtr t 1 0xFF800000 = 0x7FC00000 ∧ vtr t 2 0xFF800000 = 0 ∧ vtr t 3 0xFF800000 = 0x7FC00000) ∧
  (
    ∀ (s : State) (core : BitVec 6) (ix : Nat) (vd va : BitVec 5) (srcT dstT : BitVec 4) (rm : BitVec 3) (sat : Bool) (part : BitVec 2),
      coreSess s core.toNat = some ix → wellFormed (.vcvt core vd va srcT dstT rm sat part) = true →
      let c := core.toNat
      let a := typeBits srcT.toNat
      let b := typeBits dstT.toNat
      let whole := 6 ≤ srcT.toNat
      let good (x y : Nat) : Prop :=
        let num := if whole then numOfInt (signedOf a x) else decodeT srcT.toNat x
        (dstT.toNat < 6 → y = (roundT dstT.toNat rm.toNat sat num).1 % 2 ^ b) ∧
        (6 ≤ dstT.toNat → ¬whole → (y : Int) = numToInt b rm.toNat num % (2 ^ b : Int)) ∧
        (6 ≤ dstT.toNat → whole → -(2 ^ (b - 1) : Int) ≤ signedOf a x → signedOf a x < 2 ^ (b - 1) → (y : Int) = signedOf a x % (2 ^ b : Int))
      ∃ t m v, exec (.vcvt core vd va srcT dstT rm sat part) s = .next (landIn t ix c 3 (.vreg vd.toNat m v)) ∧
        (t = s ∨ t = { s with freeCtr := s.freeCtr + 1 }) ∧
        (b < a → ∀ e, e < 1024 / a →
          let place := 1024 / a * (part.toNat % (a / b)) + e
          good (elAt (vReg s c va) a e) (elAt v b place) ∧ elAt m b place = 2 ^ b - 1) ∧
        (b < a → ∀ e, e < 1024 / b → e / (1024 / a) ≠ part.toNat % (a / b) → elAt m b e = 0) ∧
        (a ≤ b → m = BitVec.allOnes 1024 ∧ ∀ e, e < 1024 / b →
          good (elAt (vReg s c va) a (1024 / b * (part.toNat % (b / a)) + e)) (elAt v b e)))

/-- R327, R328: a stochastic VCVT takes the random value of each element from the four blocks from SRCTR on, under the session's
seed and the core's rank, adds 4 to SRCTR, counts the blocks and lands after 4 cycles. R327's rule at the sizes of R328: a finite
value that its type does not hold goes away from zero exactly when its fraction of the way there, plus r / 65,536, reaches 1.
R329: VMX writes the scale byte of the block to s[sd] and the elements to the part of vd that PART selects, an E2M1 pair with the
even element in bits [3:0], after 6 cycles. -/
def Obligations.StochasticAndMxResults : Prop :=
  (
    ∀ (s : State) (core : BitVec 6) (ix : Nat) (vd va : BitVec 5) (dstT : BitVec 4) (sat : Bool) (part : BitVec 2),
      coreSess s core.toNat = some ix → 1 ≤ dstT.toNat ∧ dstT.toNat ≤ 4 →
      let c := core.toNat
      let k := sessGet s ix
      let cr := coreGet s c
      let b := typeBits dstT.toNat
      let rank := k.cores.idxOf c
      let word (e : Nat) := (philox k.seed rank (cr.srctr + BitVec.ofNat 64 (e / 8))).getD (e % 8 / 2) 0
      let r (e : Nat) := if e % 2 = 0 then word e % 2 ^ 16 else word e / 2 ^ 16
      ∃ m v, exec (.vcvtSr core vd va dstT sat part) s =
          .next (landIn (bumpN (corePut s c { cr with srctr := cr.srctr + 4 }) .grdSrBlocks 0 0 k.pitch.toNat 4)
            ix c 4 (.vreg vd.toNat m v)) ∧
        ∀ e, e < 1024 / b →
          let inPart := e / 32 = part.toNat % (32 / b)
          (inPart → elAt v b e = roundSr dstT.toNat sat (elAt (vReg s c va) 32 (e % 32)) (r (e % 32)) % 2 ^ b ∧ elAt m b e = 2 ^ b - 1) ∧
          (¬inPart → elAt m b e = 0)) ∧
  (
    ∀ (t : Nat) (sat : Bool) (x r : Nat) (neg : Bool) (m : Nat) (e : Int), decodeF fp32 x = .fin neg m e → m ≠ 0 →
      let u := ulpExp (typeFmt t) m e
      let k := (u - e).toNat
      e < u →
      let away := m % 2 ^ k ≠ 0 ∧ 2 ^ k * 65536 ≤ m % 2 ^ k * 65536 + r * 2 ^ k
      (away → roundSr t sat x r = (roundT t 0 sat (.fin neg (m / 2 ^ k + 1) u)).1) ∧
      (¬away → roundSr t sat x r = (roundT t 0 sat (.fin neg (m / 2 ^ k) u)).1)) ∧
  (
    ∀ (s : State) (core : BitVec 6) (ix : Nat) (vd va : BitVec 5) (elt : BitVec 4) (part : BitVec 3) (sd : BitVec 5),
      coreSess s core.toNat = some ix → wellFormed (.vmx core vd va elt part sd) = true →
      let c := core.toNat
      let block := mxBlock elt.toNat ((upto 32).map (fun e => decodeF fp32 (elAt (vReg s c va) 32 e)))
      let el (e : Nat) := block.2.getD e 0
      let n := if elt.toNat = 5 then 16 else 32
      ∃ m v, exec (.vmx core vd va elt part sd) s =
          .next (landIn (landIn s ix c 6 (.vreg vd.toNat m v)) ix c 6 (.sreg sd.toNat (BitVec.ofNat 64 block.1))) ∧
        ∀ e, e < 128 →
          (e / n = part.toNat → elAt m 8 e = 255 ∧
            elAt v 8 e = (if elt.toNat = 5 then el (2 * (e % n)) + 16 * el (2 * (e % n) + 1) else el (e % n)) % 256) ∧
          (e / n ≠ part.toNat → elAt m 8 e = 0))

/-- R335, R342: SEND puts a quarter of vs on its route as one flit, RECV takes the flit of its receive slot. A route of another
core or none is ILLEGAL (R314), an empty slot an underrun (R281). -/
def Obligations.NetTransfers : Prop :=
  ∀ (s : State) (core : BitVec 6) (ix : Nat) (r : BitVec 5) (q dir : BitVec 2) (route : BitVec 12),
    coreSess s core.toNat = some ix →
    let c := core.toNat
    let k := sessGet s ix
    let ends (t : State) := Host.Outcome.next (φ := Fault) (ρ := Refusal) t
    (∀ x, k.routes[route.toNat]? = some x → x.src = k.cores.idxOf c → exec (.send core r q route) s =
      ends (bump (sessPut s ix { k with flits := k.flits ++
        [{ at_ := c, hops := x.hops, data := BitVec.ofNat 256 ((vReg s c r).toNat / 2 ^ (256 * q.toNat)) }] }) .grdNetFlits 0 0 k.pitch.toNat)) ∧
    (∀ x, k.routes[route.toNat]? = some x → x.src ≠ k.cores.idxOf c → exec (.send core r q route) s = ends (endSess s ix 8 (some c) 0)) ∧
    (k.routes[route.toNat]? = none → exec (.send core r q route) s = ends (endSess s ix 8 (some c) 0)) ∧
    (∀ d, tfind (coreGet s c).rx dir.toNat = some d → ∃ m v, exec (.recv core r q dir) s =
        ends (landIn (corePut s c { coreGet s c with taken := dir.toNat :: (coreGet s c).taken }) ix c 1 (.vreg r.toNat m v)) ∧
      ∀ e, e < 4 → (e = q.toNat → elAt v 256 e = d.toNat ∧ elAt m 256 e = 2 ^ 256 - 1) ∧ (e ≠ q.toNat → elAt m 256 e = 0)) ∧
    (tfind (coreGet s c).rx dir.toNat = none → exec (.recv core r q dir) s = ends (endSess s ix 4 (some c) 0))

/-- R295, R339: STG.IN and STG.OUT issue the command that s[sn] to s[sn + 3] describe. A reserved bit or a field out of range is
ILLEGAL, a memory range outside the session's windows a stage failure. R296, R298, R340: a gate whose condition holds passes at
once, and GATE.T then ends the pending ranges it names; any other gate makes its core wait. GATE.T asks for the counts its tags
have now, GATE.C for chunks posted to the session; a GATE.C whose s[sa][63:24] is not 0 is ILLEGAL. -/
def Obligations.StageAndGateIssue : Prop :=
  (
    ∀ (s : State) (core : BitVec 6) (ix : Nat) (sn : BitVec 5) (out : Bool),
      coreSess s core.toNat = some ix → sn.toNat ≤ 28 →
      let c := core.toNat
      let k := sessGet s ix
      let reg (i : Nat) := (sReg s c (sn + BitVec.ofNat 5 i)).toNat
      let i : Instr := if out then .stgOut core sn else .stgIn core sn
      let clean := reg 0 < 2 ^ 57 ∧ reg 3 < 2 ^ 32 ∧ reg 3 / 2 ^ 22 % 4 = 0 ∧ reg 3 / 2 ^ 27 % 2 = 0
      let d : StageCmd :=
        { quad := quadOf c, out := out, base := reg 0, rowLen := reg 1 % 2 ^ 32, rows := reg 1 / 2 ^ 32, stride := reg 2,
          target := reg 3 / 2 ^ 24 % 8, loc := reg 3 % 2 ^ 22, tag := reg 3 / 2 ^ 28 % 16 }
      (clean → stageLocalOk k d = true → stageWindowOk k d = true →
        exec i s = .next (sessPut s ix { k with issuing := k.issuing ++ [{ d with session := k.number }] })) ∧
      (clean → stageLocalOk k d = true → stageWindowOk k d = false → exec i s = .next (endSess s ix 7 (some c) stDenied)) ∧
      (clean → stageLocalOk k d = false → exec i s = .next (endSess s ix 8 (some c) 0)) ∧
      (¬clean → exec i s = .next (endSess s ix 8 (some c) 0))) ∧
  (
    ∀ (s : State) (core : BitVec 6) (ix : Nat) (mask : BitVec 16) (sa sb : BitVec 5), coreSess s core.toNat = some ix →
      let c := core.toNat
      let k := sessGet s ix
      let named (t : Nat) := t < 16 ∧ mask.getLsbD t = true
      let due := (upto 16).filter (fun t => mask.getLsbD t)
      let A := (sReg s c sa).toNat
      let ends (t : State) := Host.Outcome.next (φ := Fault) (ρ := Refusal) t
      ((∀ t, named t → tget 0 k.issued t ≤ tget 0 k.completed t) → ∃ ps, exec (.gateT core mask) s = ends (sessPut s ix { k with pend := ps }) ∧
        ∀ p, p ∈ ps ↔ p ∈ k.pend ∧ ¬(named p.tag ∧ p.num < tget 0 k.issued p.tag)) ∧
      (∀ t, named t → tget 0 k.completed t < tget 0 k.issued t → exec (.gateT core mask) s =
        ends (corePut s c { coreGet s c with gate := some (.tags (due.map (fun t => (t, tget 0 k.issued t)))) })) ∧
      (2 ^ 24 ≤ A → exec (.gateC core sa sb) s = ends (endSess s ix 8 (some c) 0)) ∧
      let posted := ∃ j, recFind s k.pitch.toNat A = some j ∧ (recGet s j).desc.toKernel = true ∧ (recGet s j).desc.ksession = k.number ∧
        (recGet s j).state ≠ .failed ∧ (sReg s c sb).toNat ≤ (recGet s j).posted
      (A < 2 ^ 24 → posted → exec (.gateC core sa sb) s = ends (sessPut s ix k)) ∧
      (A < 2 ^ 24 → ¬posted →
        exec (.gateC core sa sb) s = ends (corePut s c { coreGet s c with gate := some (.coll A (sReg s c sb).toNat) })))

/-- R282, R314, R337: MX.MUL joins its engine's commands with K = 64 · s[sk][7:0] (16,384 for 00h) and byte addresses modulo 4
MiB with bits [5:0] ignored, ACC.RD lands the 32 elements of half H of a row after 6 cycles, ACC.WR and ACC.ZERO land theirs
after 1. Without the matrix engine each is ILLEGAL, and over a pending range of the operand buffer MX.MUL is a hazard. R283,
R337, R338: the first waiting command of an engine starts once the one before it has ended, reads its operands and its
accumulator, and gives element (i, j) of the result from row i of A and column j of B; what it gives is written 40 cycles after
its D cycles have run, over whatever the accumulator then holds. -/
def Obligations.MatrixEngine : Prop :=
  (
    ∀ (s : State) (core : BitVec 6) (ix : Nat) (ad an ty : BitVec 3) (z h : Bool) (v sr sa sb sk : BitVec 5),
      coreSess s core.toNat = some ix → ty.toNat ≤ 5 →
      let c := core.toNat
      let k := sessGet s ix
      let q := quadGet s (quadOf c)
      let n := (sReg s c sk).toNat % 256
      let m : MxCmd :=
        { acc := ad.toNat, ty := ty.toNat, zero := z, a := (sReg s c sa).toNat / 64 * 64 % 2 ^ 22,
          b := (sReg s c sb).toNat / 64 * 64 % 2 ^ 22, k := if n = 0 then 16384 else 64 * n, issued := k.cycles }
      let first := 4096 * an.toNat + 64 * ((sReg s c sr).toNat % 64) + (if h then 32 else 0)
      let ends (t : State) := Host.Outcome.next (φ := Fault) (ρ := Refusal) t
      let illegal := ends (endSess s ix 8 (some c) 0)
      (quadOf c ∈ k.engines → mxHazard k (quadOf c) m = false →
        exec (.mxMul core ad ty z sa sb sk) s = ends (quadPut s (quadOf c) { q with mx := q.mx ++ [m] })) ∧
      (quadOf c ∈ k.engines → mxHazard k (quadOf c) m = true →
        exec (.mxMul core ad ty z sa sb sk) s = ends (endSess s ix 9 (some c) 0)) ∧
      (quadOf c ∈ k.engines →
        (∃ x, exec (.accRd core v an sr h) s = ends (landIn s ix c 6 (.vreg v.toNat (BitVec.allOnes 1024) x)) ∧
          ∀ e, e < 32 → elAt x 32 e = (tget 0 q.acc (first + e)).toNat) ∧
        (∃ ws, exec (.accWr core v an sr h) s = ends (landIn s ix c 1 (.acc first ws)) ∧ ws.length = 32 ∧
          ∀ e, e < 32 → (ws[e]?.getD 0).toNat = elAt (vReg s c v) 32 e) ∧
        exec (.accZero core an) s = ends (landIn s ix c 1 (.acc (4096 * an.toNat) (List.replicate 4096 0)))) ∧
      (quadOf c ∉ k.engines →
        exec (.mxMul core ad ty z sa sb sk) s = illegal ∧ exec (.accRd core v an sr h) s = illegal ∧
        exec (.accWr core v an sr h) s = illegal ∧ exec (.accZero core an) s = illegal)) ∧
  (
    ∀ (s : State) (quad : BitVec 4) (ix : Nat), engineSess s quad.toNat = some ix →
      let q := quadGet s quad.toNat
      let k := sessGet s ix
      (∀ m rest, q.mx = m :: rest → m.start = none → m.issued + 1 ≤ k.cycles → q.busyTo ≤ k.cycles → mxHazard k quad.toNat m = false →
        ∃ r, exec (.mxMulStart quad .good) s = .next (quadPut s quad.toNat
            { q with mx := { m with start := some k.cycles, result := r } :: rest, busyTo := k.cycles + mxCycles m }) ∧
          r.length = 4096 ∧
          ∀ i j, i < 64 → j < 64 → r[64 * i + j]? = some (BitVec.ofNat 32 (mxElement m.ty (mxRow q m m.a i) (mxRow q m m.b j)
            (if m.zero then 0 else (tget 0 q.acc (4096 * m.acc + 64 * i + j)).toNat)))) ∧
      (∀ m rest t, q.mx = m :: rest → rest.all (fun x => x.start.isNone) = true → m.start = some t → m.result.length = 4096 →
        (k.cycles < t + mxCycles m + 40 → exec (.mxMulDone quad) s = .next (quadPut s quad.toNat q)) ∧
        (t + mxCycles m + 40 ≤ k.cycles → ∃ acc, exec (.mxMulDone quad) s = .next (quadPut s quad.toNat { q with mx := rest, acc := acc }) ∧
          (∀ e, e < 4096 → tget 0 acc (4096 * m.acc + e) = (m.result[e]?).getD 0) ∧
          (∀ x, x < 4096 * m.acc ∨ 4096 * m.acc + 4096 ≤ x → tget 0 acc x = tget 0 q.acc x))))

/-- R310, R316: what a landed write leaves in its core: the register, predicate (p0 keeps all ones) or hold bytes written, the
governed elements of a vector alone, and every other register of the core as before. -/
def Obligations.LandedWrites : Prop :=
  ∀ (s : State) (c r : Nat),
    let old := coreGet s c
    let core (l : LandTo) := coreGet (landApply s { at_ := 0, core := c, dest := l }) c
    (∀ v, tget 0 (core (.sreg r v)).s r = v ∧ ∀ x, x ≠ r → tget 0 (core (.sreg r v)).s x = tget 0 old.s x) ∧
    (∀ m v, (∀ b, b < 1024 → (tget 0 (core (.vreg r m v)).v r).getLsbD b = if m.getLsbD b then v.getLsbD b else (tget 0 old.v r).getLsbD b) ∧
      ∀ x, x ≠ r → tget 0 (core (.vreg r m v)).v x = tget 0 old.v x) ∧
    (∀ v, (r ≠ 0 → tget 0 (core (.pred r v)).p r = v) ∧ ∀ x, x ≠ r ∨ r = 0 → tget 0 (core (.pred r v)).p x = tget 0 old.p x) ∧
    (∀ m bs a, tget 0 (core (.hold r m bs)).hold a =
      if r ≤ a ∧ a < r + bs.length ∧ m.getLsbD (a - r) = true then (bs[a - r]?).getD 0 else tget 0 old.hold a) ∧
    ∀ l d, d ≠ c → coreGet (landApply s { at_ := 0, core := c, dest := l }) d = coreGet s d

/-! ## Requests to memory and the sync window (R52 to R144, R214 to R246) -/

/-- R53, R57, R60, R62, R126: a frame that fails one of checks 1 to 6 is dropped and counted, whatever the opcode; nothing else
happens, and no tracker is taken. The frame has left its receive pool (R368) and reached the KPP port of a chip that serves. -/
def Obligations.FailedChecksDrop : Prop :=
  ∀ (s : State) (op : BitVec 8) (f : RxFrame) (body : State → Req → State),
    let t := poolTake s f.via f.hdr.tc.toNat
    t.tpt.admitting = true → f.encap.udpDst.toNat = kppPort t →
    let p := viaPort f.via
    let dropped (c : Cnt) (inst : Nat) := withRequest s op f body = bump t c inst 0 0
    let encapOk := f.encap.bytes ≤ 9216 ∧ f.encap.vlanTags ≤ 1 ∧ f.encap.ipOpt = false ∧
      (f.encap.udpCsum = 0 ∨ f.encap.udpCsumOk = true) ∧ (f.encap.ipv6 = true → f.encap.udpCsum ≠ 0) ∧ f.encap.short = false
    let crcOk := crc32c (rxHdrBytes op f.hdr) = f.hdr.hcrc
    let typeFits := (f.hdr.typ = 0 ∧ op.toNat ≤ 0x7D) ∨ (f.hdr.typ = 1 ∧ 0x80 ≤ op.toNat ∧ op.toNat ≤ 0xFD) ∨
      (f.hdr.typ = 2 ∧ (op = 0x7E ∨ op = 0x7F))
    let bound := tfind t.act.src f.hdr.endpoint.toNat
    (9216 < f.encap.bytes → dropped .prtOversize p) ∧
    (f.encap.bytes ≤ 9216 → 1 < f.encap.vlanTags → dropped .prtVlan p) ∧
    (encapOk → ¬ crcOk → dropped .tptHcrc 0) ∧
    (encapOk → crcOk → f.hdr.version ≠ 1 → dropped .tptVersion 0) ∧
    (encapOk → crcOk → f.hdr.version = 1 → ¬ typeFits → dropped .tptType 0) ∧
    (encapOk → crcOk → f.hdr.version = 1 → typeFits → sessBound op f.hdr.flags = false → bound = none → dropped .tptSrcUnbound 0) ∧
    (∀ e, encapOk → crcOk → f.hdr.version = 1 → typeFits → sessBound op f.hdr.flags = false → bound = some e →
      (f.srcAddr ≠ e.addr ∨ f.srcPort ≠ e.port) → dropped .tptSrcMismatch 0) ∧
    (∀ e last, encapOk → crcOk → f.hdr.version = 1 → typeFits → sessBound op f.hdr.flags = false → bound = some e →
      f.srcAddr = e.addr → f.srcPort = e.port →
      (op.toNat ≤ 0x6F ∨ (0x78 ≤ op.toNat ∧ op.toNat ≤ 0x7B) → (ctxWord t f.hdr.endpoint.toNat f.hdr.context).isSome) →
      aget t.tpt.rxAlive (.ep f.hdr.endpoint f.hdr.tc) = some last →
      (f.hdr.alive = last ∨ 128 < (f.hdr.alive - last).toNat) → dropped .tptStale 0)

/-- R81, R82, R131, R214: READ and BULK_GET answer with the bytes of their pieces in segments of at most MAX_SEG bytes, from
ADDRESS (BULK_GET: from offset 0); a line that fails its checks ends the response at a segment's start with its status. A sealed
response is XORed with its keystream, and refused where it cannot be sealed. -/
def Obligations.ReadsAnswered : Prop :=
  ∀ (s : State) (op : Byte) (f : RxFrame) (r : Req) (ps : List (List Piece)) (u : State), Ready s op f r ps u →
    let p0 := (ps[0]?).getD []
    let d := readDesc r.payload 0
    let n := r.pitch.toNat
    let seg := segSize u r
    let streams (c : Instr) (from_ : Nat) (p : List Piece) : Prop :=
      let out (w : State) (data tail : List Byte) := sendSegs (data.length / seg + 1) (queueReads w r (pieceLines p)) r seg from_
        data (p.map (fun x => (x.ppa, x.len))) tail
      (flagX r.flags = false → goodPrefix u r.context p 0 = none →
        exec c s = operated (out (markWindow u r) (piecesBytes u p) []) r) ∧
      (∀ good line st v, flagX r.flags = false → goodPrefix u r.context p 0 = some (good, line, st, v) → good < seg →
        exec c s = operated (respondAt (if st = stDenied then bump (markWindow u r) .actDeniedOwner (chanOf (markWindow u r) line) 0 n
          else badLine (markWindow u r) line n v) r st [] (BitVec.ofNat 64 from_)) r) ∧
      (∀ key, flagX r.flags = true → (pkGet u n).session = some key → touchesBadCocoon u n p = false → (pkGet u n).sealExec < 2 ^ 56 →
        goodPrefix u r.context p 0 = none →
        exec c s = operated (out (bump (pkPut (markWindow u r) n { pkGet u n with sealExec := (pkGet u n).sealExec + 1 }) .tptSealedExec 0 0 n)
          (sealData key n (pkGet u n).sealExec (piecesBytes u p)) ((sealBlock n (pkGet u n).sealExec 0).take 12 ++ zeros 4)) r) ∧
      (flagX r.flags = true → (pkGet u n).session = none ∨ touchesBadCocoon u n p = true →
        exec c s = operated (answer (bump u .actSealed 0 0 n) r stSealed []) r)
    (op = 0x01 → streams (.read f) r.address.toNat p0) ∧
    (op = 0x20 → streams (.bulkGet f) 0
      (rowPieces d ((reach u r d.base).getD d.base) p0 (rowFuel d r.length.toNat) 0 r.length.toNat))

/-- R68, R131, R165: WRITE checks every owner tag of its lines, then writes its data; WRITE_NOTIFY writes its data, then adds 1
to the notify word and answers with the new value. Where a line fails, nothing is written and its status is answered. -/
def Obligations.WritesStore : Prop :=
  ∀ (s : State) (op : Byte) (f : RxFrame) (r : Req) (ps : List (List Piece)) (u : State), Ready s op f r ps u →
    let p0 := (ps[0]?).getD []
    let p1 := (ps[1]?).getD []
    let n := r.pitch.toNat
    let range := ((reach u r r.address.toNat).getD r.address.toNat, r.length.toNat)
    (op = 0x02 →
      (firstBad u r.context (pieceLines p0) = none → exec (.write f) s = operated (completeWrite
        (queueWrites (writePieces u n r.context p0 r.payload) r (pieceLines p0)) r [range] []) r) ∧
      (∀ l v, firstBad u r.context (pieceLines p0) = some (l, stDenied, v) →
        exec (.write f) s = operated (answer (bump u .actDeniedOwner (chanOf u l) 0 n) r stDenied []) r) ∧
      (∀ l st v, firstBad u r.context (pieceLines p0) = some (l, st, v) → st ≠ stDenied →
        exec (.write f) s = operated (answer (badLine u l n v) r st []) r)) ∧
    (op = 0x03 → firstBad u r.context (pieceLines p0 ++ pieceLines p1) = none →
      let w := writePieces u n r.context p0 (r.payload.drop 8)
      let v := (leNat (piecesBytes w p1) + 1) % 2 ^ 64
      exec (.writeNotify f) s = operated (completeWrite (queueWrites (writePieces w n r.context p1 (leBytes 8 v)) r
        (pieceLines p0 ++ pieceLines p1)) r [range, (beAt r.payload 0 8, 8)] (beBytes 8 v)) r) ∧
    (op = 0x03 → ∀ l v, firstBad u r.context (pieceLines p0 ++ pieceLines p1) = some (l, stDenied, v) →
      exec (.writeNotify f) s = operated (answer (bump u .actDeniedOwner (chanOf u l) 0 n) r stDenied []) r)

/-- R55, R69, R70: each atomic replaces its target by the value the rule gives, in one step, and answers with the old value. The
target is little-endian in memory, the operands and the answer big-endian. -/
def Obligations.AtomicResults : Prop :=
  ∀ (s : State) (op : Byte) (f : RxFrame) (r : Req) (ps : List (List Piece)) (u : State), Ready s op f r ps u →
    firstBad u r.context (pieceLines ((ps[0]?).getD [])) = none →
    let p := (ps[0]?).getD []
    let len := r.length.toNat
    let w := 8 * len
    let old := piecesBytes u p
    let m := leNat old
    let v := beNat (r.payload.take len)
    let stores (c : Instr) (new result : List Byte) : Prop := exec c s = operated (completeWrite
      (queueWrites (writePieces u r.pitch.toNat r.context p new) r (pieceLines p)) r
      [((reach u r r.address.toNat).getD r.address.toNat, len)] result) r
    let swaps (c : Instr) (x : Nat) : Prop := stores c (leBytes len x) (beBytes len m)
    let sums (c : Instr) (k : Nat) (f : Nat → Nat → Nat) : Prop := stores c
      ((upto (old.length / k)).zip (upto (r.payload.length / k)) |>.flatMap (fun i =>
        leBytes k (f (leNat ((old.drop (k * i.1)).take k)) (beNat ((r.payload.drop (k * i.2)).take k)))))
      ((upto (old.length / k)).flatMap (fun i => ((old.drop (k * i)).take k).reverse))
    (op = 0x10 → swaps (.aAdd f) ((m + v) % 2 ^ w)) ∧
    (op = 0x11 → swaps (.aSwap f) v) ∧
    (op = 0x12 → swaps (.aCas f) (if m = v then beNat ((r.payload.drop len).take len) else m)) ∧
    (op = 0x13 → swaps (.aAnd f) (m &&& v)) ∧
    (op = 0x14 → swaps (.aOr f) (m ||| v)) ∧
    (op = 0x15 → swaps (.aXor f) (m ^^^ v)) ∧
    (op = 0x16 → swaps (.aSmin f) (if (BitVec.ofNat w v).toInt < (BitVec.ofNat w m).toInt then v else m)) ∧
    (op = 0x17 → swaps (.aSmax f) (if (BitVec.ofNat w m).toInt < (BitVec.ofNat w v).toInt then v else m)) ∧
    (op = 0x18 → swaps (.aUmin f) (min m v)) ∧
    (op = 0x19 → swaps (.aUmax f) (max m v)) ∧
    (op = 0x1A → sums (.aFadd32 f) 4 (fun a b => encodeF fp32 (numAdd (decodeF fp32 a) (decodeF fp32 b)))) ∧
    (op = 0x1B → sums (.aFaddbf16 f) 2 (fun a b => encodeF bf16 (numAdd (decodeF bf16 a) (decodeF bf16 b))))

/-- R164, R165: writing bytes that lie in one line. A line of another owner keeps every byte outside; a FREE line's other bytes
become 0; the line is claimed for the writer's context under the pitch's key, and its poison goes. Other lines are untouched.
R164, R165: the bytes a write puts over the lines of a range read back from them, and every byte of a line that the range does
not touch stays. R131: one line of a copy: both lines good and of the context (or FREE), the destination takes the source's plain
bytes. -/
def Obligations.LineWriteEffect : Prop :=
  (
    ∀ (s : State) (n : Nat) (ctx : BitVec 16) (ppa : Nat) (bs : List Byte), ppa % 64 + bs.length ≤ 64 →
      let t := lineWrite s n ctx ppa bs
      (∀ i, (h : i < bs.length) → memByte t (ppa + i) = bs[i]) ∧
      (∀ a, a < ppa ∨ ppa + bs.length ≤ a →
        memByte t a = if a / 64 = ppa / 64 ∧ (metaGet s ppa).owner = 0xFFFF then 0 else memByte s a) ∧
      metaGet t ppa = { owner := ctx, keySlot := (pitchKey s n).1, keyGen := (pitchKey s n).2 } ∧
      (∀ a, a / 64 ≠ ppa / 64 → metaGet t a = metaGet s a) ∧
      linePlain t ppa = (if ctx = 0xFFFF then zeros 64 else memBytes t (ppa / 64 * 64) 64)) ∧
  (
    ∀ (s : State) (n : Nat) (ctx : BitVec 16) (p : Piece) (bs : List Byte), bs.length = p.len → ctx ≠ 0xFFFF →
      let t := writePieces s n ctx [p] bs
      pieceBytes t p = bs ∧
      (∀ a, a / 64 < p.ppa / 64 ∨ (p.ppa + p.len + 63) / 64 ≤ a / 64 → memByte t a = memByte s a ∧ metaGet t a = metaGet s a) ∧
      (∀ a, a / 64 ∈ (linesOf p.ppa p.len).map (· / 64) → (metaGet t a).owner = ctx)) ∧
  (
    ∀ (s : State) (n : Nat) (ctx : BitVec 16) (a b : Nat), b % 64 = 0 → ctx ≠ 0xFFFF →
      lineVerdict s a = .good → lineVerdict s b = .good → ownerOk s a ctx = true → ownerOk s b ctx = true →
      ∃ t, copyLines s n ctx [(a, b)] = (t, stOk, none) ∧ linePlain t b = linePlain s a ∧
        ∀ x, x / 64 ≠ b / 64 → memByte t x = memByte s x ∧ metaGet t x = metaGet s x)

/-- R72: BULK_PUT opens its transfer and waits; BULK_DATA goes into its open BULK_PUT, waits for one that is not translated yet,
and is answered RETRY (a number before it is missing) or LENGTH where none is open; BULK_IDLE ends a transfer with TIMEOUT. R71,
R131: BULK_COPY checks and copies line after line, row by row of its two descriptors, and answers once all are written; a line
that fails ends it, the lines before it written. -/
def Obligations.BulkTransfers : Prop :=
  (
    (∀ (s t u : State) (f : RxFrame) (r : Req) (ps : List (List Piece)), receive s 0x21 f = .go t r →
      Served (bulkMod t r.flow (fun l => l ++ [{ req := r, last := t.now }])) r ps u →
      let waiting := ((bulkFind (markWindow u r) r.flow r.tag).map (·.waiting)).getD []
      exec (.bulkPut f) s = operated (waiting.foldl (fun w d =>
          match (flowGet w r.flow).bind (fun fl => fl.bulk.find? (fun b => b.req.seq = r.seq)) with
          | some b => bulkWrite w b d ((ps[0]?).getD [])
          | none => answer w d stLength [])
        (bulkMod (markWindow u r) r.flow (fun l => l.map (fun b =>
          if b.req.seq = r.seq then { b with passed := true, last := u.now, waiting := [] } else b)))) r) ∧
    (∀ (s t : State) (f : RxFrame) (r : Req), receive s 0x23 f = .go t r → Checked t r → lenOk t r = true → alignOk t r = true →
      let done (w : State) : Host.Outcome State Fault Refusal := .next (settle (ackNow w r.flow))
      let dst (b : BulkPut) := rowPieces (putDesc t b.req) (descReach t b.req (putDesc t b.req)) (putPages t b)
        (rowFuel (putDesc t b.req) r.length.toNat) r.address.toNat r.length.toNat
      (∀ fl, bulkFind t r.flow r.tag = none → flowGet t r.flow = some fl →
        let d := (r.seq - fl.c).toNat
        let gap := 1 ≤ d ∧ d ≤ 0x10000 ∧ ∃ i < d - 1, fl.c + BitVec.ofNat 24 (i + 1) ∉ fl.bits
        (gap → exec (.bulkData f) s = done (answer t r stRetry [])) ∧ (¬ gap → exec (.bulkData f) s = done (answer t r stLength []))) ∧
      (∀ b, bulkFind t r.flow r.tag = some b → b.passed = false → exec (.bulkData f) s = done (bulkMod t r.flow (fun l =>
        l.map (fun x => if x.req.seq = b.req.seq then { x with waiting := x.waiting ++ [r] } else x)))) ∧
      (∀ b, bulkFind t r.flow r.tag = some b → b.passed = true → syncLines (dst b) = [] →
        exec (.bulkData f) s = operated (bulkWrite t b r (putPages t b)) r)) ∧
    (∀ (s : State) (flow : FlowId) (tag : BitVec 32),
      (∀ b, bulkFind s flow tag = some b → b.passed = true →
        exec (.bulkIdleTimeout flow tag) s = .next (settle (bulkEnd (nowTo s (b.last + bulkIdleNs s)) b stTimeout []))) ∧
      ((∀ b, bulkFind s flow tag = some b → b.passed = false) → exec (.bulkIdleTimeout flow tag) s = .next (settle s)))) ∧
  (
    ∀ (s : State) (f : RxFrame) (r : Req) (ps : List (List Piece)) (u w : State) (st : Nat) (bad : Option (Nat × LineVerdict)),
      Ready s 0x22 f r ps u →
      let len := r.length.toNat
      let d := readDesc r.payload 0
      let e := readDesc r.payload 24
      let base (x : Desc) := (reach u r x.base).getD x.base
      let src := lineList (rowPieces d (base d) ((ps[0]?).getD []) (rowFuel d len) 0 len)
      let dst := lineList (rowPieces e (base e) ((ps[1]?).getD []) (rowFuel e len) 0 len)
      copyLines u r.pitch.toNat r.context (src.zip dst) = (w, st, bad) →
      (st = stOk → exec (.bulkCopy f) s = operated (completeWrite (queueWrites (queueReads w r src) r dst) r (descRanges (base e) e 0 len) []) r) ∧
      (∀ l v, st = stDenied → bad = some (l, v) →
        exec (.bulkCopy f) s = operated (answer (bump w .actDeniedOwner (chanOf w l) 0 r.pitch.toNat) r stDenied []) r) ∧
      (∀ l v, st ≠ stOk → st ≠ stDenied → bad = some (l, v) →
        exec (.bulkCopy f) s = operated (answer (badLine w l r.pitch.toNat v) r st []) r))

/-- R67, R73, R140, R141: XLATE issues a handle for the page it translates, of a HELD pitch only; XLATE_RELEASE frees the valid
entries of its own that it names and answers OK; an opcode the controller does not take is answered UNSUPPORTED. R133, R135,
R138, R142, R144, R479: firmware's answer to a miss puts the page into the slice's cache and the requests that wait for no other
miss run again, or they end with NOT_MAPPED; after 20 µs they end with RETRY and a record. A confirmed change of page tables ends
what holds its pages; a recall's deadline revokes the holder, or waits for the end of a restart. -/
def Obligations.Translation : Prop :=
  (
    (∀ (s : State) (f : RxFrame) (r : Req) (ps : List (List Piece)) (u : State), Ready s 0x30 f r ps u → pHeld u r.pitch.toNat = true →
      let n := r.pitch.toNat
      let a := r.address.toNat
      let slice := leadSlice u n a
      let e := xlateEntry u slice r.endpoint n
      ∀ x, tlbFind u slice n a = some x →
      let cover := min r.length.toNat (pageSize x.level - a % pageSize x.level)
      let gen := (hGet e.1 e.2).gen
      let put := hPut e.1 e.2 { used := true, endpoint := r.endpoint, context := r.context, pitch := r.pitch, pva := a,
                                ppa := entAddr x.entry + a % pageSize x.level, cover := cover, level := x.level, gen := gen, born := e.1.act.born }
      exec (.xlate f) s = operated (answer (bump (actMod put (fun t => { t with born := t.born + 1 })) .actXlate slice 0 n) r stOk
        (beBytes 8 (handleBits gen e.2 0) ++ beBytes 4 cover ++ [BitVec.ofNat 8 x.level, 0, 0, 0])) r) ∧
    (∀ (s t : State) (f : RxFrame) (r : Req), receive s 0x30 f = .go t r → Checked t r → lenOk t r = true →
      pHeld t r.pitch.toNat = false →
      exec (.xlate f) s = .next (settle (ackNow (answer (bump t .actDeniedSlot 0 0 r.pitch.toNat) r stDenied []) r.flow))) ∧
    (∀ (s t : State) (f : RxFrame) (r : Req), receive s 0x32 f = .go t r → Checked t r → lenOk t r = true →
      exec (.xlateRelease f) s = .next (settle (ackNow (answer ((upto (r.payload.length / 8)).foldl (fun w i =>
        match handleFind w (beNat ((r.payload.drop (8 * i)).take 8)) r.endpoint r.context with
        | some e => hFree w e.1
        | none => w) t) r stOk []) r.flow))) ∧
    (∀ (s t : State) (op : BitVec 8) (f : RxFrame) (r : Req), opKnown op = false → receive s op f = .go t r →
      exec (.reservedOpcodeRequest op f) s = .next (ackNow (answer t r stUnsupported []) r.flow))) ∧
  (
    (∀ (s : State) (slice : BitVec 4) (pitch : BitVec 8) (page : BitVec 27) (m : Miss),
      s.act.misses.find? (missIs slice.toNat pitch.toNat page.toNat) = some m →
      let t := missDrop s slice.toNat pitch.toNat page.toNat
      let ends (w : State) := m.waiting.foldl (fun w r => bump (endWaiting w r stNotMapped) .actNotMapped slice.toNat 0 pitch.toNat) w
      (s.svc.restarting = true → exec (.missServiceDone slice pitch page) s = .next (settle s)) ∧
      (∀ level e, s.svc.restarting = false → walk s pitch.toNat (page.toNat * 65536) = .leaf level e →
        exec (.missServiceDone slice pitch page) s = .next (settle (m.waiting.foldl (fun w r => if stillMisses w r then w else rerun w r)
          (tlbInsert t slice.toNat { pitch := pitch, level := level, page := page.toNat * 65536 / pageSize level, entry := e })))) ∧
      (s.svc.restarting = false → walk s pitch.toNat (page.toNat * 65536) = .unmapped →
        exec (.missServiceDone slice pitch page) s = .next (settle (ends t))) ∧
      (s.svc.restarting = false → walk s pitch.toNat (page.toNat * 65536) = .malformed →
        exec (.missServiceDone slice pitch page) s = .next (settle (ends (faultRec t 
          { agent := actAgent slice.toNat, cause := 0x19, cls := clsFailed, state := actCode (uAct t (uSlice slice.toNat)), pitch := some pitch.toNat, status := stNotMapped, unit := some (uSlice slice.toNat) })))) ∧
      exec (.missTimeout slice pitch page) s = .next (m.waiting.foldl (fun w r => endWaiting w r stRetry)
        (faultRec (bump (missDrop (nowTo s (m.sent + 20000)) slice.toNat pitch.toNat page.toNat) .actMissTimeout slice.toNat 0 0)
          { agent := svcAgent, cause := 0x1A, cls := clsFailed, pitch := some pitch.toNat, status := stRetry }))) ∧
    (∀ (s : State) (pitch : BitVec 8), exec (.pageTableChangeDone pitch) s = .next (settle
      ((s.act.changes.filter (fun c => c.pitch.toNat = pitch.toNat)).foldl
        (fun w c => collPageChange (changeConfirmed (changeEnds w c) c) pitch.toNat c.base c.size)
        (actMod s (fun a => { a with changes := a.changes.filter (fun c => c.pitch.toNat ≠ pitch.toNat) }))))) ∧
    (∀ (s : State) (ep : BitVec 12) (ctx : BitVec 16) (r : Recall), s.act.recalls.find? (fun x => decide (x.endpoint = ep) && decide (x.context = ctx)) = some r →
      let t := nowTo s (r.start + recallDeadlineNs s)
      (s.svc.restarting = false → exec (.recallDeadline ep ctx) s = .next (settle (revokeAll t ep ctx))) ∧
      (s.svc.restarting = true → exec (.recallDeadline ep ctx) s = .next (settle (svcMod t (fun v => { v with lateRecalls := v.lateRecalls ++ [(ep, ctx)] }))))))

/-- R230, R229, R131: SW_READ_SHARED, SW_READ_OWN and SW_UPGRADE for a line the home serves. A BUSY line makes the request wait
in its queue. Ordered on a line in HI, the request is answered OK, counted, and SW_DATA leaves at once: E for a shared read, M
for ownership, which claims a FREE line for the context; the line is BUSY until SW_DONE. R234, R235, R236, R230: SW_WRITEBACK of
the owner of a line that is not BUSY is stored with OWNER unchanged and answered accepted; from an agent that does not own it,
discarded; a third one while two are held is dropped. SW_EVICT of the owner of a line in HX ends the ownership; SW_DONE of the
requester ends its part of the transaction. -/
def Obligations.SyncWindow : Prop :=
  (
    ∀ (s t : State) (op : Byte) (f : RxFrame) (r : Req) (p : List (List Piece)) (slice line : Nat) (rest : List Nat),
      receive s op f = .go t r → Checked t r → swLenOk r = true → r.address.toNat % 64 = 0 →
      check14 t r [{ addr := r.address.toNat, len := 64 }] = .ok p slice → pieceLines p.flatten = line :: rest →
      lineVerdict t line = .good → (dirFind t line = none → ownerOk t line r.context = true) →
      let n := r.pitch.toNat
      let done (w : State) : Host.Outcome State Fault Refusal := .next (settle (ackNow w r.flow))
      let serves (c : Instr) (count : Cnt) (own : Bool) : Prop :=
        (∀ ix x, dirFind t line = some ix → (dirGet t ix).txn = some x → exec c s =
          done (markWindow (dirPut t ix { dirGet t ix with queue := (dirGet t ix).queue ++ [r] }) r)) ∧
        (∀ ix, dirFind t line = none → txnUsed t < 4096 → dirAlloc t line = .free ix →
          let a := answer (bump (dirNew t ix line r.address.toNat n) count 0 0 n) r stOk (zeros 8)
          let e : SwEnt := { line := line, pva := r.address.toNat, pitch := n, stamp := t.swn.stamp + 1 }
          let x : SwTxn := { kind := .agent r own, needDone := true, dataDue := true }
          let b := dirPut a ix { e with txn := some x }
          let c1 := if own ∧ (metaGet b line).owner = 0xFFFF then lineWrite b n r.context line (zeros 64) else b
          exec c s = done (dirPut (sendHomeData c1 ix r.endpoint.toNat (if own then 3 else 2)) ix
            { e with txn := some { x with dataDue := false, sentAt := some b.now } })) ∧
        (dirFind t line = none → 4096 ≤ txnUsed t → exec c s = done (answer (bump t .swnRetry 0 0 n) r stRetry []))
      (op = 0x40 → serves (.swReadShared f) .swnReqShared false) ∧
      (op = 0x41 → serves (.swReadOwn f) .swnReqOwn true) ∧
      (op = 0x42 → serves (.swUpgrade f) .swnReqUpgrade true)) ∧
  (
    ∀ (s t : State) (op : Byte) (f : RxFrame) (r : Req) (line : Nat),
      receive s op f = .go t r → Checked t r → swLenOk r = true → r.address.toNat % 64 = 0 → swTarget t r = .inr line →
      let n := r.pitch.toNat
      let a := r.endpoint.toNat
      let done (w : State) : Host.Outcome State Fault Refusal := .next (settle (ackNow w r.flow))
      let few := (t.swn.held.filter (fun h => h.2.endpoint = r.endpoint)).length < 2
      (op = 0x43 →
        (¬ few → exec (.swWriteback f) s = done (bump t .swnWbOver 0 0 n)) ∧
        (few → dirFind t line = none →
          exec (.swWriteback f) s = done (bump (answer t r stOk (1 :: zeros 7)) .swnWbUnexpected 0 0 n)) ∧
        (∀ ix, few → dirFind t line = some ix → (dirGet t ix).txn = none → (dirGet t ix).owner = some a →
          let e := dirGet t ix
          exec (.swWriteback f) s = done (ownerGone (bump (answer (metaPut (memPut t (e.line / 64 * 64) r.payload) e.line
            { metaGet t e.line with keySlot := (pitchKey t e.pitch).1, keyGen := (pitchKey t e.pitch).2, poison := 0 }) r stOk (0 :: zeros 7))
            .swnWbAccept 0 0 e.pitch) ix)) ∧
        (∀ ix x, few → dirFind t line = some ix → (dirGet t ix).txn = some x → a ∉ x.inval → a ∉ x.wbs → x.fwd = some a →
          exec (.swWriteback f) s = done (markWindow (swnMod t (fun w => { w with held := w.held ++ [(line, r)] })) r))) ∧
      (op = 0x44 →
        let b := answer t r stOk (zeros 8)
        (dirFind t line = none → exec (.swEvict f) s = done b) ∧
        (∀ ix, dirFind t line = some ix → (dirGet t ix).state = .hx → (dirGet t ix).owner = some a → exec (.swEvict f) s = done (ownerGone b ix)) ∧
        (∀ ix, dirFind t line = some ix → ((dirGet t ix).state ≠ .hx ∨ (dirGet t ix).owner ≠ some a) → exec (.swEvict f) s = done b)) ∧
      (op = 0x48 →
        let b := answer t r stOk (zeros 8)
        (dirFind t line = none → exec (.swDone f) s = done b) ∧
        (∀ ix x q own, dirFind t line = some ix → (dirGet t ix).txn = some x → x.kind = .agent q own → q.endpoint = r.endpoint → x.needDone = true →
          exec (.swDone f) s = done (txnStep (dirPut b ix { dirGet t ix with txn := some { x with needDone := false } }) ix))))

/-- R105, R108, R115, R142, R228, R233, R264, R273, R293, R420, R422, R430, R432: an answer to a request of the controller's own.
RETRY leaves the request waiting for its resend; any other status completes it, frees its tracker, and has the effect its origin
gives it: recalled handles are freed or the holder revoked, the line's transaction goes on, the record fails, the mirrored
operation completes or the fly is lost, a probe fixes the role, a release makes the takeover known. E cuts the flow's rate. -/
def Obligations.AnswersToOwnRequests : Prop :=
  ∀ (s t : State) (op : Byte) (f : RxFrame) (q : CtlReq), receiveOther s op f = (t, true) →
    let id := respFlow t f
    let u0 := noteCtl t id f.via
    let u := if flagE f.hdr.flags = true ∧ (aget u0.tpt.ctl id).isSome = true then rateCut u0 id else u0
    answeredReq u op f id = some q →
    let st := bitsOf f.hdr.flags 0 8
    let w := ctlDrop u id q.seq
    let byte (i : Nat) := (byteAt f.payload i).toNat
    let a := flowEp id
    let n := flowPitch id
    let ctx := q.frame.context
    let answers (c : Instr) (v : State) : Prop :=
      (st = stRetry → exec c s = .next (ctlMod u id q.seq (fun x => { x with retrying := true, resendAt := u.now + rtoInitNs u }))) ∧
      (st ≠ stRetry → exec c s = .next (settle (sendHeld v)))
    (∀ ep cx, op = 0xB1 → q.origin = .xlateInval ep cx →
      let mine := (w.act.recalls.filter (fun r => r.endpoint = ep ∧ r.context = cx)).flatMap (·.keys)
      let ks := ((upto (q.frame.payload.length / 8)).map (fun i => beNat ((q.frame.payload.drop (8 * i)).take 8) / 2 ^ 30 % 2 ^ 18)).filter (fun k => k ∈ mine)
      let left := w.act.recalls.map (fun r => if r.endpoint = ep ∧ r.context = cx then { r with keys := r.keys.filter (fun k => k ∉ ks) } else r)
      answers (.xlateInvalResponse f) (if st = stOk then actMod (ks.foldl hFree w) (fun x => { x with recalls := left.filter (fun r => !r.keys.isEmpty) })
        else revokeAll w ep cx)) ∧
    (∀ line, op = 0xC5 → q.origin = .swForward line → answers (.swForwardResponse f)
      (if st = stOk then match dirFind w line with
        | some ix => forwardAnswer w ix a (byte 0) (byte 1) (byte 2)
        | none => w
       else revokeAgent w a n ctx)) ∧
    (∀ line e, op = 0xC6 → q.origin = .swInvalidate line e → answers (.swInvalidateResponse f)
      (if st = stOk then match dirFind w line with
        | some ix => invalAnswer w ix a (byte 0)
        | none => w
       else revokeAgent w a n ctx)) ∧
    (∀ i p k, op = 0xD2 ∨ op = 0xD3 → q.origin = .collFrame i p k →
      answers (.collFrameResponse op f) (if st = stSessFailed then collSendFailed w i p else w)) ∧
    (∀ i p, op = 0xD4 → q.origin = .collClose i p → answers (.collCloseResponse f) w) ∧
    (∀ e, op = 0xE3 → q.origin = .kernelEvent e → answers (.kernelEventResponse f) w) ∧
    (∀ p, op = 0x82 → q.origin = .probe p → answers (.probeResponse f)
      (if (mirGet w p.toNat).probing = true ∧ st = stOk then mirSet w p.toNat { mirGet w p.toNat with role := .active, confirmed := true, probing := false }
       else if (mirGet w p.toNat).probing = true ∧ st = stMoved then mirSet w p.toNat { mirGet w p.toNat with role := .standby, confirmed := decide ((pGet w p.toNat).life = .pitching), probing := false }
       else w)) ∧
    (∀ p, op = 0x82 → q.origin = .release p → answers (.releaseResponse f)
      (if st = stOk then mirSet w p.toNat { mirGet w p.toNat with takeoverKnown := true } else w)) ∧
    (∀ p line, op = 0x82 ∨ op = 0xA1 ∨ op = 0xA3 → q.origin = .resync p line → answers (.mirrorResponse op f) (if st = stOk then w else flyLost w p.toNat)) ∧
    (∀ p k, op = 0x82 ∨ op = 0xA1 ∨ op = 0xA3 → q.origin = .mirror p k →
      let m := mirGet w p.toNat
      let ws := m.waits.map (fun x => if x.ticket = k then { x with left := x.left - 1 } else x)
      let dueNow (x : MirWait) : Bool := decide (x.ticket = k) && decide (x.left = 0)
      let w1 := mirSet w p.toNat { m with waits := ws.filter (fun x => !dueNow x) }
      answers (.mirrorResponse op f) (if st = stOk then (match ws.find? dueNow with | some x => mirDone w1 x | none => w1) else flyLost w p.toNat))

/-- R104, R108, R109, R115, R242: the controller's timers. A request's timer that expires doubles up to RTO_MAX and sends it
again unless it is acknowledged, fails it at RTX_LIMIT with a fault record, and only restarts while KLR holds the port; a RETRY
is sent again every RTO_INIT; ACK_DELAY sends an ACK, NACK_DELAY a NACK of what is missing; 50 µs without congestion add 1 GB/s;
a missing SW_DONE brings an SW_INVALIDATE. R102, R103, R105, R115: a received ACK or NACK acknowledges every number it reports as
received (up to the cumulative number; of those up to the top, the ones in a block of an ACK or outside the blocks of a NACK),
and a NACK's blocks are sent again with their timers restarted; a CE count cuts the rate; one behind the last cumulative number
does nothing more than count. -/
def Obligations.TransportTimersAndAcks : Prop :=
  (
    ∀ (s : State) (id : FlowId) (seq : BitVec 24),
      (∀ q, ctlFind s id seq = some q → ¬ (q.retrying = true ∧ (q.frame.opcode = 0x52 ∨ q.frame.opcode = 0x53)) →
        let t := nowTo s q.due
        let longer := min (rtoMaxNs s) (2 * q.timer)
        let again := ctlMod t id seq (fun x => { x with timer := longer, count := x.count + 1, due := t.now + longer })
        let gone := faultRec (bump (ctlDrop t id q.seq) .tptRtxFail 0 0 (flowPitch id))
          { agent := tptAgent, cause := 0x34, cls := clsFailed, pitch := some (flowPitch id), lo := flowEp id }
        (portHeld t id = true → exec (.requestTimeoutRetransmit id seq) s = .next (settle (ctlMod t id seq (fun x => { x with due := t.now + x.timer })))) ∧
        (portHeld t id = false → rtxLimit s ≤ q.count →
          exec (.requestTimeoutRetransmit id seq) s = .next (settle (sendHeld (originFails gone id q)))) ∧
        (portHeld t id = false → q.count < rtxLimit s → q.acked = true ∨ q.retrying = true →
          exec (.requestTimeoutRetransmit id seq) s = .next (settle again)) ∧
        (portHeld t id = false → q.count < rtxLimit s → q.acked = false → q.retrying = false →
          exec (.requestTimeoutRetransmit id seq) s = .next (settle (resend again id q)))) ∧
      (ctlFind s id seq = none → exec (.requestTimeoutRetransmit id seq) s = .next (settle s)) ∧
      (∀ q, ctlFind s id seq = some q → q.retrying = true →
        let t := nowTo s q.resendAt
        exec (.retryResend id seq) s = .next (resend (ctlMod t id seq (fun x => { x with resendAt := t.now + rtoInitNs s })) id q)) ∧
      ((∀ q, ctlFind s id seq = some q → q.retrying = false) → exec (.retryResend id seq) s = .next s) ∧
      (∀ fl at_, flowGet s id = some fl → fl.ackDue = some at_ → fl.bits = [] →
        let t := nowTo s at_
        let u := flowPut t id { fl with fresh := 0, ackDue := none, ce := 0 }
        exec (.ackDelayExpire id) s = .next (sendFrame (bump u .tptAckTx 0 0 (match id with | .ep _ p _ => p.toNat | .sess _ _ _ => 0)) id
          (ackFrame t id fl.c ([0, 0] ++ beBytes 2 (min 0xFFFF fl.ce) ++ beBytes 4 fl.c.toNat)))) ∧
      (∀ fl at_, flowGet s id = some fl → nackDueAt s fl = some at_ → exec (.nackDelayExpire id) s = .next (sendNack (nowTo s at_) id)) ∧
      (∀ c, aget s.tpt.ctl id = some c →
        let t := nowTo s (c.lastSignal + 50000)
        exec (.flowRateRaise id) s = .next (ctlPut t id { c with rate := min (flowCeiling t id) (c.rate + 1000), lastSignal := t.now })) ∧
      (∀ (line : BitVec 38) ix e x r own at_, dirFind s (line.toNat * 64) = some ix → dirGet s ix = e → e.txn = some x → x.kind = .agent r own →
        x.needDone = true → x.sentAt = some at_ →
        exec (.swDoneTimeout line) s = .next (settle (sendInval (dirPut (nowTo s (at_ + regField s swnAgent 0x100 0 16 * 1000)) ix
          { e with txn := some { x with needDone := false, dropped := true, inval := r.endpoint.toNat :: x.inval } }) ix r.endpoint.toNat)))) ∧
  (
    ∀ (s t : State) (f : RxFrame) (c : CtlFlow), receiveOther s 0x7F f = (t, true) →
      let id : FlowId := if f.hdr.address.getLsbD 8 then .sess f.srcAddr f.srcPort f.hdr.tc
        else .ep f.hdr.endpoint (BitVec.ofNat 8 (f.hdr.address.toNat % 256)) f.hdr.tc
      let nack := decide (byteAt f.payload 0 = 1)
      let u := bump t (if byteAt f.payload 0 = 1 then .tptNackRx else .tptAckRx) 0 0 (flowPitch id)
      let cum := f.hdr.flowSeq
      let top : BitVec 24 := BitVec.ofNat 24 (beNat ((f.payload.drop 4).take 4))
      let bs := ackBlocks f.payload
      let inBlock (x : BitVec 24) : Bool := bs.any (fun b => decide ((x - b.1).toNat < b.2))
      let reported (x : BitVec 24) : Bool := decide ((cum - x).toNat < 0x800000) ||
        (decide ((x - cum).toNat ≤ (top - cum).toNat) && (if nack then !inBlock x else inBlock x))
      (aget u.tpt.ctl id = none → exec (.transportAck f) s = .next u) ∧
      (aget u.tpt.ctl id = some c → ∀ last, c.lastCum = some last → 0x800000 ≤ (cum - last).toNat → exec (.transportAck f) s = .next u) ∧
      (aget u.tpt.ctl id = some c → (∀ last, c.lastCum = some last → (cum - last).toNat < 0x800000) →
        let v := noteCtl (ctlPut u id { c with lastCum := some cum }) id f.via
        let w := if beNat ((f.payload.drop 2).take 2) = 0 then v else rateCut v id
        let x := (c.reqs.filter (fun q => reported q.seq && !q.acked)).foldl (fun y q => ctlAcked y id q) w
        exec (.transportAck f) s = .next (settle (sendHeld ((if nack then c.reqs.filter (fun q => inBlock q.seq) else []).foldl (fun y q =>
          match ctlFind y id q.seq with
          | some r => resend (ctlMod y id q.seq (fun z => { z with due := y.now + z.timer })) id r
          | none => y) x)))))

/-! ## Collectives and kernel sessions (R247 to R305) -/

/-- R247, R259, R260, R261, R264, R273: COLL_OPEN, COLL_QUERY, COLL_CLOSE and the data frames of a collective. An opened record
is WAITING until its START, else RUNNING, in the lowest free slot, and answered with its ID; a refused one is answered with the
status and FIELD of its first failure, or the determinism class. R256, R262, R264, R265, R266: an accepted data frame is answered
OK and its units are taken in order: an operand of a local rank (COLL_CONTRIB, named by the descriptor's contributor list) or of
a child chip (COLL_PARTIAL), or the result of the parent (COLL_RESULT); then the chunks it touches advance. -/
def Obligations.Collectives : Prop :=
  (
    (∀ (s t : State) (f : RxFrame) (r : Req), receive s 0x50 f = .go t r → flagMisuse t r = false → permitted t r = true →
      104 ≤ r.payload.length → ((openFlaws r.payload).find? (·.2)) = none →
      let d := readColl r.payload
      let done (w : State) : Host.Outcome State Fault Refusal := .next (ackNow w r.flow)
      openLen r d = none → (d.exact = true ∨ d.workBase % 65536 = 0) → d.destBase % 64 = 0 → pitchCheck t r = none →
      let slot := ((upto 128).find? (fun i => (tfind t.clx.recs i).isNone)).getD 0
      let waits := match d.start with
        | some at_ => decide (cd10Total t < at_)
        | none => false
      let made : CollRec := { slot := slot, pitch := r.pitch, context := r.context, opener := r.endpoint, desc := d,
                              state := if waits then .waiting else .running, accepted := t.now }
      (openRefusal t r d = none → exec (.collOpen f) s = done (openMore (answer (bump (clxWindows (recPut t slot made) (slot % 16))
        .clxOpen 0 0 r.pitch.toNat) r stOk (beBytes 4 d.id)) slot)) ∧
      (∀ st field, openRefusal t r d = some (st, field) → exec (.collOpen f) s = done (answer (bump t .clxOpenRefused 0 0 r.pitch.toNat) r st
        (if st = stDclass then beBytes 8 t.clx.dclass.toNat else beBytes 4 field)))) ∧
    (∀ (s t : State) (op : Byte) (f : RxFrame) (r : Req), receive s op f = .go t r → Checked t r → collLenOk r = true →
      let n := r.pitch.toNat
      let done (w : State) : Host.Outcome State Fault Refusal := .next (settle (ackNow w r.flow))
      let arg := beNat (r.payload.take 4)
      let asked := recFind t n (arg % 2 ^ 24)
      let named := recFind t n (r.address.toNat / 2 ^ 40)
      (op = 0x55 → asked = none → exec (.collQuery f) s = done (answer t r stOk (zeros 8))) ∧
      (∀ ix, op = 0x55 → asked = some ix → exec (.collQuery f) s = done (answer t r stOk
        (beBytes 4 (collCode (recGet t ix).state + (recGet t ix).cause * 256) ++ beBytes 4 (recGet t ix).done))) ∧
      (op = 0x54 → asked = none → arg < 2 ^ 31 → exec (.collClose f) s = done (answer t r stSessFailed [])) ∧
      (∀ ix, op = 0x54 → asked = some ix → arg < 2 ^ 31 → ((recGet t ix).state = .waiting ∨ (recGet t ix).state = .running) →
        (recGet t ix).closes.length < 64 →
        exec (.collClose f) s = done (markWindow (recPut t ix { recGet t ix with closes := (recGet t ix).closes ++ [r] }) r)) ∧
      (∀ ix, op = 0x54 → asked = some ix → arg < 2 ^ 31 → (recGet t ix).state = .done → (recGet t ix).opener = r.endpoint →
        exec (.collClose f) s = done (freeRec (answer t r stOk []) ix)) ∧
      (∀ ix, op = 0x54 → asked = some ix → 2 ^ 31 ≤ arg → ((recGet t ix).desc.neigh.any (fun g => decide (g.endpoint = r.endpoint))) = false →
        exec (.collClose f) s = done (answer (failRec t ix 3 none) r stOk [])) ∧
      (named = none →
        let late := done (answer (bump t .clxEarly 0 0 n) r stRetry [])
        (op = 0x51 → exec (.collContrib f) s = late) ∧ (op = 0x52 → exec (.collPartial f) s = late) ∧ (op = 0x53 → exec (.collResult f) s = late)) ∧
      (∀ ix, named = some ix → (recGet t ix).state = .failed →
        let late := done (answer t r stSessFailed [])
        (op = 0x51 → exec (.collContrib f) s = late) ∧ (op = 0x52 → exec (.collPartial f) s = late) ∧ (op = 0x53 → exec (.collResult f) s = late)))) ∧
  (
    ∀ (s t : State) (op : Byte) (f : RxFrame) (r : Req) (ix : Nat), receive s op f = .go t r → Checked t r → collLenOk r = true →
      let n := r.pitch.toNat
      let rc := recGet t ix
      let d := rc.desc
      let who := r.address.toNat / 2 ^ 24 % 65536
      let off := r.address.toNat % 2 ^ 24
      let ub := unitBytes d op.toNat
      let cnt := r.payload.length / ub
      let us := (upto cnt).map (fun i => (off + i, (r.payload.drop (i * ub)).take ub))
      let ks := us.foldl (fun acc u => insertNat (u.1 / 256) acc) []
      recFind t n (r.address.toNat / 2 ^ 40) = some ix → rc.state ≠ .failed → 0 < ub → r.payload.length % ub = 0 → off + cnt ≤ unitCount d →
      let steps (w : State) : Host.Outcome State Fault Refusal :=
        .next (settle (ackNow (ks.foldl (fun v k => chunkStep v ix k) w) r.flow))
      let shut (u : Nat) : Prop := rc.openTo ≤ u / 256 ∨ (chunkGet rc (u / 256)).closed = true
      let operands (child : Bool) := us.foldl (fun v u => takeUnit v ix child who op.toNat u)
        (bumpN (answer t r stOk []) .clxBytesIn 0 0 n r.payload.length)
      (op = 0x51 → firstRank d ≤ who → who < firstRank d + localRanks d → d.contrib[who - firstRank d]? = some r.endpoint →
        (off, false, who) ∉ (chunkGet rc (off / 256)).seen → (∀ u ∈ us, ¬ shut u.1) → exec (.collContrib f) s = steps (operands false)) ∧
      (∀ g, op = 0x52 → who ∈ childChips d d.position → neighAt d who = some g → g.endpoint = r.endpoint →
        (off, true, who) ∉ (chunkGet rc (off / 256)).seen → (∀ u ∈ us, ¬ shut u.1) → exec (.collPartial f) s = steps (operands true)) ∧
      (∀ g, op = 0x53 → d.position ≠ 0 → neighAt d (parentOf d d.position) = some g → g.endpoint = r.endpoint →
        (chunkGet rc (off / 256)).resulted = false → tfind (chunkGet rc (off / 256)).result off = none →
        exec (.collResult f) s = steps (us.foldl (fun v u =>
          let c := chunkGet (recGet v ix) (u.1 / 256)
          if c.resulted = true ∨ (tfind c.result u.1).isSome = true then v
          else chunkPut v ix (u.1 / 256) { c with result := tins c.result u.1 u.2 }) (answer t r stOk []))))

/-- R265: what the exact accumulator adds does not depend on the order in which operands arrive, and its encoding in a partial
loses nothing: a sum within its range, an infinity and a NaN read back as they were. -/
def Obligations.ExactSumOrderFree : Prop :=
  (∀ (a : ExAcc) (xs ys : List ExAcc), xs.Perm ys → xs.foldl accAdd a = ys.foldl accAdd a) ∧
  (∀ (t : Nat) (v : Int), -(2 ^ (8 * accBytes t - 1)) + 3 < v → v < 2 ^ (8 * accBytes t - 1) → accOfBits t (accBits t (.fin v)) = .fin v) ∧
  (∀ (t : Nat) (neg : Bool), accOfBits t (accBits t (.inf neg)) = .inf neg) ∧ (∀ t : Nat, accOfBits t (accBits t .nan) = .nan)

/-- R260, R266, R271, R273, R274: the events of a record. START makes a WAITING record RUNNING and lets its chunks advance; a
slot releases its chunk; a finished chunk counts once, the last makes the record DONE and answers the held closes; the deadline
fails it with cause 1, 100 ms after its end it is freed, and a remembered ID is forgotten after 1 s. -/
def Obligations.CollectiveEvents : Prop :=
  ∀ (s : State) (pitch : BitVec 8) (id : BitVec 24) (chunk : BitVec 16) (ix : Nat) (r : CollRec),
    recFind s pitch.toNat id.toNat = some ix → tfind s.clx.recs ix = some r →
    (∀ at_, r.state = .waiting → r.desc.start = some at_ → exec (.collStartTime pitch id) s = .next (stepAll (recPut (cd10To s at_) ix { r with state := .running }) ix)) ∧
    (r.state ≠ .waiting ∨ r.desc.start = none → exec (.collStartTime pitch id) s = .next s) ∧
    (∀ at_, r.state = .running → r.desc.start = some at_ →
      exec (.collPaceSlot pitch id chunk) s = .next (chunkStep (cd10To s (at_ + chunk.toNat * r.desc.period)) ix chunk.toNat)) ∧
    (∀ t q, chunkStep s ix chunk.toNat = t → tfind t.clx.recs ix = some q → q.state = .running → chunk.toNat < chunkCount q.desc →
      (chunkGet q chunk.toNat).finished = false → chunkDone q.desc (chunkGet q chunk.toNat) = true →
      let counted := { q with done := q.done + 1, chunks := tins q.chunks chunk.toNat { chunkGet q chunk.toNat with finished := true } }
      let u := bump (recPut t ix counted) .clxChunks 0 0 q.pitch.toNat
      let ended := { counted with state := .done, ended := t.now }
      (q.done + 1 = chunkCount q.desc → exec (.collChunkFinished pitch id chunk) s =
        .next (settle (answerCloses (traceColl (bump (recPut u ix ended) .clxDone 0 0 q.pitch.toNat) ended) ix))) ∧
      (q.done + 1 ≠ chunkCount q.desc → exec (.collChunkFinished pitch id chunk) s = .next (settle u))) ∧
    (∀ dl, r.desc.deadline = some dl → (r.state = .waiting ∨ r.state = .running) →
      let t := match r.desc.start with
        | some at_ => cd10To s (at_ + dl)
        | none => nowTo s (r.accepted + dl)
      exec (.collDeadline pitch id) s = .next (settle (failRec ((upto (chunkCount r.desc)).foldl (fun w k => collFinished w ix k) t) ix 1 none))) ∧
    ((r.state = .done ∨ r.state = .failed) → exec (.collRecordExpire pitch id) s = .next (freeRec (nowTo s (r.ended + 100000000)) ix)) ∧
    (∀ a, s.clx.aborted.find? (fun a => decide (a.1 = pitch) && decide (a.2.1 = id.toNat)) = some a →
      exec (.collAbortIdExpire pitch id) s = .next (clxMod (nowTo s (a.2.2 + 1000000000)) (fun c =>
        { c with aborted := c.aborted.filter (fun x => !(decide (x.1 = pitch) && decide (x.2.1 = id.toNat))) })))

/-- R284, R290, R291, R293: KERNEL_LAUNCH that passes every order enters LOADING when its cores are free, waits in the launch
queue where it may, and is answered RETRY otherwise; its answer comes with RUNNING. KERNEL_QUERY tells a session of the pitch,
KERNEL_ABORT ends one. R213, R284, R291, R292, R294, R305: the events of a kernel session. A queued launch whose cores are free
and that no earlier one waits for enters LOADING; a load that ends well and passes its checks makes it RUNNING with every core at
its code, HOLD and registers and answers the launch; one that fails answers it with the status; DONE when all cores have halted
and no stage command is left; cause 1 at the deadline; then cleared, then freed. -/
def Obligations.KernelSessions : Prop :=
  (
    (∀ (s t : State) (f : RxFrame) (r : Req), receive s 0x60 f = .go t r → flagMisuse t r = false → permitted t r = true →
      r.length.toNat = 24 → r.payload.length = 24 → pitchCheck t r = none →
      let n := r.pitch.toNat
      let object : DWord := BitVec.ofNat 64 (beNat (r.payload.take 8))
      let args := beNat ((r.payload.drop 8).take 8)
      let quads := beNat ((r.payload.drop 16).take 2)
      let lf := beNat ((r.payload.drop 18).take 2)
      let refused (u : State) (st : Nat) : Host.Outcome State Fault Refusal := .next (ackNow (answer (bump u .grdLaunchRefused 0 0 n) r st []) r.flow)
      let flagsFit := lf < 64 ∧ coreMaskOk (coreMaskOf lf) = true ∧ (object.getLsbD 63 = true → object.toNat / 2 ^ 16 % 2 ^ 47 = 0)
      let aligned := (object.getLsbD 63 = false → object.toNat % 64 = 0) ∧ args % 64 = 0
      (¬ flagsFit → exec (.kernelLaunch f) s = refused t stUnsupported) ∧
      (flagsFit → ¬ aligned → exec (.kernelLaunch f) s = refused t stAlign) ∧
      (∀ aps rc h0 hd0 h1 hd a ab k,
        flagsFit → aligned → (object.getLsbD 63 = false → ∃ hp, masterRange t n (object.toNat % 2 ^ 57) 256 = .inr hp) →
        masterRange t n args 256 = .inr aps → launchRect quads (coreMaskOf lf) = some rc → placementOk t n quads rc = true →
        objRead t n object 256 = (h0, .inr hd0) → 256 + 16 * (rc.w * rc.h) ≤ objTotal hd0 → objRead h0 n object (256 + 16 * (rc.w * rc.h)) = (h1, .inr hd) →
        masterRead h1 n (svcClass t n false) aps = (a, .inr ab) → launchBuild a r hd ab = .inr k →
        ∀ ix, (upto 256).find? (fun i => (tfind a.grd.sess i).isNone) = some ix →
        let num := nextNumber a 65536 a.grd.next
        let u := markWindow (grdMod (sessPut a ix { k with number := num.toNat, slot := ix, state := .queued }) (fun g => { g with next := num + 1 })) r
        (coresFree a k = true → exec (.kernelLaunch f) s = .next (ackNow (enterLoading u ix) r.flow)) ∧
        (coresFree a k = false → lf.testBit 4 = true → a.grd.queue.length < 64 →
          exec (.kernelLaunch f) s = .next (ackNow (grdMod u (fun g => { g with queue := g.queue ++ [ix] })) r.flow)) ∧
        (coresFree a k = false → (lf.testBit 4 = false ∨ 64 ≤ a.grd.queue.length) → exec (.kernelLaunch f) s = refused (bump a .grdQueueFull 0 0 n) stRetry))) ∧
    (∀ (s t : State) (op : Byte) (f : RxFrame) (r : Req), receive s op f = .go t r → Checked t r → r.length = 4 → r.payload.length = 4 →
      let number := beNat (r.payload.take 2)
      let done (w : State) : Host.Outcome State Fault Refusal := .next (ackNow w r.flow)
      (∀ ix, sessFind t number = some ix → (sessGet t ix).pitch = r.pitch → number ≠ 0 →
        (op = 0x61 → exec (.kernelQuery f) s = done (answer t r stOk (beBytes 4 (kStateWord (sessGet t ix)) ++ beBytes 8 (sessGet t ix).cycles))) ∧
        (op = 0x62 → exec (.kernelAbort f) s = done (answer (endSess t ix 3 none 0) r stOk []))) ∧
      ((∀ ix, sessFind t number = some ix → (sessGet t ix).pitch ≠ r.pitch) →
        (op = 0x61 → exec (.kernelQuery f) s = done (answer t r stOk (zeros 12))) ∧ (op = 0x62 → exec (.kernelAbort f) s = done (answer t r stOk []))))) ∧
  (
    ∀ (s : State) (session : BitVec 16) (ix : Nat), sessFind s session.toNat = some ix → session ≠ 0 →
      let k := sessGet s ix
      let n := k.pitch.toNat
      let earlier := s.grd.queue.takeWhile (fun x => x ≠ ix)
      let mine (u : State) := (sessQuads (sessGet u ix)).any (fun q => (quadGet u q).queue.any (fun c => decide (c.session = (sessGet u ix).number)))
      (k.state = .queued → ix ∈ s.grd.queue → coresFree s k = true → (∀ x ∈ earlier, ∀ c ∈ (sessGet s x).cores, c ∉ k.cores) →
        exec (.kernelDequeue session) s = .next (enterLoading (grdMod s (fun g => { g with queue := g.queue.filter (fun x => x ≠ ix) })) ix)) ∧
      (k.state ≠ .queued → exec (.kernelDequeue session) s = .next s) ∧
      (∀ h hd u bs rs r, k.state = .loading → objRead s n k.object 256 = (h, .inr hd) → objRead h n k.object (objTotal hd) = (u, .inr bs) →
        allowOk u n bs = true → objHeadOk u bs = true → leAt bs 8 1 = k.width → leAt bs 9 1 = k.height → objSectionsOk bs (k.width * k.height) = true →
        objRoutes bs k.width k.height = some rs → k.req = some r →
        let k1 := { k with state := .running, windows := k.pendingWindows, pendingWindows := [], routes := rs, req := none }
        let w := setSessWindows (sessPut (clearStageWindows u k) ix k1) k1 k1.windows
        exec (.kernelLoadDone session) s = .next (answer (bump ((k.cores.zip (upto k.cores.length)).foldl
          (fun v e => corePut v e.1 (coreInit k bs e.2)) w) .grdLaunch 0 0 n) r stOk (beBytes 2 k.number ++ [0, 0]))) ∧
      (∀ h hd u bs, k.state = .loading → objRead s n k.object 256 = (h, .inr hd) → objRead h n k.object (objTotal hd) = (u, .inr bs) →
        allowOk u n bs = false → exec (.kernelLoadDone session) s = .next (dropLaunch (bump u .fumAllowRefused 0 0 n) ix stDenied)) ∧
      (∀ h st, k.state = .loading → objRead s n k.object 256 = (h, .inl st) →
        exec (.kernelLoadFail session) s = .next (dropLaunch h ix st) ∧ exec (.kernelLoadDone session) s = .next (dropLaunch h ix st)) ∧
      (∀ u, openGates (issueStage s ix) ix = u → (sessGet u ix).state = .running → (∀ c ∈ (sessGet u ix).cores, (coreGet u c).halted.isSome = true ∧ (coreGet u c).gate = none) →
        (sessGet u ix).issuing = [] → mine u = false →
        exec (.kernelSessionDone session) s = .next (endSess (sessPut u ix { sessGet u ix with
          cycles := (sessGet u ix).cycles + b2n (sessGet u ix).inCycle, inCycle := false }) ix 0 none 0)) ∧
      (∀ at_, k.deadline = some at_ →
        (k.state = .queued ∨ k.state = .loading → exec (.kernelDeadline session) s = .next (dropLaunch (nowTo s at_) ix stSessFailed)) ∧
        (k.state = .running → exec (.kernelDeadline session) s = .next (endSess (nowTo s at_) ix 1 none 0))) ∧
      ((k.state = .done ∨ k.state = .failed) → k.cleared = false → exec (.kernelClearDone session) s = .next (clearSess s ix)) ∧
      ((k.state = .done ∨ k.state = .failed) → k.cleared = true →
        exec (.kernelRecordExpire session) s = .next (grdMod (nowTo s (k.ended + 1000000000)) (fun g => { g with sess := tdel g.sess ix }))))

/-- R136, R295, R296, R305: the first stage command of a quad's queue that has not moved moves its tile and completes; stage-in
reads it into its target, stage-out writes the target's bytes under the session's context; a failed access ends the session with
cause 7 and the status, and a unit that does not serve makes it wait. -/
def Obligations.StageCommands : Prop :=
  ∀ (s : State) (quad : BitVec 4) (c : StageCmd) (ix : Nat),
    (quadGet s quad.toNat).queue.find? (fun c => !c.moved) = some c → sessFind s c.session = some ix →
    let k := sessGet s ix
    let n := k.pitch.toNat
    let cls := svcClass s n false
    let own := masterReq n 1 quad.toNat c.ticket
    let ends (t : State) : Host.Outcome State Fault Refusal := .next (settle t)
    (∀ st, tilePieces s n c = .inl st → (st = stFenced ∨ st = stRetry) → exec (.stageCommandDone quad) s = ends s) ∧
    (∀ st, tilePieces s n c = .inl st → st ≠ stFenced → st ≠ stRetry → exec (.stageCommandDone quad) s = ends (endSess s ix 7 none st)) ∧
    (∀ ps e, tilePieces s n c = .inr ps → c.out = false → touchesBadCocoon s n ps = false → syncEnter s own (syncLines ps) false = (e, true) →
      (∀ u bs, masterRead e n cls ps = (u, .inr bs) →
        exec (.stageCommandDone quad) s = ends (stageComplete (targetPut (releaseLines u own) c bs) ix c)) ∧
      (∀ u st, masterRead e n cls ps = (u, .inl st) → exec (.stageCommandDone quad) s = ends (endSess (releaseLines u own) ix 7 none st))) ∧
    (∀ ps e, tilePieces s n c = .inr ps → c.out = true → (∀ p ∈ ps, entRo p.entry = false ∧ entCocoon p.entry = false) →
      syncEnter s own (syncLines ps) true = (e, true) →
      (∀ u, masterWrite e n cls k.context ps (targetBytes s c (c.rows * c.rowLen)) = (u, none) → mirrors (releaseLines u own) n = false →
        exec (.stageCommandDone quad) s = ends (stageComplete (releaseLines u own) ix c)) ∧
      (∀ u, masterWrite e n cls k.context ps (targetBytes s c (c.rows * c.rowLen)) = (u, none) → mirrors (releaseLines u own) n = true →
        let v := releaseLines u own
        let w := quadPut v quad.toNat { quadGet v quad.toNat with
          queue := (quadGet v quad.toNat).queue.map (fun x => if x.ticket = c.ticket then { x with moved := true } else x) }
        exec (.stageCommandDone quad) s = ends (mirrorOp w n k.context ((upto c.rows).map (fun i => (c.base + i * c.stride, c.rowLen)))
          { stage := some (k.number, c.ticket) })) ∧
      (∀ u st, masterWrite e n cls k.context ps (targetBytes s c (c.rows * c.rowLen)) = (u, some st) →
        exec (.stageCommandDone quad) s = ends (endSess (releaseLines u own) ix 7 none st)))

/-! ## Flies (R416 to R433) -/

/-- R425, R426, R428, R429, R420, R432: the chip's own mirroring events. A beat leaves at the next multiple of HB_PERIOD (half a
period later on MP) with its number, CD10 time and the ACTIVE bits; a silent guy line is lost with an ALARM; with both lost the
confirmed active fences itself at t_L + 5 periods and releases its fly, and a confirmed standby takes over at t_L + 7 periods; a
probing pitch probes; the last acknowledged line of a resynchronisation confirms the fly. -/
def Obligations.MirrorEvents : Prop :=
  (∀ (s : State) (peer : BitVec 4) (mp : Bool) (p : Peer), tfind s.mir.peers peer.toNat = some p → s.tpt.admitting = true → s.flt.stopped = false →
    let per := hbPeriodNs s
    let t := cd10To s (nextMultiple s per (if mp then per / 2 else 0))
    let line := if mp then 1 else 0
    let beat := (p.txBeat[line]?).getD 0 + 1
    let guy : Byte := if mp then 1 else if p.direct.isSome then 2 else 0
    let pay := beBytes 8 Config.serial.toNat ++ beBytes 8 beat ++ beBytes 6 t.cd10Sec.toNat ++ beBytes 4 t.cd10Ns ++ [guy, 0] ++ (activeBits t peer.toNat).reverse
    let id := FlowId.ep (BitVec.ofNat 12 p.localBase) 0 7
    let frame : TxFrame :=
      { opcode := 0x7E, typ := 2, flags := 0x4000, endpoint := BitVec.ofNat 12 p.remoteBase, tc := 7, length := 60, payload := pay,
        stream := .ep (BitVec.ofNat 12 p.localBase) 7, dstAddr := if mp then p.mpAddr else p.addr, dstPort := p.port, flow := some id, isReq := true }
    let u := bump (peerSet t peer.toNat { p with txBeat := lset p.txBeat line beat }) .mirHbTx 0 0 0
    exec (.heartbeatTx peer mp) s = .next (match mp, p.direct with
      | true, _ => enqueue u 8 frame
      | false, some l => enqueue u l frame
      | false, none => sendFrame u id frame)) ∧
  (∀ (s : State) (peer : BitVec 4) (mp : Bool), s.tpt.admitting = false ∨ s.flt.stopped = true ∨ tfind s.mir.peers peer.toNat = none →
    exec (.heartbeatTx peer mp) s = .next s) ∧
  (∀ (s : State) (peer : BitVec 4) (mp : Bool) (p : Peer), tfind s.mir.peers peer.toNat = some p →
    let line := if mp then 1 else 0
    let t := nowTo s (((p.lastAt[line]?).getD none).getD 0 + 5 * hbPeriodNs s)
    (lineAlive p line = true → exec (.guyLineLost peer mp) s = .next (faultRec (bump (peerSet t peer.toNat { p with alive := lset p.alive line false }) .mirGuyLost 0 0 0)
      { agent := mirAgent, cause := 0x60, cls := clsAlarm, lo := p.serial.toNat % 2 ^ 32, hi := p.serial.toNat / 2 ^ 32 })) ∧
    (lineAlive p line = false → exec (.guyLineLost peer mp) s = .next s)) ∧
  (∀ (s : State) (pitch : BitVec 8),
    let n := pitch.toNat
    let m := mirGet s n
    let p := peerGet s m.peer
    let lost := lineAlive p 0 = false ∧ lineAlive p 1 = false
    (hasFly s n = true → (pGet s n).life = .up → lost →
      exec (.mirrorSelfFence pitch) s = .next (selfFence (nowTo s (lastBeatAt p + 5 * hbPeriodNs s)) n true)) ∧
    (hasFly s n = false ∨ (pGet s n).life ≠ .up ∨ ¬ lost → exec (.mirrorSelfFence pitch) s = .next s) ∧
    (m.role = .standby → m.confirmed = true → lost →
      exec (.mirrorTakeover pitch) s = .next (takeover (nowTo s (lastBeatAt p + 7 * hbPeriodNs s)) n)) ∧
    (m.role ≠ .standby ∨ m.confirmed = false ∨ ¬ lost → exec (.mirrorTakeover pitch) s = .next s) ∧
    (m.probing = true → exec (.probeTimer pitch) s = .next (ctlSend s (mirFlow s n 3) (mirFrame s n 3 0
      (mirRecord s 1 true n 0 none (cfgDigest s n ++ beBytes 4 m.acceptNs)) (zeros 8)) (.probe pitch))) ∧
    (m.probing = false → exec (.probeTimer pitch) s = .next s) ∧
    (m.resync = true → resyncOut s n = false → exec (.resyncDone pitch) s = .next (mirSet s n { m with resync := false, confirmed := true })) ∧
    (m.resync = false ∨ resyncOut s n = true → exec (.resyncDone pitch) s = .next s))

/-- R119, R428, R429: what fencing and taking over change. The self-fenced pitch has lost its fly, is FENCED if it served, every
operation that waited for the fly is answered FENCED, and RELEASE goes out; the standby that takes over is the active without a
fly and DEGRADED, and each flow of the pitch goes on from the C of its carry-over record with no number above it. -/
def Obligations.FenceAndTakeover : Prop :=
  (∀ (s : State) (n : Nat) (by_ : Bool), hasFly s n = true →
    let m := mirGet s n
    let a := mirForget (mirSet s n { m with selfFenced := true, byLines := by_, waits := [] }) n
    let b := if uAct a (uPitch n) = .up ∨ uAct a (uPitch n) = .degraded then uMove a (uPitch n) .fenced else a
    let c := bump (mirFault b n 0x61 clsFencing) .mirSelfFence 0 0 n
    selfFence s n by_ = sendRelease ((m.waits.filterMap (·.req)).foldl (fun w r => respond w r stFenced []) c) n) ∧
  (∀ (s : State) (n : Nat), (mirGet s n).role = .standby → (mirGet s n).confirmed = true → (pGet s n).life = .up →
    ∃ t, takeover s n = bump (mirFault (uMove t (uPitch n) .degraded) n 0x62 clsDegrading) .mirTakeover 0 0 n ∧
      mirGet t n = { mirGet s n with role := .active, confirmed := false, zeros := 0 } ∧
      (∀ k, k ≠ n → mirGet t k = mirGet s k) ∧
      (∀ i tc f c, flowGet s (.ep i (BitVec.ofNat 8 n) tc) = some f → n < 256 → f.carry = some c →
        flowGet t (.ep i (BitVec.ofNat 8 n) tc) =
          some { f with c := c.cm, bits := [], missing := [], carry := some { c with openRec := true, arrived := [] } }) ∧
      (∀ i p tc, p.toNat ≠ n → flowGet t (.ep i p tc) = flowGet s (.ep i p tc)))

/-- R420, R421, R423, R429: mirror frames of a partner. A PROBE of the paired pitch fixes the roles while both are PITCHING: the
one that accepted its creation later in the circle of times becomes the standby and answers OK, the other answers MOVED; an
unconfirmed active that serves starts to copy. RELEASE makes a confirmed standby take over. A DATA frame that the fly may apply
is written under its OWNER with its carry-over record kept. Everything else is DENIED. R377, R426, R427, R432: a valid heartbeat
revives its guy line and notes its number and arrival; each pitch this chip stands by for learns from its ACTIVE bit that its fly
is confirmed, or after two zeros that it is not. A beat with a wrong serial, an old number or a wrong length changes nothing. -/
def Obligations.MirrorFrames : Prop :=
  (
    (∀ (s t : State) (f : RxFrame) (r : Req), receive s 0x21 f = .go t r →
      let u := bulkMod t r.flow (fun l => l ++ [{ req := r, last := t.now }])
      flagMisuse u r = false → permitted u r = true → lenOk u r = true → alignOk u r = true → isMirror u r = true →
      let waiting := ((bulkFind u r.flow r.tag).map (·.waiting)).getD []
      (mirAllowed u r (r.payload.take 128) = false →
        exec (.mirrorData 0x21 f) s = .next (settle (ackNow (answerEarly u r stDenied []) r.flow))) ∧
      (mirAllowed u r (r.payload.take 128) = true → waiting = [] →
        exec (.mirrorData 0x21 f) s = .next (settle (ackNow (bulkMod (markWindow u r) r.flow (fun l => l.map (fun b =>
          if b.req.seq = r.seq then { b with passed := true, last := u.now, waiting := [] } else b))) r.flow)))) ∧
    ∀ (s t : State) (op : Byte) (f : RxFrame) (r : Req), receive s op f = .go t r → flagMisuse t r = false → permitted t r = true →
      lenOk t r = true → alignOk t r = true → isMirror t r = true →
      let done (w : State) : Host.Outcome State Fault Refusal := .next (settle (ackNow w r.flow))
      let n := r.pitch.toNat
      let m := mirGet t n
      let rec_ := r.payload.take 128
      let peer := (reqPeer t r).getD (0, {})
      let allowed := (byteAt r.payload 2).toNat = n ∧ m.role = .standby ∧ (∃ q, reqPeer t r = some (m.peer, q)) ∧
        byteAt r.payload 3 = (pGet t n).generation ∧ (pGet t n).life = .up
      let paired := (byteAt r.payload 2).toNat = n ∧ (pGet t n).settings.flyReq = true ∧ m.peer = peer.1 ∧ (r.payload.drop 120).take 4 = cfgDigest t n
      let here := movedPayload (ownAddr t peer.2.addr) (BitVec.ofNat 16 (kppPort t))
      let d := (m.acceptNs + 2 ^ 32 - beNat ((r.payload.drop 124).take 4)) % 2 ^ 32
      (op = 0x02 → r.payload = f.payload → 128 ≤ f.payload.length → byteAt f.payload 0 = 1 →
        (¬ paired → exec (.probe f) s = done (answer t r stDenied [])) ∧
        (paired → (pGet t n).life = .pitching → m.role = .standby → exec (.probe f) s = done (answer t r stOk [])) ∧
        (paired → (pGet t n).life = .pitching → m.role = .active → exec (.probe f) s = done (answer t r stMoved here)) ∧
        (paired → (pGet t n).life = .pitching → m.role = .none_ → d ≠ 0 → d < 2 ^ 31 →
          exec (.probe f) s = done (answer (mirSet t n { m with role := .standby, confirmed := true, probing := false }) r stOk [])) ∧
        (paired → (pGet t n).life = .pitching → m.role = .none_ → 2 ^ 31 < d →
          exec (.probe f) s = done (answer (mirSet t n { m with role := .active, confirmed := true, probing := false }) r stMoved here)) ∧
        (paired → (pGet t n).life = .pitching → m.role = .none_ → (d = 0 ∨ d = 2 ^ 31) → exec (.probe f) s =
          done (if peer.2.serial.toNat < Config.serial.toNat then answer (mirSet t n { m with role := .standby, confirmed := true, probing := false }) r stOk []
            else answer (mirSet t n { m with role := .active, confirmed := true, probing := false }) r stMoved here)) ∧
        (paired → (pGet t n).life = .up → m.role = .active → m.confirmed = false → m.selfFenced = false → m.resync = false → serving (uAct t (uPitch n)) = true →
          exec (.probe f) s = done (let u := startResync t n; answer u r stMoved (movedPayload (ownAddr u peer.2.addr) (BitVec.ofNat 16 (kppPort u)))))) ∧
      (op = 0x02 → r.payload = f.payload → 128 ≤ f.payload.length → byteAt f.payload 0 = 2 →
        (allowed → m.confirmed = true → exec (.release f) s = done (answer (takeover t n) r stOk [])) ∧
        (¬ allowed ∨ m.confirmed = false → exec (.release f) s = done (answer t r stDenied []))) ∧
      (op = 0x02 → byteAt r.payload 0 = 0 →
        (¬ allowed → exec (.mirrorData op f) s = done (answer t r stDenied [])) ∧
        (∀ w, allowed → mirWrite t n r.tc (BitVec.ofNat 16 (beNat ((rec_.drop 112).take 2))) r.address.toNat (r.payload.drop 128) = (w, stOk) →
          exec (.mirrorData op f) s = done (answer (keepCarry w n rec_) r stOk []))) ∧
      (∀ b, op = 0x23 → bulkFind t r.flow r.tag = some b → b.passed = true → exec (.mirrorData op f) s = done (mirPutWrite t b r))) ∧
  (
    ∀ (s a t : State) (f : RxFrame) (k : Nat) (p : Peer), receiveOther s 0x7E f = (a, true) → f.hdr.tc = 7 →
      meter a 0 7 (viaPort f.via) f.encap.dscp.toNat f.encap.bytes 0 = (t, some false) →
      partnerOf t f.hdr.endpoint.toNat = some (k, p) →
      let line := if byteAt f.payload 26 = 1 then 1 else 0
      let beat := beNat ((f.payload.drop 8).take 8)
      let valid := f.payload.length = 60 ∧ (byteAt f.payload 26).toNat ≤ 2 ∧ beNat (f.payload.take 8) = p.serial.toNat ∧ (p.lastBeat[line]?).getD 0 < beat
      let u := bump (peerSet t k { p with alive := lset p.alive line true, lastBeat := lset p.lastBeat line beat,
                                          lastAt := lset p.lastAt line (some t.now) }) .mirHbRx 0 0 0
      let mine := (u.mir.pitch.filter (fun e => e.2.peer = k ∧ e.2.role = .standby)).map (·.1)
      (valid → exec (.heartbeat f) s = .next (mine.foldl (fun w n => beatBit w n ((beNat ((f.payload.drop 28).take 32)).testBit n)) u)) ∧
      (¬ valid → exec (.heartbeat f) s = .next t))

/-! ## Lifecycle, sessions and trust (R18 to R51, R197 to R213) -/

/-- R22 to R27, R31, R36, R40, R42, R50, R521: an authenticated lifecycle message in TC6 with its size, of a pitch with no
message in progress, has its effect in the states that accept it: PITCH_CREATE in EMPTY, PITCH_STRIKE and PITCH_ADJUST in UP,
PITCH_REPITCH in STRUCK, PITCH_FOLD and ATTACH in UP and STRUCK, DETACH in those and in SWEEPING, PITCH_QUERY in any; in every
other state it is DENIED WRONG_STATE, and while one is in progress DENIED BUSY. R26, R40, R41, R42: what the live messages do
where their fields hold. PITCH_ADJUST sets the drain deadline or the rates of one class, and its buckets keep no more than their
new depth; ATTACH puts the contexts, with their access groups, into the free words of the endpoint's entry and its address, port
and segment size into the source table; DETACH takes the pitch's words from it, its handles and its sync lines; each is answered
OK. -/
def Obligations.LifecycleRequests : Prop :=
  (
    ∀ (s t : State) (op : Byte) (f : RxFrame) (r : Req), receive s op f = .go t r → flagA r.flags = true → flagH r.flags = false →
      flagX r.flags = false → r.tc = 6 → 0 < r.length.toNat → r.length.toNat = f.payload.length → lcSizeOk r = true →
      let n := (lcPitch r).1
      let p := pGet t n
      let done (w : State) : Host.Outcome State Fault Refusal := .next (ackNow w r.flow)
      let refuse (reason field : Nat) : Host.Outcome State Fault Refusal := done (lcDeny t r reason field)
      let zeroBytes (is : List Nat) : Prop := ∀ i ∈ is, byteAt r.payload i = 0
      (op = 0x77 → zeroBytes [1, 2, 3] → exec (.pitchQuery f) s = done (pitchQuery t r n)) ∧
      (0 < n → p.work ≠ none →
        (op = 0x70 → exec (.pitchCreate f) s = refuse rsBusy noField) ∧
        (op = 0x71 → exec (.pitchStrike f) s = .next (settle (ackNow (lcDeny t r rsBusy noField) r.flow))) ∧
        (op = 0x72 → exec (.pitchRepitch f) s = refuse rsBusy noField) ∧
        (op = 0x73 → exec (.pitchFold f) s = .next (settle (ackNow (lcDeny t r rsBusy noField) r.flow))) ∧
        (op = 0x74 → exec (.pitchAdjust f) s = refuse rsBusy noField) ∧
        (op = 0x75 → exec (.attach f) s = refuse rsBusy noField) ∧
        (op = 0x76 → exec (.detach f) s = .next (settle (ackNow (lcDeny t r rsBusy noField) r.flow)))) ∧
      (0 < n → p.work = none →
        (op = 0x70 → p.life ≠ .empty → exec (.pitchCreate f) s = refuse rsWrongState noField) ∧
        (op = 0x70 → p.life = .empty → recordRefusal t r n false = none →
          exec (.pitchCreate f) s = done (acceptCreate t r n (readSettings r.payload))) ∧
        (∀ e, op = 0x70 → p.life = .empty → recordRefusal t r n false = some e → exec (.pitchCreate f) s = refuse e.1 e.2) ∧
        (op = 0x71 → p.life = .up → zeroBytes [1, 2, 3] → exec (.pitchStrike f) s = .next (settle (ackNow (startStrike t r n 0x71 false) r.flow))) ∧
        (op = 0x71 → p.life ≠ .up → exec (.pitchStrike f) s = .next (settle (ackNow (lcDeny t r rsWrongState noField) r.flow))) ∧
        (op = 0x72 → p.life = .struck → recordRefusal t r n true = none →
          let v := readSettings r.payload
          let rel := releaseList r.payload
          let gs := if rel.isEmpty then (takeGranules t (tmplOf t p) (v.capacity - p.slots.length)).getD [] else []
          let u := gs.foldl (fun w g => granPut w g { granGet w g with state := .held, pitch := BitVec.ofNat 8 n }) t
          exec (.pitchRepitch f) s = done (markWindow (pSet u n { p with work := some (.repitch r v rel gs t.now) }) r)) ∧
        (∀ e, op = 0x72 → p.life = .struck → recordRefusal t r n true = some e → exec (.pitchRepitch f) s = refuse e.1 e.2) ∧
        (op = 0x72 → p.life ≠ .struck → exec (.pitchRepitch f) s = refuse rsWrongState noField) ∧
        (op = 0x73 → p.life = .up → zeroBytes [1, 2, 3] → exec (.pitchFold f) s = .next (settle (ackNow (startStrike t r n 0x73 true) r.flow))) ∧
        (op = 0x73 → p.life = .struck → zeroBytes [1, 2, 3] → exec (.pitchFold f) s = .next (settle (ackNow (startFold t r n) r.flow))) ∧
        (op = 0x73 → p.life ≠ .up → p.life ≠ .struck → exec (.pitchFold f) s = .next (settle (ackNow (lcDeny t r rsWrongState noField) r.flow))) ∧
        (op = 0x74 → p.life = .up → zeroBytes [2, 3] → exec (.pitchAdjust f) s = done (pitchAdjust t r n)) ∧
        (op = 0x74 → p.life ≠ .up → exec (.pitchAdjust f) s = refuse rsWrongState noField) ∧
        (op = 0x75 → (p.life = .up ∨ p.life = .struck) → exec (.attach f) s = done (attach t r n)) ∧
        (op = 0x75 → p.life ≠ .up → p.life ≠ .struck → exec (.attach f) s = refuse rsWrongState noField) ∧
        (op = 0x76 → (p.life = .up ∨ p.life = .struck ∨ p.life = .sweeping) → byteAt r.payload 1 = 0 →
          exec (.detach f) s = .next (settle (ackNow (detach t r n) r.flow))) ∧
        (op = 0x76 → (p.life = .empty ∨ p.life = .pitching) → exec (.detach f) s = .next (settle (ackNow (lcDeny t r rsWrongState noField) r.flow))))) ∧
  (
    ∀ (t : State) (r : Req) (n : Nat),
      let p := pGet t n
      let tm := tmplOf t p
      let k := beAt r.payload 1 1
      let a := beAt r.payload 4 4
      let b := beAt r.payload 8 4
      let i := beAt r.payload 2 2
      let kc := beAt r.payload 23 1
      let ctx (j : Nat) : BitVec 16 := BitVec.ofNat 16 (beAt r.payload (24 + 2 * j) 2)
      let cs := (upto kc).map ctx
      let cut (c x rate : Nat) : Nat := min x (bucketDepth rate (burstOf t c))
      (8 < k → pitchAdjust t r n = lcDeny t r rsNotLive 1) ∧
      (k = 8 → tm.drainMin ≤ a → a ≤ tm.drainMax → b = 0 → ∃ v, pitchAdjust t r n = answer (pSet t n { p with settings := v }) r stOk [] ∧
        v = { p.settings with drain := a, digestBytes := v.digestBytes } ∧ v.digestBytes = putBE p.settings.digestBytes 16 4 a) ∧
      (∀ rb, k < 8 → rb = (tm.rates[k]?).getD {} → rb.cMin ≤ a → a ≤ rb.cMax → rb.pMin ≤ b → b ≤ rb.pMax → a ≤ b → ∃ v u,
        pitchAdjust t r n = answer u r stOk [] ∧ v.rates = lset p.settings.rates k (a, b) ∧
        v = { p.settings with rates := v.rates, digestBytes := v.digestBytes } ∧
        (k = 7 → u = pSet t n { p with settings := v }) ∧
        (k < 7 → u = bucketPut (pSet t n { p with settings := v }) n k { c := cut k (bucketGet t n k).c a, p := cut k (bucketGet t n k).p b })) ∧
      (i < 4096 → partnerOf t i = none → 0 < kc → kc ≤ 16 → (∀ j, kc ≤ j → j < 16 → ctx j = 0) →
        (∀ e, tfind t.act.src i = some e → e.addr = BitVec.ofNat 128 (beAt r.payload 4 16) ∧ e.port = BitVec.ofNat 16 (beAt r.payload 20 2)) →
        (tfind t.act.src i = none → ∀ x ∈ t.tpt.trackers, ∀ q c v, x.req.flow = .ep q c v → q.toNat ≠ i) →
        (∀ c ∈ cs, c ≠ 0 ∧ c ≠ 0xFFFF ∧ c ∈ p.settings.contexts ∧ c ∉ heldContexts t i) → cs.Nodup →
        beAt r.payload 1 1 ≤ 3 → byteAt r.payload 22 ≠ 0 → (heldContexts t i).length + kc ≤ 16 →
        (i ∈ attachedTo t n ∨ (attachedTo t n).length < p.settings.attachMax) →
        attach t r n = answer (actMod (mtPut t i (fillWords (mtGet t i) cs (byteAt r.payload 22))) (fun x => { x with
          src := tins x.src i { addr := BitVec.ofNat 128 (beAt r.payload 4 16), port := BitVec.ofNat 16 (beAt r.payload 20 2),
                                maxSeg := BitVec.ofNat 2 (beAt r.payload 1 1) } })) r stOk []) ∧
      (i < 4096 → partnerOf t i = none → (∃ c ∈ heldContexts t i, c ∈ boundContexts t n) →
        detach t r n = answer (collLostEndpoint (syncDetach (detachOne (hDropWhere t (fun h => decide (h.endpoint.toNat = i) &&
          decide (h.pitch.toNat = n))) i n) i n) i n) r stOk []))

/-- R22, R27, R32, R36, R197, R479: the events of a pitch's lifecycle. An installed creation, its mirror role fixed where it
needs one, makes the pitch UP; one that fails or finds no partner in 50 ms gives everything back; a drain that has ended answers
the strike or starts the fold; confirmed settings take effect with a new GENERATION; a destroyed key slot and a swept granule
become free. -/
def Obligations.LifecycleEvents : Prop :=
  (∀ (s : State) (pitch : BitVec 8), s.svc.restarting = false →
    let n := pitch.toNat
    let p := pGet s n
    (∀ r at_, p.work = some (.create r at_) →
      (p.settings.flyReq = false ∨ (mirGet s n).role ≠ .none_ → exec (.pitchInstallDone pitch) s =
        .next (answer (moveUnit (setLife (mapPitch (pSet s n { p with work := none }) n) n .up 0x70) n .up .up) r stOk (beBytes 4 p.slots.length))) ∧
      (p.settings.flyReq = true → (mirGet s n).role = .none_ → exec (.pitchCreateTimeout pitch) s =
        .next (lcDeny (releaseCreate (nowTo s (at_ + 50000000)) n) r rsFlyRefused noField)) ∧
      exec (.pitchInstallFail pitch) s = .next (lcDeny (releaseCreate s n) r rsApplyFailed noField)) ∧
    (∀ r v rel gs at_, p.work = some (.repitch r v rel gs at_) →
      let freed (w : State) : State := gs.foldl (fun w g => granPut w g { granGet w g with
        state := if uAct w (uGroup (granGet w g).group) = .retired then .retired else .free, pitch := 0 }) w
      exec (.repitchApplyTimeout pitch) s = .next (lcDeny (pSet (freed (nowTo s (at_ + 2000000))) n { p with work := none }) r rsApplyFailed noField) ∧
      (dependsFenced s n = true → exec (.repitchApplied pitch) s = .next (lcDeny (pSet (freed s) n { p with work := none }) r rsApplyFailed noField)) ∧
      (dependsFenced s n = false →
        let gone := p.settings.contexts.filter (fun c => c ∉ v.contexts)
        let u := releaseGranules s n rel
        let q := pGet u n
        let w := pSet u n { q with settings := v, slots := placeGranules q.slots gs, work := none, generation := q.generation + 1,
                                   removed := (q.removed ++ gone).filter (fun c => c ∉ v.contexts) }
        let x := moveUnit (setLife (bump0 (fillBuckets (mapCocoons (mapPitch (dropContexts w gone) n) n) n) .svcRepitch) n .up 0x72) n .up .up
        let m := mirGet x n
        exec (.repitchApplied pitch) s = .next (answer (if v.flyReq = false then mirSet x n {}
          else if m.confirmed = true ∧ m.selfFenced = false then bindFly x n m.peer ((v.contexts.head?).getD 0) else startProbe x n v)
          r stOk [q.generation + 1, 0, 0, 0]))) ∧
    (∀ r d total failed fold, p.work = some (.strike r d total failed fold) → p.draining = true →
      let ended (w : State) : State := collFree (pSet w n { pGet w n with draining := false, drained := false, work := none }) n
      let close (w : State) (k : Nat) : State :=
        if fold = true then startFold (ended w) r n else answer (ended w) r stOk (beBytes 4 (total - k) ++ beBytes 4 k)
      (drained s n = true → exec (.strikeDrainEnd pitch) s = .next (close s failed)) ∧
      (∀ u v k, syncDeadline (nowTo s d) n = u →
        (pitchTrackers u n).foldl (fun a x => ((failAtDeadline a.1 x.req).1, a.2 + b2n (failAtDeadline a.1 x.req).2)) (u, 0) = (v, k) →
        let w := bumpN v .svcDrainFail 0 0 0 k
        let y := pSet w n { pGet w n with work := some (.strike r d total (failed + k) fold) }
        y.svc.restarting = false →
        exec (.strikeDrainDeadline pitch) s = .next (settle (close y (failed + k)))))) ∧
  (∀ (s : State) (slot : BitVec 8), (slotGet s slot.toNat).state = .destroyed → exec (.keySlotRefresh slot) s =
    .next (slotPut s slot.toNat { slotGet s slot.toNat with
      state := .free, pitch := 0, refreshes := min 0xFFFF ((slotGet s slot.toNat).refreshes + 1), gen := (slotGet s slot.toNat).gen + 1 })) ∧
  (∀ (s : State) (granule : BitVec 14), (granGet s granule.toNat).state = .sweeping → granule.toNat ∈ s.sweeping →
    granule.toNat ∉ s.svc.lateGranules → s.svc.restarting = false →
    exec (.sweepGranuleDone granule) s = .next (granuleReturned (bumpN (granuleFree s granule.toNat) .swpLines 0 0 0 0x1000000) granule.toNat false)) ∧
  (∀ (s : State) (pitch : BitVec 8), s.svc.restarting = true → exec (.pitchInstallDone pitch) s = .next s ∧ exec (.pitchInstallFail pitch) s = .next s ∧
    exec (.pitchCreateTimeout pitch) s = .next s ∧ exec (.repitchApplied pitch) s = .next s ∧ exec (.repitchApplyTimeout pitch) s = .next s)

/-- R43, R44, R64, R78: OPEN answers with a nonce, a free number moved past those in use, and a session key wrapped to the
operator key, or DENIED beyond 4; a PROOF whose signature verifies opens its session; CLOSE, and 600 s without a valid message,
close it and end its flows. The values of nonce, number and key are free. -/
def Obligations.ManagementSessions : Prop :=
  (∀ (s t : State) (f : RxFrame) (r : Req), receive s 0x7C f = .go t r → flagH r.flags = false → flagX r.flags = false →
    r.tc = 6 → r.length.toNat = f.payload.length →
    let done (w : State) : Host.Outcome State Fault Refusal := .next (ackNow w r.flow)
    let kind := byteAt r.payload 0
    let number : BitVec 32 := BitVec.ofNat 32 (beAt r.payload 4 4)
    let isOpenCount := (t.tpt.sessions.filter (·.isOpen)).length
    (kind = 1 → r.payload.length = 4 → isOpenCount < 4 →
      let c := draw (draw (draw t).2).2
      let u := c.2
      let used := t.tpt.sessions.map (·.number)
      let num := freshNumber used used.length (c.1.truncate 32)
      let m : MgmtSess := { number := num, nonce := (draw t).1, key := (draw (draw t).2).1, lastValid := t.now, addr := r.srcAddr, port := r.srcPort }
      exec (.mgmtSessionOpen f) s = done (answer (tptMod u (fun x => { x with sessions := x.sessions ++ [m] })) r stOk
        (beBytes 64 m.nonce.toNat ++ beBytes 4 num.toNat ++ beBytes 512 (Config.rsaWrap t.img.operatorKey (beBytes 64 m.key.toNat)).toNat))) ∧
    (kind = 1 → r.payload.length = 4 → 4 ≤ isOpenCount → exec (.mgmtSessionOpen f) s = done (answer t r stDenied [])) ∧
    (∀ m, kind = 2 → r.payload.length = 520 → mgmtFind t number = some m → m.isOpen = false → isOpenCount < 4 →
      (Config.rsaVerify t.img.operatorKey (beBytes 64 m.nonce.toNat ++ beBytes 4 number.toNat) (r.payload.drop 8) = true →
        exec (.mgmtSessionProof f) s = done (answer (mgmtMod t number (fun m => { m with
          isOpen := true, lastCounter := 0, respCounter := 1, lastValid := t.now })) r stOk [])) ∧
      (Config.rsaVerify t.img.operatorKey (beBytes 64 m.nonce.toNat ++ beBytes 4 number.toNat) (r.payload.drop 8) = false →
        exec (.mgmtSessionProof f) s = done (answer t r stDenied []))) ∧
    (∀ k, kind = 3 → r.payload.length = 4 → r.sess = some k → exec (.mgmtSessionClose f) s = done (mgmtClose (answer t r stOk []) k))) ∧
  (∀ (s : State) (number : BitVec 32) (m : MgmtSess), mgmtFind s number = some m →
    let t := nowTo s (m.lastValid + 600000000000)
    let mine (id : FlowId) : Bool := match id with
      | .sess a p _ => decide (a = m.addr) && decide (p = m.port)
      | .ep _ _ _ => false
    exec (.mgmtSessionExpire number) s = .next (dropFlows (tptMod t (fun x => { x with sessions := x.sessions.filter (fun y => y.number ≠ number) })) mine))

/-- R200, R201, R204, R205, R208, R211, R212: attestation, key delivery and cocoons. A quote binds an ephemeral key of the pool,
or the one the pitch has, and is signed later; delivered keys that unwrap replace the ephemeral key; a load that passes its
checks is LOADING and ends READY with its plaintext written, or FAILED where a line fails, its ranges are not mapped or its tag
does not hold. Keys, signatures and ciphers are free functions. R202: FUM_MR5_EXTEND.GO replaces MR5 by the SHA-512 of MR5 and
the 64 bytes of FUM_MR5_DATA, which it zeroes; the other measurement registers stay. Under a pitch scope it is ignored. -/
def Obligations.TrustOperations : Prop :=
  (
    (∀ (s t : State) (op : Byte) (f : RxFrame) (r : Req) (len : Nat), receive s op f = .go t r → flagMisuse t r = false → permitted t r = true → pitchCheck t r = none →
      r.length.toNat = len → r.payload.length = len →
      let n := r.pitch.toNat
      let k := pkGet t n
      let done (w : State) : Host.Outcome State Fault Refusal := .next (ackNow w r.flow)
      let quoted (u : State) (e : Option (BitVec 32 × Nat)) : State := fumMod (markWindow u r) (fun x => { x with quotes := x.quotes ++ [{ req := r, eph := e }] })
      (op = 0x78 → len = 64 →
        (smallSegs t r = true → exec (.attestQuote f) s = done (answer t r stDenied [])) ∧
        (smallSegs t r = false → pCocoon t n = false → exec (.attestQuote f) s = done (quoted t none)) ∧
        (∀ e, smallSegs t r = false → pCocoon t n = true → k.eph = some e → exec (.attestQuote f) s = done (quoted t (some e))) ∧
        (∀ e es, smallSegs t r = false → pCocoon t n = true → k.eph = none → t.fum.ephPool = e :: es →
          exec (.attestQuote f) s = done (quoted (pkPut (fumMod t (fun x => { x with ephPool := es })) n { k with eph := some e }) (some e))) ∧
        (smallSegs t r = false → pCocoon t n = true → k.eph = none → t.fum.ephPool = [] →
          exec (.attestQuote f) s = done (answer (bump t .fumEphEmpty 0 0 n) r stRetry []))) ∧
      (op = 0x79 → len = 1024 → 
        (∀ e c x, k.eph = some e → pCocoon t n = true → (pGet t n).life = .up → (∀ y ∈ k.cocoons, y.state ≠ .loading) →
          unwrapKey n e 1 (r.payload.take 512) = some c → unwrapKey n e 2 (r.payload.drop 512) = some x → exec (.keyDeliver f) s =
            done (answer (pkPut t n { k with eph := none, content := some c, session := some x, owner := r.context, sealExec := 0 }) r stOk [])) ∧
        ((k.eph = none ∨ pCocoon t n = false ∨ (∃ e, k.eph = some e ∧ unwrapKey n e 1 (r.payload.take 512) = none)) →
          exec (.keyDeliver f) s = done (answer (bump t .fumUnwrapFail 0 0 n) r stDenied []))) ∧
      (op = 0x7A → len = 48 →
        let b := readDesc r.payload 0
        let c := readDesc r.payload 24
        (∀ st, cocoonCheck t r b c = .inl st → exec (.cocoonLoad f) s = done (answer t r st [])) ∧
        (∀ plain h, cocoonCheck t r b c = .inr plain → blobHeader t n b.base = some h →
          let allow := (upto (min 4 (beAt h 24 1))).map (fun i => BitVec.ofNat 512 (beAt h (64 + 64 * i) 64))
          let e : Cocoon := { base := c.base, len := plain, state := .loading, blob := b.base, req := r, allow := allow }
          let kept := k.cocoons.filter (fun x => !(decide (x.state = .failed) && decide (x.base = c.base) && decide (x.len = plain)))
          let u := fumWindows (pkPut (markWindow t r) n { k with cocoons := kept ++ [e] })
          exec (.cocoonLoad f) s = done (ptChanged (setPageAttrs u n c.base plain true true false) n c.base plain))) ∧
      (op = 0x7B → len = 4 →
        let chain := Config.certChain.take 8192
        exec (.certGet f) s = done (sendSegs (chain.length / segSize t r + 1) (markWindow t r) r (segSize t r) r.address.toNat chain [] []))) ∧
    (∀ (s : State) (flow : FlowId) (seq : BitVec 24) (q : Quote), s.fum.quotes.find? (fun q => decide (q.req.flow = flow) && decide (q.req.seq = seq)) = some q →
      let u := fumMod s (fun x => { x with quotes := x.quotes.filter (fun q => !(decide (q.req.flow = flow) && decide (q.req.seq = seq))) })
      (trkFind s flow seq = none → exec (.attestQuoteSigned flow seq) s = .next u) ∧
      (∀ x, trkFind s flow seq = some x → exec (.attestQuoteSigned flow seq) s =
        .next (respond (bump u .fumQuote 0 0 q.req.pitch.toNat) q.req stOk (quoteBytes u q ++ beBytes 512 (Config.rsaSign (quoteBytes u q)).toNat)))) ∧
    (∀ s : State, (s.fum.ephPool.length < 4 → exec .ephKeyGenerated s = .next (fumMod { s with freeCtr := s.freeCtr + 1 } (fun x =>
        { x with ephPool := x.ephPool ++ [(x.ephNext, s.freeCtr)], ephNext := x.ephNext + 1 }))) ∧
      (4 ≤ s.fum.ephPool.length → exec .ephKeyGenerated s = .next s)) ∧
    (∀ (s : State) (pitch : BitVec 8) (c : Cocoon) (key : BitVec 256), (pkGet s pitch.toNat).cocoons.find? (fun c => c.state = .loading) = some c →
      (pkGet s pitch.toNat).content = some key →
      let n := pitch.toNat
      let ended (w : State) (st : CocoonState) : State := fumWindows (pkPut w n { pkGet w n with
        cocoons := (pkGet w n).cocoons.map (fun x => if x.state = .loading then { x with state := st } else x) })
      let fails (w : State) (st : Nat) : Host.Outcome State Fault Refusal := .next (respond (bump (ended w .failed) .fumCocoonFail 0 0 n) c.req st [])
      (mapped s n c.blob (384 + c.len) = none ∨ mapped s n c.base c.len = none → exec (.cocoonLoadDone pitch) s = fails s stNotMapped) ∧
      (∀ bp cp, mapped s n c.blob (384 + c.len) = some bp → mapped s n c.base c.len = some cp →
        let blob := piecesBytes s bp
        let ct := (blob.drop 320).take c.len
        let w := writePieces s n (pkGet s n).owner cp ((Config.gcmPlain key (blob.take 12) ct ++ zeros c.len).take c.len)
        let good := Config.gcmOk key (blob.take 12) (blob.take 320) ct ((blob.drop (320 + c.len)).take 16)
        (∀ l v, firstSick s bp = some (l, v) → exec (.cocoonLoadDone pitch) s = fails (badLine s l n v) (verdictStatus v)) ∧
        (firstSick s bp = none → good = true → exec (.cocoonLoadDone pitch) s =
          .next (respond (bump (ended w .ready) .fumCocoonOk 0 0 n) c.req stOk (beBytes 8 c.len))) ∧
        (firstSick s bp = none → good = false → exec (.cocoonLoadDone pitch) s = fails w stIntegrity)))) ∧
  (
    ∀ (s : State) (src : MgmtSource),
      (scopeOf s src ≠ none → exec (.fumMr5Extend src) s = .next s) ∧
      (scopeOf s src = none → srcOpen s src = true → s.boot.step ≠ 15 → s.fum.mr.length = 6 →
        ∃ t, exec (.fumMr5Extend src) s = .next t ∧
          mrGet t 5 = Config.sha512 (beBytes 64 (mrGet s 5).toNat ++ s.fum.mr5data.flatMap (fun w => leBytes 4 w.toNat)) ∧
          (∀ n, n ≠ 5 → mrGet t n = mrGet s n) ∧ t.fum.mr5data = List.replicate 16 0 ∧ t = { s with fum := { s.fum with mr := t.fum.mr, mr5data := t.fum.mr5data } }))

/-! ## Memory channels (R163 to R196) -/

/-- R163, R167, R175, R178, R179, R180: the read that the scheduling rules put first in a subchannel leaves the queue, counts,
opens its bank's row, and ends: served; served after re-reads where a read-out failed; MEDIA after four parity failures or
INTEGRITY after two tag failures of a line bad as stored, its page retired, its unsent response cut and its write dropped; or
MEDIA where its queue entry fails. With none eligible nothing happens. -/
def Obligations.ChannelReads : Prop :=
  ∀ (s : State) (chan : BitVec 4) (sub bad : Bool) (outs : List ReadOut),
    let c := chan.toNat
    (nextCand s c (b2n sub) (fun q => !q.write) = none → exec (.lineReadDone chan sub bad outs) s = .next s) ∧
    (∀ (q : Cand) (i : Nat) (e : DmcReq), nextCand s c (b2n sub) (fun q => !q.write) = some q →
      firstIdx (fun (x : DmcReq) => !x.held && decide (x.line = q.line) && decide (x.arrived = q.arrived)) (chGet s c).queue 0 = some i →
      (chGet s c).queue[i]? = some e →
      let n := e.pitch.toNat
      let t := inorderLeft (chMod (countAccess (touchBank s c e.line) c e.cls n false) c (fun ch => { ch with queue := ch.queue.eraseIdx i })) c
      let out (u : State) : Host.Outcome State Fault Refusal := .next (admitAll u c)
      let parity (u : State) : State := bump u .mceParity c 0 0
      let tag (u : State) : State := bump u .mceTagFail c 0 0
      let lost (u : State) (st : Nat) : State := dropWrite (cutForLine u e.line st e.who) c e.line e.check
      let spoiled (u : State) : State :=
        retirePage (lost (bump u .mceMedia c 0 n) stMedia) e.line (if (metaGet u e.line).poison = 0 then 0 else 2)
      let forged (u : State) : State := retirePage (lost (bump u .mceIntegrity c 0 n) stIntegrity) e.line 1
      (bad = false → lineVerdict t e.line = .good →
        (outs = [] → exec (.lineReadDone chan sub bad outs) s = out t) ∧
        (outs = [.parity] → exec (.lineReadDone chan sub bad outs) s = out (bump (parity t) .mceReread c 0 0)) ∧
        (outs = [.tag] → exec (.lineReadDone chan sub bad outs) s = out (bump (tag t) .mceReread c 0 0)) ∧
        (outs = [.parity, .parity, .parity, .parity] → exec (.lineReadDone chan sub bad outs) s = out (spoiled (parity (parity (parity (parity t)))))) ∧
        (outs = [.tag, .tag] → exec (.lineReadDone chan sub bad outs) s = out (forged (tag (tag t))))) ∧
      (bad = false → lineVerdict t e.line = .media →
        exec (.lineReadDone chan sub bad outs) s = out (spoiled (parity (parity (parity (parity t)))))) ∧
      (bad = false → lineVerdict t e.line = .integrity → exec (.lineReadDone chan sub bad outs) s = out (forged (tag (tag t)))) ∧
      (bad = true → exec (.lineReadDone chan sub bad outs) s = out (lost (bump (faultRec t {
        agent := dmcAgent c, cause := 0x11, cls := clsFailed, state := actCode (uAct t (uChan c)), pitch := some n, status := stMedia,
        lo := lineLo e.line, hi := lineHi e.line, unit := some (uChan c) }) .mceMedia c 0 n) stMedia)))

/-- R165, R167, R171, R173, R174, R180: the other events of a channel. A line leaves the write buffer to the DRAM, its bad words
poisoned and recorded; at a refresh instant every channel that is not RETIRED closes its banks and counts, and the next instant
is tREFI later, shorter while the modules are hot; an access that waited for DMC_AGE_LIMIT is promoted; a bank idle for its time
is closed. R181, R182: an alert stops its subchannel and closes its banks; the commands are replayed, and the third alert in a
row starts a retraining, the channel TRAINING for up to 20 ms; a second retraining of the group within 10 minutes, a failure or
the end of the 20 ms retires the group; success returns the channel to the state it left and replays what was deferred. -/
def Obligations.ChannelEvents : Prop :=
  (
    (∀ (s : State) (chan : BitVec 4) (sub : Bool) (bad : BitVec 16) (q : Cand) (i : Nat),
      let c := chan.toNat
      nextCand s c (b2n sub) (fun q => q.write) = some q →
      firstIdx (fun (x : WbLine) => decide (x.line = q.line) && decide (x.arrived = q.arrived)) (chGet s c).wbuf 0 = some i →
      let n := q.pitch.toNat
      let left (ch : Chan) : List WbLine := ch.wbuf.eraseIdx i
      let t := inorderLeft (chMod (countAccess (touchBank s c q.line) c q.cls n true) c (fun ch =>
        { ch with wbuf := left ch, drainWrites := ch.drainWrites && decide (16 < (left ch).length) })) c
      let poisoned := metaPut t q.line { metaGet t q.line with poison := (metaGet t q.line).poison ||| bad }
      (bad = 0 → exec (.writeBufferIssue chan sub bad) s = .next t) ∧
      (bad ≠ 0 → exec (.writeBufferIssue chan sub bad) s = .next (faultRec poisoned {
        agent := dmcAgent c, cause := 0x14, cls := clsFailed, state := actCode (uAct poisoned (uChan c)), pitch := some n, lo := lineLo q.line, hi := lineHi q.line, unit := some (uChan c) }))) ∧
    (∀ (s : State) (chan : BitVec 4) (sub : Bool) (bad : BitVec 16), nextCand s chan.toNat (b2n sub) (fun q => q.write) = none →
      exec (.writeBufferIssue chan sub bad) s = .next s) ∧
    (∀ (s : State) (at_ : Nat), s.dmc.refreshNext = some at_ →
      let t := nowTo s at_
      let cool : Bool := match s.dmc.coolSince with
        | some x => decide (x + 1000000000 ≤ t.now)
        | none => false
      let hot := s.dmc.hotNext || (s.dmc.hot && !cool)
      exec .refreshInstant s = .next (dmcMod ((List.range 16).foldl (fun u c => if uAct u (uChan c) = .retired then u
        else bump (chMod u c (fun ch => { ch with banks := [] })) .dmcRefresh c 0 0) t) (fun d =>
        { d with hot := hot, hotNext := false, refreshNext := some (at_ + (if hot = true then 1950 else 3900)) }))) ∧
    (∀ (s : State) (chan : BitVec 4),
      let c := chan.toNat
      let ch := chGet s c
      let waiting : List (Nat × Nat) := (ch.queue.filter (fun q => !q.promoted ∧ !q.held)).map (fun q => (q.arrived, q.line)) ++
        (ch.wbuf.filter (fun w => !w.promoted)).map (fun w => (w.arrived, w.line))
      let earlier (b : Option (Nat × Nat)) (e : Nat × Nat) : Option (Nat × Nat) := match b with
        | none => some e
        | some x => if e.1 < x.1 then some e else some x
      (waiting = [] → exec (.agePromotion chan) s = .next s) ∧
      (∀ e, waiting.foldl earlier none = some e →
        let bank := (bankRow s e.2).1
        let goes (arrived line : Nat) : Bool := (decide (arrived = e.1) && decide (line = e.2)) ||
          (decide (bank ∈ ch.inorder) && decide ((bankRow s line).1 = bank) && decide (arrived ≤ e.1))
        let t := nowTo s (e.1 + regField s (dmcAgent 0) 0x108 0 8 * 100)
        exec (.agePromotion chan) s = .next (bumpN (chMod t c (fun ch => { ch with
          queue := ch.queue.map (fun q => if goes q.arrived q.line && !q.held then { q with promoted := true } else q)
          wbuf := ch.wbuf.map (fun w => if goes w.arrived w.line then { w with promoted := true } else w) })) .dmcPromote c 0 0
          (waiting.filter (fun x => goes x.1 x.2)).length))) ∧
    (∀ (s : State) (chan : BitVec 4) (sub : Bool) (rank : BitVec 4) (bank : BitVec 5),
      let b := (b2n sub, rank.toNat, bank.toNat)
      (∀ e, aget (chGet s chan.toNat).banks b = some e → exec (.pageIdlePrecharge chan sub rank bank) s =
        .next (chMod (nowTo s (e.2 + regField s (dmcAgent 0) 0x10C 0 8 * 10)) chan.toNat (fun ch => { ch with banks := adel ch.banks b }))) ∧
      (aget (chGet s chan.toNat).banks b = none → exec (.pageIdlePrecharge chan sub rank bank) s = .next s))) ∧
  (
    ∀ (s : State) (chan : BitVec 4) (sub : Bool),
      let c := chan.toNat
      let g := c / 4
      let k := uChan c
      let x := b2n sub
      let b := subGet s c x
      let stopped (third : Bool) : State := chMod (subMod (bump s .dmcCaAlert c 0 0) c x (fun b => { b with
        stopped := true, deferred := b.deferred || third, consec := if third then 0 else b.consec + 1 })) c (fun ch => { ch with banks := ch.banks.filter (fun e => e.1.1 ≠ x) })
      let trains (t : State) : State := bump (dmcMod (chMod (uMove (uSet t k { uGet t k with prior := some (uAct t k) }) k .training) c
        (fun ch => { ch with retrainTimer := some (t.now + 20000000) })) (fun d => { d with retrains := tins d.retrains g t.now })) .dmcRetrain c 0 0
      let untimed (t : State) : State := chMod t c (fun ch => { ch with retrainTimer := none })
      (b.consec < 2 → exec (.caAlert chan sub) s = .next (stopped false)) ∧
      (2 ≤ b.consec → serving (uAct (stopped true) k) = true →
        (tfind s.dmc.retrains g = none → tfind (stopped true).dmc.retrains g = none → exec (.caAlert chan sub) s = .next (trains (stopped true))) ∧
        (∀ t, tfind (stopped true).dmc.retrains g = some t → (stopped true).now < t + 600000000000 →
          exec (.caAlert chan sub) s = .next (retireGroup (stopped true) g 0x16 0 0))) ∧
      (b.stopped = true → b.deferred = false → exec (.caReplayDone chan sub) s =
        .next (bump (subMod s c x (fun b => { b with stopped := false, since := 0 })) .dmcCaReplay c 0 0)) ∧
      (b.stopped = false → exec (.caReplayDone chan sub) s = .next s ∧
        exec (.caConsecReset chan sub) s = .next (subMod s c x (fun b => { b with consec := 0, since := 64 }))) ∧
      (∀ t, (uGet s k).actual = .training → (chGet s c).retrainTimer = some t →
        let u := uMove (untimed s) k ((uGet s k).prior.getD .up)
        let again (v : State) (i : Nat) : State := if (subGet v c i).deferred = true then
          bump (subMod v c i (fun b => { b with stopped := false, deferred := false, since := 0 })) .dmcCaReplay c 0 0 else v
        exec (.retrainDone chan true) s = .next (again (again (uSet u k { uGet u k with prior := none }) 0) 1) ∧
        exec (.retrainDone chan false) s = .next (retireGroup (untimed s) g 0x16 0 0) ∧
        exec (.retrainTimeout chan) s = .next (retireGroup (untimed (nowTo s t)) g 0x16 0 0)) ∧
      ((chGet s c).retrainTimer = none → exec (.retrainDone chan true) s = .next s ∧ exec (.retrainTimeout chan) s = .next s))

/-! ## Traffic manager, units and the fabric (R5 to R11, R378 to R412) -/

/-- R383, R388, R389, R391: a COMMIT that passes its tests is PENDING with the shadow list and T, one that fails shows its code,
or is recorded while a list runs; a pending list takes over at T, or at the first end of a cycle at or after T; otherwise the
next interval begins; TMG_PCFG_n is written while its pitch is EMPTY or STRUCK, else refused and counted. Writes under a pitch
scope are ignored (R467). R363, R385, R392: a link that is not open starts nothing. An open one starts the head of its oldest TC7
frame, else the oldest TC6 frame, else the fair-queueing choice, among the heads that no gate, shaper, window or credit holds;
but while a replay is pending only TC7 passes it, and the replay's next frame goes. -/
def Obligations.GateListsAndLinkStarts : Prop :=
  (
    (∀ (s : State) (src : MgmtSource) (list : BitVec 4) (pitch : BitVec 8) (value : BitVec 32),
      let l := list.toNat
      let g := glGet s l
      let n := pitch.toNat
      (scopeOf s src ≠ none → exec (.gateListCommit src list) s = .next s ∧ exec (.tmgPcfgWrite src pitch value) s = .next s) ∧
      (scopeOf s src = none → srcOpen s src = true → s.boot.step ≠ 15 →
        (l < 12 → commitFails s l g = none → exec (.gateListCommit src list) s =
          .next (glPut (if g.pending.isSome then bump0 s .tmgGlReplaced else s) l { g with pending := some (glT g, shadowList g), status := 1 })) ∧
        (∀ code, l < 12 → commitFails s l g = some code → g.start = none →
          exec (.gateListCommit src list) s = .next (glPut (bump0 s .tmgGlRefused) l { g with status := BitVec.ofNat 8 code })) ∧
        (∀ code, l < 12 → commitFails s l g = some code → g.start ≠ none →
          exec (.gateListCommit src list) s = .next (faultRec (bump0 s .tmgGlRefused) { agent := tmgAgent, cause := 0, cls := clsFailed, lo := l, hi := code })) ∧
        (n ≠ 0 → ((pGet s n).life = .empty ∨ (pGet s n).life = .struck) →
          exec (.tmgPcfgWrite src pitch value) s = .next (regSet s tmgAgent (0x1000 + 4 * n) (value &&& 1))) ∧
        (n ≠ 0 → (pGet s n).life ≠ .empty → (pGet s n).life ≠ .struck → exec (.tmgPcfgWrite src pitch value) s = .next (bump0 s .tmgCfgRefused)))) ∧
    (∀ (s : State) (list : BitVec 4),
      let l := list.toNat
      let g := glGet s l
      (g.pending = none → exec (.gateListTakeover list) s = .next s) ∧
      (∀ t es, g.pending = some (t, es) →
        (g.start = none → exec (.gateListTakeover list) s = .next (takeOver (cd10To s t) l t es)) ∧
        (∀ b e, g.start = some b → g.active[g.entry]? = some e →
          let stop := b + gInterval e
          (g.entry + 1 = g.active.length → t ≤ stop → exec (.gateListTakeover list) s = .next (takeOver (cd10To s stop) l stop es) ∧
            exec (.gateIntervalBoundary list) s = .next (takeOver (cd10To s stop) l stop es)) ∧
          (g.entry + 1 ≠ g.active.length ∨ stop < t → exec (.gateListTakeover list) s = .next s ∧
            exec (.gateIntervalBoundary list) s = .next (intervalBegins (cd10To s stop) l ((g.entry + 1) % g.active.length) stop)))) ∧
      (g.start = none → exec (.gateIntervalBoundary list) s = .next s) ∧
      (∀ b e, g.pending = none → g.start = some b → g.active[g.entry]? = some e → exec (.gateIntervalBoundary list) s =
        .next (intervalBegins (cd10To s (b + gInterval e)) l ((g.entry + 1) % g.active.length) (b + gInterval e))))) ∧
  (
    ∀ (s : State) (link : Fin 9),
      let l := link.val
      let noted := (s.tmg.queues.filter (fun e => e.1.1 = l)).foldl noteHeld s
      ((linkOpen s l = false ∨ (l = 8 ∧ serving (uAct s (uPort 4)) = false)) → exec (.linkFrameStart link) s = .next s) ∧
      (linkOpen s l = true → (l = 8 → serving (uAct s (uPort 4)) = true) →
        (eligibleHeads noted l = [] → (klrGet noted l).replay = [] → exec (.linkFrameStart link) s = .next noted) ∧
        (∀ h, chooseHead noted l = some h → ((klrGet noted l).replay = [] ∨ h.key.2.2 = 7) → exec (.linkFrameStart link) s = .next (startHead noted l h)) ∧
        (∀ h, chooseHead noted l = some h → (klrGet noted l).replay ≠ [] → h.key.2.2 ≠ 7 → exec (.linkFrameStart link) s = .next (startReplay noted l)) ∧
        (eligibleHeads noted l = [] → exec (.linkFrameStart link) s = .next (startReplay noted l))) ∧
      (∀ h, chooseHead s l = some h → h ∈ eligibleHeads s l ∧
        (h.key.2.2 ≠ 7 → ∀ x ∈ eligibleHeads s l, x.key.2.2 ≠ 7) ∧
        (h.key.2.2 = 7 → ∀ x ∈ eligibleHeads s l, x.key.2.2 = 7 → h.f.stamp ≤ x.f.stamp) ∧
        (h.key.2.2 ≠ 7 → h.key.2.2 ≠ 6 → ∀ x ∈ eligibleHeads s l, x.key.2.2 ≠ 6 ∧ h.q.start ≤ x.q.start)))

/-- R378, R381, R386: at a tick of 125 ns every bucket of a pitch that is not EMPTY gains its committed and its peak rate, and
every class shaper 100 times its rate, none beyond its depth. -/
def Obligations.BucketsRefill : Prop :=
  ∀ s : State, ∃ t, exec .tokenRefillTick s = .next t ∧
    (∀ n c, n ≠ 0 → n < 256 → (pGet s n).life ≠ .empty → c < 7 →
      let r := pRate s n c
      bucketGet t n c = { c := min (bucketDepth r.1 (burstOf s c)) ((bucketGet s n c).c + r.1),
                          p := min (bucketDepth r.2 (burstOf s c)) ((bucketGet s n c).p + r.2) }) ∧
    (∀ k, k < 64 →
      let off := 0x400 + 0x20 * (k / 8) + 4 * (k % 8)
      tget 0 t.tmg.shapers k = min (regField s tmgAgent off 16 16 * 256 * 8) (tget 0 s.tmg.shapers k + 100 * regField s tmgAgent off 0 16)) ∧
    t.tmg.lists = s.tmg.lists ∧ t.tmg.queues = s.tmg.queues ∧ t.pitches = s.pitches ∧ t.csr = s.csr ∧ t.dmc = s.dmc

/-- R6, R8, R11, R467: a write of AGT_INTENT is refused and counted for a unit that does not exist, a pitch or a RETIRED unit;
UP, OFF and RETIRED written to another unit start bring-up of an OFF unit, stop one that is not OFF, or retire it. An audit
fences a unit that disagrees for the second time; a bring-up ends in the state it was entered from or UP, or FENCED under cause
02h. -/
def Obligations.UnitIntents : Prop :=
  (∀ (s : State) (src : MgmtSource) (agent : BitVec 16) (unit : BitVec 9) (value : BitVec 4), srcOpen s src = true → s.boot.step ≠ 15 → agentOk agent.toNat = true →
    let a := agent.toNat
    let k := unitKey a unit.toNat
    let u := uGet s k
    let put (i : Intent) : State := uSet s k { u with intent := i }
    let refused : Host.Outcome State Fault Refusal :=
      .next (fltMod s (fun f => { f with refused := tset 0 f.refused a (satAdd 0xFFFF (tget 0 f.refused a) 1) }))
    (scopeOf s src ≠ none → exec (.agtIntentWrite src agent unit value) s = .next s) ∧
    (scopeOf s src = none →
      (unitOk a unit.toNat = false ∨ keyPitch k ≠ none ∨ u.actual = .retired → exec (.agtIntentWrite src agent unit value) s = refused) ∧
      (unitOk a unit.toNat = true → keyPitch k = none → u.actual ≠ .retired →
        (value = 2 → u.actual = .off → exec (.agtIntentWrite src agent unit value) s = .next (bringUp (put .up) k)) ∧
        (value = 2 → u.actual ≠ .off → exec (.agtIntentWrite src agent unit value) s = .next (put .up)) ∧
        (value = 0 → u.actual = .off → exec (.agtIntentWrite src agent unit value) s = .next (put .off)) ∧
        (value = 0 → u.actual ≠ .off → exec (.agtIntentWrite src agent unit value) s = .next (unitOff (put .off) k)) ∧
        (value = 5 → exec (.agtIntentWrite src agent unit value) s = .next (retiredRest (retireAsked (put .retired) k) k))))) ∧
  (∀ s : State, exec .audit s = .next (((periodic s 0 10000).units.map (·.1)).foldl auditUnit (periodic s 0 10000))) ∧
  (∀ (s : State) (k : Nat), let u := uGet s k
    (unitAgrees s k = true → auditUnit s k = uSet s k { u with disagree := false }) ∧
    (unitAgrees s k = false → u.disagree = false → auditUnit s k = uSet s k { u with disagree := true }) ∧
    (unitAgrees s k = false → u.disagree = true → (serving u.actual = true ∨ u.actual = .training) →
      auditUnit s k = fenceUnit (uSet s k { u with disagree := true }) k 0x01 0 0)) ∧
  (∀ (s : State) (agent : BitVec 16) (unit : BitVec 9),
    let a := agent.toNat
    let u := unit.toNat
    let k := unitKey a u
    (uAct s k ≠ .training → exec (.bringUpComplete agent unit) s = .next s ∧ exec (.bringUpFail agent unit) s = .next s) ∧
    (unitOk a u = true → uAct s k = .training → ownBringUp s a u = false →
      let v := uMove s k ((uGet s k).prior.getD .up)
      let w := uSet v k { uGet v k with prior := none }
      (a ≠ grdAgent → a ≠ svcAgent → k ≠ uPort 4 → exec (.bringUpComplete agent unit) s = .next w) ∧
      (a = svcAgent → exec (.bringUpComplete agent unit) s = .next (chiefAgain w)) ∧
      (k = uPort 4 → exec (.bringUpComplete agent unit) s = .next (sendHeld w)) ∧
      (a = grdAgent → 0x100 ≤ u → quadReduced w (u - 0x100) = true → exec (.bringUpComplete agent unit) s = .next (degradeUnit w k 0)) ∧
      exec (.bringUpFail agent unit) s = .next (fenceUnit (uSet s k { uGet s k with prior := none }) k 0x02 0 0)))

/-- R399, R401, R403 to R406: a routing entry is written into the bank that is not current once the old epoch has drained, else
refused and counted; FAB_EPOCH_GO accepts a switch at T or shows why not; the switch flips the current bank; the old epoch has
drained when its injections equal its ejections; an injector that has waited asserts STARVE; a reflected packet waits at its
source with its way restored, and three parity failures stop the chip. -/
def Obligations.FabricCommands : Prop :=
  (∀ (s : State) (src : MgmtSource) (router : BitVec 6) (bank : BitVec 1) (plane : BitVec 2) (dest : BitVec 6) (value : BitVec 32),
    srcOpen s src = true → s.boot.step ≠ 15 → scopeOf s src = none → src ≠ .image → router.toNat < 48 → dest.toNat < 48 →
    let free := bank.toNat ≠ b2n s.fab.current ∧ s.fab.oldDrained = true ∧ s.fab.pending = false
    (free → exec (.fabRtWrite src router bank plane dest value) s = .next (rtPut s router.toNat bank.toNat plane.toNat dest.toNat value)) ∧
    (¬ free → exec (.fabRtWrite src router bank plane dest value) s = .next (bump s .fabRtRefused router.toNat 0 0))) ∧
  (∀ (s : State) (src : MgmtSource), srcOpen s src = true → s.boot.step ≠ 15 → scopeOf s src = none →
    let t := (regGet s (fabAgent 0) 0x104).toNat + (regGet s (fabAgent 0) 0x108).toNat * 2 ^ 32
    let shows (v : Nat) : Host.Outcome State Fault Refusal := .next (fabMod s (fun f => { f with status := v }))
    (t < fabTime s + 1024 → exec (.fabEpochGo src) s = shows 2) ∧
    (fabTime s + 1024 ≤ t → (s.fab.oldDrained = false ∨ s.fab.pending = true) → exec (.fabEpochGo src) s = shows 3) ∧
    (fabTime s + 1024 ≤ t → s.fab.oldDrained = true → s.fab.pending = false → bankOk s (1 - b2n s.fab.current) = false → exec (.fabEpochGo src) s = shows 4) ∧
    (fabTime s + 1024 ≤ t → s.fab.oldDrained = true → s.fab.pending = false → bankOk s (1 - b2n s.fab.current) = true →
      exec (.fabEpochGo src) s = .next (fabMod s (fun f => { f with status := 1, pending := true, switchAt := t })))) ∧
  (∀ s : State, (s.fab.pending = false → exec .fabEpochSwitch s = .next s) ∧
    (s.fab.pending = true →
      let t := fabMod (nowTo s ((s.fab.switchAt * 5 + 10) / 11)) (fun f => { f with current := !f.current, pending := false, oldDrained := false })
      exec .fabEpochSwitch s = .next (trace t 5 0 (fabAgent 0) 0 [BitVec.ofNat 8 (b2n (!s.fab.current))])) ∧
    (let old := 1 - b2n s.fab.current
     (s.fab.oldDrained = false → fabSum s .fabInjE old = fabSum s .fabEjE old → exec .fabDrainCheck s = .next (fabMod s (fun f => { f with oldDrained := true }))) ∧
     (s.fab.oldDrained = true ∨ fabSum s .fabInjE old ≠ fabSum s .fabEjE old → exec .fabDrainCheck s = .next s))) ∧
  (∀ (s : State) (router : BitVec 6) (plane : BitVec 2) (w : FabPkt), s.fab.waiting = [w] → w.router = router.toNat → w.plane = plane.toNat → w.starve = false →
    exec (.fabStarve router plane) s = .next (bump (fabMod s (fun f => { f with waiting := [{ w with starve := true, wait := max 128 w.wait }] })) .fabStarve router.toNat 0 0)) ∧
  (∀ (s : State) (hdr : BitVec 128) (payload : BitVec 512) (plane : BitVec 1) (fails : BitVec 2),
    let src := hSrc hdr
    let dst := hDst hdr
    src < 48 → dst < 48 → bitsOf hdr 0 1 = 1 → bitsOf hdr 3 1 = 0 →
    (∀ p ∈ s.fab.flight, hSrc p.hdr ≠ src ∨ hSrcEp p.hdr ≠ hSrcEp hdr ∨ hTag p.hdr ≠ hTag hdr) →
    let t := bump (bump (bump s .fabInjE src (hEpoch hdr) 0) .fabEjE dst (hEpoch hdr) 0) .fabReflect dst 0 0
    (fails = 3 → exec (.fabReflectReinject hdr payload plane fails) s = .next (chipStopBy (bumpN t .fabParityReplay src 0 0 2) (fabAgent src) 0x10)) ∧
    (fails.toNat < 3 →
      let u := bumpN t .fabParityReplay src 0 0 fails.toNat
      let back := aged (reinjected (reflected hdr) (b2n u.fab.current)) (regField u (fabAgent 0) 0x118 0 8 + fails.toNat)
      exec (.fabReflectReinject hdr payload plane fails) s =
        .next (fabMod u (fun f => { f with waiting := f.waiting ++ [{ router := src, plane := plane.toNat, hdr := back, payload := payload }] }))))

/-! ## Ports, lanes and links (R343 to R377) -/

/-- R349, R350, R352 to R355: a soft fault of a lane of a serving port swaps it to the spare where one is usable, consumes the
spare when L8 fails, and else retires the port; a hard fault retires it where R355 decides, else takes the links down to retrain;
lanes dark at the end of bring-up fail, or the peer is absent and bring-up is repeated after 100 ms. R352, R353: the lane-map
exchange. A REQ for a port whose lanes are whole and whose spare is enabled is acknowledged and followed by SWITCH, else refused;
ACK makes the side that asked send SWITCH; SWITCH is noted, and at the switch point the map is taken and DONE sent; with DONE
sent and received the port is DEGRADED on its spare; REFUSE retires the port, and 50 µs without an end take its links down. -/
def Obligations.LaneFaultsAndSpares : Prop :=
  (
    ∀ (s : State) (port : BitVec 2) (lane : Fin 9) (symbols : BitVec 32) (dark : BitVec 9),
      let p := port.toNat
      let l := lane.val
      let t := bumpN s .prtFecSym p l 0 symbols.toNat
      let x := prtGet s p
      let lanes := (upto 9).filter (fun i => dark.getLsbD i)
      ((serving (uAct t (uPort p)) = false ∨ l ∈ (prtGet t p).failed) → exec (.laneSoftFault port lane symbols) s = .next t) ∧
      (serving (uAct t (uPort p)) = true → l ∉ (prtGet t p).failed →
        let y := prtGet t p
        let u := laneFail t p l 0x30
        (portSplit u p = true ∨ y.failed ≠ [] ∨ y.swap ≠ none → exec (.laneSoftFault port lane symbols) s = .next (retirePort u p 0x30)) ∧
        (portSplit u p = false → y.failed = [] → y.swap = none →
          (l = 8 → exec (.laneSoftFault port lane symbols) s = .next (degradeUnit u (uPort p) 0x30)) ∧
          (l < 8 → spareUsable u p = false → exec (.laneSoftFault port lane symbols) s = .next (retirePort u p 0x30)) ∧
          (l < 8 → spareUsable u p = true →
            let w : LmapSwap := { asker := true, lane := l, phys := l, map := setBits y.map (4 * l) 4 8, epoch := y.epoch + 1, since := u.now }
            exec (.laneSoftFault port lane symbols) s = .next (sendLmap (prtMod u p (fun z => { z with swap := some w })) p 1 w)))) ∧
      ((serving (uAct s (uPort p)) = false ∨ l ∈ x.failed) → exec (.laneHardFault port lane) s = .next s) ∧
      (serving (uAct s (uPort p)) = true → l ∉ x.failed →
        let lost := portSplit s p = true ∨ x.failed ≠ [] ∨ (l < 8 ∧ spareUsable s p = false)
        (lost → exec (.laneHardFault port lane) s = .next (retirePort (laneFail s p l 0x31) p 0x31)) ∧
        (¬ lost → exec (.laneHardFault port lane) s = .next (portDown (laneFail s p l 0x31) p))) ∧
      (uAct s (uPort p) = .training → dark ≠ 0 →
        let u := nowTo s (x.since + 200000000)
        let v := lanes.foldl (fun w i => laneFail w p i 0x31) u
        (dark = 0x1FF → exec (.laneBringupTimeout port dark) s = .next (prtMod u p (fun z => { z with absent := true }))) ∧
        (dark ≠ 0x1FF → lanesLost v p = true → exec (.laneBringupTimeout port dark) s = .next (retirePort v p 0x31)) ∧
        (dark ≠ 0x1FF → lanesLost v p = false → exec (.laneBringupTimeout port dark) s = .next v)) ∧
      (uAct s (uPort p) ≠ .training → exec (.laneBringupTimeout port dark) s = .next s ∧ exec (.peerAbsentRetry port) s = .next s) ∧
      (uAct s (uPort p) = .training → x.absent = true →
        let u := nowTo s (x.since + 100000000)
        exec (.peerAbsentRetry port) s = .next (prtMod u p (fun z => { z with absent := false, since := u.now })))) ∧
  (
    (∀ (s : State) (rx : KlrRx),
      let l := rx.link.val
      let p := l / 2
      (klrGet s l).state = .up → 64 ≤ rx.bytes → rx.bytes ≤ 9216 → crc32c (klrHdrBytes rx.hdr) = rx.hdr.hcrc → rx.hdr.ver = 1 → rx.hdr.typ = 3 →
      16 ≤ rx.body.length → (crc32c (rx.body.take 12)).toNat = beAt rx.body 12 4 → portSplit s p = false →
      let op := (byteAt rx.body 0).toNat
      let t := klrFields s l rx.hdr
      let w := lmapOf s.now rx.body
      let x := prtGet t p
      let failed (u : State) : State := laneFail u p w.phys 0x30
      (op = 1 → x.swap = none → x.failed = [] → spareOn t p = true → w.phys < 8 → exec (.lmapReq rx) s = .next (sendSwitch (sendLmap (failed t) p 2 w) p w)) ∧
      (op = 1 → x.swap = none → (x.failed ≠ [] ∨ spareOn t p = false ∨ 7 < w.phys) → exec (.lmapReq rx) s = .next (retirePort (failed (sendLmap t p 5 w)) p 0x30)) ∧
      (∀ o, op = 1 → x.swap = some o →
        (o.asker = true ∧ o.sentSwitch = false ∧ o.phys = w.phys ∧ o.epoch = w.epoch → exec (.lmapReq rx) s = .next (sendSwitch t p o)) ∧
        (¬ (o.asker = true ∧ o.sentSwitch = false ∧ o.phys = w.phys ∧ o.epoch = w.epoch) → exec (.lmapReq rx) s = .next (retirePort (failed t) p 0x30))) ∧
      (∀ o, op = 2 → x.swap = some o → o.asker = true → o.sentSwitch = false → o.epoch = w.epoch → o.phys = w.phys → exec (.lmapAck rx) s = .next (sendSwitch t p o)) ∧
      (∀ o, op = 3 → x.swap = some o → o.epoch = w.epoch → o.phys = w.phys →
        exec (.lmapSwitch rx) s = .next (prtMod t p (fun z => { z with swap := some { o with gotSwitch := true } }))) ∧
      (∀ o, op = 4 → x.swap = some o → o.epoch = w.epoch → o.phys = w.phys →
        exec (.lmapDone rx) s = .next (lmapFinish (prtMod t p (fun z => { z with swap := some { o with gotDone := true } })) p)) ∧
      (∀ o, op = 5 → x.swap = some o → o.asker = true → exec (.lmapRefuse rx) s = .next (retirePort t p 0x30)) ∧
      (x.swap = none → (op = 2 → exec (.lmapAck rx) s = .next t) ∧ (op = 3 → exec (.lmapSwitch rx) s = .next t) ∧
        (op = 4 → exec (.lmapDone rx) s = .next t) ∧ (op = 5 → exec (.lmapRefuse rx) s = .next t))) ∧
    (∀ (s : State) (port : BitVec 2),
      let p := port.toNat
      ((prtGet s p).swap = none → exec (.lmapSwitchPoint port) s = .next s ∧ exec (.lmapSwapTimeout port) s = .next s) ∧
      (∀ o, (prtGet s p).swap = some o →
        exec (.lmapSwapTimeout port) s = .next (portDown (nowTo s (o.since + 50000)) p) ∧
        (o.gotSwitch = true → o.sentSwitch = true → o.sentDone = false →
          let u := sendLmap (prtMod s p (fun z => { z with map := o.map, epoch := o.epoch, swap := some { o with sentDone := true } })) p 4 o
          exec (.lmapSwitchPoint port) s = .next (lmapFinish u p)) ∧
        (o.gotSwitch = false ∨ o.sentSwitch = false ∨ o.sentDone = true → exec (.lmapSwitchPoint port) s = .next s)) ∧
      (∀ o, (prtGet s p).swap = some o → o.sentDone = true → o.gotDone = true →
        lmapFinish s p = degradeUnit (bump (prtMod s p (fun z => { z with swap := none, spareUsed := true })) .prtSwap p 0 0) (uPort p) 0x30)))

/-- R361, R364, R365, R366, R368, R369: an in-order DATA frame with credit is taken into the class's pool and acknowledged, one
without is counted; one ahead is discarded and asks for a replay; one behind is discarded and acknowledged. STATUS takes the
limits of all classes and begins a replay when RQ asks for one. A frame that fails its checks is counted and dropped. R116, R362,
R365, R366, R370, R371, R372: states and timers of a link. A PCS that comes up makes the link PLAIN or starts HELLO; one that
goes down keeps what KLR holds and trains the port; HELLOs complete the handshake; without one in 1 ms the link is PLAIN, fails
its bring-up or goes on; the acknowledgement delay and the period send STATUS; the replay timer replays, or takes the link DOWN
at its limit; a port DOWN for DOWN_RETIRE is retired. -/
def Obligations.LinkRetry : Prop :=
  (
    ∀ (s : State) (rx : KlrRx),
      let l := rx.link.val
      let p := l / 2
      let h := l % 2
      let exact_ := 64 ≤ rx.bytes ∧ rx.bytes ≤ 9216 ∧ crc32c (klrHdrBytes rx.hdr) = rx.hdr.hcrc ∧ rx.hdr.ver = 1
      let bodyOk := 32 ≤ rx.body.length ∧ (crc32c (rx.body.take 28)).toNat = beAt rx.body 28 4
      let st := (klrGet s l).state
      let t := klrFields s l rx.hdr
      let k := klrGet t l
      let d := (rx.hdr.seq - k.rxNext).toNat
      let c := rx.hdr.tc.toNat
      let u := unitsOf rx.bytes
      let free := poolReserve t l - (k.held[c]?).getD 0
      let granted := (k.granted[c]?).getD 0
      ((st = .off ∨ st = .down ∨ st = .plain) → exec (.klrData rx) s = .next s ∧ exec (.klrStatus rx) s = .next s ∧ exec (.hello rx) s = .next s) ∧
      ((st = .up ∨ st = .hello) →
        (rx.bytes < 64 → exec (.klrData rx) s = .next (bump s .prtRunt p 0 0)) ∧
        (9216 < rx.bytes → exec (.klrData rx) s = .next (bump s .prtOversize p 0 0)) ∧
        (64 ≤ rx.bytes → rx.bytes ≤ 9216 → (crc32c (klrHdrBytes rx.hdr) ≠ rx.hdr.hcrc ∨ rx.hdr.ver ≠ 1 ∨ 3 < rx.hdr.typ.toNat) →
          exec (.klrData rx) s = .next (bump s .klrHcrc p h 0))) ∧
      (st = .up → exact_ → rx.hdr.typ = 0 →
        (d = 0 → c ≤ 6 → u ≤ free + granted →
          let own := min u free
          let k1 : Klr := { k with rxNext := k.rxNext + 1, rcvd := lmod (· + BitVec.ofNat 24 u) k.rcvd c, held := lmod (· + own) k.held c,
                                   granted := lmod (· - (u - own)) k.granted c, pool := k.pool ++ [{ cls := c, units := u }], rqAt := none }
          exec (.klrData rx) s = .next (klrAckDue (klrPut t l k1) l)) ∧
        (d = 0 → (6 < c ∨ free + granted < u) → exec (.klrData rx) s = .next (bump t .klrProto p h 0)) ∧
        (0 < d → d < 0x800000 →
          let again := k.rqAt = none ∨ ∃ x, k.rqAt = some x ∧ x + replayNs s l / 2 ≤ s.now
          (again → exec (.klrData rx) s = .next (klrMod (Machine.klrStatus (bump t .klrGap p h 0) l true) l (fun k => { k with rqAt := some s.now }))) ∧
          (¬ again → exec (.klrData rx) s = .next (bump t .klrGap p h 0))) ∧
        (0x800000 ≤ d → exec (.klrData rx) s = .next (klrAckDue (bump t .klrDup p h 0) l))) ∧
      (st = .up → exact_ → rx.hdr.typ = 1 → bodyOk →
        let v := klrMod t l (fun k => (List.range 7).foldl (fun k c =>
          if beAt rx.body (4 * c) 4 % 2 = 1 then { k with limit := lset k.limit c (some (BitVec.ofNat 24 (beAt rx.body (4 * c) 4 / 256))) } else k) k)
        let q := klrGet v l
        (rx.hdr.rq = false ∨ q.unacked = [] → exec (.klrStatus rx) s = .next v) ∧
        (rx.hdr.rq = true → q.unacked ≠ [] → q.replay = [] → exec (.klrStatus rx) s = .next (replayBegin (bump v .klrReplayRq p h 0) l))) ∧
      (st = .hello → exact_ → (rx.hdr.typ = 0 → exec (.klrData rx) s = .next s) ∧ (rx.hdr.typ = 1 → bodyOk → exec (.klrStatus rx) s = .next s))) ∧
  (
    (∀ (s : State) (link : Fin 8),
      let l := link.val
      let p := l / 2
      let k := klrGet s l
      (k.state ≠ .down ∨ uAct s (uPort p) ≠ .training → exec (.pcsLinkUp link) s = .next s) ∧
      (k.state = .down → uAct s (uPort p) = .training →
        (klrMode s p = 0 → exec (.pcsLinkUp link) s = .next (portTryUp (klrMod s l (fun k => { k with state := .plain })) p)) ∧
        (klrMode s p ≠ 0 → exec (.pcsLinkUp link) s = .next (klrMod s l (fun k => { k with
          state := .hello, helloSince := s.now, helloSent := s.now, helloRx := false, helloSeen := false, peerSeen := false })))) ∧
      (k.state = .off ∨ k.state = .down → exec (.pcsLinkDown link) s = .next s) ∧
      (k.state ≠ .off → k.state ≠ .down → exec (.pcsLinkDown link) s = .next (portTrain (linkDown s l) p)) ∧
      (k.state ≠ .hello → exec (.helloSendTimer link) s = .next s ∧ exec (.helloTimeout link) s = .next s) ∧
      (k.state = .hello →
        let t := nowTo s (k.helloSent + 1000)
        let x := prtGet t p
        let flags := b2n k.helloRx + 2 * b2n (spareOn s p) + 4 * b2n (!x.spareUsed && decide (8 ∉ x.failed) && spareOn s p)
        let body := beBytes 8 k.incarnation.toNat ++ beBytes 3 k.rxNext.toNat ++ [BitVec.ofNat 8 flags] ++ beBytes 8 Config.serial.toNat ++ zeros 8
        exec (.helloSendTimer link) s = .next (helloCheck (klrMod (klrCtl t l 2 false body) l (fun k => { k with
          helloSent := t.now, helloSeen := k.helloSeen || k.helloRx })) l)) ∧
      (k.state = .hello → k.helloRx = false →
        let t := nowTo s (k.helloSince + 1000000)
        let plain := klrPut t l { k with state := .plain, unacked := [], replay := [], replayDue := none, heldAck := k.next - 1 }
        (klrMode s p = 1 → exec (.helloTimeout link) s = .next (portTryUp (k.unacked.foldl (fun u e => putPlain u l e.frame e.alive e.hcrc) plain) p)) ∧
        (klrMode s p ≠ 1 → (prtGet s p).fromOff = true → exec (.helloTimeout link) s = .next (fenceUnit (portLinksOff t p) (uPort p) 0x02 0 0)) ∧
        (klrMode s p ≠ 1 → (prtGet s p).fromOff = false → exec (.helloTimeout link) s = .next (klrMod t l (fun k => { k with helloSince := t.now })))) ∧
      (k.state = .up →
        exec (.klrStatusPeriod link) s = .next (Machine.klrStatus (nowTo s k.statusDue) l false) ∧
        (k.ackDue = none → exec (.klrAckDelayExpire link) s = .next s) ∧
        (∀ t, k.ackDue = some t → exec (.klrAckDelayExpire link) s = .next (Machine.klrStatus (nowTo s t) l false)) ∧
        (∀ t, k.replayDue = some t → k.unacked ≠ [] →
          let limit := regField s (klrAgent p) 0x104 24 8
          let u := nowTo s t
          (limit ≤ k.expiries + 1 → exec (.klrReplayTimer link) s = .next (portTrain (linkDown u l) p)) ∧
          (k.expiries + 1 < limit → exec (.klrReplayTimer link) s = .next (replayBegin (bump (klrMod u l (fun k => { k with
            expiries := k.expiries + 1, replayDue := some (u.now + replayNs s l) })) .klrReplayTimer p (l % 2) 0) l)))) ∧
      (k.state ≠ .up → exec (.klrStatusPeriod link) s = .next s ∧ exec (.klrAckDelayExpire link) s = .next s ∧ exec (.klrReplayTimer link) s = .next s)) ∧
    (∀ (s : State) (rx : KlrRx),
      let l := rx.link.val
      let p := l / 2
      let k := klrGet s l
      k.state = .hello → 64 ≤ rx.bytes → rx.bytes ≤ 9216 → crc32c (klrHdrBytes rx.hdr) = rx.hdr.hcrc → rx.hdr.ver = 1 → rx.hdr.typ = 2 →
      32 ≤ rx.body.length → (crc32c (rx.body.take 28)).toNat = beAt rx.body 28 4 →
      let inc := BitVec.ofNat 64 (beAt rx.body 0 8)
      let flags := byteAt rx.body 11
      let new := k.peerInc ≠ some inc
      let t := if new ∧ k.peerInc ≠ none then bump s .klrIncarnation p (l % 2) 0 else s
      exec (.hello rx) s = .next (helloCheck (klrPut (prtMod t p (fun x => { x with peerLmap := bitOf flags 1 })) l { k with
        peerInc := some inc, renum := k.renum || decide new, helloRx := true, peerSeen := k.peerSeen || bitOf flags 0,
        peerNext := BitVec.ofNat 24 (beAt rx.body 8 3) }) l)) ∧
    (∀ (s : State) (port : BitVec 2),
      let p := port.toNat
      let dr := regField s (klrAgent p) 0x110 0 12
      let ls := portLinks s p
      (dr ≠ 0 → (∀ l ∈ ls, (klrGet s l).state = .down) → uAct s (uPort p) = .training → exec (.klrDownRetire port) s =
        .next (retirePort (nowTo s ((ls.map (fun l => (klrGet s l).downSince)).foldl max 0 + dr * 1000000000)) p 0x33)) ∧
      (dr = 0 ∨ uAct s (uPort p) ≠ .training → exec (.klrDownRetire port) s = .next s) ∧
      (uAct s (uPort p) ≠ .retired → exec (.klrHandoffDone port) s = .next s) ∧
      (uAct s (uPort p) = .retired →
        let held := (klrGet s (2 * p)).unacked.map (·.frame) ++ (klrGet s (2 * p + 1)).unacked.map (·.frame)
        let emptied (u : State) (l : Nat) : State := klrMod u l (fun k => { k with unacked := [], replay := [], replayDue := none })
        exec (.klrHandoffDone port) s = .next (trkReopen (emptied (emptied (takeBack s held) (2 * p)) (2 * p + 1))))))

/-- R344, R347, R357, R358, R473: frames outside KPP. A request for an address of the chip is answered with the link's MAC
address; PAUSE and malformed frames are dropped and counted; a PTP message is metered, its event messages are timestamped, and
the engine takes it on a PTP port of its domain; intervals send messages; 3 s without Sync end LOCKED. What the engine does with
a message is PRESUMED from IEEE 1588 (log 72). -/
def Obligations.PlainFrames : Prop :=
  (∀ (s : State) (via : RxVia) (e : Encap) (ok : Bool) (uncorr : BitVec 16),
    let p := viaPort via
    let t := if uncorr = 0 then s else bumpN s .prtFecUncorr p 0 0 uncorr.toNat
    let drops (c : Cnt) : Prop := exec (.macFrameReject via e ok uncorr) s = .next (bump t c p 0 0)
    exec (.pauseFrameRx via) s = .next (bump s .prtPause p 0 0) ∧
    (e.bytes < 64 → drops .prtRunt) ∧ (9216 < e.bytes → drops .prtOversize) ∧
    (64 ≤ e.bytes → e.bytes ≤ 9216 →
      (ok = false → drops .prtFcs) ∧ (ok = true → 1 < e.vlanTags → drops .prtVlan) ∧ (ok = true → e.vlanTags ≤ 1 → e.ipOpt = true → drops .prtIpOpt))) ∧
  (∀ (s : State) (link : Fin 9) (nd : Bool) (target : BitVec 128),
    let l := link.val
    let ans : RawFrame := .neighbour nd target (linkMac l)
    (s.boot.step ≠ 15 → linkOpen s l = true → (l = 8 → serving (uAct s (uPort 4)) = true) → isOwnAddr s l target = true →
      exec (.arpNdRequest link nd target) s = .next (enqueue s l { tc := 6, raw := some ans })) ∧
    (s.boot.step ≠ 15 → isOwnAddr s l target = false → exec (.arpNdRequest link nd target) s = .next s) ∧
    (s.boot.step = 15 → l = 8 → nd = true → target.toNat = linkLocal (linkMac 8) → exec (.arpNdRequest link nd target) s = .next (putWire s (.raw 8 ans))) ∧
    (s.boot.step = 15 → nd = false → exec (.arpNdRequest link nd target) s = .next s)) ∧
  (∀ (s : State) (link : Fin 8) (m : PtpMsg),
    let l := link.val
    (linkOpen s l = false → exec (.ptpFrameRx link m) s = .next s) ∧
    (linkOpen s l = true → ∀ t, (meter s 0 7 (l / 2) 0 (rawLen (byteAt s.img.net 101).toNat (.ptp m)) 0 = (t, none) → exec (.ptpFrameRx link m) s = .next t) ∧
      (∀ g, meter s 0 7 (l / 2) 0 (rawLen (byteAt s.img.net 101).toNat (.ptp m)) 0 = (t, some g) →
        let u := if isEvent m = true then bump t .prtPtpTs (l / 2) 0 0 else t
        (u.ptp.on = true → u.svc.restarting = false → ptpLink u l = true → (ptpGet u l).state ≠ .disabled → m.domain = byteAt u.img.net 98 →
          exec (.ptpFrameRx link m) s = .next (ptpHandle u l m (cd10Total u))) ∧
        (u.ptp.on = false ∨ ptpLink u l = false ∨ m.domain ≠ byteAt u.img.net 98 → exec (.ptpFrameRx link m) s = .next u)))) ∧
  (∀ s : State, (s.ptp.on = true → exec .ptpSyncTimeout s = .next (Machine.ptpMod (nowTo s (s.ptp.lastSync + 3000000000)) (fun x => { x with locked := false, good := 0 }))) ∧
    (s.ptp.on = false → exec .ptpSyncTimeout s = .next s)) ∧
  (∀ (s : State) (link : Fin 8) (kind : PtpKind),
    let l := link.val
    let p := ptpGet s l
    (s.ptp.on = false ∨ ptpLink s l = false → exec (.ptpMessageInterval link kind) s = .next s) ∧
    (s.ptp.on = true → s.svc.restarting = false → ptpLink s l = true →
      (kind = .sync → p.state = .master → exec (.ptpMessageInterval link kind) s = .next (ptpSync s l)) ∧
      (kind = .announce → p.state = .master → exec (.ptpMessageInterval link kind) s =
        .next (ptpSend (Machine.ptpMod s (fun x => { x with annSeq := s.ptp.annSeq + 1 })) l { ownAnnounce s l with seq := s.ptp.annSeq + 1 })) ∧
      (kind = .delayReq → ptpP2p s l = false → p.state = .slave → exec (.ptpMessageInterval link kind) s = .next (ptpDelayReq s l .delayReq)) ∧
      (kind = .pdelayReq → ptpP2p s l = true → p.state ≠ .disabled → exec (.ptpMessageInterval link kind) s = .next (ptpDelayReq s l .pdelayReq))))

/-! ## Start-up, flash and resets (R434 to R459) -/

/-- R443, R445, R448 to R455: the boot sequence. A running step that completes in time and whose checks hold hands over to the
next; a check that fails, a time limit, or a recovery reset at step 3 enters ROM recovery with its cause and address; step 9
serves, locks the configuration and opens admission. A halted or finished sequence does not move. R183, R184, R185, R173: memory
at start-up. A channel whose training ends well takes its geometry, a failed one retires its group under cause 18h, the slowest
rate holds for all and refresh begins with the last one; a granule whose last line is written is free. -/
def Obligations.BootAndMemoryBringUp : Prop :=
  (
    ∀ (s : State) (flashOk : Bool) (bad : BitVec 29) (slots : BitVec 32),
      let n := s.boot.step
      let live := s.boot.serving = false ∧ n ≤ 9 ∧ halted s = false
      let goes (t : State) : Prop := exec (.bootStepComplete flashOk bad slots) s = .next t
      let passed (t : State) (k : Nat) : State := stepTo t k
      (¬ live → goes s ∧ exec .bootStepTimeout s = .next s) ∧
      (live → exec .bootStepTimeout s = .next (recover (nowTo s (bootLimit n)) 9 0)) ∧
      (live → bootLimit n < s.now → goes (recover s 9 0)) ∧
      (live → s.now ≤ bootLimit n →
        (n = 1 → ∃ t, goes t ∧ t.boot.step = 2 ∧ t.crg.lock = s.crg.lock ||| 0x40) ∧
        (∀ x, n = 2 → signChecks s flashOk bad.toNat = some x → goes (recover s x.cause x.addr)) ∧
        (n = 2 → signChecks s flashOk bad.toNat = none → ∃ t, goes t ∧ t.boot.step = 3 ∧ t.img.hash = Config.sha512 (imgSigned s) ∧
          t.img.svn = (flashByte s 6).toNat ∧ t.img.secs = imgSecs s ∧
          t.fum.mr = lset s.fum.mr 0 (Config.sha512 (beBytes 64 (mrGet s 0).toNat ++ beBytes 64 (Config.sha512 (imgSigned s)).toNat))) ∧
        (n = 3 → s.boot.lastReset = 3 → goes (recover s 0x0A 0)) ∧
        (n = 3 → s.boot.lastReset ≠ 3 → goes (passed s 4)) ∧
        (n = 4 →
          let f := firstOf [firstFail 1 [(flashOk, bad.toNat)], firstFail 6 (digestChecks s s.img.secs [1, 2, 3, 4, 5, 8]), firstFail 7 (headerChecks s),
            contentFail s (configRecords (typedBytes s s.img.secs 1)) s.img.secs [1, 2, 3, 4, 5, 8]]
          (∀ x, f = some x → goes (recover s x.cause x.addr)) ∧
          (f = none → goes (passed (mrSections (mrSections (imageTaken s) 1 [1, 2, 3, 4, 5]) 4 [8]) 5))) ∧
        (n = 5 → ∃ t, goes t ∧ t.boot.step = 6) ∧
        (n = 6 →
          let lost (g : Nat) : Prop := uAct s (uGroup g) = .retired
          let small (g : Nat) : Prop := ¬ lost g ∧ groupSize s g < sysGranules s
          (untrained s ≠ [] → goes s) ∧
          (untrained s = [] → (lost (sysGroupA s) ∧ lost (sysGroupB s)) ∨ small (sysGroupA s) ∨ small (sysGroupB s) → goes (recover s 8 0)) ∧
          (untrained s = [] → ¬ (lost (sysGroupA s) ∧ lost (sysGroupB s)) → ¬ small (sysGroupA s) → ¬ small (sysGroupB s) →
            ∃ t, goes t ∧ t.boot.step = 7)) ∧
        (n = 7 →
          let f := firstOf [firstFail 1 [(flashOk, bad.toNat)], firstFail 6 (digestChecks s s.img.secs [6, 7]), contentFail s s.img.config s.img.secs [7]]
          (∀ x, f = some x → goes (recover s x.cause x.addr)) ∧ (f = none → ∃ t, goes t ∧ t.boot.step = 8)) ∧
        (n = 8 → ∃ t, goes t ∧ t.boot.step = 9) ∧
        (n = 9 → ∃ t, goes t ∧ t.boot.serving = true ∧ t.boot.locked = true ∧ t.tpt.admitting = true ∧ t.boot.step = 9))) ∧
  (
    (∀ (s : State) (chan : BitVec 4) (ok : Bool) (tr : Trained),
      let c := chan.toNat
      let t := bootMod s (fun b => { b with trained := insertNat c b.trained })
      let good := ok = true ∧ slotFitted s c 0 = true ∧ (slotFitted s c 1 = false ∨ modeC s = true)
      let geom : Geom := { rowBits := tr.rowBits.toNat, rankBits := tr.rankBits.toNat, twoSlots := slotFitted s c 1, x8 := tr.x8,
                           share := 4 * tr.gib, tRc := tr.tRc, tRp := tr.tRp, tRfc := tr.tRfc }
      let slowest (u : State) : State := crgMod u (fun x => { x with memMhz := min x.memMhz (rateMhz (modeC s) tr.rate.toNat) })
      let out (u : State) : Prop := (untrained u = [] → exec (.channelTrainingDone chan ok tr) s = .next (dmcMod u (fun d => { d with refreshNext := some u.now }))) ∧
        (untrained u ≠ [] → exec (.channelTrainingDone chan ok tr) s = .next u)
      (s.boot.step ≠ 6 ∨ c ∉ untrained s → exec (.channelTrainingDone chan ok tr) s = .next s) ∧
      (s.boot.step = 6 → c ∈ untrained s →
        (good → out (slowest (chMod t c (fun ch => { ch with geom := geom })))) ∧
        (¬ good → out (slowest (retireGroup t (c / 4) 0x18 0 0))))) ∧
    (∀ (s : State) (granule : BitVec 14),
      let g := granule.toNat
      let e := granGet s g
      (e.state = .init → 7 ≤ s.boot.step → exec (.initGranuleDone granule) s =
        .next (initFlags (granPut (bumpN (granuleFree s g) .swpLines 0 0 0 0x1000000) g { e with state := .free }) e.group)) ∧
      (e.state ≠ .init ∨ s.boot.step < 7 → exec (.initGranuleDone granule) s = .next s)))

/-- R454, R458: a flash command of a source that reaches BOOT starts with its address, clears ERROR and aborts a running check;
one written while BUSY is counted; at its end a read fills the buffer, a program or an erase changes the page or the sector, BUSY
clears, and a reset that waited takes effect; a check passes or fails with its cause. What a failed command leaves is free. R445,
R457, R458, R505, R512: resets. Power-on keeps only flash and fuses; a chip reset, by the pin held low for 1 µs or by BOOT_RESET
with its key, keeps the flash, the fuses and its cause, and waits for a running flash command; another key is ignored; a fall of
PWR_GOOD for 100 ns leaves the chip down; SVN fuses go up to the image's SVN while serving. -/
def Obligations.FlashAndResets : Prop :=
  (
    (∀ (s : State) (src : MgmtSource), scopeOf s src = none → srcOpen s src = true →
      let started (op : Nat) : State := bootMod s (fun b => { b with
        flashOp := some (op, bitsOf (regGet s bootAgent 0x200) 0 29), flashError := false, check := if b.check = 1 then 4 else b.check })
      (s.boot.flashOp = none → exec (.flashRead src) s = .next (started 1) ∧ exec (.flashProgram src) s = .next (started 2) ∧
        exec (.flashErase src) s = .next (started 3)) ∧
      (s.boot.flashOp ≠ none → exec (.flashRead src) s = .next (bump0 s .bootFlashRefused) ∧
        exec (.flashProgram src) s = .next (bump0 s .bootFlashRefused) ∧ exec (.flashErase src) s = .next (bump0 s .bootFlashRefused)) ∧
      exec (.bootCheck src) s = .next (bootMod s (fun b => { b with check := 1, checkFail := {} }))) ∧
    (∀ (s : State) (flashOk : Bool) (bad : BitVec 29), s.boot.check = 1 →
      (imageCheck s flashOk bad.toNat = none → exec (.bootCheckDone flashOk bad) s = .next (bump0 (bootMod s (fun b => { b with check := 2, checkFail := {} })) .bootCheckPass)) ∧
      (∀ f, imageCheck s flashOk bad.toNat = some f → exec (.bootCheckDone flashOk bad) s =
        .next (bump0 (bootMod s (fun b => { b with check := 3, checkFail := f })) .bootCheckFail))) ∧
    (∀ (s : State) (op a : Nat), s.boot.flashOp = some (op, a) → s.boot.resetKind = none →
      let done (t : State) (bad : Bool) : State := bootMod t (fun b => { b with flashOp := none, flashError := bad, resetKind := none })
      (a < Config.flashBytes →
        (op = 1 → exec (.flashCmdDone true) s = .next (done (bootMod s (fun b => { b with flashBuf := flashBytes s (a / 256 * 256) 256 })) false)) ∧
        (op = 2 → exec (.flashCmdDone true) s = .next (done (bootMod s (fun b => { b with flash := flashPut b.flash (a / 256 * 256) b.flashBuf })) false)) ∧
        (op = 3 → exec (.flashCmdDone true) s =
          .next (done (bootMod s (fun b => { b with flash := flashPut b.flash (a / 65536 * 65536) (List.replicate 65536 0xFF) })) false)) ∧
        (op = 1 → exec (.flashCmdDone false) s = .next (bump0 (done (bootMod (drawBytes 4 s).2 (fun b => { b with flashBuf := (drawBytes 4 s).1 })) true) .bootFlashError)) ∧
        (op ≠ 1 → exec (.flashCmdDone false) s = .next (bump0 (done (flashSpoil s) true) .bootFlashError))) ∧
      (Config.flashBytes ≤ a → exec (.flashCmdDone true) s = .next (bump0 (done s true) .bootFlashError))) ∧
    (∀ (s : State) (k a : Nat), s.boot.flashOp = some (2, a) → s.boot.resetKind = some k → a < Config.flashBytes →
      ∃ t, exec (.flashCmdDone true) s = .next t ∧ t.boot.lastReset = k ∧ t.boot.flash = flashPut s.boot.flash (a / 256 * 256) s.boot.flashBuf ∧
        t.boot.flashOp = none ∧ t.boot.step = 1 ∧ t.boot.serving = false)) ∧
  (
    (∀ s : State, exec .powerOn s = .next { State.reset with
      pending := s.pending, freeCtr := s.freeCtr, wire := s.wire, boot := { State.reset.boot with flash := s.boot.flash, svn := s.boot.svn } }) ∧
    (∀ (s : State) (kind : Nat), ∃ b, chipReset s kind = { State.reset with
        pending := s.pending, freeCtr := s.freeCtr, wire := s.wire, boot := b, dbg := { jtagIr := s.dbg.jtagIr, boundary := s.dbg.boundary } } ∧
      b.flash = s.boot.flash ∧ b.svn = s.boot.svn ∧ b.lastReset = kind ∧ b.resets = min 255 (s.boot.resets + 1) ∧ b.step = 1 ∧ b.serving = false ∧ b.locked = false) ∧
    (∀ (s : State) (src : MgmtSource) (key : BitVec 16), scopeOf s src = none → srcOpen s src = true →
      let waits (kind : Nat) : State := bootMod s (fun b => { b with resetKind := some kind, check := if b.check = 1 then 4 else b.check })
      (key = 0x9416 → s.boot.flashOp = none → exec (.chipResetCmd src key) s = .next (chipReset s 2) ∧ exec (.recoveryReset src key) s = .next (chipReset s 3)) ∧
      (key = 0x9416 → s.boot.flashOp ≠ none → exec (.chipResetCmd src key) s = .next (waits 2) ∧ exec (.recoveryReset src key) s = .next (waits 3)) ∧
      (key ≠ 0x9416 → exec (.chipResetCmd src key) s = .next s ∧ exec (.recoveryReset src key) s = .next s)) ∧
    (∀ (s : State) (ns : BitVec 32),
      (1000 ≤ ns.toNat → s.boot.flashOp = none → exec (.resetNPin ns) s = .next (chipReset s 1)) ∧
      (ns.toNat < 100 → exec (.resetNPin ns) s = .next s ∧ exec (.powerDown ns) s = .next s) ∧
      (100 ≤ ns.toNat → ∃ t, exec (.powerDown ns) s = .next t ∧ t.boot.powered = false ∧ t.boot.svn = s.boot.svn ∧ t.boot.step = 1 ∧ t.boot.serving = false ∧
        (s.boot.flashOp = none → t.boot.flash = s.boot.flash))) ∧
    (∀ s : State, (s.boot.serving = true → s.img.burn = true → minSvn s < s.img.svn → exec .svnBurn s = .next (bootMod s (fun b => { b with svn := s.img.svn }))) ∧
      (s.boot.serving = false ∨ s.img.burn = false ∨ s.img.svn ≤ minSvn s → exec .svnBurn s = .next s)))

/-! ## Service complex, debug and registers (R460 to R485) -/

/-- R474 to R479, R413: a running service core feeds its check-value unit and kicks its watchdog; a missed kick or an SRAM error
starts a restart, the third within 10 minutes stops the chip; the end of a restart resumes what waited; a cache error refetched
in vain costs a restart, and the second on one core in 24 hours retires it. -/
def Obligations.ServiceComplex : Prop :=
  (∀ (s : State) (sc : Fin 4) (poly : BitVec 2) (b : BitVec 8) (h : BitVec 16) (w : BitVec 32),
    let k := sc.val
    let c := cvuGet s k
    let put (c : Cvu) : State := { s with cvus := lset s.cvus k c }
    let fed (bs : List Byte) : Cvu := { c with value := bs.foldl (cvuFeed c.poly) c.value }
    (uAct s (uSc k) = .up → s.svc.restarting = false →
      (poly ≠ 3 → exec (.cvuInit sc poly) s = .next (put { c with poly := poly, value := cvuInitial poly }) ∧
        exec (.cvuCtrlPoly sc poly) s = .next (put { c with poly := poly })) ∧
      (poly = 3 → exec (.cvuInit sc poly) s = .next (put c) ∧ exec (.cvuCtrlPoly sc poly) s = .next (put c)) ∧
      exec (.cvuFeedB sc b) s = .next (put (fed [b])) ∧
      exec (.cvuFeedH sc h) s = .next (put (fed (leBytes 2 h.toNat))) ∧
      exec (.cvuFeedW sc w) s = .next (put (fed (leBytes 4 w.toNat))) ∧
      exec (.cvuValueWrite sc w) s = .next (put { c with value := if c.poly = 2 then (c.value &&& 0xFFFFFF00) ||| (w &&& 0xFF) else w }) ∧
      exec (.svcWdogKick sc) s = .next (svcMod s (fun v => { v with kicks := lset v.kicks k s.now }))) ∧
    (uAct s (uSc k) ≠ .up ∨ s.svc.restarting = true → exec (.cvuFeedW sc w) s = .next s ∧ exec (.svcWdogKick sc) s = .next s)) ∧
  (∀ s : State,
    (s.svc.restarting = true → exec (.watchdogExpire true) s = .next s) ∧
    (s.svc.restarting = false →
      (2 ≤ (recentRestarts s).length → exec (.watchdogExpire true) s = .next (chipStop s 0x41)) ∧
      ((recentRestarts s).length < 2 → ∃ t, exec (.watchdogExpire true) s = .next t ∧ t.svc.restarting = true ∧
        t.svc.restarts = min 255 (s.svc.restarts + 1) ∧ t.ptp.locked = false ∧ t.cvus = List.replicate 4 {} ∧
        t.svc.restartTimes = recentRestarts s ++ [s.now] ∧ t.pitches = s.pitches ∧ t.boot = s.boot)) ∧
    (∀ x, (((upto 4).filter (fun k => scRuns s k)).map (fun k => (s.svc.kicks[k]?).getD 0 + wdogNs s)).min? = some x →
      exec (.watchdogExpire false) s = .next (restartBegin (nowTo s x)))) ∧
  (∀ s : State, (s.svc.restarting = false → ∀ ok, exec (.svcRestartDone ok) s = .next s) ∧
    (s.svc.restarting = true → exec (.svcRestartDone false) s = .next (chipStop s 0x41) ∧
      (let t := svcMod s (fun v => { v with restarting := false, lateRecalls := [], lateGranules := [], kicks := [s.now, s.now, s.now, s.now] })
       let u := s.svc.lateRecalls.foldl (fun x r => revokeAll x r.1 r.2) ((t.pitches.map (·.1)).foldl resumeWork t)
       exec (.svcRestartDone true) s = .next (ptpStart (s.svc.lateGranules.foldl (fun x g => granuleReturned x g false) u))))) ∧
  (∀ (s : State) (sc : Fin 4), exec (.scCacheParity sc false) s = .next s ∧
    (let t := svcMod s (fun v => { v with cacheErr := tins v.cacheErr sc.val s.now })
     s.flt.stopped = false →
      ((∀ x, tfind s.svc.cacheErr sc.val = some x → x + 86400000000000 ≤ s.now) → exec (.scCacheParity sc true) s = .next (restartBegin t)) ∧
      (∀ x u, tfind s.svc.cacheErr sc.val = some x → s.now < x + 86400000000000 → uAct s (uSc sc.val) ≠ .retired →
        chiefAgain (retireUnit t (uSc sc.val) 0x40 0 0) = u → (u.flt.stopped = false → exec (.scCacheParity sc true) s = .next (restartBegin u)) ∧
        (u.flt.stopped = true → exec (.scCacheParity sc true) s = .next u))))

/-- R480 to R485: debug. DBG_MEM_CTRL.GO queues a read of one line as the system master, which ends with plaintext only of a line
under key slot 00h, or with its failure; DBG_STORE_ADDR captures 128 bytes of a grid store, zeros of one that a sealed session
holds; at PERIOD each enabled selector writes a SAMPLE record; the TAP's instructions select their register and act on nothing
else. -/
def Obligations.DebugAndTap : Prop :=
  (∀ (s : State) (src : MgmtSource) (addr : BitVec 22), srcOpen s src = true → s.boot.step ≠ 15 →
    let a := ((regGet s dbgAgent 0x200).toNat + bitsOf (regGet s dbgAgent 0x204) 0 6 * 2 ^ 32) * 64
    let t := dbgMod s (fun d => { d with memState := 1, memAddr := a })
    (scopeOf s src ≠ none → exec (.dbgMemRead src) s = .next s) ∧
    (scopeOf s src = none → (granGet s (granOf a)).state = .absent → exec (.dbgMemRead src) s = .next t) ∧
    (scopeOf s src = none → (granGet s (granOf a)).state ≠ .absent → exec (.dbgMemRead src) s = .next (dmcRead t a 0 0 false none)) ∧
    exec (.dbgStoreCapture src addr) s = .next (captureStart (selSet (captureEnd s src) src dbgAgent 0x304 (addr.zeroExtend 32)) src addr.toNat)) ∧
  (∀ (s : State) (src : MgmtSource),
    (∀ sel a, s.dbg.capturing.find? (fun e => e.1 = src) = some (src, sel, a) → exec (.dbgStoreCaptureDone src) s = .next (dbgMod s (fun d => { d with
      capturing := d.capturing.filter (fun x => x.1 ≠ src), captures := aput d.captures src (storeBytes s (BitVec.ofNat 32 sel) a) }))) ∧
    (s.dbg.capturing.find? (fun e => e.1 = src) = none → exec (.dbgStoreCaptureDone src) s = .next s)) ∧
  (∀ s : State,
    let a := s.dbg.memAddr
    let failed (t : State) (st : Nat) : Host.Outcome State Fault Refusal := .next (dbgMod t (fun d => { d with memState := 3, memPlain := false, memStatus := BitVec.ofNat 8 st }))
    let verdict := unitsVerdict s [{ pva := 0, ppa := a, len := 64, entry := 0 }]
    (s.dbg.memState ≠ 1 → exec .dbgMemReadDone s = .next s) ∧
    (s.dbg.memState = 1 → (granGet s (granOf a)).state ≠ .absent →
      (∀ st, verdict = some st → exec .dbgMemReadDone s = failed s st) ∧
      (verdict = none →
        (lineVerdict s a = .media → exec .dbgMemReadDone s = failed (badLine s a 0 .media) (verdictStatus .media)) ∧
        (lineVerdict s a = .integrity → exec .dbgMemReadDone s = failed (badLine s a 0 .integrity) (verdictStatus .integrity)) ∧
        (lineVerdict s a = .good →
          let plain := decide ((metaGet s a).keySlot = 0)
          exec .dbgMemReadDone s = .next (dbgMod s (fun d => { d with
            memState := 2, memPlain := plain, memStatus := 0, memData := if plain = true then memBytes s a 64 else lineCipherBytes s a, memMeta := (upto 4).map (fun k => BitVec.ofNat 32 (lineMetaBits s a / 2 ^ (32 * k))) })))))) ∧
  (∀ s : State,
    let us := regField s dbgAgent 0x104 16 16
    let add (t : State) (k : Nat) : State :=
      let sel := regGet t dbgAgent (0x140 + 4 * k)
      if sel.getLsbD 15 = true then trace t 7 0 (bitsOf sel 16 16) 0 (leBytes 2 (bitsOf sel 0 10) ++ zeros 6 ++
        leBytes 8 (dirCount t (bitsOf sel 16 16) (bitsOf sel 0 10) none).toNat) else t
    (us = 0 → exec .traceSample s = .next s) ∧
    (us ≠ 0 → exec .traceSample s = .next ((List.range 16).foldl add (periodicCd10 s 8 (max 10 us * 1000))))) ∧
  (∀ (s : State) (bits : List Bool) (ir : BitVec 8),
    let load (ir : Byte) (dr : BitVec 68) : State := dbgMod s (fun d => { d with jtagIr := ir, jtagDr := dr })
    exec .idcode s = .next (load 1 (idcodeWord.zeroExtend 68)) ∧ exec .tapReset s = .next (load 1 (idcodeWord.zeroExtend 68)) ∧
    exec .clamp s = .next (load 4 0) ∧ exec .highz s = .next (load 5 0) ∧
    exec (.samplePreload bits) s = .next (dbgMod (load 2 0) (fun d => { d with boundary := bits })) ∧
    exec (.extest bits) s = .next (dbgMod (load 3 0) (fun d => { d with boundary := bits })) ∧
    (ir ∉ [1, 2, 3, 4, 5, 0x10] → exec (.bypass ir) s = .next (load ir 0)))

/-- R14, R463, R465, R466, R470, R471: accesses of one register. A write of a stored register changes its RW bits alone, whatever
the source but the image; one from a source that may not make it is ignored; SVC_MGMT_SCOPE sets the scope of its session, but
not to PT0; a read of AGT_CNT_LO captures all 64 bits of the selected counter. R79, R452, R456, R463, R467, R485: messages of
register accesses. MGMT_ACCESS of an open session makes its entries' accesses in order and answers their values, LENGTH where it
has not 1 to 64 entries, or DENIED without a session; in ROM recovery a message of port 50371 without authentication reaches the
registers of R456 alone; JTAG makes one access, refused while it is closed. -/
def Obligations.RegisterAccesses : Prop :=
  (
    (∀ (s : State) (src : MgmtSource) (addr value : BitVec 32) (rw rwl : Nat),
      let agent := addr.toNat / 65536
      let off := addr.toNat % 65536
      srcOpen s src = true → recovering s = false → scopeOf s src = none → src ≠ .image → s.dbg.capturing.find? (fun e => e.1 = src) = none →
      (agentDomain agent = 1 ∨ agentDomain agent = 2) → agent ≠ tmgAgent → agentOk agent = true → agentInst agent ≠ 63 → selMask agent off = none →
      0x100 ≤ off → regBits agent off = some (rw, rwl) →
      ∃ t, exec (.registerWrite src addr value) s = .next t ∧
        (∀ a o, regGet t a o = if regAddr a o = regAddr (storeAgent agent) off
          then (regGet s a o &&& ~~~ BitVec.ofNat 32 rw) ||| (value &&& BitVec.ofNat 32 rw) else regGet s a o) ∧
        t = { s with csr := t.csr }) ∧
    (∀ (s : State) (src : MgmtSource) (addr value : BitVec 32), srcOpen s src = false → src ≠ .image → exec (.registerWrite src addr value) s = .next s) ∧
    (∀ (s : State) (n : BitVec 32) (value : BitVec 32), srcOpen s (.session n) = true → recovering s = false → s.dbg.capturing.find? (fun e => e.1 = .session n) = none →
      (value.getLsbD 0 = true ∧ bitsOf value 8 8 = 0 → exec (.svcMgmtScopeWrite (.session n) value) s = .next s) ∧
      (¬ (value.getLsbD 0 = true ∧ bitsOf value 8 8 = 0) → exec (.svcMgmtScopeWrite (.session n) value) s =
        .next (mgmtMod s n (fun m => { m with scopeOn := value.getLsbD 0, scopePitch := BitVec.ofNat 8 (bitsOf value 8 8) })))) ∧
    (∀ (s : State) (src : MgmtSource) (agent : BitVec 16), srcOpen s src = true → src ≠ .image → recovering s = false → agentOk agent.toNat = true → agentInst agent.toNat ≠ 63 →
      s.dbg.capturing.find? (fun e => e.1 = src) = none →
      exec (.agtCntRead src agent) s = .next { s with cntCap := aput s.cntCap src (cntSelValue s src agent.toNat) })) ∧
  (
    (∀ (s t : State) (f : RxFrame) (r : Req), receive s 0x7D f = .go t r → flagH r.flags = false → flagX r.flags = false → r.tc = 6 →
      r.length.toNat = f.payload.length →
      (r.sess = none → exec (.mgmtAccess f) s = .next (ackNow (answer t r stDenied []) r.flow)) ∧
      (∀ n, r.sess = some n → entryCount r.payload = none → exec (.mgmtAccess f) s = .next (ackNow (answer t r stLength []) r.flow)) ∧
      (∀ n k u p, r.sess = some n → entryCount r.payload = some k → entriesRun (.session n) (fun _ => true) k t r.payload = (u, p) →
        (u.boot.step = t.boot.step → exec (.mgmtAccess f) s = .next (ackNow (answer u r stOk p) r.flow)))) ∧
    (∀ (src : MgmtSource) (s : State) (p : List Byte) (reach : Nat → Bool) (k : Nat),
      let op := byteAt p 0
      let a := beAt p 4 4
      (reach a = true →
        (∀ u v, op = 1 → regRead s src a = (u, some v) → entryAccess s src reach p = (u, beBytes 4 v.toNat ++ zeros 4)) ∧
        (∀ u v, op = 2 → regWrite s src a (BitVec.ofNat 32 (beAt p 8 4)) = (u, some v) → entryAccess s src reach p = (u, beBytes 4 v.toNat ++ zeros 4))) ∧
      (∀ u b w c, entryAccess s src reach p = (u, b) → u.boot.step = s.boot.step → entriesRun src reach k u (p.drop 12) = (w, c) →
        entriesRun src reach (k + 1) s p = (w, b ++ c))) ∧
    (∀ (s : State) (f : RxFrame) (k : Nat), recovering s = true → f.via = .mp → f.encap.udpDst.toNat = 50371 → flagA f.hdr.flags = false → f.hdr.endpoint = 0 →
      f.hdr.context = 0 → f.hdr.tc = 6 → earlyFail 0x7D f = none → f.hdr.length.toNat = f.payload.length → entryCount f.payload = some k →
      let r := mkReq 0x7D f (.sess f.srcAddr f.srcPort f.hdr.tc) 0
      ∀ u p, entriesRun .jtag recoveryReach k s f.payload = (u, p) → u.boot.step = s.boot.step →
        exec (.recoveryAccess f) s = .next (enqueue u 8 { respFrame u r stOk p r.address true with flow := none, release := none })) ∧
    (∀ (s : State) (f : RxFrame), recovering s = false → exec (.recoveryAccess f) s = .next s) ∧
    (∀ (s : State) (op : BitVec 2) (addr data : BitVec 32),
      let a := addr.toNat
      let shown (v : Word) (st : Nat) : BitVec 68 := BitVec.ofNat 68 (a * 4 + v.toNat * 2 ^ 34 + st * 2 ^ 66)
      let result (t : State) (st : Nat) (v : Word) : Host.Outcome State Fault Refusal :=
        .next (dbgMod t (fun d => { d with jtagIr := 0x10, jtagAddr := addr, jtagData := v, jtagStatus := st, jtagDr := shown v st }))
      (op ≠ 1 → op ≠ 2 → exec (.jtagMgmtAccess op addr data) s = .next (dbgMod s (fun d => { d with
        jtagIr := 0x10, jtagDr := BitVec.ofNat 68 (d.jtagAddr.toNat * 4 + d.jtagData.toNat * 2 ^ 34 + d.jtagStatus * 2 ^ 66) }))) ∧
      (op = 1 ∨ op = 2 → jtagClosed s a = true → exec (.jtagMgmtAccess op addr data) s = result (draw s).2 3 ((draw s).1.truncate 32)) ∧
      (jtagClosed s a = false →
        (∀ u v, op = 1 → regRead s .jtag a = (u, some v) → exec (.jtagMgmtAccess op addr data) s = result u 0 v) ∧
        (∀ u v, op = 2 → regWrite s .jtag a data = (u, some v) → exec (.jtagMgmtAccess op addr data) s = result u 0 v) ∧
        (∀ u, op = 1 → regRead s .jtag a = (u, none) → exec (.jtagMgmtAccess op addr data) s = result (draw u).2 2 ((draw u).1.truncate 32)))))

/-! ## Board, clocks and PLLs (R486 to R512) -/

/-- R486 to R488, R491: a frame of 32 conversions gives every input its VALUE and CODE, the last conversion of AIN0 and AIN1
counting, unless a conversion of ground or reference is out of its bounds: then the VALUEs stay and the frame is counted. The
frame's power joins those of the last WINDOW ms. Then the four pairs of feed samples are judged, those after a halt of the boot
sequence excepted. R418, R449, R489, R490: one pair of samples. The third low sample in a row loses a feed: alone beside a feed
that is present it is an ALARM of code 50h, otherwise a chip stop of code 51h, or while the boot sequence runs its halt until a
reset. A feed whose voltage stays above OK for 1 ms is present again, unless it is off. A write of BRD_FEED_CTRL turns feeds off,
but not where none that is present and on would be left. (That both losses of one pair are in the same sample is log 37.) -/
def Obligations.AdcFramesAndFeeds : Prop :=
  (
    ∀ (s : State) (codes : List (BitVec 12)),
      let u := periodic s 1 16000
      let code (j : Nat) : Nat := ((codes[j]?).getD 0).toNat
      let kept : Bool := decide (8 < code 30) || decide (3429 < code 31) || decide (code 31 < 3397)
      let value (k j : Nat) : Int := if kept = true then ainValue s k else
        (BitVec.ofNat 16 (regField s brdAgent (0x300 + 4 * k) 16 16)).toInt + ((code j * regField s brdAgent (0x300 + 4 * k) 0 16 / 4096 : Nat) : Int)
      let slot (k : Nat) : Nat := if k = 0 then 24 else if k = 1 then 28 else (k - 2) + (k - 2) / 3 + 1
      let power : Int := value 0 24 * value 2 1 / 10000 + value 1 28 * value 3 2 / 10000
      let t := brdMod u (fun b => { b with
        ain := (upto 24).map (fun k => (value k (slot k), code (slot k)))
        powers := b.powers.filter (fun p => u.now < p.1 + regField s brdAgent 0x114 0 6 * 1000000) ++ [(u.now, power)] })
      let t' := if kept = true then bump0 t .brdAdcCal else t
      exec (.adcFrame codes) s = .next ((List.range 4).foldl (fun x j => if halted x = true ∧ halted t' = false then x
        else feedPair x (value 0 (8 * j)) (value 1 (8 * j + 4)) (u.now - 16000 + 4000 * j)) t')) ∧
  (
    (∀ (s : State) (va vb : Int) (at_ : Nat),
      let uv : Int := (regField s brdAgent 0x100 0 16 : Nat)
      let ok : Int := (regField s brdAgent 0x100 16 16 : Nat)
      let sampled (f : Feed) (v : Int) (x : Nat) : Feed := { f with lowRun := if v < uv then f.lowRun + 1 else 0, okSince := if ok < v then some (f.okSince.getD x) else none }
      let a := sampled s.brd.feedA va at_
      let b := sampled s.brd.feedB vb (at_ + 2000)
      let lost (f : Feed) (v : Int) : Prop := f.present = true ∧ v < uv ∧ 2 ≤ f.lowRun
      let put (a b : Feed) : State := brdMod s (fun x => { x with feedA := a, feedB := b })
      (¬ lost s.brd.feedA va → ¬ lost s.brd.feedB vb → feedPair s va vb at_ = put a b) ∧
      (lost s.brd.feedA va → ¬ lost s.brd.feedB vb →
        let t := bump0 (put { a with present := false } b) .brdFeedLossA
        (s.brd.feedB.present = true → feedPair s va vb at_ = faultRec t { agent := brdAgent, cause := 0x50, cls := clsAlarm }) ∧
        (s.brd.feedB.present = false → booting s = false → feedPair s va vb at_ = chipStopBy t brdAgent 0x51) ∧
        (s.brd.feedB.present = false → booting s = true → feedPair s va vb at_ = haltBoot t false)) ∧
      (¬ lost s.brd.feedA va → lost s.brd.feedB vb →
        let t := bump0 (put a { b with present := false }) .brdFeedLossB
        (s.brd.feedA.present = true → feedPair s va vb at_ = faultRec t { agent := brdAgent, cause := 0x50, cls := clsAlarm }) ∧
        (s.brd.feedA.present = false → booting s = false → feedPair s va vb at_ = chipStopBy t brdAgent 0x51)) ∧
      (lost s.brd.feedA va → lost s.brd.feedB vb →
        let t := bump0 (bump0 (put { a with present := false } { b with present := false }) .brdFeedLossA) .brdFeedLossB
        (booting s = false → feedPair s va vb at_ = chipStopBy t brdAgent 0x51) ∧
        (booting s = true → feedPair s va vb at_ = haltBoot t false))) ∧
    (∀ (s : State) (isB : Bool),
      let f := if isB = true then s.brd.feedB else s.brd.feedA
      (f.okSince = none ∨ f.present = true ∨ f.on = false → exec (.feedReturn isB) s = .next s) ∧
      (∀ x, f.okSince = some x → f.present = false → f.on = true → ∃ t, exec (.feedReturn isB) s = .next t ∧ t.now = max s.now (x + 1000000) ∧
        (if isB = true then t.brd.feedB else t.brd.feedA) = { f with present := true, lowRun := 0 } ∧
        (if isB = true then t.brd.feedA = s.brd.feedA else t.brd.feedB = s.brd.feedB) ∧ t.boot = { s.boot with haltFeeds := false })) ∧
    (∀ (s : State) (src : MgmtSource) (v : BitVec 32), scopeOf s src = none → srcOpen s src = true → s.boot.step ≠ 15 →
      let offA := v.getLsbD 0
      let offB := v.getLsbD 1
      let put (f : Feed) (off : Bool) : Feed := if off = true then { f with on := false, present := false, lowRun := 0 } else { f with on := true }
      ((s.brd.feedA.present = true ∧ offA = false) ∨ (s.brd.feedB.present = true ∧ offB = false) → exec (.feedOffWrite src v) s =
        .next (brdMod (regSet s brdAgent 0x104 (v &&& 3)) (fun b => { b with feedA := put b.feedA offA, feedB := put b.feedB offB }))) ∧
      (¬ ((s.brd.feedA.present = true ∧ offA = false) ∨ (s.brd.feedB.present = true ∧ offB = false)) →
        exec (.feedOffWrite src v) s = .next (bump0 s .brdFeedRefused))))

/-- R449, R492 to R495: readings of temperatures. The second reading in a row of a die sensor above TRIP_DIE is a thermal trip, a
chip stop of code 52h with every fan at 100 %; a module is UNKNOWN from its third failed poll to its first complete one; its
second poll in a row above TRIP_MOD is a thermal trip. R453, R496, R497: every 100 ms the fans take the duty of R496, which rises
from DUTY_MIN at T_LO to 100 at T_HI by the ceiling of the line between, or 100 where R496 asks for all; every second the
tachometers decide which enabled fans are LOW, by two seconds on one side of MIN_RPM. -/
def Obligations.TemperaturesAndFans : Prop :=
  (
    (∀ (s : State) (temps : List (BitVec 11)),
      let die := (upto 32).map (fun k => ((temps[k]?).getD 0).toNat)
      let u := brdMod (periodic s 3 10000) (fun b => { b with die := die })
      let hotNow : Prop := ∃ k, k < 32 ∧ regField s brdAgent 0x118 8 8 * 8 < ((temps[k]?).getD 0).toNat
      let full (t : State) : State := brdMod t (fun b => { b with fans := b.fans.map (fun f => { f with duty := 100 }) })
      (¬ hotNow → exec (.dieTempRead temps) s = .next (bootMod (brdMod u (fun b => { b with dieOver := 0 })) (fun b => { b with haltHeat := false }))) ∧
      (hotNow → s.brd.dieOver = 0 → exec (.dieTempRead temps) s = .next (brdMod u (fun b => { b with dieOver := 1 }))) ∧
      (hotNow → 1 ≤ s.brd.dieOver → s.brd.tripped = false →
        let t := full (brdMod u (fun b => { b with dieOver := b.dieOver + 1, tripped := true }))
        (booting s = false → exec (.dieTempRead temps) s = .next (chipStopBy t brdAgent 0x52)) ∧
        (booting s = true → exec (.dieTempRead temps) s = .next (haltBoot t true)))) ∧
    (∀ (s : State) (reads : List (Option (BitVec 12 × BitVec 16))),
      let u := (List.range 32).foldl (fun x k => modulePolled x k ((reads[k]?).getD none)) (periodic s 9 8000000)
      let ms : List Module := (u.brd.mods.filter (·.2.present)).map (·.2)
      let v := fanForce (dmcMod u (fun d => { d with
        hotNext := d.hotNext || ms.any (fun m => m.unknown || decide ((340 : Int) < m.temp))
        coolSince := if ms.all (fun m => !m.unknown && decide (m.temp ≤ (328 : Int))) = true then some (d.coolSince.getD u.now) else none }))
      ((∀ m ∈ ms, m.excess < 2) → exec (.modulePoll reads) s = .next v) ∧
      ((∃ m ∈ ms, 2 ≤ m.excess) → exec (.modulePoll reads) s = .next (thermalTrip v))) ∧
    (∀ (s : State) (k : Nat) (t : BitVec 12) (p : BitVec 16),
      let m := tget {} s.brd.mods k
      let trip : Int := ((regField s brdAgent 0x118 16 8 * 4 : Nat) : Int)
      (m.present = false → ∀ r, modulePolled s k r = s) ∧
      (m.present = true →
        let u := modulePolled s k (some (t, p))
        tget {} u.brd.mods k = { m with temp := t.toInt, power := p.toNat, fails := 0, unknown := false, excess := if trip < t.toInt then m.excess + 1 else 0 } ∧
        (∀ j, j ≠ k → tget {} u.brd.mods j = tget {} s.brd.mods j) ∧ u = { s with brd := { s.brd with mods := u.brd.mods } } ∧
        (let w := modulePolled s k none
         tget {} w.brd.mods k = { m with fails := m.fails + 1, unknown := m.unknown || decide (3 ≤ m.fails + 1), excess := 0 } ∧
         (∀ j, j ≠ k → tget {} w.brd.mods j = tget {} s.brd.mods j) ∧
         w = bump0 { s with brd := { s.brd with mods := w.brd.mods } } .brdI3cFail)))) ∧
  (
    (∀ s : State, ∃ t, exec .fanUpdate s = .next t ∧ t.brd.fans.length = 8 ∧ t = { periodic s 4 100000000 with brd := { s.brd with fans := t.brd.fans } } ∧
      (let u := periodic s 4 100000000
       ∀ n, n < 8 → ∃ f, t.brd.fans[n]? = some f ∧ f = { (s.brd.fans[n]?).getD {} with duty := f.duty } ∧
        (f.duty = if fansFull t = true ∨ regField s brdAgent (0x510 + 4 * n) 0 1 = 0 then 100 else fanDuty s (fanTemp s)) ∧ u.csr = s.csr)) ∧
    (∀ s : State, ((hottest s : Int) * 5 - 800 ≤ fanTemp s) ∧ (∀ x, hottestModule s = some x → x * 10 ≤ fanTemp s) ∧
      (∀ k, k < 8 → (regField s brdAgent 0x500 24 8).testBit k = true → ainValue s (16 + k) * 4 ≤ fanTemp s) ∧
      (fanTemp s = (hottest s : Int) * 5 - 800 ∨ (∃ x, hottestModule s = some x ∧ fanTemp s = x * 10) ∨
        (∃ k, k < 8 ∧ (regField s brdAgent 0x500 24 8).testBit k = true ∧ fanTemp s = ainValue s (16 + k) * 4))) ∧
    (∀ (s : State) (t : Int),
      let least := regField s brdAgent 0x500 0 7
      let lo : Int := (regField s brdAgent 0x500 8 7 : Nat) * 40
      let hi : Int := (regField s brdAgent 0x500 16 7 : Nat) * 40
      (t ≤ lo → fanDuty s t = least) ∧ (lo < t → hi ≤ t → fanDuty s t = 100) ∧
      (lo < t → t < hi → least ≤ 100 → least ≤ fanDuty s t ∧ fanDuty s t ≤ 100 ∧
        ((100 - least : Nat) : Int) * (t - lo) ≤ ((fanDuty s t - least : Nat) : Int) * (hi - lo) ∧
        (((fanDuty s t - least : Nat) : Int) - 1) * (hi - lo) < ((100 - least : Nat) : Int) * (t - lo))) ∧
    (∀ (s : State) (pulses : List (BitVec 32)),
      let one (x : State) (n : Nat) : State :=
        let rpm := ((pulses[n]?).getD 0).toNat * 60 / (regField x brdAgent (0x510 + 4 * n) 1 2 + 1)
        let f := (x.brd.fans[n]?).getD {}
        let min_ := regField x brdAgent (0x510 + 4 * n) 16 16
        let put (g : Fan) : State := brdMod x (fun b => { b with fans := lset b.fans n g })
        if regField x brdAgent (0x510 + 4 * n) 0 1 ≠ 1 then x
        else if rpm < min_ then
          (let g : Fan := { f with rpm := min 0xFFFF rpm, below := f.below + 1, above := 0, low := f.low || decide (1 ≤ f.below) }
           if f.low = false ∧ 1 ≤ f.below then bump0 (put g) .brdFanLow else put g)
        else put { f with rpm := min 0xFFFF rpm, below := 0, above := f.above + 1, low := f.low && decide (f.above = 0) }
      exec (.fanTachCount pulses) s = .next (fanForce ((List.range 8).foldl one (periodic s 5 1000000000)))))

/-- R498, R499: a clock decision. It is skipped in a step, in a restart of the service complex and before boot step 5. Otherwise
the target is that of R498: the power rule may lower it by several units, the thermal rule by one at least, it rises by one unit
only after HOLD quiet decisions and where neither rule acts, and it stays between FMIN and the maximum. A target other than the
present frequency starts a step. R304, R499, R504: at relock a step ends, the grid runs at the target, STEPS and the CLK_STEPS of
every RUNNING session count it; a PLL that loses lock outside a step is counted, and its bit of CRG_PLL_STATUS follows. -/
def Obligations.ClockDecisionsAndSteps : Prop :=
  (
    ∀ s : State,
      let u := periodic s 6 1000000
      (s.crg.stepping = true ∨ s.svc.restarting = true ∨ s.boot.step < 5 ∨ s.boot.step = 15 → exec .capDecision s = .next u) ∧
      (s.crg.stepping = false → s.svc.restarting = false → 5 ≤ s.boot.step → s.boot.step ≠ 15 → ∃ t, exec .capDecision s = .next t ∧
        (let f : Int := (gridFreq s : Int)
         let limit : Int := (regField s brdAgent 0x110 0 12 : Nat) * 10
         let stepW : Int := (regField s brdAgent 0x110 12 6 : Nat) * 10
         let hyst : Int := (regField s brdAgent 0x110 18 6 : Nat) * 10
         let hold := regField s brdAgent 0x110 24 8
         let fmin : Int := (regField s brdAgent 0x114 8 5 : Nat)
         let fmax : Int := ((min gradeMax (regField s brdAgent 0x114 16 5) : Nat) : Int)
         let heat := regField s brdAgent 0x118 0 8 * 8
         let n : Int := (powerSum s).2
         let p := (powerSum s).1
         let rested : Prop := ∀ x, s.brd.stepAt = some x → x + regField s brdAgent 0x114 0 6 * 1000000 ≤ u.now
         let power : Prop := 0 < limit ∧ limit * n < p ∧ rested
         let hot : Prop := heat < hottest s
         let calm : Prop := (limit = 0 ∨ p ≤ (limit - hyst) * n) ∧ hottest s + 24 ≤ heat
         let quiet := if calm then s.brd.quiet + 1 else 0
         ∃ g : Int, -- the target before its bounds
          (¬ power → ¬ hot → (g = f ∨ g = fmax ∨ g = f + 1)) ∧
          (∀ d : Nat, power → ¬ hot → f ≤ fmax → 0 < stepW → ((d : Int) - 1) * (stepW * n) < p - limit * n → p - limit * n ≤ (d : Int) * (stepW * n) → g = f - d) ∧
          (hot → g ≤ f - 1) ∧ (¬ power → hot → f ≤ fmax + 1 → g = f - 1) ∧
          (g = f + 1 → ¬ hot ∧ hold ≤ quiet ∧ f < fmax) ∧
          (¬ power → ¬ hot → f < fmax → hold ≤ quiet → g = f + 1) ∧ (¬ power → ¬ hot → f ≤ fmax → quiet < hold → g = f) ∧ (fmax < f → g ≤ fmax) ∧ g ≤ f + 1 ∧
          t.brd.throttling = decide hot ∧ t.brd.capFloor = decide (g < fmin) ∧
          (max g fmin = f → t.crg = s.crg ∧ t.brd.quiet = quiet ∧ t.brd.stepAt = s.brd.stepAt) ∧
          (max g fmin ≠ f → t.crg = { s.crg with target := some (max g fmin).toNat, stepping := true, lock := s.crg.lock &&& 0xF9 } ∧
            t.brd.quiet = 0 ∧ t.brd.stepAt = some u.now)))) ∧
  (
    (∀ s : State, (s.crg.stepping = false → exec .clockStepRelock s = .next s) ∧
      (s.crg.stepping = true → ∀ dest, s.crg.target = some dest → ∃ t, exec .clockStepRelock s = .next t ∧
        t.crg = { s.crg with freq := some dest, steps := min 0xFFFF (s.crg.steps + 1), stepping := false, lock := s.crg.lock ||| 6 } ∧
        (dest < gridFreq s → t.cnt = (bump0 s .brdStepDown).cnt) ∧ (gridFreq s ≤ dest → t.cnt = (bump0 s .brdStepUp).cnt) ∧
        (∀ n x, (n, x) ∈ s.grd.sess → (n, if x.state = .running then { x with clkSteps := min 0xFF (x.clkSteps + 1) } else x) ∈ t.grd.sess) ∧
        t.grd.sess.map (·.1) = s.grd.sess.map (·.1) ∧ t = { s with crg := t.crg, cnt := t.cnt, grd := { s.grd with sess := t.grd.sess } })) ∧
    (∀ (s : State) (p : Fin 8),
      (s.crg.lock.getLsbD p.val = false → exec (.pllUnlock p) s = .next s) ∧
      (s.crg.lock.getLsbD p.val = true → ∃ t, exec (.pllUnlock p) s = .next t ∧ t = bump0 { s with crg := { s.crg with lock := t.crg.lock } } .crgUnlock ∧
        ∀ k, k < 8 → t.crg.lock.getLsbD k = (s.crg.lock.getLsbD k && decide (k ≠ p.val))) ∧
      (s.crg.stepping = true ∧ (p.val = 1 ∨ p.val = 2) → exec (.pllRelock p) s = .next s) ∧
      (¬ (s.crg.stepping = true ∧ (p.val = 1 ∨ p.val = 2)) → ∃ t, exec (.pllRelock p) s = .next t ∧ t = { s with crg := { s.crg with lock := t.crg.lock } } ∧
        ∀ k, k < 8 → t.crg.lock.getLsbD k = (s.crg.lock.getLsbD k || decide (k = p.val)))))

/-! ## The machine as a whole -/

/-- The block takes the command at the front of its queue and runs it with the queue's rest; with none waiting a nanosecond of
its clocks passes (the model's choice, log 1). -/
def Obligations.StepRunsFront : Prop :=
  (∀ (c : Instr) (rest : List Instr) (s : State), s.pending = c :: rest → step s = exec c { s with pending := rest }) ∧
  (∀ s : State, s.pending = [] → step s = .next (tick s))

/-- No command and no tick ends in a fault or a refusal: in every state each answers a next one. -/
def Obligations.EveryCommandAnswers : Prop :=
  (∀ (c : Instr) (s : State), ∃ t, exec c s = .next t) ∧ (∀ s : State, ∃ t, step s = .next t)

/-- R10, R50, R199, R202, R448, R470, R501: what reset leaves. No command waits, the chip is at boot step 1 and neither serves
nor is locked; the service pitch alone exists, is UP and reads so in SVC_PITCH_STATE_0; slots 000h and 100h are SYSTEM and the
others FREE; every measurement register and every counter is zero, registers read their reset values, and the state is sound.
(Memory that nothing has written reads zero by log 3.) -/
def Obligations.ResetState : Prop :=
  let s := State.reset
  s.pending = [] ∧ s.boot.step = 1 ∧ s.boot.serving = false ∧ s.boot.locked = false ∧ tablesOk s = true ∧ bootLegal s = true ∧
  (∀ n, n < 256 → pitchStateWord s n = if n = 0 then 0x222 else 0) ∧
  (∀ k, (slotGet s k).state = if k = 0 ∨ k = 256 then .system else .free) ∧
  (∀ n, mrGet s n = 0) ∧ (∀ c i k, cntGet s c i k = 0) ∧ (∀ c i k n, cntGetP s c i k n = 0) ∧ (∀ a, memByte s a = 0) ∧
  (∀ a o, regGet s a o = regReset (regAddr a o)) ∧ regGet s brdAgent 0x100 = 0xC350B798 ∧ regGet s brdAgent 0x118 = 0x005F7064 ∧ gridFreq s = Config.grade.toNat

/-- An invariant every step keeps: memory, line metadata, stored registers and partners stay in their form, and BOOT_STATUS says
something that R448, R450 and R455 allow. -/
def Obligations.SoundStatesStaySound : Prop :=
  ∀ s t : State, tablesOk s = true → bootLegal s = true → step s = .next t → tablesOk t = true ∧ bootLegal t = true

/-- R450: from the configuration lock until a reset, no command and no tick changes an RWL bit, MR0 to MR4, the pitch templates,
the partner table or anything else that the image gave. -/
def Obligations.ConfigurationLockHolds : Prop :=
  ∀ s t : State, tablesOk s = true → bootLegal s = true → s.boot.locked = true → step s = .next t → t.boot.locked = true → sameLocked s t

/-- The security version fuses never fall, whatever is commanded, resets and power-downs among it. -/
def Obligations.SvnNeverFalls : Prop :=
  ∀ s t : State, bootLegal s = true → step s = .next t → s.boot.svn ≤ t.boot.svn

/-! ## Rules in their own words -/

/-- R5: a unit's intent is OFF (0h), UP (2h) or RETIRED (5h); a write of another value leaves every intent as it is and adds one
to the agent's refused-write counter. -/
def Obligations.IntentValues : Prop :=
  (∀ i : Intent, intCode i = 0 ∨ intCode i = 2 ∨ intCode i = 5) ∧ intCode .off = 0 ∧ intCode .up = 2 ∧ intCode .retired = 5 ∧
  (∀ (s : State) (src : MgmtSource) (agent : BitVec 16) (unit : BitVec 9) (value : BitVec 4), srcOpen s src = true → scopeOf s src = none → s.boot.step ≠ 15 →
    agentOk agent.toNat = true → value ≠ 0 → value ≠ 2 → value ≠ 5 →
    ∃ t, exec (.agtIntentWrite src agent unit value) s = .next t ∧ t.units = s.units ∧ t = { s with flt := { s.flt with refused := t.flt.refused } } ∧
      tget 0 t.flt.refused agent.toNat = min 0xFFFF (tget 0 s.flt.refused agent.toNat + 1) ∧
      ∀ a, a ≠ agent.toNat → tget 0 t.flt.refused a = tget 0 s.flt.refused a)

/-- R405: when a bank of the routing tables is valid. Router n of the 8 by 6 mesh is at column n mod 8 and row n / 8, and the
outputs lead to +x, −x, +y and −y. -/
def Obligations.RoutingBankValid : Prop :=
  ∀ (s : State) (bank : Nat),
    let x (n : Nat) : Int := (n % 8 : Nat)
    let y (n : Nat) : Int := (n / 8 : Nat)
    let dist (a b : Nat) : Nat := (x a - x b).natAbs + (y a - y b).natAbs
    let leads (n dir m : Nat) : Prop := m < 48 ∧ ((dir = 0 ∧ x m = x n + 1 ∧ y m = y n) ∨ (dir = 1 ∧ x m = x n - 1 ∧ y m = y n) ∨
      (dir = 2 ∧ x m = x n ∧ y m = y n + 1) ∨ (dir = 3 ∧ x m = x n ∧ y m = y n - 1))
    bankOk s bank = true ↔ ∀ n plane d, n < 48 → plane < 4 → d < 48 →
      let e := rtGet s n bank plane d
      (e.getLsbD 5 = true ↔ d = n) ∧
      (d ≠ n → (∃ m, leads n (bitsOf e 0 2) m ∧ dist m d < dist n d) ∧
        (e.getLsbD 4 = true → ∃ m, leads n (bitsOf e 2 2) m ∧ dist m d < dist n d))

/-- R475: what a check-value unit computes. CRC-32C and CRC-32 are the division by the polynomial, most significant bit first, of
the bytes with their bits reversed, the remainder reversed in turn and inverted; CRC-8 reverses and inverts nothing. The values
over "123456789" are those of the table. -/
def Obligations.CheckValueComputations : Prop :=
  let divide {w : Nat} (poly : BitVec w) (c : BitVec w) (b : BitVec w) : BitVec w :=
    (List.range 8).foldl (fun a _ => if a.msb = true then (a <<< 1) ^^^ poly else a <<< 1) (c ^^^ b)
  let top (b : Byte) : BitVec 32 := b.reverse.zeroExtend 32 <<< 24
  let value (poly : BitVec 2) (bs : List Byte) : BitVec 32 := cvuResult poly (bs.foldl (cvuFeed poly) (cvuInitial poly))
  let digits : List Byte := [0x31, 0x32, 0x33, 0x34, 0x35, 0x36, 0x37, 0x38, 0x39]
  (∀ bs, value 0 bs = (bs.foldl (fun c b => divide 0x1EDC6F41 c (top b)) 0xFFFFFFFF).reverse ^^^ 0xFFFFFFFF) ∧
  (∀ bs, value 1 bs = (bs.foldl (fun c b => divide 0x04C11DB7 c (top b)) 0xFFFFFFFF).reverse ^^^ 0xFFFFFFFF) ∧
  (∀ bs, value 2 bs = (bs.foldl (fun c b => divide (0x07 : Byte) c b) 0).zeroExtend 32) ∧
  value 0 digits = 0xE3069283 ∧ value 1 digits = 0xCBF43926 ∧ value 2 digits = 0xF4

/-- R462: instance 3Fh of a block. Of a block with several instances a write reaches each in ascending order and a read gives
that of instance 0; of a block with one it holds no register; an entry whose address holds no register answers with ENTRY_STATUS
0Ah (its VALUE is free). -/
def Obligations.BroadcastInstance : Prop :=
  (∀ (s : State) (src : MgmtSource) (agent off : Nat) (v : Word), off < 65536 → agentInst agent = 63 →
    let n := blockCount (agentDomain agent) (agentBlock agent)
    let addr (i : Nat) : Nat := (agent - 63 + i) * 65536 + off
    (1 < n → regRead s src (agent * 65536 + off) = regRead s src (addr 0) ∧
      (regWrite s src (agent * 65536 + off) v).1 = (List.range n).foldl (fun x i => agentWrite x src (agent - 63 + i) off v) (captureEnd s src) ∧
      ∀ i, i < n → (regWrite s src (addr i) v).1 = agentWrite (captureEnd s src) src (agent - 63 + i) off v) ∧
    (n ≤ 1 → (regRead s src (agent * 65536 + off)).2 = none ∧ regWrite s src (agent * 65536 + off) v = (captureEnd s src, none))) ∧
  (∀ (s : State) (src : MgmtSource) (p : List Byte) (u : State), byteAt p 0 = 1 ∨ byteAt p 0 = 2 →
    (byteAt p 0 = 1 → regRead s src (beAt p 4 4) = (u, none)) → (byteAt p 0 = 2 → regWrite s src (beAt p 4 4) (BitVec.ofNat 32 (beAt p 8 4)) = (u, none)) →
    ∃ v : BitVec 512, entryAccess s src (fun _ => true) p = ({ u with freeCtr := u.freeCtr + 1 }, beBytes 4 v.toNat ++ [0x0A, 0, 0, 0]))
end

