-- ==== Sys2Proof/Laws/Tab.lean ====
section
/-! SUPPORT. Laws of the two shapes of table: what a read sees after a write, and that a write keeps the canonical form. -/
namespace Sys2Proof.Machine

/-- Every key of a table lies above a bound. -/
def tabove {α : Type} (b : Nat) (t : Tab α) : Prop := ∀ e ∈ t, b < e.1

@[simp] theorem tsorted_nil {α : Type} : tsorted ([] : Tab α) = true := rfl

theorem tsorted_cons {α : Type} (k : Nat) (w : α) (t : Tab α) :
    tsorted ((k, w) :: t) = true ↔ tabove k t ∧ tsorted t = true := by
  induction t generalizing k w with
  | nil => simp [tsorted, tabove]
  | cons e t ih =>
    obtain ⟨k', w'⟩ := e
    rw [tsorted, Bool.and_eq_true, decide_eq_true_iff, ih]
    constructor
    · rintro ⟨h, ha, hs⟩
      refine ⟨?_, ha, hs⟩
      intro e he
      rcases List.mem_cons.1 he with rfl | he
      · exact h
      · exact lt_trans h (ha e he)
    · rintro ⟨h, ha, hs⟩
      exact ⟨h _ (List.mem_cons_self ..), ha, hs⟩

theorem mem_tins {α : Type} {v : α} {t : Tab α} {a : Nat} {e : Nat × α} (h : e ∈ tins t a v) : e ∈ t ∨ e = (a, v) := by
  induction t with
  | nil => simp_all [tins]
  | cons p t ih =>
    obtain ⟨k, w⟩ := p
    unfold tins at h
    split at h
    · simp_all; tauto
    · split at h
      · simp_all; tauto
      · rcases List.mem_cons.1 h with rfl | h
        · simp
        · rcases ih h with h | h
          · exact .inl (List.mem_cons_of_mem _ h)
          · exact .inr h

theorem mem_tdel {α : Type} {t : Tab α} {a : Nat} {e : Nat × α} (h : e ∈ tdel t a) : e ∈ t := List.mem_of_mem_filter h

theorem mem_tset {α : Type} [DecidableEq α] {d v : α} {t : Tab α} {a : Nat} {e : Nat × α} (h : e ∈ tset d t a v) :
    e ∈ t ∨ (e = (a, v) ∧ v ≠ d) := by
  unfold tset at h
  split at h
  · exact .inl (mem_tdel h)
  · exact (mem_tins h).imp id (fun e => ⟨e, ‹_›⟩)

theorem tins_sorted {α : Type} (v : α) (t : Tab α) (a : Nat) (h : tsorted t = true) : tsorted (tins t a v) = true := by
  induction t with
  | nil => rfl
  | cons p t ih =>
    obtain ⟨k, w⟩ := p
    obtain ⟨ha, hs⟩ := (tsorted_cons k w t).1 h
    unfold tins
    split
    · refine (tsorted_cons a v _).2 ⟨?_, h⟩
      intro e he
      rcases List.mem_cons.1 he with rfl | he
      · assumption
      · exact lt_trans ‹a < k› (ha e he)
    · split
      · subst k
        exact (tsorted_cons _ _ _).2 ⟨ha, hs⟩
      · refine (tsorted_cons k w _).2 ⟨?_, ih hs⟩
        intro e he
        rcases mem_tins he with he | rfl
        · exact ha e he
        · show k < a
          omega

theorem tsorted_sublist {α : Type} {t u : Tab α} (hu : u.Sublist t) (h : tsorted t = true) : tsorted u = true := by
  induction hu with
  | slnil => rfl
  | cons p _ ih =>
    obtain ⟨k, w⟩ := p
    exact ih ((tsorted_cons k w _).1 h).2
  | cons_cons p hs ih =>
    obtain ⟨k, w⟩ := p
    obtain ⟨ha, hs'⟩ := (tsorted_cons k w _).1 h
    exact (tsorted_cons k w _).2 ⟨fun e he => ha e (hs.subset he), ih hs'⟩

theorem tdel_sorted {α : Type} (t : Tab α) (a : Nat) (h : tsorted t = true) : tsorted (tdel t a) = true :=
  tsorted_sublist List.filter_sublist h

theorem tset_sorted {α : Type} [DecidableEq α] (d v : α) (t : Tab α) (a : Nat) (h : tsorted t = true) :
    tsorted (tset d t a v) = true := by
  unfold tset
  split
  · exact tdel_sorted t a h
  · exact tins_sorted v t a h

theorem tset_canon {α : Type} [DecidableEq α] (d v : α) (t : Tab α) (a : Nat) (h : tcanon d t = true) :
    tcanon d (tset d t a v) = true := by
  simp only [tcanon, Bool.and_eq_true, List.all_eq_true, decide_eq_true_iff] at h ⊢
  refine ⟨tset_sorted d v t a h.1, ?_⟩
  intro e he
  rcases mem_tset he with he | ⟨rfl, hv⟩
  · exact h.2 e he
  · exact hv

theorem tcanon_filter {α : Type} [DecidableEq α] (d : α) (p : Nat × α → Bool) (t : Tab α) (h : tcanon d t = true) :
    tcanon d (t.filter p) = true := by
  simp only [tcanon, Bool.and_eq_true, List.all_eq_true, decide_eq_true_iff] at h ⊢
  exact ⟨tsorted_sublist List.filter_sublist h.1, fun e he => h.2 e (List.mem_of_mem_filter he)⟩

/-! ## What a read sees -/

theorem tget_of_tabove {α : Type} (d : α) (t : Tab α) (a : Nat) (h : ∀ e ∈ t, a ≠ e.1) : tget d t a = d := by
  induction t with
  | nil => rfl
  | cons p t ih =>
    obtain ⟨k, w⟩ := p
    have hk : k ≠ a := fun e => h (k, w) (List.mem_cons_self ..) e.symm
    rw [tget, if_neg hk]
    exact ih (fun e he => h e (List.mem_cons_of_mem _ he))

theorem tget_eq_tfind {α : Type} (d : α) (t : Tab α) (a : Nat) : tget d t a = (tfind t a).getD d := by
  induction t with
  | nil => rfl
  | cons p t ih =>
    obtain ⟨k, w⟩ := p
    rw [tget, tfind]
    split
    · rfl
    · exact ih

theorem tfind_tins_self {α : Type} (v : α) (t : Tab α) (a : Nat) : tfind (tins t a v) a = some v := by
  induction t with
  | nil => simp [tins, tfind]
  | cons p t ih =>
    obtain ⟨k, w⟩ := p
    unfold tins
    split
    · simp [tfind]
    · split
      · simp [tfind]
      · rw [tfind, if_neg (fun e => ‹¬a = k› e.symm), ih]

theorem tfind_tins_other {α : Type} (v : α) (t : Tab α) (a b : Nat) (hb : b ≠ a) : tfind (tins t a v) b = tfind t b := by
  induction t with
  | nil => simp [tins, tfind, Ne.symm hb]
  | cons p t ih =>
    obtain ⟨k, w⟩ := p
    unfold tins
    split
    · rw [tfind, if_neg (Ne.symm hb)]
    · split
      · subst k
        rw [tfind, if_neg (Ne.symm hb), tfind, if_neg (Ne.symm hb)]
      · rw [tfind, tfind, ih]

theorem tfind_none {α : Type} (t : Tab α) (a : Nat) (h : ∀ e ∈ t, a ≠ e.1) : tfind t a = none := by
  induction t with
  | nil => rfl
  | cons p t ih =>
    obtain ⟨k, w⟩ := p
    rw [tfind, if_neg (fun e => h (k, w) (List.mem_cons_self ..) e.symm)]
    exact ih (fun e he => h e (List.mem_cons_of_mem _ he))

theorem tfind_tdel_self {α : Type} (t : Tab α) (a : Nat) : tfind (tdel t a) a = none :=
  tfind_none _ a (fun e he h => by have := (List.mem_filter.1 he).2; simp only [decide_eq_true_eq] at this; exact this h.symm)

theorem tfind_tdel_other {α : Type} (t : Tab α) (a b : Nat) (hb : b ≠ a) : tfind (tdel t a) b = tfind t b := by
  induction t with
  | nil => rfl
  | cons p t ih =>
    obtain ⟨k, w⟩ := p
    unfold tdel at ih ⊢
    rw [List.filter_cons]
    split
    · rw [tfind, tfind, ih]
    · rename_i hk
      have : k = a := by simpa using hk
      rw [ih, tfind, if_neg (fun e => hb (e.symm.trans this))]

/-- A read sees what the last write of its key put there, whatever the table. -/
@[simp] theorem tget_tset_self {α : Type} [DecidableEq α] (d v : α) (t : Tab α) (a : Nat) : tget d (tset d t a v) a = v := by
  rw [tget_eq_tfind]
  unfold tset
  split
  · rw [tfind_tdel_self]; exact (Eq.symm ‹_›)
  · rw [tfind_tins_self]; rfl

/-- A write leaves every other key alone. -/
theorem tget_tset_other {α : Type} [DecidableEq α] (d v : α) (t : Tab α) (a b : Nat) (hb : b ≠ a) :
    tget d (tset d t a v) b = tget d t b := by
  rw [tget_eq_tfind, tget_eq_tfind]
  unfold tset
  split
  · rw [tfind_tdel_other t a b hb]
  · rw [tfind_tins_other v t a b hb]

theorem aget_aput_self {κ α : Type} [DecidableEq κ] (m : AMap κ α) (a : κ) (v : α) : aget (aput m a v) a = some v := by
  induction m with
  | nil => simp [aput, aget]
  | cons p t ih =>
    obtain ⟨k, w⟩ := p
    unfold aput
    split
    · simp [aget, *]
    · rw [aget, if_neg ‹_›, ih]

theorem aget_aput_other {κ α : Type} [DecidableEq κ] (m : AMap κ α) (a b : κ) (v : α) (hb : b ≠ a) :
    aget (aput m a v) b = aget m b := by
  induction m with
  | nil => simp [aput, aget, Ne.symm hb]
  | cons p t ih =>
    obtain ⟨k, w⟩ := p
    unfold aput
    split
    · subst k
      rw [aget, if_neg (Ne.symm hb), aget, if_neg (Ne.symm hb)]
    · rw [aget, aget, ih]

theorem take_lset {α : Type} (l : List α) (i n : Nat) (v : α) (h : n ≤ i) : (lset l i v).take n = l.take n := by
  induction l generalizing i n with
  | nil => rfl
  | cons a t ih =>
    cases n with
    | zero => simp
    | succ n =>
      cases i with
      | zero => omega
      | succ i => simp [lset, ih i n (by omega)]

end Sys2Proof.Machine
end

