-- ==== Sys2Proof/Laws/Orderly.lean ====
section
/-! SUPPORT. `Orderly s t`: everything that holds between the states before and after any change but a reset, an entry of ROM
recovery and a step of the boot sequence. Said once; the lemmas of Laws/Orderly*.lean say it of every operation. -/
namespace Sys2Proof.Machine

structure Orderly (s t : State) : Prop where
  step : t.boot.step = s.boot.step
  serving : t.boot.serving = s.boot.serving
  locked : t.boot.locked = s.boot.locked
  svn : s.boot.svn ≤ t.boot.svn
  now : s.now ≤ t.now
  templates : t.templates = s.templates
  img : t.img = s.img
  mr : t.fum.mr.take 5 = s.fum.mr.take 5
  tables : tablesOk s = true → tablesOk t = true
  partners : tablesOk s = true → ∀ k, partnerEntry t k = partnerEntry s k
  bits : tablesOk s = true → s.boot.locked = true → ∀ agent off, lockedBits t agent off = lockedBits s agent off

theorem Orderly.refl (s : State) : Orderly s s :=
  ⟨rfl, rfl, rfl, Nat.le_refl _, Nat.le_refl _, rfl, rfl, rfl, id, fun _ _ => rfl, fun _ _ _ _ => rfl⟩

theorem Orderly.trans {s t u : State} (h : Orderly s t) (g : Orderly t u) : Orderly s u where
  step := g.step.trans h.step
  serving := g.serving.trans h.serving
  locked := g.locked.trans h.locked
  svn := Nat.le_trans h.svn g.svn
  now := Nat.le_trans h.now g.now
  templates := g.templates.trans h.templates
  img := g.img.trans h.img
  mr := g.mr.trans h.mr
  tables hs := g.tables (h.tables hs)
  partners hs k := (g.partners (h.tables hs) k).trans (h.partners hs k)
  bits hs hl agent off := (g.bits (h.tables hs) (h.locked.trans hl) agent off).trans (h.bits hs hl agent off)

/-- A change that leaves alone every field `Orderly` speaks of, or lets time pass. -/
theorem Orderly.of_same {s0 s t : State} (h : Orderly s0 s) (hb : t.boot = s.boot) (ht : t.templates = s.templates)
    (hi : t.img = s.img) (hm : t.fum.mr = s.fum.mr) (hp : t.mir.peers = s.mir.peers) (hc : t.csr = s.csr)
    (hd : t.dmc.mem = s.dmc.mem) (he : t.dmc.meta_ = s.dmc.meta_) (hn : s.now ≤ t.now) : Orderly s0 t :=
  h.trans
    { step := by rw [hb], serving := by rw [hb], locked := by rw [hb], svn := by rw [hb], now := hn, templates := ht, img := hi,
      mr := by rw [hm]
      tables := by unfold tablesOk; rw [hd, he, hc, hp]; exact id
      partners := by intro _ k; unfold partnerEntry peerGet; rw [hp]
      bits := by intro _ _ agent off; unfold lockedBits regGet; rw [hc] }

/-- A change of the fields that `Orderly` does not speak of, written as a record. -/
theorem orderly_mk {s0 s : State}
    (pending_ : List Instr) (now_ : Nat) (cd10Sec_ : BitVec 48) (cd10Ns_ : Nat) (cd10Frac_ : BitVec 16) (ticks_ : Tab Nat) (freeCtr_ : Nat) (wire_ :
    List WireItem) (units_ : Tab UnitSt) (cnt_ : AMap (Cnt × Nat × Nat) DWord) (cntPitch_ : AMap (Cnt × Nat × Nat × Nat)
    DWord) (sel_ : AMap (MgmtSource × Nat) Word) (cntCap_ : AMap MgmtSource DWord) (pitches_ : Tab PitchSt) (sweeping_ : List
    Nat) (tpt_ : Tpt) (act_ : Act) (tmg_ : Tmg) (prt_ : Tab Prt) (klr_ : Tab Klr) (ptp_ : Ptp) (dmc_ : Dmc) (fum_ : Fum)
    (swn_ : Swn) (clx_ : Clx) (grd_ : Grd) (mir_ : Mir) (flt_ : Flt) (svc_ : Svc) (cvus_ : List Cvu) (dbg_ : Dbg) (fab_ :
    Fab) (brd_ : Brd) (crg_ : Crg)
    (h : Orderly s0 s) (hn : s.now ≤ now_) (hm : fum_.mr = s.fum.mr) (hp : mir_.peers = s.mir.peers)
    (hd : dmc_.mem = s.dmc.mem) (he : dmc_.meta_ = s.dmc.meta_) :
    Orderly s0 (State.mk
      pending_ now_ cd10Sec_ cd10Ns_ cd10Frac_ ticks_ freeCtr_ wire_ units_ cnt_ cntPitch_ s.csr sel_ cntCap_ pitches_
      s.templates sweeping_ tpt_ act_ tmg_ prt_ klr_ ptp_ dmc_ fum_ swn_ clx_ grd_ s.img mir_ flt_ svc_ cvus_ dbg_ fab_
      s.boot brd_ crg_) :=
  h.of_same rfl rfl rfl hm hp rfl hd he hn

theorem orderly_ite {s0 a b : State} {c : Prop} [Decidable c] (ha : Orderly s0 a) (hb : Orderly s0 b) :
    Orderly s0 (if c then a else b) := by split <;> assumption

theorem orderly_fst_ite {α : Type} {s0 : State} {a b : State × α} {c : Prop} [Decidable c] (ha : Orderly s0 a.1)
    (hb : Orderly s0 b.1) : Orderly s0 (if c then a else b).1 := by split <;> assumption

theorem orderly_foldl {α : Type} {s0 : State} (f : State → α → State) (l : List α) (s : State) (h : Orderly s0 s)
    (hf : ∀ s, Orderly s0 s → ∀ x, Orderly s0 (f s x)) : Orderly s0 (l.foldl f s) := by
  induction l generalizing s with
  | nil => exact h
  | cons x l ih => exact ih (f s x) (hf s h x)

theorem orderly_foldN {s0 : State} (n : Nat) (f : State → Nat → State) (s : State) (h : Orderly s0 s)
    (hf : ∀ s, Orderly s0 s → ∀ x, Orderly s0 (f s x)) : Orderly s0 (foldN n f s) := orderly_foldl f _ s h hf

theorem orderly_foldS {α : Type} {s0 : State} (l : List α) (s : State) (f : State → α → State) (h : Orderly s0 s)
    (hf : ∀ s, Orderly s0 s → ∀ x, Orderly s0 (f s x)) : Orderly s0 (foldS l s f) := orderly_foldl f l s h hf

/-- A fold that carries more than the state. -/
theorem orderly_fold_fst {α β : Type} {s0 : State} (f : State × β → α → State × β) (l : List α) (p : State × β)
    (h : Orderly s0 p.1) (hf : ∀ p : State × β, Orderly s0 p.1 → ∀ x, Orderly s0 (f p x).1) : Orderly s0 (l.foldl f p).1 := by
  induction l generalizing p with
  | nil => exact h
  | cons x l ih => exact ih (f p x) (hf p h x)

theorem orderly_foldN_fst {β : Type} {s0 : State} (n : Nat) (f : State × β → Nat → State × β) (p : State × β)
    (h : Orderly s0 p.1) (hf : ∀ p : State × β, Orderly s0 p.1 → ∀ x, Orderly s0 (f p x).1) : Orderly s0 (foldN n f p).1 :=
  orderly_fold_fst f _ p h hf

/-- An admission of a request, with what it does to the state on the way (R63). -/
inductive AdmitOrderly (s0 : State) : Admit → Prop where
  | done {t : State} (h : Orderly s0 t) : AdmitOrderly s0 (.done t)
  | go {t : State} {r : Req} (h : Orderly s0 t) : AdmitOrderly s0 (.go t r)

theorem admit_ite {s0 : State} {a b : Admit} {c : Prop} [Decidable c] (ha : AdmitOrderly s0 a) (hb : AdmitOrderly s0 b) :
    AdmitOrderly s0 (if c then a else b) := by split <;> assumption

/-! ## The writes of what `Orderly` speaks of -/

theorem putBytes_canon (m : Tab Byte) (a : Nat) (bs : List Byte) (h : tcanon 0 m = true) :
    tcanon 0 (putBytes m a bs) = true := by
  induction bs generalizing m a with
  | nil => exact h
  | cons b bs ih => exact ih _ _ (tset_canon 0 b m a h)

/-- A change of memory or metadata alone. -/
theorem Orderly.of_dmc {s0 s : State} (h : Orderly s0 s) (d : Dmc) (hm : tcanon 0 s.dmc.mem = true → tcanon 0 d.mem = true)
    (he : tcanon {} s.dmc.meta_ = true → tcanon {} d.meta_ = true) : Orderly s0 { s with dmc := d } :=
  h.trans
    { step := rfl, serving := rfl, locked := rfl, svn := Nat.le_refl _, now := Nat.le_refl _, templates := rfl, img := rfl,
      mr := rfl
      tables := by
        simp only [tablesOk, Memory.wf, Bool.and_eq_true]
        rintro ⟨⟨⟨h1, h2⟩, h3⟩, h4⟩
        exact ⟨⟨⟨hm h1, he h2⟩, h3⟩, h4⟩
      partners := fun _ _ => rfl, bits := fun _ _ _ _ => rfl }

theorem memPut_orderly {s0 s : State} (h : Orderly s0 s) (a : Nat) (bs : List Byte) : Orderly s0 (memPut s a bs) :=
  h.of_dmc _ (putBytes_canon _ a bs) id

theorem metaPut_orderly {s0 s : State} (h : Orderly s0 s) (a : Nat) (m : LineMeta) : Orderly s0 (metaPut s a m) :=
  h.of_dmc _ id (tset_canon {} m _ _)

theorem dmcMod_orderly {s0 s : State} (h : Orderly s0 s) (f : Dmc → Dmc) (hm : (f s.dmc).mem = s.dmc.mem)
    (he : (f s.dmc).meta_ = s.dmc.meta_) : Orderly s0 (dmcMod s f) :=
  h.of_same rfl rfl rfl rfl rfl rfl hm he (Nat.le_refl _)

theorem fumMod_orderly {s0 s : State} (h : Orderly s0 s) (f : Fum → Fum) (hm : (f s.fum).mr = s.fum.mr) :
    Orderly s0 (fumMod s f) :=
  h.of_same rfl rfl rfl hm rfl rfl rfl rfl (Nat.le_refl _)

theorem mirMod_orderly {s0 s : State} (h : Orderly s0 s) (f : Mir → Mir) (hm : (f s.mir).peers = s.mir.peers) :
    Orderly s0 (mirMod s f) :=
  h.of_same rfl rfl rfl rfl hm rfl rfl rfl (Nat.le_refl _)

/-- A change of BOOT's state that leaves the sequence, the lock and the SVN fuses alone. -/
theorem bootMod_orderly {s0 s : State} (h : Orderly s0 s) (f : Boot → Boot) (h1 : (f s.boot).step = s.boot.step)
    (h2 : (f s.boot).serving = s.boot.serving) (h3 : (f s.boot).locked = s.boot.locked)
    (h4 : s.boot.svn ≤ (f s.boot).svn) : Orderly s0 (bootMod s f) :=
  h.trans
    { step := h1, serving := h2, locked := h3, svn := h4, now := Nat.le_refl _, templates := rfl, img := rfl, mr := rfl
      tables := id, partners := fun _ _ => rfl, bits := fun _ _ _ _ => rfl }

end Sys2Proof.Machine
end

