-- ==== Sys2Proof/Laws/Regs.lean ====
section
/-! SUPPORT. Laws of the stored registers: a write keeps the table's form and, once the configuration lock is set, every RWL
bit (R14, R450); a change of a partner's beats keeps its entry of the partner table. -/
namespace Sys2Proof.Machine

theorem ite_none {α : Type} {c : Prop} [Decidable c] {a b : Option α} (ha : c → a = none) (hb : b = none) :
    (if c then a else b) = none := by split <;> simp_all

theorem regBits_off {agent off : Nat} (h : 65536 ≤ off) : regBits agent off = none := by
  unfold regBits
  repeat' (first | rfl | refine ite_none (fun hc => ?_) ?_)
  all_goals (exfalso; omega)

theorem regBits_store (agent off : Nat) : regBits (storeAgent agent) off = regBits agent off := by
  unfold storeAgent
  split
  · rename_i h
    obtain ⟨hd, hb⟩ := h
    have hlt : agent < 12288 := by unfold agentDomain at hd; omega
    have hge : 8192 ≤ agent := by unfold agentDomain at hd; omega
    have e1 : agentDomain (agentKey 2 (agentBlock agent) 0) = 2 := by unfold agentDomain agentKey; omega
    have e2 : agentBlock (agentKey 2 (agentBlock agent) 0) = agentBlock agent := by unfold agentBlock agentKey; omega
    have n1 : ∀ a : Nat, (a < 8192 ∨ 12288 ≤ a) → agent ≠ a := by omega
    have n2 : ∀ a : Nat, (a < 8192 ∨ 12288 ≤ a) → agentKey 2 (agentBlock agent) 0 ≠ a := by unfold agentKey; omega
    have b1 : agent ≠ swpAgent := by rintro rfl; revert hb; decide
    have b2 : agent ≠ swnAgent := by rintro rfl; revert hb; decide
    have b3 : agentKey 2 (agentBlock agent) 0 ≠ swpAgent := by rw [← e2] at hb; intro e; rw [e] at hb; revert hb; decide
    have b4 : agentKey 2 (agentBlock agent) 0 ≠ swnAgent := by rw [← e2] at hb; intro e; rw [e] at hb; revert hb; decide
    unfold regBits
    simp only [e1, e2, hd, n1 svcAgent (by decide), n2 svcAgent (by decide), n1 tptAgent (by decide), n2 tptAgent (by decide),
      n1 tmgAgent (by decide), n2 tmgAgent (by decide), b1, b2, b3, b4, n1 (fabAgent 0) (by decide),
      n2 (fabAgent 0) (by decide), n1 mirAgent (by decide), n2 mirAgent (by decide), n1 dbgAgent (by decide),
      n2 dbgAgent (by decide), n1 brdAgent (by decide), n2 brdAgent (by decide), n1 bootAgent (by decide),
      n2 bootAgent (by decide), if_false, false_and, OfNat.ofNat_ne_one]
  · rfl

/-- The bits that software may write and those that the image alone may write do not overlap. -/
def Apart (o : Option (Nat × Nat)) : Prop :=
  ∀ rw rwl, o = some (rw, rwl) → BitVec.ofNat 32 rw &&& BitVec.ofNat 32 rwl = 0#32

theorem apart_ite {c : Prop} [Decidable c] {a b : Option (Nat × Nat)} (ha : Apart a) (hb : Apart b) :
    Apart (if c then a else b) := by split <;> assumption

theorem regBits_apart (agent off : Nat) : Apart (regBits agent off) := by
  unfold regBits
  repeat' refine apart_ite ?_ ?_
  all_goals
    intro rw rwl h
    first
    | cases h; done
    | (injection h with h; injection h with h1 h2; subst h1; subst h2; decide)

theorem regBits_disjoint {agent off rw rwl : Nat} (h : regBits agent off = some (rw, rwl)) :
    BitVec.ofNat 32 rw &&& BitVec.ofNat 32 rwl = 0#32 := regBits_apart agent off rw rwl h

/-- What `mergeBits` leaves of bits that its mask does not reach. -/
theorem mergeBits_other (old v : Word) (mask : Nat) (m : Word) (h : BitVec.ofNat 32 mask &&& m = 0#32) :
    mergeBits old v mask &&& m = old &&& m := by
  unfold mergeBits
  ext i hi
  have := congrArg (fun x : Word => x[i]) h
  simp at this ⊢
  grind

theorem regGet_set_self (s : State) (agent off : Nat) (v : Word) (hs : tsorted s.csr = true) :
    regGet (regSet s agent off v) agent off = v := by
  unfold regGet regSet
  simp only []
  split
  · rw [tfind_tdel_self]; simp [*]
  · rw [tfind_tins_self]; rfl

theorem regGet_set_other (s : State) (agent off agent' off' : Nat) (v : Word)
    (h : regAddr agent' off' ≠ regAddr agent off) : regGet (regSet s agent off v) agent' off' = regGet s agent' off' := by
  unfold regGet regSet
  simp only []
  split
  · rw [tfind_tdel_other _ _ _ h]
  · rw [tfind_tins_other _ _ _ _ h]

theorem regSet_sorted (s : State) (agent off : Nat) (v : Word) (hs : tsorted s.csr = true) :
    tsorted (regSet s agent off v).csr = true := by
  unfold regSet
  simp only []
  split
  · exact tdel_sorted _ _ hs
  · exact tins_sorted _ _ _ hs

theorem tablesOk_csr (s : State) (c : Tab Word) (h : tablesOk s = true) (hc : tsorted c = true) :
    tablesOk { s with csr := c } = true := by
  simp only [tablesOk, Bool.and_eq_true] at h ⊢
  exact ⟨⟨h.1.1, hc⟩, h.2⟩

theorem tablesOk_sorted {s : State} (h : tablesOk s = true) : tsorted s.csr = true := by
  simp only [tablesOk, Bool.and_eq_true] at h
  exact h.1.2

/-- A change of the stored registers alone. -/
theorem Orderly.of_csr {s0 s : State} (h : Orderly s0 s) (c : Tab Word) (hs : tsorted s.csr = true → tsorted c = true)
    (hb : tsorted s.csr = true → s.boot.locked = true → ∀ agent off, lockedBits { s with csr := c } agent off = lockedBits s agent off) :
    Orderly s0 { s with csr := c } :=
  h.trans
    { step := rfl, serving := rfl, locked := rfl, svn := Nat.le_refl _, now := Nat.le_refl _, templates := rfl, img := rfl,
      mr := rfl, tables := fun ht => tablesOk_csr s c ht (hs (tablesOk_sorted ht)), partners := fun _ _ => rfl
      bits := fun ht hl => hb (tablesOk_sorted ht) hl }

/-- A register's address names one stored register. -/
theorem locked_addr {agent off a o rw rwl rw' rwl' : Nat} (h : regBits a o = some (rw, rwl))
    (h' : regBits agent off = some (rw', rwl')) (e : regAddr (storeAgent agent) off = regAddr (storeAgent a) o) :
    rw' = rw ∧ rwl' = rwl := by
  have ho : o < 65536 := by by_contra hh; rw [regBits_off (by omega)] at h; cases h
  have ho' : off < 65536 := by by_contra hh; rw [regBits_off (by omega)] at h'; cases h'
  unfold regAddr at e
  have e1 : storeAgent agent = storeAgent a := by omega
  have e2 : off = o := by omega
  rw [← regBits_store, e1, e2, regBits_store, h] at h'
  cases h'
  exact ⟨rfl, rfl⟩

/-- A write that changes no RWL bit of a stored register. -/
theorem regSet_orderly {s0 s : State} (h : Orderly s0 s) (agent off : Nat) (v : Word) {rw rwl : Nat}
    (hr : regBits agent off = some (rw, rwl))
    (hv : s.boot.locked = true → v &&& BitVec.ofNat 32 rwl = regGet s (storeAgent agent) off &&& BitVec.ofNat 32 rwl) :
    Orderly s0 (regSet s (storeAgent agent) off v) := by
  refine h.of_csr _ (regSet_sorted s _ _ v) ?_
  intro hs hl agent' off'
  show regGet (regSet s (storeAgent agent) off v) (storeAgent agent') off' &&& _ = _
  unfold lockedBits rwlMask
  cases hr' : regBits agent' off' with
  | none => simp
  | some p =>
    obtain ⟨rw', rwl'⟩ := p
    simp only []
    by_cases e : regAddr (storeAgent agent') off' = regAddr (storeAgent agent) off
    · obtain ⟨-, rfl⟩ := locked_addr hr hr' e
      have e' : ∀ t : State, regGet t (storeAgent agent') off' = regGet t (storeAgent agent) off := by
        intro t; unfold regGet; rw [e]
      rw [e', e', regGet_set_self _ _ _ _ hs, hv hl]
    · rw [regGet_set_other _ _ _ _ _ _ e]

theorem regStore_orderly {s0 s : State} (h : Orderly s0 s) (src : MgmtSource) (agent off : Nat) (v : Word) :
    Orderly s0 (regStore s src agent off v) := by
  unfold regStore
  split
  · exact h
  · rename_i rw rwl hr
    refine regSet_orderly h agent off _ hr ?_
    intro hl
    rw [hl]
    exact mergeBits_other _ _ _ _ (by simpa using regBits_disjoint hr)

/-- A write of a register that has no RWL bit. -/
theorem regSet_rw_orderly {s0 s : State} (h : Orderly s0 s) (agent off : Nat) (v : Word) {rw : Nat}
    (hr : regBits agent off = some (rw, 0)) (ha : storeAgent agent = agent) : Orderly s0 (regSet s agent off v) := by
  have := regSet_orderly h agent off v hr (by simp)
  rwa [ha] at this

theorem pcfg_bits (n : Nat) (h0 : 0 < n) (h1 : n < 256) : regBits tmgAgent (0x1000 + 4 * n) = some (1, 0) := by
  have h4 : (0x1000 + 4 * n) % 4 = 0 := by omega
  have d : agentDomain tmgAgent = 1 := by decide
  have b : agentBlock tmgAgent = 4 := by decide
  unfold regBits
  simp only [h4, d, b, show tmgAgent ≠ svcAgent by decide, show tmgAgent ≠ tptAgent by decide]
  norm_num
  have e1 : ∀ k, k < 0x1000 → 0x1000 + 4 * n ≠ k := by omega
  rw [if_neg (by omega), if_neg (by omega), if_neg (by omega), if_neg (by omega), if_pos (by omega)]

theorem tfind_filterMap {α : Type} (g : Nat × α → Option (Nat × α)) (hg : ∀ e e', g e = some e' → e'.1 = e.1) (t : Tab α)
    (hs : tsorted t = true) (a : Nat) :
    tfind (t.filterMap g) a = (tfind t a).bind (fun v => (g (a, v)).map (·.2)) := by
  induction t with
  | nil => rfl
  | cons p t ih =>
    obtain ⟨k, w⟩ := p
    obtain ⟨ha, hs'⟩ := (tsorted_cons k w t).1 hs
    rw [List.filterMap_cons]
    cases hk : g (k, w) with
    | none =>
      simp only []
      by_cases e : k = a
      · subst k
        rw [ih hs', tfind_none t a (fun e he => Nat.ne_of_lt (ha e he))]
        simp [tfind, hk]
      · rw [ih hs', tfind, if_neg e]
    | some q =>
      obtain ⟨k', w'⟩ := q
      have := hg _ _ hk
      simp only [] at this
      subst k'
      by_cases e : k = a
      · subst k
        simp [tfind, hk]
      · simp only []
        rw [tfind, if_neg e, ih hs', tfind, if_neg e]

theorem filterMap_keys {α : Type} (g : Nat × α → Option (Nat × α)) (hg : ∀ e e', g e = some e' → e'.1 = e.1) (t : Tab α)
    (hs : tsorted t = true) : tsorted (t.filterMap g) = true := by
  induction t with
  | nil => rfl
  | cons p t ih =>
    obtain ⟨k, w⟩ := p
    obtain ⟨ha, hs'⟩ := (tsorted_cons k w t).1 hs
    rw [List.filterMap_cons]
    cases hk : g (k, w) with
    | none => exact ih hs'
    | some q =>
      obtain ⟨k', w'⟩ := q
      have := hg _ _ hk
      simp only [] at this
      subst k'
      refine (tsorted_cons _ _ _).2 ⟨?_, ih hs'⟩
      intro e he
      obtain ⟨e0, h0, h1⟩ := List.mem_filterMap.1 he
      rw [hg _ _ h1]
      exact ha e0 h0

theorem releaseEntry_key (agent : Nat) (e e' : Nat × Word) (he : releaseEntry agent e = some e') : e'.1 = e.1 := by
  unfold releaseEntry at he
  simp only [] at he
  repeat' split at he
  all_goals first | cases he; done | (injection he with he; rw [← he])

theorem regRelease_orderly {s0 s : State} (h : Orderly s0 s) (agent : Nat) : Orderly s0 (regRelease s agent) := by
  have hg := releaseEntry_key agent
  refine h.of_csr _ (filterMap_keys _ hg s.csr) ?_
  intro hs _ agent' off'
  unfold lockedBits rwlMask
  cases hr' : regBits agent' off' with
  | none => simp
  | some p =>
    obtain ⟨rw', rwl'⟩ := p
    have ho : off' < 65536 := by by_contra hh; rw [regBits_off (by omega)] at hr'; cases hr'
    have e1 : regAddr (storeAgent agent') off' / 65536 = storeAgent agent' := by unfold regAddr; omega
    have e2 : regAddr (storeAgent agent') off' % 65536 = off' := by unfold regAddr; omega
    unfold regGet
    simp only []
    rw [tfind_filterMap _ hg _ hs]
    cases hf : tfind s.csr (regAddr (storeAgent agent') off') with
    | none => rfl
    | some v =>
      simp only [Option.bind_some, releaseEntry, e1, e2]
      by_cases ha : storeAgent agent' = agent
      · subst agent
        have hb := regBits_store agent' off'
        rw [hr'] at hb
        have hm := mergeBits_other v (regReset (regAddr (storeAgent agent') off')) rw' _ (regBits_disjoint hr')
        simp only [ne_eq, not_true_eq_false, if_false, hb]
        by_cases hz : mergeBits v (regReset (regAddr (storeAgent agent') off')) rw' = regReset (regAddr (storeAgent agent') off')
        · rw [if_pos hz]
          rw [hz] at hm
          simpa using hm
        · rw [if_neg hz]
          simpa using hm
      · rw [if_pos ha]; rfl

/-! ## Partners -/

theorem tget_of_mem {α : Type} (d : α) (t : Tab α) (hs : tsorted t = true) {k : Nat} {v : α} (h : (k, v) ∈ t) :
    tget d t k = v := by
  induction t with
  | nil => cases h
  | cons p t ih =>
    obtain ⟨k', w⟩ := p
    obtain ⟨ha, hs'⟩ := (tsorted_cons k' w t).1 hs
    rcases List.mem_cons.1 h with h | h
    · cases h
      simp [tget]
    · have := ha _ h
      rw [tget, if_neg (Nat.ne_of_lt this)]
      exact ih hs' h

theorem mem_of_tfind {α : Type} {t : Tab α} {k : Nat} {v : α} (h : tfind t k = some v) : (k, v) ∈ t := by
  induction t with
  | nil => cases h
  | cons p t ih =>
    obtain ⟨k', w⟩ := p
    rw [tfind] at h
    split at h
    · subst k'
      cases h
      exact List.mem_cons_self ..
    · exact List.mem_cons_of_mem _ (ih h)

/-- What an entry fixes, read where it was found and seen in a later state. -/
theorem entry_of_mem {s0 s t : State} {k : Nat} {p : Peer} (hm : (k, p) ∈ s.mir.peers) (h : Orderly s0 s) (g : Orderly s t)
    (ht : tablesOk s0 = true) :
    (p.addr, p.port, p.mpAddr, p.direct, p.localBase, p.remoteBase, p.serial) = partnerEntry t k := by
  have hs := h.tables ht
  rw [g.partners hs]
  unfold partnerEntry peerGet
  simp only [tablesOk, Bool.and_eq_true] at hs
  rw [tget_of_mem _ _ hs.2 hm]

theorem peerSet_orderly {s0 s : State} (h : Orderly s0 s) (k : Nat) (p : Peer)
    (hp : tablesOk s0 = true → (p.addr, p.port, p.mpAddr, p.direct, p.localBase, p.remoteBase, p.serial) = partnerEntry s k) :
    Orderly s0 (peerSet s k p) where
  step := h.step
  serving := h.serving
  locked := h.locked
  svn := h.svn
  now := h.now
  templates := h.templates
  img := h.img
  mr := h.mr
  tables ht := by
    have h1 := h.tables ht
    simp only [tablesOk, Bool.and_eq_true] at h1 ⊢
    exact ⟨h1.1, tset_sorted _ _ _ _ h1.2⟩
  partners ht k' := by
    have h1 := h.tables ht
    have h2 := hp ht
    rw [← h.partners ht k']
    simp only [tablesOk, Bool.and_eq_true] at h1
    by_cases e : k' = k
    · subst k'
      rw [← h2]
      unfold partnerEntry peerGet
      simp only [peerSet, mirMod]
      rw [tget_tset_self]
    · unfold partnerEntry peerGet
      simp only [peerSet, mirMod]
      rw [tget_tset_other _ _ _ _ _ e]
  bits := h.bits

end Sys2Proof.Machine
end

