-- ==== Sys2Proof/Laws/OrdOps.lean ====
section
/-! SUPPORT. What the operations of Ops, Wire, Memory, Translate keep: `Orderly` of each. -/
namespace Sys2Proof.Machine

theorem tptMod_orderly {s0 s : State} (h : Orderly s0 s) (f : Tpt → Tpt) :
    Orderly s0 (tptMod s f) := by
  unfold tptMod
  try dsimp only
  repeat' first
    | with_reducible assumption
    | with_reducible apply orderly_ite
    | exact Nat.le_refl _
    | rfl
    | intro _
    | split
    | with_reducible apply orderly_mk

theorem actMod_orderly {s0 s : State} (h : Orderly s0 s) (f : Act → Act) :
    Orderly s0 (actMod s f) := by
  unfold actMod
  try dsimp only
  repeat' first
    | with_reducible assumption
    | with_reducible apply orderly_ite
    | exact Nat.le_refl _
    | rfl
    | intro _
    | split
    | with_reducible apply orderly_mk

theorem tmgMod_orderly {s0 s : State} (h : Orderly s0 s) (f : Tmg → Tmg) :
    Orderly s0 (tmgMod s f) := by
  unfold tmgMod
  try dsimp only
  repeat' first
    | with_reducible assumption
    | with_reducible apply orderly_ite
    | exact Nat.le_refl _
    | rfl
    | intro _
    | split
    | with_reducible apply orderly_mk

theorem fltMod_orderly {s0 s : State} (h : Orderly s0 s) (f : Flt → Flt) :
    Orderly s0 (fltMod s f) := by
  unfold fltMod
  try dsimp only
  repeat' first
    | with_reducible assumption
    | with_reducible apply orderly_ite
    | exact Nat.le_refl _
    | rfl
    | intro _
    | split
    | with_reducible apply orderly_mk

theorem svcMod_orderly {s0 s : State} (h : Orderly s0 s) (f : Svc → Svc) :
    Orderly s0 (svcMod s f) := by
  unfold svcMod
  try dsimp only
  repeat' first
    | with_reducible assumption
    | with_reducible apply orderly_ite
    | exact Nat.le_refl _
    | rfl
    | intro _
    | split
    | with_reducible apply orderly_mk

theorem dbgMod_orderly {s0 s : State} (h : Orderly s0 s) (f : Dbg → Dbg) :
    Orderly s0 (dbgMod s f) := by
  unfold dbgMod
  try dsimp only
  repeat' first
    | with_reducible assumption
    | with_reducible apply orderly_ite
    | exact Nat.le_refl _
    | rfl
    | intro _
    | split
    | with_reducible apply orderly_mk

theorem uSet_orderly {s0 s : State} (h : Orderly s0 s) (k : Nat) (u : UnitSt) :
    Orderly s0 (uSet s k u) := by
  unfold uSet
  try dsimp only
  repeat' first
    | with_reducible assumption
    | with_reducible apply orderly_ite
    | exact Nat.le_refl _
    | rfl
    | intro _
    | split
    | with_reducible apply orderly_mk

theorem bumpN_orderly {s0 s : State} (h : Orderly s0 s) (c : Cnt) (inst : Nat) (sub : Nat) (pitch : Nat) (n : Nat) :
    Orderly s0 (bumpN s c inst sub pitch n) := by
  unfold bumpN
  try dsimp only
  repeat' first
    | with_reducible assumption
    | with_reducible apply orderly_ite
    | exact Nat.le_refl _
    | rfl
    | intro _
    | split
    | with_reducible apply orderly_mk

theorem bump_orderly {s0 s : State} (h : Orderly s0 s) (c : Cnt) (inst : Nat) (sub : Nat) (pitch : Nat) :
    Orderly s0 (bump s c inst sub pitch) := by
  unfold bump
  try dsimp only
  repeat' first
    | with_reducible assumption
    | with_reducible apply bumpN_orderly

theorem bump0_orderly {s0 s : State} (h : Orderly s0 s) (c : Cnt) :
    Orderly s0 (bump0 s c) := by
  unfold bump0
  try dsimp only
  repeat' first
    | with_reducible assumption
    | with_reducible apply bump_orderly

theorem zeroPitchCounters_orderly {s0 s : State} (h : Orderly s0 s) (pitch : Nat) :
    Orderly s0 (zeroPitchCounters s pitch) := by
  unfold zeroPitchCounters
  try dsimp only
  repeat' first
    | with_reducible assumption
    | with_reducible apply orderly_ite
    | exact Nat.le_refl _
    | rfl
    | intro _
    | split
    | with_reducible apply orderly_mk

theorem draw_orderly {s0 s : State} (h : Orderly s0 s)  :
    Orderly s0 (draw s).2 := by
  unfold draw
  try dsimp only
  repeat' first
    | with_reducible assumption
    | with_reducible apply orderly_ite
    | exact Nat.le_refl _
    | rfl
    | intro _
    | split
    | with_reducible apply orderly_mk

theorem cd10Put_orderly {s0 s : State} (h : Orderly s0 s) (t : Nat) :
    Orderly s0 (cd10Put s t) := by
  unfold cd10Put
  try dsimp only
  repeat' first
    | with_reducible assumption
    | with_reducible apply orderly_ite
    | exact Nat.le_refl _
    | rfl
    | intro _
    | split
    | with_reducible apply orderly_mk

theorem elapse_orderly {s0 s : State} (h : Orderly s0 s) (ns : Nat) :
    Orderly s0 (elapse s ns) := by
  unfold elapse
  with_reducible apply cd10Put_orderly
  exact h.of_same rfl rfl rfl rfl rfl rfl rfl rfl (Nat.le_add_right _ _)

theorem nowTo_orderly {s0 s : State} (h : Orderly s0 s) (t : Nat) :
    Orderly s0 (nowTo s t) := by
  unfold nowTo
  try dsimp only
  repeat' first
    | with_reducible assumption
    | with_reducible apply elapse_orderly

theorem cd10To_orderly {s0 s : State} (h : Orderly s0 s) (t : Nat) :
    Orderly s0 (cd10To s t) := by
  unfold cd10To
  try dsimp only
  repeat' first
    | with_reducible assumption
    | with_reducible apply elapse_orderly

theorem periodic_orderly {s0 s : State} (h : Orderly s0 s) (event : Nat) (period : Nat) :
    Orderly s0 (periodic s event period) := by
  unfold periodic
  try dsimp only
  repeat' first
    | with_reducible assumption
    | with_reducible apply nowTo_orderly
    | with_reducible apply orderly_ite
    | exact Nat.le_refl _
    | rfl
    | intro _
    | split
    | with_reducible apply orderly_mk

theorem periodicCd10_orderly {s0 s : State} (h : Orderly s0 s) (event : Nat) (period : Nat) :
    Orderly s0 (periodicCd10 s event period) := by
  unfold periodicCd10
  try dsimp only
  repeat' first
    | with_reducible assumption
    | with_reducible apply cd10To_orderly
    | with_reducible apply orderly_ite
    | exact Nat.le_refl _
    | rfl
    | intro _
    | split
    | with_reducible apply orderly_mk

theorem selSet_orderly {s0 s : State} (h : Orderly s0 s) (src : MgmtSource) (agent : Nat) (off : Nat) (v : Word) :
    Orderly s0 (selSet s src agent off v) := by
  unfold selSet
  try dsimp only
  repeat' first
    | with_reducible assumption
    | with_reducible apply orderly_ite
    | exact Nat.le_refl _
    | rfl
    | intro _
    | split
    | with_reducible apply orderly_mk

theorem granPut_orderly {s0 s : State} (h : Orderly s0 s) (g : Nat) (e : Granule) :
    Orderly s0 (granPut s g e) := by
  unfold granPut
  try dsimp only
  repeat' first
    | with_reducible assumption
    | with_reducible apply orderly_ite
    | exact Nat.le_refl _
    | rfl
    | intro _
    | split
    | with_reducible apply orderly_mk

theorem sysWrite_orderly {s0 s : State} (h : Orderly s0 s) (a : Nat) (bs : List Byte) :
    Orderly s0 (sysWrite s a bs) := by
  unfold sysWrite
  try dsimp only
  repeat' first
    | with_reducible assumption
    | with_reducible apply memPut_orderly
    | with_reducible apply orderly_ite
    | intro _
    | split

theorem trace_orderly {s0 s : State} (h : Orderly s0 s) (kind : Nat) (pitch : Nat) (agent : Nat) (unit : Nat) (data : List Byte) :
    Orderly s0 (trace s kind pitch agent unit data) := by
  unfold trace
  try dsimp only
  repeat' first
    | with_reducible assumption
    | with_reducible apply sysWrite_orderly
    | with_reducible apply orderly_ite
    | exact Nat.le_refl _
    | rfl
    | intro _
    | split
    | with_reducible apply orderly_mk

theorem traceUnit_orderly {s0 s : State} (h : Orderly s0 s) (k : Nat) (old : Actual) (new : Actual) (i : Intent) :
    Orderly s0 (traceUnit s k old new i) := by
  unfold traceUnit
  try dsimp only
  repeat' first
    | with_reducible assumption
    | with_reducible apply trace_orderly

theorem uMove_orderly {s0 s : State} (h : Orderly s0 s) (k : Nat) (a : Actual) :
    Orderly s0 (uMove s k a) := by
  unfold uMove
  try dsimp only
  repeat' first
    | with_reducible assumption
    | with_reducible apply uSet_orderly
    | with_reducible apply traceUnit_orderly
    | with_reducible apply orderly_ite

theorem faultRec_orderly {s0 s : State} (h : Orderly s0 s) (i : FaultInfo) :
    Orderly s0 (faultRec s i) := by
  unfold faultRec
  try dsimp only
  repeat' first
    | with_reducible assumption
    | with_reducible apply uSet_orderly
    | with_reducible apply bump0_orderly
    | with_reducible apply trace_orderly
    | with_reducible apply orderly_ite
    | exact Nat.le_refl _
    | rfl
    | intro _
    | split
    | with_reducible apply orderly_mk

theorem faultUnit_orderly {s0 s : State} (h : Orderly s0 s) (k : Nat) (cause : Nat) (cls : Nat) (pitch : Option Nat) (lo : Nat) (hi : Nat) :
    Orderly s0 (faultUnit s k cause cls pitch lo hi) := by
  unfold faultUnit
  try dsimp only
  repeat' first
    | with_reducible assumption
    | with_reducible apply faultRec_orderly

theorem pSet_orderly {s0 s : State} (h : Orderly s0 s) (n : Nat) (p : PitchSt) :
    Orderly s0 (pSet s n p) := by
  unfold pSet
  try dsimp only
  repeat' first
    | with_reducible assumption
    | with_reducible apply orderly_ite
    | exact Nat.le_refl _
    | rfl
    | intro _
    | split
    | with_reducible apply orderly_mk

theorem flowPut_orderly {s0 s : State} (h : Orderly s0 s) (id : FlowId) (f : FlowSt) :
    Orderly s0 (flowPut s id f) := by
  unfold flowPut
  try dsimp only
  repeat' first
    | with_reducible assumption
    | with_reducible apply orderly_ite
    | exact Nat.le_refl _
    | rfl
    | intro _
    | split
    | with_reducible apply orderly_mk

theorem klrPut_orderly {s0 s : State} (h : Orderly s0 s) (l : Nat) (k : Klr) :
    Orderly s0 (klrPut s l k) := by
  unfold klrPut
  try dsimp only
  repeat' first
    | with_reducible assumption
    | with_reducible apply orderly_ite
    | exact Nat.le_refl _
    | rfl
    | intro _
    | split
    | with_reducible apply orderly_mk

theorem klrMod_orderly {s0 s : State} (h : Orderly s0 s) (l : Nat) (f : Klr → Klr) :
    Orderly s0 (klrMod s l f) := by
  unfold klrMod
  try dsimp only
  repeat' first
    | with_reducible assumption
    | with_reducible apply klrPut_orderly

theorem poolTake_orderly {s0 s : State} (h : Orderly s0 s) (v : RxVia) (tc : Nat) :
    Orderly s0 (poolTake s v tc) := by
  unfold poolTake
  try dsimp only
  repeat' first
    | with_reducible assumption
    | with_reducible apply klrPut_orderly
    | with_reducible apply orderly_ite
    | intro _
    | split

theorem qPut_orderly {s0 s : State} (h : Orderly s0 s) (k : Nat × Nat × Nat) (q : Queue) :
    Orderly s0 (qPut s k q) := by
  unfold qPut
  try dsimp only
  repeat' first
    | with_reducible assumption
    | with_reducible apply orderly_ite
    | exact Nat.le_refl _
    | rfl
    | intro _
    | split
    | with_reducible apply orderly_mk

theorem enqueue_orderly {s0 s : State} (h : Orderly s0 s) (l : Nat) (f : TxFrame) :
    Orderly s0 (enqueue s l f) := by
  unfold enqueue
  try dsimp only
  repeat' first
    | with_reducible assumption
    | with_reducible apply bump_orderly
    | with_reducible apply qPut_orderly
    | with_reducible apply orderly_ite
    | exact Nat.le_refl _
    | rfl
    | intro _
    | split
    | with_reducible apply orderly_mk

theorem sendFrame_orderly {s0 s : State} (h : Orderly s0 s) (id : FlowId) (f : TxFrame) :
    Orderly s0 (sendFrame s id f) := by
  unfold sendFrame
  try dsimp only
  repeat' first
    | with_reducible assumption
    | with_reducible apply enqueue_orderly
    | with_reducible apply orderly_ite
    | exact Nat.le_refl _
    | rfl
    | intro _
    | split
    | with_reducible apply orderly_mk

theorem trkReopen_orderly {s0 s : State} (h : Orderly s0 s)  :
    Orderly s0 (trkReopen s) := by
  unfold trkReopen
  try dsimp only
  repeat' first
    | with_reducible assumption
    | with_reducible apply orderly_ite
    | exact Nat.le_refl _
    | rfl
    | intro _
    | split
    | with_reducible apply orderly_mk

theorem trkRelease_orderly {s0 s : State} (h : Orderly s0 s) (id : FlowId) (seq : BitVec 24) :
    Orderly s0 (trkRelease s id seq) := by
  unfold trkRelease
  try dsimp only
  repeat' first
    | with_reducible assumption
    | with_reducible apply tptMod_orderly
    | with_reducible apply trkReopen_orderly

theorem trkAdd_orderly {s0 s : State} (h : Orderly s0 s) (r : Req) (reserve : Bool) :
    Orderly s0 (trkAdd s r reserve) := by
  unfold trkAdd
  try dsimp only
  repeat' first
    | with_reducible assumption
    | with_reducible apply tptMod_orderly

theorem excuse_orderly {s0 s : State} (h : Orderly s0 s) (id : FlowId) (q : BitVec 24) :
    Orderly s0 (excuse s id q) := by
  unfold excuse
  try dsimp only
  repeat' first
    | with_reducible assumption
    | with_reducible apply flowPut_orderly
    | with_reducible apply orderly_ite
    | intro _
    | split

theorem markWindow_orderly {s0 s : State} (h : Orderly s0 s) (r : Req) :
    Orderly s0 (markWindow s r) := by
  unfold markWindow
  try dsimp only
  repeat' first
    | with_reducible assumption
    | with_reducible apply flowPut_orderly
    | with_reducible apply orderly_ite
    | intro _
    | split

theorem mgmtMod_orderly {s0 s : State} (h : Orderly s0 s) (n : BitVec 32) (g : MgmtSess → MgmtSess) :
    Orderly s0 (mgmtMod s n g) := by
  unfold mgmtMod
  try dsimp only
  repeat' first
    | with_reducible assumption
    | with_reducible apply orderly_ite
    | exact Nat.le_refl _
    | rfl
    | intro _
    | split
    | with_reducible apply orderly_mk

theorem addTrailer_orderly {s0 s : State} (h : Orderly s0 s) (r : Req) (f : TxFrame) :
    Orderly s0 (addTrailer s r f).1 := by
  unfold addTrailer
  try dsimp only
  repeat' first
    | with_reducible assumption
    | with_reducible apply mgmtMod_orderly
    | with_reducible apply orderly_ite
    | intro _
    | split

theorem cacheStore_orderly {s0 s : State} (h : Orderly s0 s) (r : Req) (f : TxFrame) :
    Orderly s0 (cacheStore s r f) := by
  unfold cacheStore
  try dsimp only
  repeat' first
    | with_reducible assumption
    | with_reducible apply flowPut_orderly
    | with_reducible apply orderly_ite
    | intro _
    | split

theorem respSend_orderly {s0 s : State} (h : Orderly s0 s) (r : Req) (f : TxFrame) :
    Orderly s0 (respSend s r f) := by
  unfold respSend
  try dsimp only
  repeat' first
    | with_reducible assumption
    | with_reducible apply enqueue_orderly
    | with_reducible apply sendFrame_orderly
    | with_reducible apply orderly_ite
    | intro _
    | split

theorem respondAt_orderly {s0 s : State} (h : Orderly s0 s) (r : Req) (status : Nat) (payload : List Byte) (address : BitVec 64) :
    Orderly s0 (respondAt s r status payload address) := by
  unfold respondAt
  try dsimp only
  repeat' first
    | with_reducible assumption
    | with_reducible apply bump_orderly
    | with_reducible apply trkRelease_orderly
    | with_reducible apply addTrailer_orderly
    | with_reducible apply cacheStore_orderly
    | with_reducible apply respSend_orderly
    | with_reducible apply orderly_ite

theorem respond_orderly {s0 s : State} (h : Orderly s0 s) (r : Req) (status : Nat) (payload : List Byte) :
    Orderly s0 (respond s r status payload) := by
  unfold respond
  try dsimp only
  repeat' first
    | with_reducible assumption
    | with_reducible apply respondAt_orderly

theorem answer_orderly {s0 s : State} (h : Orderly s0 s) (r : Req) (status : Nat) (payload : List Byte) :
    Orderly s0 (answer s r status payload) := by
  unfold answer
  try dsimp only
  repeat' first
    | with_reducible assumption
    | with_reducible apply excuse_orderly
    | with_reducible apply markWindow_orderly
    | with_reducible apply respond_orderly
    | with_reducible apply orderly_ite

theorem sendSegs_orderly {s0 : State} (n : Nat) {s : State} (h : Orderly s0 s) (r : Req) (seg address : Nat) (data : List Byte)
    (ps : List (Nat × Nat)) (tail : List Byte) : Orderly s0 (sendSegs n s r seg address data ps tail) := by
  induction n generalizing s address data ps with
  | zero => exact h
  | succ n ih =>
    unfold sendSegs
    have h1 := respSend_orderly (bump_orderly h .tptStatus 0 stOk 0) r
    exact orderly_ite (h1 _) (ih (h1 _) _ _ _)

theorem ctlPut_orderly {s0 s : State} (h : Orderly s0 s) (id : FlowId) (c : CtlFlow) :
    Orderly s0 (ctlPut s id c) := by
  unfold ctlPut
  try dsimp only
  repeat' first
    | with_reducible assumption
    | with_reducible apply orderly_ite
    | exact Nat.le_refl _
    | rfl
    | intro _
    | split
    | with_reducible apply orderly_mk

theorem ctlSend_orderly {s0 s : State} (h : Orderly s0 s) (id : FlowId) (f : TxFrame) (o : Origin) :
    Orderly s0 (ctlSend s id f o) := by
  unfold ctlSend
  try dsimp only
  repeat' first
    | with_reducible assumption
    | with_reducible apply enqueue_orderly
    | with_reducible apply ctlPut_orderly
    | with_reducible apply orderly_ite
    | exact Nat.le_refl _
    | rfl
    | intro _
    | split
    | with_reducible apply orderly_mk

theorem ctlDrop_orderly {s0 s : State} (h : Orderly s0 s) (id : FlowId) (seq : BitVec 24) :
    Orderly s0 (ctlDrop s id seq) := by
  unfold ctlDrop
  try dsimp only
  repeat' first
    | with_reducible assumption
    | with_reducible apply trkReopen_orderly
    | with_reducible apply ctlPut_orderly

theorem ctlMod_orderly {s0 s : State} (h : Orderly s0 s) (id : FlowId) (seq : BitVec 24) (g : CtlReq → CtlReq) :
    Orderly s0 (ctlMod s id seq g) := by
  unfold ctlMod
  try dsimp only
  repeat' first
    | with_reducible assumption
    | with_reducible apply ctlPut_orderly

theorem sendHeld_orderly {s0 s : State} (h : Orderly s0 s)  :
    Orderly s0 (sendHeld s) := by
  unfold sendHeld
  try dsimp only
  repeat' first
    | with_reducible assumption
    | with_reducible apply sendFrame_orderly
    | with_reducible apply ctlSend_orderly
    | with_reducible apply orderly_ite
    | with_reducible apply orderly_foldS
    | exact Nat.le_refl _
    | rfl
    | intro _
    | split
    | with_reducible apply orderly_mk

theorem chMod_orderly {s0 s : State} (h : Orderly s0 s) (c : Nat) (f : Chan → Chan) :
    Orderly s0 (chMod s c f) := by
  unfold chMod
  try dsimp only
  repeat' first
    | with_reducible assumption
    | with_reducible apply dmcMod_orderly
    | with_reducible apply orderly_ite
    | rfl

theorem slotPut_orderly {s0 s : State} (h : Orderly s0 s) (k : Nat) (v : KeySlot) :
    Orderly s0 (slotPut s k v) := by
  unfold slotPut
  try dsimp only
  repeat' first
    | with_reducible assumption
    | with_reducible apply fumMod_orderly
    | with_reducible apply orderly_ite
    | rfl

theorem pkPut_orderly {s0 s : State} (h : Orderly s0 s) (n : Nat) (v : PitchKeys) :
    Orderly s0 (pkPut s n v) := by
  unfold pkPut
  try dsimp only
  repeat' first
    | with_reducible assumption
    | with_reducible apply fumMod_orderly
    | with_reducible apply orderly_ite
    | rfl

theorem lineWrite_orderly {s0 s : State} (h : Orderly s0 s) (n : Nat) (ctx : BitVec 16) (ppa : Nat) (bs : List Byte) :
    Orderly s0 (lineWrite s n ctx ppa bs) := by
  unfold lineWrite
  try dsimp only
  repeat' first
    | with_reducible assumption
    | with_reducible apply bump_orderly
    | with_reducible apply memPut_orderly
    | with_reducible apply metaPut_orderly
    | with_reducible apply orderly_ite

theorem lineFree_orderly {s0 s : State} (h : Orderly s0 s) (ppa : Nat) :
    Orderly s0 (lineFree s ppa) := by
  unfold lineFree
  try dsimp only
  repeat' first
    | with_reducible assumption
    | with_reducible apply memPut_orderly
    | with_reducible apply metaPut_orderly

theorem granuleFree_orderly {s0 s : State} (h : Orderly s0 s) (g : Nat) :
    Orderly s0 (granuleFree s g) := 
  h.of_dmc _ (tcanon_filter _ _ _) (tcanon_filter _ _ _)

theorem noteInorder_orderly {s0 s : State} (h : Orderly s0 s) (c : Nat) (line : Nat) (write : Bool) :
    Orderly s0 (noteInorder s c line write) := by
  unfold noteInorder
  try dsimp only
  repeat' first
    | with_reducible assumption
    | with_reducible apply bump_orderly
    | with_reducible apply chMod_orderly
    | with_reducible apply orderly_ite

theorem dmcRead_orderly {s0 s : State} (h : Orderly s0 s) (line : Nat) (cls : Nat) (n : Nat) (check : Bool) (who : Option (FlowId × BitVec 24)) :
    Orderly s0 (dmcRead s line cls n check who) := by
  unfold dmcRead
  try dsimp only
  repeat' first
    | with_reducible assumption
    | with_reducible apply bump_orderly
    | with_reducible apply chMod_orderly
    | with_reducible apply noteInorder_orderly
    | with_reducible apply orderly_ite

theorem dmcWrite_orderly {s0 s : State} (h : Orderly s0 s) (line : Nat) (cls : Nat) (n : Nat) :
    Orderly s0 (dmcWrite s line cls n) := by
  unfold dmcWrite
  try dsimp only
  repeat' first
    | with_reducible assumption
    | with_reducible apply chMod_orderly
    | with_reducible apply noteInorder_orderly

theorem mtPut_orderly {s0 s : State} (h : Orderly s0 s) (i : Nat) (w : List Word) :
    Orderly s0 (mtPut s i w) := by
  unfold mtPut
  try dsimp only
  repeat' first
    | with_reducible assumption
    | with_reducible apply actMod_orderly

theorem mtRemove_orderly {s0 s : State} (h : Orderly s0 s) (i : Nat) (p : BitVec 16 → Bool) :
    Orderly s0 (mtRemove s i p) := by
  unfold mtRemove
  try dsimp only
  repeat' first
    | with_reducible assumption
    | with_reducible apply actMod_orderly

theorem setWindows_orderly {s0 s : State} (h : Orderly s0 s) (i : Nat) (vs : List Window) :
    Orderly s0 (setWindows s i vs) := by
  unfold setWindows
  try dsimp only
  repeat' first
    | with_reducible assumption
    | with_reducible apply mtPut_orderly

theorem clearWindows_orderly {s0 s : State} (h : Orderly s0 s) (i : Nat) :
    Orderly s0 (clearWindows s i) := by
  unfold clearWindows
  try dsimp only
  repeat' first
    | with_reducible assumption
    | with_reducible apply actMod_orderly

theorem ptPut_orderly {s0 s : State} (h : Orderly s0 s) (n : Nat) (level : Nat) (ix : Nat) (e : DWord) :
    Orderly s0 (ptPut s n level ix e) := by
  unfold ptPut
  try dsimp only
  repeat' first
    | with_reducible assumption
    | with_reducible apply actMod_orderly

theorem mapSlot_orderly {s0 s : State} (h : Orderly s0 s) (n : Nat) (slot : Nat) (gran : Nat) (sync : Bool) :
    Orderly s0 (mapSlot s n slot gran sync) := by
  unfold mapSlot
  try dsimp only
  repeat' first
    | with_reducible assumption
    | with_reducible apply ptPut_orderly

theorem unmapSlot_orderly {s0 s : State} (h : Orderly s0 s) (n : Nat) (slot : Nat) :
    Orderly s0 (unmapSlot s n slot) := by
  unfold unmapSlot
  try dsimp only
  repeat' first
    | with_reducible assumption
    | with_reducible apply actMod_orderly

theorem splitPage_orderly {s0 s : State} (h : Orderly s0 s) (n : Nat) (pva : Nat) :
    Orderly s0 (splitPage s n pva) := by
  unfold splitPage
  try dsimp only
  repeat' first
    | with_reducible assumption
    | with_reducible apply ptPut_orderly
    | with_reducible apply orderly_ite
    | with_reducible apply orderly_foldN
    | intro _
    | split

theorem ptChanged_orderly {s0 s : State} (h : Orderly s0 s) (n : Nat) (base : Nat) (size : Nat) :
    Orderly s0 (ptChanged s n base size) := by
  unfold ptChanged
  try dsimp only
  repeat' first
    | with_reducible assumption
    | with_reducible apply actMod_orderly

theorem setPageAttrs_orderly {s0 s : State} (h : Orderly s0 s) (n : Nat) (base : Nat) (len : Nat) (ro : Bool) (cocoon : Bool) (sync : Bool) :
    Orderly s0 (setPageAttrs s n base len ro cocoon sync) := by
  unfold setPageAttrs
  try dsimp only
  repeat' first
    | with_reducible assumption
    | with_reducible apply ptPut_orderly
    | with_reducible apply splitPage_orderly
    | with_reducible apply orderly_ite
    | with_reducible apply orderly_foldN
    | intro _
    | split

theorem tlbInsert_orderly {s0 s : State} (h : Orderly s0 s) (slice : Nat) (e : TlbEnt) :
    Orderly s0 (tlbInsert s slice e) := by
  unfold tlbInsert
  try dsimp only
  repeat' first
    | with_reducible assumption
    | with_reducible apply actMod_orderly

theorem hPut_orderly {s0 s : State} (h : Orderly s0 s) (k : Nat) (h' : Handle) :
    Orderly s0 (hPut s k h') := by
  unfold hPut
  try dsimp only
  repeat' first
    | with_reducible assumption
    | with_reducible apply actMod_orderly

theorem hInvalidate_orderly {s0 s : State} (h : Orderly s0 s) (k : Nat) :
    Orderly s0 (hInvalidate s k) := by
  unfold hInvalidate
  try dsimp only
  repeat' first
    | with_reducible assumption
    | with_reducible apply hPut_orderly
    | with_reducible apply orderly_ite

theorem hFree_orderly {s0 s : State} (h : Orderly s0 s) (k : Nat) :
    Orderly s0 (hFree s k) := by
  unfold hFree
  try dsimp only
  repeat' first
    | with_reducible assumption
    | with_reducible apply hPut_orderly

theorem hDropWhere_orderly {s0 s : State} (h : Orderly s0 s) (p : Handle → Bool) :
    Orderly s0 (hDropWhere s p) := by
  unfold hDropWhere
  try dsimp only
  repeat' first
    | with_reducible assumption
    | with_reducible apply actMod_orderly
    | with_reducible apply hFree_orderly
    | with_reducible apply orderly_ite
    | with_reducible apply orderly_foldS

theorem recallStart_orderly {s0 s : State} (h : Orderly s0 s) (keys : List Nat) :
    Orderly s0 (recallStart s keys) := by
  unfold recallStart
  try dsimp only
  repeat' first
    | with_reducible assumption
    | with_reducible apply actMod_orderly
    | with_reducible apply bump_orderly
    | with_reducible apply ctlSend_orderly
    | with_reducible apply hInvalidate_orderly
    | with_reducible apply orderly_ite
    | with_reducible apply orderly_foldS
    | intro _

theorem revoke_orderly {s0 s : State} (h : Orderly s0 s) (ep : BitVec 12) (ctx : BitVec 16) :
    Orderly s0 (revoke s ep ctx) := by
  unfold revoke
  try dsimp only
  repeat' first
    | with_reducible assumption
    | with_reducible apply actMod_orderly
    | with_reducible apply bump_orderly
    | with_reducible apply faultRec_orderly
    | with_reducible apply trkReopen_orderly
    | with_reducible apply ctlPut_orderly
    | with_reducible apply mtRemove_orderly
    | with_reducible apply hFree_orderly
    | with_reducible apply orderly_ite
    | with_reducible apply orderly_foldS
    | intro _
    | split

theorem changeConfirmed_orderly {s0 s : State} (h : Orderly s0 s) (c : PtChange) :
    Orderly s0 (changeConfirmed s c) := by
  unfold changeConfirmed
  try dsimp only
  repeat' first
    | with_reducible assumption
    | with_reducible apply actMod_orderly
    | with_reducible apply recallStart_orderly

end Sys2Proof.Machine
end

