-- ==== Sys2Proof/Laws/OrdLib.lean ====
section
/-! SUPPORT. What the operations of GridLib, CollLib, SyncLib, Mirror, Units keep: `Orderly` of each. -/
namespace Sys2Proof.Machine

theorem grdMod_orderly {s0 s : State} (h : Orderly s0 s) (f : Grd → Grd) :
    Orderly s0 (grdMod s f) := by
  unfold grdMod
  try dsimp only
  repeat' first
    | with_reducible assumption
    | with_reducible apply orderly_ite
    | exact Nat.le_refl _
    | rfl
    | intro _
    | split
    | dsimp only
    | with_reducible apply orderly_mk

theorem sessPut_orderly {s0 s : State} (h : Orderly s0 s) (ix : Nat) (k : KSess) :
    Orderly s0 (sessPut s ix k) := by
  unfold sessPut
  try dsimp only
  repeat' first
    | with_reducible assumption
    | with_reducible apply grdMod_orderly

theorem corePut_orderly {s0 s : State} (h : Orderly s0 s) (c : Nat) (k : Core) :
    Orderly s0 (corePut s c k) := by
  unfold corePut
  try dsimp only
  repeat' first
    | with_reducible assumption
    | with_reducible apply grdMod_orderly

theorem quadPut_orderly {s0 s : State} (h : Orderly s0 s) (q : Nat) (k : Quad) :
    Orderly s0 (quadPut s q k) := by
  unfold quadPut
  try dsimp only
  repeat' first
    | with_reducible assumption
    | with_reducible apply grdMod_orderly

theorem sendKernelEvent_orderly {s0 s : State} (h : Orderly s0 s) (k : KSess) :
    Orderly s0 (sendKernelEvent s k) := by
  unfold sendKernelEvent
  try dsimp only
  repeat' first
    | with_reducible assumption
    | with_reducible apply ctlSend_orderly

theorem clearStageWindows_orderly {s0 s : State} (h : Orderly s0 s) (k : KSess) :
    Orderly s0 (clearStageWindows s k) := by
  unfold clearStageWindows
  try dsimp only
  repeat' first
    | with_reducible assumption
    | with_reducible apply setWindows_orderly
    | with_reducible apply orderly_ite
    | with_reducible apply orderly_foldS
    | intro _

theorem traceSess_orderly {s0 s : State} (h : Orderly s0 s) (k : KSess) :
    Orderly s0 (traceSess s k) := by
  unfold traceSess
  try dsimp only
  repeat' first
    | with_reducible assumption
    | with_reducible apply trace_orderly

theorem dropStage_orderly {s0 s : State} (h : Orderly s0 s) (k : KSess) :
    Orderly s0 (dropStage s k) := by
  unfold dropStage
  try dsimp only
  repeat' first
    | with_reducible assumption
    | with_reducible apply quadPut_orderly
    | with_reducible apply orderly_ite
    | with_reducible apply orderly_foldS
    | intro _

theorem endSessBase_orderly {s0 s : State} (h : Orderly s0 s) (ix : Nat) (cause : Nat) (core : Option Nat) (status : Nat) :
    Orderly s0 (endSessBase s ix cause core status) := by
  unfold endSessBase
  try dsimp only
  repeat' first
    | with_reducible assumption
    | with_reducible apply bump_orderly
    | with_reducible apply faultRec_orderly
    | with_reducible apply sessPut_orderly
    | with_reducible apply sendKernelEvent_orderly
    | with_reducible apply clearStageWindows_orderly
    | with_reducible apply traceSess_orderly
    | with_reducible apply dropStage_orderly
    | with_reducible apply orderly_ite

theorem dropLaunch_orderly {s0 s : State} (h : Orderly s0 s) (ix : Nat) (status : Nat) :
    Orderly s0 (dropLaunch s ix status) := by
  unfold dropLaunch
  try dsimp only
  repeat' first
    | with_reducible assumption
    | with_reducible apply bump_orderly
    | with_reducible apply answer_orderly
    | with_reducible apply grdMod_orderly
    | with_reducible apply clearStageWindows_orderly
    | with_reducible apply orderly_ite
    | intro _
    | split

theorem clearSess_orderly {s0 s : State} (h : Orderly s0 s) (ix : Nat) :
    Orderly s0 (clearSess s ix) := by
  unfold clearSess
  try dsimp only
  repeat' first
    | with_reducible assumption
    | with_reducible apply grdMod_orderly
    | with_reducible apply sessPut_orderly
    | with_reducible apply quadPut_orderly
    | with_reducible apply orderly_ite
    | with_reducible apply orderly_foldS
    | intro _

theorem stageComplete_orderly {s0 s : State} (h : Orderly s0 s) (ix : Nat) (c : StageCmd) :
    Orderly s0 (stageComplete s ix c) := by
  unfold stageComplete
  try dsimp only
  repeat' first
    | with_reducible assumption
    | with_reducible apply bumpN_orderly
    | with_reducible apply sessPut_orderly
    | with_reducible apply quadPut_orderly

theorem stageDone_orderly {s0 s : State} (h : Orderly s0 s) (session : Nat) (ticket : Nat) :
    Orderly s0 (stageDone s session ticket) := by
  unfold stageDone
  try dsimp only
  repeat' first
    | with_reducible assumption
    | with_reducible apply stageComplete_orderly
    | with_reducible apply orderly_ite
    | intro _
    | split

theorem clxMod_orderly {s0 s : State} (h : Orderly s0 s) (f : Clx → Clx) :
    Orderly s0 (clxMod s f) := by
  unfold clxMod
  try dsimp only
  repeat' first
    | with_reducible assumption
    | with_reducible apply orderly_ite
    | exact Nat.le_refl _
    | rfl
    | intro _
    | split
    | dsimp only
    | with_reducible apply orderly_mk

theorem recPut_orderly {s0 s : State} (h : Orderly s0 s) (ix : Nat) (r : CollRec) :
    Orderly s0 (recPut s ix r) := by
  unfold recPut
  try dsimp only
  repeat' first
    | with_reducible assumption
    | with_reducible apply clxMod_orderly

theorem clxWindows_orderly {s0 s : State} (h : Orderly s0 s) (lane : Nat) :
    Orderly s0 (clxWindows s lane) := by
  unfold clxWindows
  try dsimp only
  repeat' first
    | with_reducible assumption
    | with_reducible apply setWindows_orderly
    | with_reducible apply clearWindows_orderly
    | with_reducible apply orderly_ite

theorem freeRec_orderly {s0 s : State} (h : Orderly s0 s) (ix : Nat) :
    Orderly s0 (freeRec s ix) := by
  unfold freeRec
  try dsimp only
  repeat' first
    | with_reducible assumption
    | with_reducible apply clxMod_orderly
    | with_reducible apply clxWindows_orderly

theorem sendAbort_orderly {s0 s : State} (h : Orderly s0 s) (r : CollRec) (g : CollNeigh) :
    Orderly s0 (sendAbort s r g) := by
  unfold sendAbort
  try dsimp only
  repeat' first
    | with_reducible assumption
    | with_reducible apply ctlSend_orderly

theorem answerCloses_orderly {s0 s : State} (h : Orderly s0 s) (ix : Nat) :
    Orderly s0 (answerCloses s ix) := by
  unfold answerCloses
  try dsimp only
  repeat' first
    | with_reducible assumption
    | with_reducible apply answer_orderly
    | with_reducible apply recPut_orderly
    | with_reducible apply freeRec_orderly
    | with_reducible apply orderly_ite
    | with_reducible apply orderly_foldS
    | intro _

theorem traceColl_orderly {s0 s : State} (h : Orderly s0 s) (r : CollRec) :
    Orderly s0 (traceColl s r) := by
  unfold traceColl
  try dsimp only
  repeat' first
    | with_reducible assumption
    | with_reducible apply trace_orderly

theorem failRecBase_orderly {s0 s : State} (h : Orderly s0 s) (ix : Nat) (cause : Nat) (but : Option (BitVec 12)) :
    Orderly s0 (failRecBase s ix cause but) := by
  unfold failRecBase
  try dsimp only
  repeat' first
    | with_reducible assumption
    | with_reducible apply bump_orderly
    | with_reducible apply faultRec_orderly
    | with_reducible apply recPut_orderly
    | with_reducible apply sendAbort_orderly
    | with_reducible apply answerCloses_orderly
    | with_reducible apply traceColl_orderly
    | with_reducible apply orderly_ite
    | with_reducible apply orderly_foldS
    | intro _

theorem endSess_orderly {s0 s : State} (h : Orderly s0 s) (ix : Nat) (cause : Nat) (core : Option Nat) (status : Nat) :
    Orderly s0 (endSess s ix cause core status) := by
  unfold endSess
  try dsimp only
  repeat' first
    | with_reducible assumption
    | with_reducible apply endSessBase_orderly
    | with_reducible apply failRecBase_orderly
    | with_reducible apply orderly_ite
    | with_reducible apply orderly_foldS
    | intro _

theorem failRec_orderly {s0 s : State} (h : Orderly s0 s) (ix : Nat) (cause : Nat) (but : Option (BitVec 12)) :
    Orderly s0 (failRec s ix cause but) := by
  unfold failRec
  try dsimp only
  repeat' first
    | with_reducible assumption
    | with_reducible apply failRecBase_orderly
    | with_reducible apply endSess_orderly
    | with_reducible apply orderly_ite
    | intro _
    | split

theorem strikeGrid_orderly {s0 s : State} (h : Orderly s0 s) (n : Nat) :
    Orderly s0 (strikeGrid s n) := by
  unfold strikeGrid
  try dsimp only
  repeat' first
    | with_reducible assumption
    | with_reducible apply dropLaunch_orderly
    | with_reducible apply endSess_orderly
    | with_reducible apply orderly_ite
    | with_reducible apply orderly_foldS
    | intro _
    | split

theorem strikeColl_orderly {s0 s : State} (h : Orderly s0 s) (n : Nat) :
    Orderly s0 (strikeColl s n) := by
  unfold strikeColl
  try dsimp only
  repeat' first
    | with_reducible assumption
    | with_reducible apply failRec_orderly
    | with_reducible apply orderly_ite
    | with_reducible apply orderly_foldS
    | intro _

theorem collFree_orderly {s0 s : State} (h : Orderly s0 s) (n : Nat) :
    Orderly s0 (collFree s n) := by
  unfold collFree
  try dsimp only
  repeat' first
    | with_reducible assumption
    | with_reducible apply freeRec_orderly
    | with_reducible apply answerCloses_orderly
    | with_reducible apply orderly_ite
    | with_reducible apply orderly_foldS
    | intro _

theorem collLostEndpoint_orderly {s0 s : State} (h : Orderly s0 s) (i : Nat) (n : Nat) :
    Orderly s0 (collLostEndpoint s i n) := by
  unfold collLostEndpoint
  try dsimp only
  repeat' first
    | with_reducible assumption
    | with_reducible apply failRec_orderly
    | with_reducible apply orderly_ite
    | with_reducible apply orderly_foldS
    | intro _

theorem collPageChange_orderly {s0 s : State} (h : Orderly s0 s) (n : Nat) (base : Nat) (size : Nat) :
    Orderly s0 (collPageChange s n base size) := by
  unfold collPageChange
  try dsimp only
  repeat' first
    | with_reducible assumption
    | with_reducible apply failRec_orderly
    | with_reducible apply orderly_ite
    | with_reducible apply orderly_foldS
    | intro _

theorem collForget_orderly {s0 s : State} (h : Orderly s0 s) (r : Req) :
    Orderly s0 (collForget s r) := by
  unfold collForget
  try dsimp only
  repeat' first
    | with_reducible assumption
    | with_reducible apply clxMod_orderly

theorem chunkMirrored_orderly {s0 s : State} (h : Orderly s0 s) (ix : Nat) (chunk : Nat) :
    Orderly s0 (chunkMirrored s ix chunk) := by
  unfold chunkMirrored
  try dsimp only
  repeat' first
    | with_reducible assumption
    | with_reducible apply recPut_orderly
    | with_reducible apply orderly_ite
    | intro _
    | split

theorem gridUnitLost_orderly {s0 s : State} (h : Orderly s0 s) (k : Nat) :
    Orderly s0 (gridUnitLost s k) := by
  unfold gridUnitLost
  try dsimp only
  repeat' first
    | with_reducible assumption
    | with_reducible apply endSess_orderly
    | with_reducible apply orderly_ite
    | with_reducible apply orderly_foldS
    | intro _

theorem swnMod_orderly {s0 s : State} (h : Orderly s0 s) (f : Swn → Swn) :
    Orderly s0 (swnMod s f) := by
  unfold swnMod
  try dsimp only
  repeat' first
    | with_reducible assumption
    | with_reducible apply orderly_ite
    | exact Nat.le_refl _
    | rfl
    | intro _
    | split
    | dsimp only
    | with_reducible apply orderly_mk

theorem dirPut_orderly {s0 s : State} (h : Orderly s0 s) (ix : Nat) (e : SwEnt) :
    Orderly s0 (dirPut s ix e) := by
  unfold dirPut
  try dsimp only
  repeat' first
    | with_reducible assumption
    | with_reducible apply swnMod_orderly

theorem dirDel_orderly {s0 s : State} (h : Orderly s0 s) (ix : Nat) :
    Orderly s0 (dirDel s ix) := by
  unfold dirDel
  try dsimp only
  repeat' first
    | with_reducible assumption
    | with_reducible apply swnMod_orderly

theorem answerAccess_orderly {s0 s : State} (h : Orderly s0 s) (r : Req) (status : Nat) :
    Orderly s0 (answerAccess s r status) := by
  unfold answerAccess
  try dsimp only
  repeat' first
    | with_reducible assumption
    | with_reducible apply answer_orderly
    | with_reducible apply orderly_ite

theorem sendInval_orderly {s0 s : State} (h : Orderly s0 s) (ix : Nat) (i : Nat) :
    Orderly s0 (sendInval s ix i) := by
  unfold sendInval
  try dsimp only
  repeat' first
    | with_reducible assumption
    | with_reducible apply bump_orderly
    | with_reducible apply ctlSend_orderly

theorem sendForward_orderly {s0 s : State} (h : Orderly s0 s) (ix : Nat) (owner : Nat) (requester : Nat) (own : Bool) :
    Orderly s0 (sendForward s ix owner requester own) := by
  unfold sendForward
  try dsimp only
  repeat' first
    | with_reducible assumption
    | with_reducible apply bump_orderly
    | with_reducible apply ctlSend_orderly

theorem sendHomeData_orderly {s0 s : State} (h : Orderly s0 s) (ix : Nat) (i : Nat) (grant : Nat) :
    Orderly s0 (sendHomeData s ix i grant) := by
  unfold sendHomeData
  try dsimp only
  repeat' first
    | with_reducible assumption
    | with_reducible apply ctlSend_orderly

theorem lineStore_orderly {s0 s : State} (h : Orderly s0 s) (n : Nat) (ppa : Nat) (bs : List Byte) :
    Orderly s0 (lineStore s n ppa bs) := by
  unfold lineStore
  try dsimp only
  repeat' first
    | with_reducible assumption
    | with_reducible apply memPut_orderly
    | with_reducible apply metaPut_orderly

theorem lineFreed_orderly {s0 s : State} (h : Orderly s0 s) (ix : Nat) (first : List Req) :
    Orderly s0 (lineFreed s ix first) := by
  unfold lineFreed
  try dsimp only
  repeat' first
    | with_reducible assumption
    | with_reducible apply swnMod_orderly
    | with_reducible apply dirPut_orderly
    | with_reducible apply dirDel_orderly
    | with_reducible apply orderly_ite

theorem startInvals_orderly {s0 s : State} (h : Orderly s0 s) (ix : Nat) (t : SwTxn) (agents : List Nat) :
    Orderly s0 (startInvals s ix t agents) := by
  unfold startInvals
  try dsimp only
  repeat' first
    | with_reducible assumption
    | with_reducible apply dirPut_orderly
    | with_reducible apply sendInval_orderly
    | with_reducible apply orderly_ite
    | with_reducible apply orderly_foldS
    | intro _

theorem txnStep_orderly {s0 s : State} (h : Orderly s0 s) (ix : Nat) :
    Orderly s0 (txnStep s ix) := by
  unfold txnStep
  try dsimp only
  repeat' first
    | with_reducible assumption
    | with_reducible apply lineWrite_orderly
    | with_reducible apply swnMod_orderly
    | with_reducible apply dirPut_orderly
    | with_reducible apply sendHomeData_orderly
    | with_reducible apply lineFreed_orderly
    | with_reducible apply startInvals_orderly
    | with_reducible apply orderly_ite
    | intro _
    | split

theorem recallEntry_orderly {s0 s : State} (h : Orderly s0 s) (ix : Nat) :
    Orderly s0 (recallEntry s ix) := by
  unfold recallEntry
  try dsimp only
  repeat' first
    | with_reducible assumption
    | with_reducible apply dirPut_orderly
    | with_reducible apply startInvals_orderly
    | with_reducible apply txnStep_orderly
    | with_reducible apply orderly_ite

theorem dirNew_orderly {s0 s : State} (h : Orderly s0 s) (ix : Nat) (line : Nat) (pva : Nat) (n : Nat) :
    Orderly s0 (dirNew s ix line pva n) := by
  unfold dirNew
  try dsimp only
  repeat' first
    | with_reducible assumption
    | with_reducible apply swnMod_orderly
    | with_reducible apply dirPut_orderly

theorem dirWait_orderly {s0 s : State} (h : Orderly s0 s) (ix : Nat) (r : Req) :
    Orderly s0 (dirWait s ix r) := by
  unfold dirWait
  try dsimp only
  repeat' first
    | with_reducible assumption
    | with_reducible apply markWindow_orderly
    | with_reducible apply dirPut_orderly

theorem withEntry_orderly {s0 s : State} (h : Orderly s0 s) (r : Req) (line : Nat) (pva : Nat) (go : State → Nat → State) (hgo : ∀ s, Orderly s0 s → ∀ x1, Orderly s0 (go s x1)) :
    Orderly s0 (withEntry s r line pva go) := by
  unfold withEntry
  try dsimp only
  repeat' first
    | with_reducible assumption
    | with_reducible apply bump_orderly
    | with_reducible apply bump0_orderly
    | with_reducible apply answer_orderly
    | with_reducible apply recallEntry_orderly
    | with_reducible apply dirNew_orderly
    | with_reducible apply dirWait_orderly
    | with_reducible apply orderly_ite
    | with_reducible apply hgo
    | intro _
    | split

theorem orderAgent_orderly {s0 s : State} (h : Orderly s0 s) (ix : Nat) (r : Req) (own : Bool) :
    Orderly s0 (orderAgent s ix r own) := by
  unfold orderAgent
  try dsimp only
  repeat' first
    | with_reducible assumption
    | with_reducible apply bump_orderly
    | with_reducible apply answer_orderly
    | with_reducible apply dirPut_orderly
    | with_reducible apply sendForward_orderly
    | with_reducible apply startInvals_orderly
    | with_reducible apply txnStep_orderly
    | with_reducible apply orderly_ite

theorem agentRequest_orderly {s0 s : State} (h : Orderly s0 s) (r : Req) (line : Nat) (pva : Nat) (own : Bool) :
    Orderly s0 (agentRequest s r line pva own) := by
  unfold agentRequest
  try dsimp only
  repeat' first
    | with_reducible assumption
    | with_reducible apply dirWait_orderly
    | with_reducible apply withEntry_orderly
    | with_reducible apply orderAgent_orderly
    | with_reducible apply orderly_ite
    | intro _
    | split

theorem takeLine_orderly {s0 s : State} (h : Orderly s0 s) (r : Req) (line : Nat) (pva : Nat) :
    Orderly s0 (takeLine s r line pva).1 := by
  unfold takeLine
  try dsimp only
  repeat' first
    | with_reducible assumption
    | with_reducible apply bump_orderly
    | with_reducible apply bump0_orderly
    | with_reducible apply markWindow_orderly
    | with_reducible apply dirPut_orderly
    | with_reducible apply answerAccess_orderly
    | with_reducible apply startInvals_orderly
    | with_reducible apply txnStep_orderly
    | with_reducible apply recallEntry_orderly
    | with_reducible apply dirNew_orderly
    | with_reducible apply dirWait_orderly
    | with_reducible apply orderly_ite
    | with_reducible apply orderly_fst_ite
    | intro _
    | split

theorem releaseLines_orderly {s0 s : State} (h : Orderly s0 s) (r : Req) :
    Orderly s0 (releaseLines s r) := by
  unfold releaseLines
  try dsimp only
  repeat' first
    | with_reducible assumption
    | with_reducible apply dirPut_orderly
    | with_reducible apply lineFreed_orderly
    | with_reducible apply orderly_ite
    | with_reducible apply orderly_foldS
    | intro _

theorem takeLines_orderly {s0 s : State} (h : Orderly s0 s) (r : Req) (ls : List (Nat × Nat)) :
    Orderly s0 (takeLines s r ls).1 := by
  induction ls generalizing s with
  | nil => exact h
  | cons p t ih =>
    unfold takeLines
    have h1 := takeLine_orderly h r p.2 p.1
    dsimp only
    split
    · exact ih h1
    · exact h1

theorem syncEnter_orderly {s0 s : State} (h : Orderly s0 s) (r : Req) (lines : List (Nat × Nat)) (write : Bool) :
    Orderly s0 (syncEnter s r lines write).1 := by
  unfold syncEnter
  try dsimp only
  repeat' first
    | with_reducible assumption
    | with_reducible apply bumpN_orderly
    | with_reducible apply markWindow_orderly
    | with_reducible apply startInvals_orderly
    | with_reducible apply txnStep_orderly
    | with_reducible apply dirWait_orderly
    | with_reducible apply releaseLines_orderly
    | with_reducible apply takeLines_orderly
    | with_reducible apply orderly_ite
    | with_reducible apply orderly_fst_ite
    | intro _
    | split

theorem answerWb_orderly {s0 s : State} (h : Orderly s0 s) (r : Req) (disposal : Nat) :
    Orderly s0 (answerWb s r disposal) := by
  unfold answerWb
  try dsimp only
  repeat' first
    | with_reducible assumption
    | with_reducible apply answer_orderly

theorem acceptWb_orderly {s0 s : State} (h : Orderly s0 s) (r : Req) (ix : Nat) :
    Orderly s0 (acceptWb s r ix) := by
  unfold acceptWb
  try dsimp only
  repeat' first
    | with_reducible assumption
    | with_reducible apply bump_orderly
    | with_reducible apply lineStore_orderly
    | with_reducible apply answerWb_orderly

theorem ownerGone_orderly {s0 s : State} (h : Orderly s0 s) (ix : Nat) :
    Orderly s0 (ownerGone s ix) := by
  unfold ownerGone
  try dsimp only
  repeat' first
    | with_reducible assumption
    | with_reducible apply dirPut_orderly
    | with_reducible apply lineFreed_orderly
    | with_reducible apply orderly_ite

theorem writeBack_orderly {s0 s : State} (h : Orderly s0 s) (r : Req) (line : Nat) :
    Orderly s0 (writeBack s r line) := by
  unfold writeBack
  try dsimp only
  repeat' first
    | with_reducible assumption
    | with_reducible apply bump_orderly
    | with_reducible apply markWindow_orderly
    | with_reducible apply swnMod_orderly
    | with_reducible apply dirPut_orderly
    | with_reducible apply txnStep_orderly
    | with_reducible apply answerWb_orderly
    | with_reducible apply acceptWb_orderly
    | with_reducible apply ownerGone_orderly
    | with_reducible apply orderly_ite
    | intro _
    | split

theorem swEvict_orderly {s0 s : State} (h : Orderly s0 s) (r : Req) (line : Nat) :
    Orderly s0 (swEvict s r line) := by
  unfold swEvict
  try dsimp only
  repeat' first
    | with_reducible assumption
    | with_reducible apply answer_orderly
    | with_reducible apply ownerGone_orderly
    | with_reducible apply orderly_ite
    | intro _
    | split

theorem swDone_orderly {s0 s : State} (h : Orderly s0 s) (r : Req) (line : Nat) :
    Orderly s0 (swDone s r line) := by
  unfold swDone
  try dsimp only
  repeat' first
    | with_reducible assumption
    | with_reducible apply answer_orderly
    | with_reducible apply dirPut_orderly
    | with_reducible apply txnStep_orderly
    | with_reducible apply orderly_ite
    | intro _
    | split

theorem dropHeld_orderly {s0 s : State} (h : Orderly s0 s) (line : Nat) (a : Nat) :
    Orderly s0 (dropHeld s line a) := by
  unfold dropHeld
  try dsimp only
  repeat' first
    | with_reducible assumption
    | with_reducible apply swnMod_orderly

theorem forwardAnswer_orderly {s0 s : State} (h : Orderly s0 s) (ix : Nat) (a : Nat) (result : Nat) (kept : Nat) (wb : Nat) :
    Orderly s0 (forwardAnswer s ix a result kept wb) := by
  unfold forwardAnswer
  try dsimp only
  repeat' first
    | with_reducible assumption
    | with_reducible apply bump_orderly
    | with_reducible apply dirPut_orderly
    | with_reducible apply txnStep_orderly
    | with_reducible apply answerWb_orderly
    | with_reducible apply acceptWb_orderly
    | with_reducible apply dropHeld_orderly
    | with_reducible apply orderly_ite
    | intro _
    | split

theorem invalAnswer_orderly {s0 s : State} (h : Orderly s0 s) (ix : Nat) (a : Nat) (wb : Nat) :
    Orderly s0 (invalAnswer s ix a wb) := by
  unfold invalAnswer
  try dsimp only
  repeat' first
    | with_reducible assumption
    | with_reducible apply dirPut_orderly
    | with_reducible apply txnStep_orderly
    | with_reducible apply orderly_ite
    | intro _
    | split

theorem agentLost_orderly {s0 s : State} (h : Orderly s0 s) (ix : Nat) (a : Nat) :
    Orderly s0 (agentLost s ix a) := by
  unfold agentLost
  try dsimp only
  repeat' first
    | with_reducible assumption
    | with_reducible apply bump_orderly
    | with_reducible apply dirPut_orderly
    | with_reducible apply txnStep_orderly
    | with_reducible apply ownerGone_orderly
    | with_reducible apply dropHeld_orderly
    | with_reducible apply orderly_ite
    | intro _
    | split

theorem cancelSw_orderly {s0 s : State} (h : Orderly s0 s) (line : Nat) (a : Nat) :
    Orderly s0 (cancelSw s line a) := by
  unfold cancelSw
  try dsimp only
  repeat' first
    | with_reducible assumption
    | with_reducible apply tptMod_orderly
    | with_reducible apply trkReopen_orderly

theorem revokeAgent_orderly {s0 s : State} (h : Orderly s0 s) (a : Nat) (n : Nat) (ctx : BitVec 16) :
    Orderly s0 (revokeAgent s a n ctx) := by
  unfold revokeAgent
  try dsimp only
  repeat' first
    | with_reducible assumption
    | with_reducible apply faultRec_orderly
    | with_reducible apply mtRemove_orderly
    | with_reducible apply collLostEndpoint_orderly
    | with_reducible apply agentLost_orderly
    | with_reducible apply cancelSw_orderly
    | with_reducible apply orderly_ite
    | with_reducible apply orderly_foldS
    | intro _

theorem swSendFailed_orderly {s0 s : State} (h : Orderly s0 s) (a : Nat) (n : Nat) (ctx : BitVec 16) :
    Orderly s0 (swSendFailed s a n ctx) := by
  unfold swSendFailed
  try dsimp only
  repeat' first
    | with_reducible assumption
    | with_reducible apply revokeAgent_orderly

theorem swDataFailed_orderly {s0 s : State} (h : Orderly s0 s) (line : Nat) (a : Nat) (n : Nat) (ctx : BitVec 16) :
    Orderly s0 (swDataFailed s line a n ctx) := by
  unfold swDataFailed
  try dsimp only
  repeat' first
    | with_reducible assumption
    | with_reducible apply faultRec_orderly
    | with_reducible apply mtRemove_orderly
    | with_reducible apply dirPut_orderly
    | with_reducible apply lineFreed_orderly
    | with_reducible apply orderly_ite
    | intro _
    | split

theorem swDoneTimeout_orderly {s0 s : State} (h : Orderly s0 s) (line : Nat) :
    Orderly s0 (swDoneTimeout s line) := by
  unfold swDoneTimeout
  try dsimp only
  repeat' first
    | with_reducible assumption
    | with_reducible apply nowTo_orderly
    | with_reducible apply dirPut_orderly
    | with_reducible apply sendInval_orderly
    | with_reducible apply orderly_ite
    | intro _
    | split

theorem strikeSync_orderly {s0 s : State} (h : Orderly s0 s) (n : Nat) :
    Orderly s0 (strikeSync s n) := by
  unfold strikeSync
  try dsimp only
  repeat' first
    | with_reducible assumption
    | with_reducible apply dirPut_orderly
    | with_reducible apply answerAccess_orderly
    | with_reducible apply recallEntry_orderly
    | with_reducible apply orderly_ite
    | with_reducible apply orderly_foldS
    | intro _

theorem syncDeadline_orderly {s0 s : State} (h : Orderly s0 s) (n : Nat) :
    Orderly s0 (syncDeadline s n) := by
  unfold syncDeadline
  try dsimp only
  repeat' first
    | with_reducible assumption
    | with_reducible apply swnMod_orderly
    | with_reducible apply answerAccess_orderly
    | with_reducible apply revokeAgent_orderly
    | with_reducible apply orderly_ite
    | with_reducible apply orderly_foldS
    | intro _

theorem syncForget_orderly {s0 s : State} (h : Orderly s0 s) (r : Req) :
    Orderly s0 (syncForget s r) := by
  unfold syncForget
  try dsimp only
  repeat' first
    | with_reducible assumption
    | with_reducible apply swnMod_orderly
    | with_reducible apply releaseLines_orderly

theorem syncDetach_orderly {s0 s : State} (h : Orderly s0 s) (i : Nat) (n : Nat) :
    Orderly s0 (syncDetach s i n) := by
  unfold syncDetach
  try dsimp only
  repeat' first
    | with_reducible assumption
    | with_reducible apply agentLost_orderly
    | with_reducible apply cancelSw_orderly
    | with_reducible apply orderly_ite
    | with_reducible apply orderly_foldS
    | intro _

theorem mirSet_orderly {s0 s : State} (h : Orderly s0 s) (n : Nat) (m : MirPitch) :
    Orderly s0 (mirSet s n m) := by
  unfold mirSet
  try dsimp only
  repeat' first
    | with_reducible assumption
    | with_reducible apply mirMod_orderly
    | with_reducible apply orderly_ite
    | rfl

theorem mirrorOp_orderly {s0 s : State} (h : Orderly s0 s) (n : Nat) (owner : BitVec 16) (ranges : List (Nat × Nat)) (w : MirWait) :
    Orderly s0 (mirrorOp s n owner ranges w) := by
  unfold mirrorOp
  try dsimp only
  repeat' first
    | with_reducible assumption
    | with_reducible apply mirMod_orderly
    | with_reducible apply bump_orderly
    | with_reducible apply ctlSend_orderly
    | with_reducible apply mirSet_orderly
    | with_reducible apply orderly_ite
    | with_reducible apply orderly_foldS
    | rfl
    | intro _

theorem mirDone_orderly {s0 s : State} (h : Orderly s0 s) (w : MirWait) :
    Orderly s0 (mirDone s w) := by
  unfold mirDone
  try dsimp only
  repeat' first
    | with_reducible assumption
    | with_reducible apply respond_orderly
    | with_reducible apply stageDone_orderly
    | with_reducible apply chunkMirrored_orderly
    | with_reducible apply orderly_ite
    | intro _
    | split

theorem mirForget_orderly {s0 s : State} (h : Orderly s0 s) (n : Nat) :
    Orderly s0 (mirForget s n) := by
  unfold mirForget
  try dsimp only
  repeat' first
    | with_reducible assumption
    | with_reducible apply tptMod_orderly

theorem mirFault_orderly {s0 s : State} (h : Orderly s0 s) (n : Nat) (cause : Nat) (cls : Nat) :
    Orderly s0 (mirFault s n cause cls) := by
  unfold mirFault
  try dsimp only
  repeat' first
    | with_reducible assumption
    | with_reducible apply faultUnit_orderly

theorem flyLost_orderly {s0 s : State} (h : Orderly s0 s) (n : Nat) :
    Orderly s0 (flyLost s n) := by
  unfold flyLost
  try dsimp only
  repeat' first
    | with_reducible assumption
    | with_reducible apply bump_orderly
    | with_reducible apply uMove_orderly
    | with_reducible apply mirSet_orderly
    | with_reducible apply mirDone_orderly
    | with_reducible apply mirForget_orderly
    | with_reducible apply mirFault_orderly
    | with_reducible apply orderly_ite
    | with_reducible apply orderly_foldS

theorem sendRelease_orderly {s0 s : State} (h : Orderly s0 s) (n : Nat) :
    Orderly s0 (sendRelease s n) := by
  unfold sendRelease
  try dsimp only
  repeat' first
    | with_reducible assumption
    | with_reducible apply ctlSend_orderly

theorem selfFence_orderly {s0 s : State} (h : Orderly s0 s) (n : Nat) (byLines : Bool) :
    Orderly s0 (selfFence s n byLines) := by
  unfold selfFence
  try dsimp only
  repeat' first
    | with_reducible assumption
    | with_reducible apply bump_orderly
    | with_reducible apply uMove_orderly
    | with_reducible apply respond_orderly
    | with_reducible apply mirSet_orderly
    | with_reducible apply mirForget_orderly
    | with_reducible apply mirFault_orderly
    | with_reducible apply sendRelease_orderly
    | with_reducible apply orderly_ite
    | with_reducible apply orderly_foldS
    | intro _
    | split

theorem takeover_orderly {s0 s : State} (h : Orderly s0 s) (n : Nat) :
    Orderly s0 (takeover s n) := by
  unfold takeover
  try dsimp only
  repeat' first
    | with_reducible assumption
    | with_reducible apply tptMod_orderly
    | with_reducible apply bump_orderly
    | with_reducible apply uMove_orderly
    | with_reducible apply mirSet_orderly
    | with_reducible apply mirFault_orderly
    | with_reducible apply orderly_ite

theorem degradePitch_orderly {s0 s : State} (h : Orderly s0 s) (n : Nat) (cause : Nat) (lo : Nat) (hi : Nat) :
    Orderly s0 (degradePitch s n cause lo hi) := by
  unfold degradePitch
  try dsimp only
  repeat' first
    | with_reducible assumption
    | with_reducible apply uMove_orderly
    | with_reducible apply faultUnit_orderly
    | with_reducible apply orderly_ite

theorem fencePitch_orderly {s0 s : State} (h : Orderly s0 s) (n : Nat) (cause : Nat) (lo : Nat) (hi : Nat) :
    Orderly s0 (fencePitch s n cause lo hi) := by
  unfold fencePitch
  try dsimp only
  repeat' first
    | with_reducible assumption
    | with_reducible apply uMove_orderly
    | with_reducible apply faultUnit_orderly
    | with_reducible apply selfFence_orderly
    | with_reducible apply orderly_ite

theorem cutStreams_orderly {s0 s : State} (h : Orderly s0 s) (p : TxFrame → Bool) (status : Nat) :
    Orderly s0 (cutStreams s p status) := by
  unfold cutStreams
  try dsimp only
  repeat' first
    | with_reducible assumption
    | with_reducible apply tptMod_orderly
    | with_reducible apply tmgMod_orderly

theorem portHandoff_orderly {s0 s : State} (h : Orderly s0 s) (p : Nat) :
    Orderly s0 (portHandoff s p) := by
  unfold portHandoff
  try dsimp only
  repeat' first
    | with_reducible assumption
    | with_reducible apply tptMod_orderly
    | with_reducible apply tmgMod_orderly
    | with_reducible apply bump0_orderly
    | with_reducible apply flowPut_orderly
    | with_reducible apply sendFrame_orderly
    | with_reducible apply orderly_ite
    | with_reducible apply orderly_foldS
    | intro _
    | split

theorem retireUnit_orderly {s0 s : State} (h : Orderly s0 s) (k : Nat) (cause : Nat) (lo : Nat) (hi : Nat) :
    Orderly s0 (retireUnit s k cause lo hi) := by
  unfold retireUnit
  try dsimp only
  repeat' first
    | with_reducible assumption
    | with_reducible apply uSet_orderly
    | with_reducible apply uMove_orderly
    | with_reducible apply faultUnit_orderly
    | with_reducible apply orderly_ite

theorem granuleReturned_orderly {s0 s : State} (h : Orderly s0 s) (g : Nat) (retired : Bool) :
    Orderly s0 (granuleReturned s g retired) := by
  unfold granuleReturned
  try dsimp only
  repeat' first
    | with_reducible assumption
    | with_reducible apply actMod_orderly
    | with_reducible apply granPut_orderly
    | with_reducible apply trace_orderly
    | with_reducible apply pSet_orderly
    | with_reducible apply orderly_ite
    | exact Nat.le_refl _
    | rfl
    | intro _
    | split
    | dsimp only
    | with_reducible apply orderly_mk

theorem groupLost_orderly {s0 s : State} (h : Orderly s0 s) (g : Nat) (cause : Nat) (lo : Nat) (hi : Nat) :
    Orderly s0 (groupLost s g cause lo hi) := by
  unfold groupLost
  try dsimp only
  repeat' first
    | with_reducible assumption
    | with_reducible apply tmgMod_orderly
    | with_reducible apply chMod_orderly
    | with_reducible apply selfFence_orderly
    | with_reducible apply degradePitch_orderly
    | with_reducible apply cutStreams_orderly
    | with_reducible apply retireUnit_orderly
    | with_reducible apply granuleReturned_orderly
    | with_reducible apply orderly_ite
    | with_reducible apply orderly_foldS
    | intro _

theorem retireGroup_orderly {s0 s : State} (h : Orderly s0 s) (g : Nat) (cause : Nat) (lo : Nat) (hi : Nat) :
    Orderly s0 (retireGroup s g cause lo hi) := by
  unfold retireGroup
  try dsimp only
  repeat' first
    | with_reducible assumption
    | with_reducible apply retireUnit_orderly
    | with_reducible apply groupLost_orderly
    | with_reducible apply orderly_ite

theorem retirePage_orderly {s0 s : State} (h : Orderly s0 s) (ppa : Nat) (kind : Nat) :
    Orderly s0 (retirePage s ppa kind) := by
  unfold retirePage
  try dsimp only
  repeat' first
    | with_reducible assumption
    | with_reducible apply bump_orderly
    | with_reducible apply granPut_orderly
    | with_reducible apply faultRec_orderly
    | with_reducible apply chMod_orderly
    | with_reducible apply ptPut_orderly
    | with_reducible apply splitPage_orderly
    | with_reducible apply ptChanged_orderly
    | with_reducible apply selfFence_orderly
    | with_reducible apply degradePitch_orderly
    | with_reducible apply retireGroup_orderly
    | with_reducible apply orderly_ite
    | intro _
    | split

theorem fenceUnit_orderly {s0 s : State} (h : Orderly s0 s) (k : Nat) (cause : Nat) (lo : Nat) (hi : Nat) :
    Orderly s0 (fenceUnit s k cause lo hi) := by
  unfold fenceUnit
  try dsimp only
  repeat' first
    | with_reducible assumption
    | with_reducible apply uMove_orderly
    | with_reducible apply faultUnit_orderly
    | with_reducible apply gridUnitLost_orderly
    | with_reducible apply selfFence_orderly
    | with_reducible apply fencePitch_orderly
    | with_reducible apply orderly_ite
    | with_reducible apply orderly_foldS
    | intro _
    | split

theorem degradeUnit_orderly {s0 s : State} (h : Orderly s0 s) (k : Nat) (cause : Nat) :
    Orderly s0 (degradeUnit s k cause) := by
  unfold degradeUnit
  try dsimp only
  repeat' first
    | with_reducible assumption
    | with_reducible apply uMove_orderly
    | with_reducible apply faultUnit_orderly
    | with_reducible apply orderly_ite

theorem chipStopBy_orderly {s0 s : State} (h : Orderly s0 s) (agent : Nat) (cause : Nat) :
    Orderly s0 (chipStopBy s agent cause) := by
  unfold chipStopBy
  try dsimp only
  repeat' first
    | with_reducible assumption
    | with_reducible apply fltMod_orderly
    | with_reducible apply faultRec_orderly
    | with_reducible apply strikeGrid_orderly
    | with_reducible apply strikeColl_orderly
    | with_reducible apply selfFence_orderly
    | with_reducible apply fencePitch_orderly
    | with_reducible apply orderly_ite
    | with_reducible apply orderly_foldS
    | exact Nat.le_refl _
    | rfl
    | intro _
    | split
    | dsimp only
    | with_reducible apply orderly_mk

theorem chipStop_orderly {s0 s : State} (h : Orderly s0 s) (cause : Nat) :
    Orderly s0 (chipStop s cause) := by
  unfold chipStop
  try dsimp only
  repeat' first
    | with_reducible assumption
    | with_reducible apply chipStopBy_orderly

end Sys2Proof.Machine
end

