-- ==== Sys2Proof/Laws/OrdReq.lean ====
section
/-! SUPPORT. What the operations of Request, MemReq, Master keep: `Orderly` of each. -/
namespace Sys2Proof.Machine

theorem bucketPut_orderly {s0 s : State} (h : Orderly s0 s) (n : Nat) (cls : Nat) (b : Bucket) :
    Orderly s0 (bucketPut s n cls b) := by
  unfold bucketPut
  try dsimp only
  repeat' first
    | with_reducible assumption
    | with_reducible apply tmgMod_orderly

theorem meter_orderly {s0 s : State} (h : Orderly s0 s) (n : Nat) (cls : Nat) (port : Nat) (dscp : Nat) (bytes : Nat) (ctx : BitVec 16) :
    Orderly s0 (meter s n cls port dscp bytes ctx).1 := by
  unfold meter
  try dsimp only
  repeat' first
    | with_reducible assumption
    | with_reducible apply tmgMod_orderly
    | with_reducible apply bump_orderly
    | with_reducible apply bucketPut_orderly
    | with_reducible apply orderly_ite
    | with_reducible apply orderly_fold_fst
    | with_reducible apply orderly_foldl
    | with_reducible apply orderly_fst_ite
    | intro _
    | split

theorem sendAck_orderly {s0 s : State} (h : Orderly s0 s) (id : FlowId) :
    Orderly s0 (sendAck s id) := by
  unfold sendAck
  try dsimp only
  repeat' first
    | with_reducible assumption
    | with_reducible apply bump_orderly
    | with_reducible apply flowPut_orderly
    | with_reducible apply sendFrame_orderly
    | with_reducible apply orderly_ite
    | with_reducible apply orderly_fold_fst
    | with_reducible apply orderly_foldl
    | intro _
    | split

theorem sendNack_orderly {s0 s : State} (h : Orderly s0 s) (id : FlowId) :
    Orderly s0 (sendNack s id) := by
  unfold sendNack
  try dsimp only
  repeat' first
    | with_reducible assumption
    | with_reducible apply bump_orderly
    | with_reducible apply flowPut_orderly
    | with_reducible apply sendFrame_orderly
    | with_reducible apply orderly_ite
    | with_reducible apply orderly_fold_fst
    | with_reducible apply orderly_foldl
    | intro _
    | split

theorem ackNow_orderly {s0 s : State} (h : Orderly s0 s) (id : FlowId) :
    Orderly s0 (ackNow s id) := by
  unfold ackNow
  try dsimp only
  repeat' first
    | with_reducible assumption
    | with_reducible apply sendAck_orderly
    | with_reducible apply sendNack_orderly
    | with_reducible apply orderly_ite
    | with_reducible apply orderly_fold_fst
    | with_reducible apply orderly_foldl
    | intro _
    | split

theorem refuse_orderly {s0 s : State} (h : Orderly s0 s) (r : Req) (c : Cnt) (perPitch : Bool) :
    Orderly s0 (refuse s r c perPitch) := by
  unfold refuse
  try dsimp only
  repeat' first
    | with_reducible assumption
    | with_reducible apply tptMod_orderly
    | with_reducible apply bump_orderly
    | with_reducible apply bump0_orderly
    | with_reducible apply enqueue_orderly
    | with_reducible apply excuse_orderly
    | with_reducible apply orderly_ite

theorem resendCached_orderly {s0 s : State} (h : Orderly s0 s) (r : Req) (e : CacheEnt) :
    Orderly s0 (resendCached s r e) := by
  unfold resendCached
  try dsimp only
  repeat' first
    | with_reducible assumption
    | with_reducible apply bump_orderly
    | with_reducible apply sendFrame_orderly

theorem ackDueIn_orderly {s0 s : State} (h : Orderly s0 s) (id : FlowId) :
    Orderly s0 (ackDueIn s id) := by
  unfold ackDueIn
  try dsimp only
  repeat' first
    | with_reducible assumption
    | with_reducible apply flowPut_orderly
    | with_reducible apply orderly_ite
    | with_reducible apply orderly_fold_fst
    | with_reducible apply orderly_foldl
    | intro _
    | split

theorem noteFresh_orderly {s0 s : State} (h : Orderly s0 s) (id : FlowId) :
    Orderly s0 (noteFresh s id) := by
  unfold noteFresh
  try dsimp only
  repeat' first
    | with_reducible assumption
    | with_reducible apply flowPut_orderly
    | with_reducible apply ackDueIn_orderly
    | with_reducible apply orderly_ite
    | with_reducible apply orderly_fold_fst
    | with_reducible apply orderly_foldl
    | intro _
    | split

theorem takeTracker_orderly {s0 s : State} (h : Orderly s0 s) (r : Req) :
    AdmitOrderly s0 (takeTracker s r) := by
  unfold takeTracker
  try dsimp only
  repeat' first
    | with_reducible assumption
    | with_reducible apply trkAdd_orderly
    | with_reducible apply refuse_orderly
    | with_reducible apply orderly_ite
    | with_reducible apply orderly_fold_fst
    | with_reducible apply orderly_foldl
    | with_reducible apply AdmitOrderly.done
    | with_reducible apply AdmitOrderly.go
    | with_reducible apply admit_ite
    | intro _
    | split

theorem check8_orderly {s0 s : State} (h : Orderly s0 s) (r : Req) (f : FlowSt) :
    AdmitOrderly s0 (check8 s r f) := by
  unfold check8
  try dsimp only
  repeat' first
    | with_reducible assumption
    | with_reducible apply bump_orderly
    | with_reducible apply flowPut_orderly
    | with_reducible apply ackNow_orderly
    | with_reducible apply resendCached_orderly
    | with_reducible apply ackDueIn_orderly
    | with_reducible apply noteFresh_orderly
    | with_reducible apply takeTracker_orderly
    | with_reducible apply orderly_ite
    | with_reducible apply orderly_fold_fst
    | with_reducible apply orderly_foldl
    | with_reducible apply AdmitOrderly.done
    | with_reducible apply AdmitOrderly.go
    | with_reducible apply admit_ite
    | intro _
    | split

theorem noteFrame_orderly {s0 s : State} (h : Orderly s0 s) (r : Req) (f : FlowSt) :
    Orderly s0 (noteFrame s r f).1 := by
  unfold noteFrame
  try dsimp only
  repeat' first
    | with_reducible assumption
    | with_reducible apply bump_orderly
    | with_reducible apply flowPut_orderly
    | with_reducible apply orderly_ite

theorem enterFlow_orderly {s0 s : State} (h : Orderly s0 s) (r : Req) :
    AdmitOrderly s0 (enterFlow s r) := by
  unfold enterFlow
  try dsimp only
  repeat' first
    | with_reducible assumption
    | with_reducible apply refuse_orderly
    | with_reducible apply takeTracker_orderly
    | with_reducible apply check8_orderly
    | with_reducible apply noteFrame_orderly
    | with_reducible apply orderly_ite
    | with_reducible apply orderly_fold_fst
    | with_reducible apply orderly_foldl
    | with_reducible apply AdmitOrderly.done
    | with_reducible apply AdmitOrderly.go
    | with_reducible apply admit_ite
    | intro _
    | split

theorem receive_orderly {s0 s : State} (h : Orderly s0 s) (op : Byte) (f : RxFrame) :
    AdmitOrderly s0 (receive s op f) := by
  unfold receive
  try dsimp only
  repeat' first
    | with_reducible assumption
    | with_reducible apply tptMod_orderly
    | with_reducible apply bumpN_orderly
    | with_reducible apply bump_orderly
    | with_reducible apply bump0_orderly
    | with_reducible apply poolTake_orderly
    | with_reducible apply mgmtMod_orderly
    | with_reducible apply meter_orderly
    | with_reducible apply enterFlow_orderly
    | with_reducible apply orderly_ite
    | with_reducible apply orderly_fold_fst
    | with_reducible apply orderly_foldl
    | with_reducible apply AdmitOrderly.done
    | with_reducible apply AdmitOrderly.go
    | with_reducible apply admit_ite
    | intro _
    | split

theorem issueMisses_orderly {s0 s : State} (h : Orderly s0 s) (r : Req) (slice : Nat) (pages : List Nat) :
    Orderly s0 (issueMisses s r slice pages) := by
  unfold issueMisses
  try dsimp only
  repeat' first
    | with_reducible assumption
    | with_reducible apply actMod_orderly
    | with_reducible apply bump_orderly
    | with_reducible apply answer_orderly
    | with_reducible apply orderly_ite
    | with_reducible apply orderly_fold_fst
    | with_reducible apply orderly_foldl
    | intro _
    | split

theorem fail14_orderly {s0 s : State} (h : Orderly s0 s) (r : Req) (slice : Nat) (status : Nat) (c : Option Cnt) (payload : List Byte) :
    Orderly s0 (fail14 s r slice status c payload) := by
  unfold fail14
  try dsimp only
  repeat' first
    | with_reducible assumption
    | with_reducible apply bump_orderly
    | with_reducible apply answer_orderly
    | with_reducible apply orderly_ite
    | with_reducible apply orderly_fold_fst
    | with_reducible apply orderly_foldl
    | intro _
    | split

theorem noteBadLine_orderly {s0 s : State} (h : Orderly s0 s) (ppa : Nat) (n : Nat) (v : LineVerdict) :
    Orderly s0 (noteBadLine s ppa n v) := by
  unfold noteBadLine
  try dsimp only
  repeat' first
    | with_reducible assumption
    | with_reducible apply bumpN_orderly
    | with_reducible apply bump_orderly
    | with_reducible apply orderly_ite
    | with_reducible apply orderly_fold_fst
    | with_reducible apply orderly_foldl
    | intro _
    | split

theorem badLine_orderly {s0 s : State} (h : Orderly s0 s) (ppa : Nat) (n : Nat) (v : LineVerdict) :
    Orderly s0 (badLine s ppa n v) := by
  unfold badLine
  try dsimp only
  repeat' first
    | with_reducible assumption
    | with_reducible apply retirePage_orderly
    | with_reducible apply noteBadLine_orderly
    | with_reducible apply orderly_ite
    | with_reducible apply orderly_fold_fst
    | with_reducible apply orderly_foldl
    | intro _
    | split

theorem writePiece_orderly {s0 s : State} (fuel : Nat) (h : Orderly s0 s) (n : Nat) (ctx : BitVec 16) (ppa : Nat)
    (bs : List Byte) : Orderly s0 (writePiece fuel s n ctx ppa bs) := by
  induction fuel generalizing s ppa bs with
  | zero => exact h
  | succ fuel ih => exact orderly_ite h (ih (lineWrite_orderly h _ _ _ _) _ _)

theorem writePieces_orderly {s0 s : State} (h : Orderly s0 s) (n : Nat) (ctx : BitVec 16) (ps : List Piece) (bs : List Byte) :
    Orderly s0 (writePieces s n ctx ps bs) := by
  induction ps generalizing s bs with
  | nil => exact h
  | cons p t ih => exact ih (writePiece_orderly _ h _ _ _ _) _

theorem queueWrites_orderly {s0 s : State} (h : Orderly s0 s) (r : Req) (lines : List Nat) :
    Orderly s0 (queueWrites s r lines) := by
  unfold queueWrites
  try dsimp only
  repeat' first
    | with_reducible assumption
    | with_reducible apply dmcRead_orderly
    | with_reducible apply dmcWrite_orderly
    | with_reducible apply orderly_ite
    | with_reducible apply orderly_foldS
    | with_reducible apply orderly_fold_fst
    | with_reducible apply orderly_foldl
    | intro _

theorem queueReads_orderly {s0 s : State} (h : Orderly s0 s) (r : Req) (lines : List Nat) :
    Orderly s0 (queueReads s r lines) := by
  unfold queueReads
  try dsimp only
  repeat' first
    | with_reducible assumption
    | with_reducible apply dmcRead_orderly
    | with_reducible apply orderly_ite
    | with_reducible apply orderly_foldS
    | with_reducible apply orderly_fold_fst
    | with_reducible apply orderly_foldl
    | intro _

theorem completeWrite_orderly {s0 s : State} (h : Orderly s0 s) (r : Req) (ranges : List (Nat × Nat)) (payload : List Byte) :
    Orderly s0 (completeWrite s r ranges payload) := by
  unfold completeWrite
  try dsimp only
  repeat' first
    | with_reducible assumption
    | with_reducible apply markWindow_orderly
    | with_reducible apply respond_orderly
    | with_reducible apply mirrorOp_orderly
    | with_reducible apply orderly_ite

theorem streamOut_orderly {s0 s : State} (h : Orderly s0 s) (r : Req) (address : Nat) (ps : List Piece) :
    Orderly s0 (streamOut s r address ps) := by
  unfold streamOut
  try dsimp only
  repeat' first
    | with_reducible assumption
    | with_reducible apply bump_orderly
    | with_reducible apply markWindow_orderly
    | with_reducible apply respSend_orderly
    | with_reducible apply respondAt_orderly
    | with_reducible apply sendSegs_orderly
    | with_reducible apply pkPut_orderly
    | with_reducible apply fail14_orderly
    | with_reducible apply badLine_orderly
    | with_reducible apply queueReads_orderly
    | with_reducible apply orderly_ite
    | with_reducible apply orderly_foldN
    | with_reducible apply orderly_fold_fst
    | with_reducible apply orderly_foldl
    | intro _
    | split

theorem copyLines_orderly {s0 s : State} (h : Orderly s0 s) (n : Nat) (ctx : BitVec 16) (ls : List (Nat × Nat)) :
    Orderly s0 (copyLines s n ctx ls).1 := by
  induction ls generalizing s with
  | nil => exact h
  | cons p t ih =>
    unfold copyLines
    repeat' split
    · exact h
    · exact h
    · exact ih (lineWrite_orderly h _ _ _ _)

theorem bulkMod_orderly {s0 s : State} (h : Orderly s0 s) (id : FlowId) (g : List BulkPut → List BulkPut) :
    Orderly s0 (bulkMod s id g) := by
  unfold bulkMod
  try dsimp only
  repeat' first
    | with_reducible assumption
    | with_reducible apply flowPut_orderly
    | with_reducible apply orderly_ite
    | with_reducible apply orderly_fold_fst
    | with_reducible apply orderly_foldl
    | intro _
    | split

theorem bulkDrop_orderly {s0 s : State} (h : Orderly s0 s) (id : FlowId) (seq : BitVec 24) :
    Orderly s0 (bulkDrop s id seq) := by
  unfold bulkDrop
  try dsimp only
  repeat' first
    | with_reducible assumption
    | with_reducible apply bulkMod_orderly

theorem bulkEnd_orderly {s0 s : State} (h : Orderly s0 s) (b : BulkPut) (status : Nat) (payload : List Byte) :
    Orderly s0 (bulkEnd s b status payload) := by
  unfold bulkEnd
  try dsimp only
  repeat' first
    | with_reducible assumption
    | with_reducible apply answer_orderly
    | with_reducible apply syncForget_orderly
    | with_reducible apply bulkDrop_orderly
    | with_reducible apply orderly_ite
    | with_reducible apply orderly_foldS
    | with_reducible apply orderly_fold_fst
    | with_reducible apply orderly_foldl
    | intro _

theorem bulkWrite_orderly {s0 s : State} (h : Orderly s0 s) (b : BulkPut) (r : Req) (pages : List Piece) :
    Orderly s0 (bulkWrite s b r pages) := by
  unfold bulkWrite
  try dsimp only
  repeat' first
    | with_reducible assumption
    | with_reducible apply bump_orderly
    | with_reducible apply markWindow_orderly
    | with_reducible apply respond_orderly
    | with_reducible apply answer_orderly
    | with_reducible apply lineWrite_orderly
    | with_reducible apply mirrorOp_orderly
    | with_reducible apply badLine_orderly
    | with_reducible apply queueWrites_orderly
    | with_reducible apply bulkMod_orderly
    | with_reducible apply bulkDrop_orderly
    | with_reducible apply bulkEnd_orderly
    | with_reducible apply orderly_ite
    | with_reducible apply orderly_fold_fst
    | with_reducible apply orderly_foldl
    | intro _
    | split

theorem xlateEntry_orderly {s0 s : State} (h : Orderly s0 s) (slice : Nat) (ep : BitVec 12) (n : Nat) :
    Orderly s0 (xlateEntry s slice ep n).1 := by
  unfold xlateEntry
  try dsimp only
  repeat' first
    | with_reducible assumption
    | with_reducible apply actMod_orderly
    | with_reducible apply bump_orderly
    | with_reducible apply hInvalidate_orderly
    | with_reducible apply orderly_ite
    | with_reducible apply orderly_fold_fst
    | with_reducible apply orderly_foldl
    | with_reducible apply orderly_fst_ite
    | intro _
    | split

theorem issueHandle_orderly {s0 s : State} (h : Orderly s0 s) (r : Req) (slice : Nat) (pva : Nat) (t : TlbEnt) :
    Orderly s0 (issueHandle s r slice pva t) := by
  unfold issueHandle
  try dsimp only
  repeat' first
    | with_reducible assumption
    | with_reducible apply actMod_orderly
    | with_reducible apply bump_orderly
    | with_reducible apply answer_orderly
    | with_reducible apply hPut_orderly
    | with_reducible apply xlateEntry_orderly

theorem refuseWrite_orderly {s0 s : State} (h : Orderly s0 s) (r : Req) (b : Nat × Nat × LineVerdict) :
    Orderly s0 (refuseWrite s r b) := by
  unfold refuseWrite
  try dsimp only
  repeat' first
    | with_reducible assumption
    | with_reducible apply bump_orderly
    | with_reducible apply answer_orderly
    | with_reducible apply badLine_orderly
    | with_reducible apply orderly_ite

theorem runWrite_orderly {s0 s : State} (h : Orderly s0 s) (r : Req) (ps : List Piece) :
    Orderly s0 (runWrite s r ps) := by
  unfold runWrite
  try dsimp only
  repeat' first
    | with_reducible assumption
    | with_reducible apply writePieces_orderly
    | with_reducible apply queueWrites_orderly
    | with_reducible apply completeWrite_orderly
    | with_reducible apply refuseWrite_orderly
    | with_reducible apply orderly_ite
    | with_reducible apply orderly_fold_fst
    | with_reducible apply orderly_foldl
    | intro _
    | split

theorem runNotify_orderly {s0 s : State} (h : Orderly s0 s) (r : Req) (ps : List Piece) (nt : List Piece) :
    Orderly s0 (runNotify s r ps nt) := by
  unfold runNotify
  try dsimp only
  repeat' first
    | with_reducible assumption
    | with_reducible apply writePieces_orderly
    | with_reducible apply queueWrites_orderly
    | with_reducible apply completeWrite_orderly
    | with_reducible apply refuseWrite_orderly
    | with_reducible apply orderly_ite
    | with_reducible apply orderly_fold_fst
    | with_reducible apply orderly_foldl
    | intro _
    | split

theorem runAtomic_orderly {s0 s : State} (h : Orderly s0 s) (r : Req) (ps : List Piece) :
    Orderly s0 (runAtomic s r ps) := by
  unfold runAtomic
  try dsimp only
  repeat' first
    | with_reducible assumption
    | with_reducible apply writePieces_orderly
    | with_reducible apply queueWrites_orderly
    | with_reducible apply completeWrite_orderly
    | with_reducible apply refuseWrite_orderly
    | with_reducible apply orderly_ite
    | with_reducible apply orderly_fold_fst
    | with_reducible apply orderly_foldl
    | intro _
    | split

theorem runCopy_orderly {s0 s : State} (h : Orderly s0 s) (r : Req) (src : List Piece) (dst : List Piece) :
    Orderly s0 (runCopy s r src dst) := by
  unfold runCopy
  try dsimp only
  repeat' first
    | with_reducible assumption
    | with_reducible apply answer_orderly
    | with_reducible apply queueWrites_orderly
    | with_reducible apply queueReads_orderly
    | with_reducible apply completeWrite_orderly
    | with_reducible apply copyLines_orderly
    | with_reducible apply refuseWrite_orderly
    | with_reducible apply orderly_ite
    | with_reducible apply orderly_fold_fst
    | with_reducible apply orderly_foldl
    | intro _
    | split

theorem runPut_orderly {s0 s : State} (h : Orderly s0 s) (r : Req) (ps : List Piece) :
    Orderly s0 (runPut s r ps) := by
  unfold runPut
  try dsimp only
  repeat' first
    | with_reducible assumption
    | with_reducible apply markWindow_orderly
    | with_reducible apply answer_orderly
    | with_reducible apply bulkMod_orderly
    | with_reducible apply bulkWrite_orderly
    | with_reducible apply orderly_ite
    | with_reducible apply orderly_foldS
    | with_reducible apply orderly_fold_fst
    | with_reducible apply orderly_foldl
    | intro _
    | split

theorem leaveLines_orderly {s0 s : State} (h : Orderly s0 s) (r : Req) :
    Orderly s0 (leaveLines s r) := by
  unfold leaveLines
  try dsimp only
  repeat' first
    | with_reducible assumption
    | with_reducible apply releaseLines_orderly

theorem obtainLines_orderly {s0 s : State} (h : Orderly s0 s) (r : Req) (p0 p1 : List Piece) :
    Orderly s0 (obtainLines s r p0 p1).1 := by
  unfold obtainLines
  try dsimp only
  repeat' first
    | with_reducible assumption
    | with_reducible apply syncEnter_orderly
    | with_reducible apply orderly_fst_ite
    | split

theorem memExec_orderly {s0 s : State} (h : Orderly s0 s) (r : Req) :
    Orderly s0 (memExec s r) := by
  unfold memExec
  try dsimp only
  repeat' first
    | with_reducible assumption
    | with_reducible apply answer_orderly
    | with_reducible apply obtainLines_orderly
    | with_reducible apply issueMisses_orderly
    | with_reducible apply fail14_orderly
    | with_reducible apply streamOut_orderly
    | with_reducible apply bulkDrop_orderly
    | with_reducible apply issueHandle_orderly
    | with_reducible apply runWrite_orderly
    | with_reducible apply runNotify_orderly
    | with_reducible apply runAtomic_orderly
    | with_reducible apply runCopy_orderly
    | with_reducible apply runPut_orderly
    | with_reducible apply leaveLines_orderly
    | with_reducible apply orderly_ite
    | with_reducible apply orderly_foldS
    | with_reducible apply orderly_fold_fst
    | with_reducible apply orderly_foldl
    | intro _
    | split

theorem bulkData_orderly {s0 s : State} (h : Orderly s0 s) (r : Req) :
    Orderly s0 (bulkData s r) := by
  unfold bulkData
  try dsimp only
  repeat' first
    | with_reducible assumption
    | with_reducible apply answer_orderly
    | with_reducible apply syncEnter_orderly
    | with_reducible apply bulkMod_orderly
    | with_reducible apply bulkWrite_orderly
    | with_reducible apply leaveLines_orderly
    | with_reducible apply orderly_ite
    | with_reducible apply orderly_fold_fst
    | with_reducible apply orderly_foldl
    | intro _
    | split

theorem xlateRelease_orderly {s0 s : State} (h : Orderly s0 s) (r : Req) :
    Orderly s0 (xlateRelease s r) := by
  unfold xlateRelease
  try dsimp only
  repeat' first
    | with_reducible assumption
    | with_reducible apply answer_orderly
    | with_reducible apply hFree_orderly
    | with_reducible apply orderly_ite
    | with_reducible apply orderly_foldS
    | with_reducible apply orderly_fold_fst
    | with_reducible apply orderly_foldl
    | intro _
    | split

theorem answerEarly_orderly {s0 s : State} (h : Orderly s0 s) (r : Req) (status : Nat) (payload : List Byte) :
    Orderly s0 (answerEarly s r status payload) := by
  unfold answerEarly
  try dsimp only
  repeat' first
    | with_reducible assumption
    | with_reducible apply answer_orderly
    | with_reducible apply bulkEnd_orderly
    | with_reducible apply orderly_ite
    | with_reducible apply orderly_fold_fst
    | with_reducible apply orderly_foldl
    | intro _
    | split

theorem checks_orderly {s0 s : State} (h : Orderly s0 s) (r : Req) (lenGood : Bool) (alignGood : Bool) (body : State → State) (hbody : ∀ s, Orderly s0 s → Orderly s0 (body s)) :
    Orderly s0 (checks s r lenGood alignGood body) := by
  unfold checks
  try dsimp only
  repeat' first
    | with_reducible assumption
    | with_reducible apply answerEarly_orderly
    | with_reducible apply orderly_ite
    | with_reducible apply hbody
    | with_reducible apply orderly_fold_fst
    | with_reducible apply orderly_foldl
    | intro _
    | split

theorem withRequest_orderly {s0 s : State} (h : Orderly s0 s) (op : Byte) (f : RxFrame) (body : State → Req → State) (hbody : ∀ s, Orderly s0 s → ∀ x1, Orderly s0 (body s x1)) :
    Orderly s0 (withRequest s op f body) := by
  unfold withRequest
  have hr := receive_orderly h op f
  split
  · rename_i e
    rw [e] at hr
    cases hr
    assumption
  · rename_i e
    rw [e] at hr
    cases hr
    exact ackNow_orderly (hbody _ (by assumption) _) _

theorem memRequest_orderly {s0 s : State} (h : Orderly s0 s) (op : Byte) (f : RxFrame) :
    Orderly s0 (memRequest s op f) := by
  unfold memRequest
  try dsimp only
  repeat' first
    | with_reducible assumption
    | with_reducible apply bulkMod_orderly
    | with_reducible apply memExec_orderly
    | with_reducible apply bulkData_orderly
    | with_reducible apply xlateRelease_orderly
    | with_reducible apply checks_orderly
    | with_reducible apply withRequest_orderly
    | with_reducible apply orderly_ite
    | with_reducible apply orderly_fold_fst
    | with_reducible apply orderly_foldl
    | intro _

theorem masterRead_orderly {s0 s : State} (h : Orderly s0 s) (n : Nat) (cls : Nat) (ps : List Piece) :
    Orderly s0 (masterRead s n cls ps).1 := by
  unfold masterRead
  try dsimp only
  repeat' first
    | with_reducible assumption
    | with_reducible apply dmcRead_orderly
    | with_reducible apply badLine_orderly
    | with_reducible apply orderly_ite
    | with_reducible apply orderly_foldS
    | with_reducible apply orderly_fold_fst
    | with_reducible apply orderly_foldl
    | with_reducible apply orderly_fst_ite
    | intro _
    | split

theorem masterWrite_orderly {s0 s : State} (h : Orderly s0 s) (n : Nat) (cls : Nat) (ctx : BitVec 16) (ps : List Piece) (bs : List Byte) :
    Orderly s0 (masterWrite s n cls ctx ps bs).1 := by
  unfold masterWrite
  try dsimp only
  repeat' first
    | with_reducible assumption
    | with_reducible apply dmcWrite_orderly
    | with_reducible apply badLine_orderly
    | with_reducible apply writePieces_orderly
    | with_reducible apply orderly_ite
    | with_reducible apply orderly_foldS
    | with_reducible apply orderly_fold_fst
    | with_reducible apply orderly_foldl
    | with_reducible apply orderly_fst_ite
    | intro _
    | split

end Sys2Proof.Machine
end

