-- ==== Sys2Proof/Laws/OrdGrid.lean ====
section
/-! SUPPORT. What the operations of GridCore, Grid keep: `Orderly` of each. -/
namespace Sys2Proof.Machine

theorem landIn_orderly {s0 s : State} (h : Orderly s0 s) (ix : Nat) (c : Nat) (lat : Nat) (to' : LandTo) :
    Orderly s0 (landIn s ix c lat to') := by
  unfold landIn
  try dsimp only
  repeat' first
    | with_reducible assumption
    | with_reducible apply sessPut_orderly

theorem coreFails_orderly {s0 s : State} (h : Orderly s0 s) (ix : Nat) (c : Nat) (cause : Nat) :
    Orderly s0 (coreFails s ix c cause) := by
  unfold coreFails
  try dsimp only
  repeat' first
    | with_reducible assumption
    | with_reducible apply endSess_orderly

theorem slotOp_orderly {s0 s : State} (h : Orderly s0 s) (core : BitVec 6) (i : Instr) (body : State → Nat → Nat → State) (hbody : ∀ s, Orderly s0 s → ∀ x1 x2, Orderly s0 (body s x1 x2)) :
    Orderly s0 (slotOp s core i body) := by
  unfold slotOp
  try dsimp only
  repeat' first
    | with_reducible assumption
    | with_reducible apply coreFails_orderly
    | with_reducible apply orderly_ite
    | with_reducible apply hbody
    | with_reducible apply orderly_fold_fst
    | with_reducible apply orderly_foldl
    | intro _
    | split

theorem sOp_orderly {s0 s : State} (h : Orderly s0 s) (core : BitVec 6) (i : Instr) (lat : Nat) (sd : BitVec 5) (v : Nat → DWord) :
    Orderly s0 (sOp s core i lat sd v) := by
  unfold sOp
  try dsimp only
  repeat' first
    | with_reducible assumption
    | with_reducible apply landIn_orderly
    | with_reducible apply slotOp_orderly
    | with_reducible apply orderly_ite
    | with_reducible apply orderly_fold_fst
    | with_reducible apply orderly_foldl
    | intro _

theorem vOp_orderly {s0 s : State} (h : Orderly s0 s) (core : BitVec 6) (i : Instr) (lat : Nat) (vd : BitVec 5) (pg : BitVec 3) (w : Nat) (f : State → Nat → Nat → Nat) :
    Orderly s0 (vOp s core i lat vd pg w f) := by
  unfold vOp
  try dsimp only
  repeat' first
    | with_reducible assumption
    | with_reducible apply landIn_orderly
    | with_reducible apply slotOp_orderly
    | with_reducible apply orderly_ite
    | with_reducible apply orderly_fold_fst
    | with_reducible apply orderly_foldl
    | intro _

theorem vFp2_orderly {s0 s : State} (h : Orderly s0 s) (core : BitVec 6) (i : Instr) (vd : BitVec 5) (va : BitVec 5) (vb : BitVec 5) (pg : BitVec 3) (ty : BitVec 3) (f : Fmt → Nat → Nat → Nat) :
    Orderly s0 (vFp2 s core i vd va vb pg ty f) := by
  unfold vFp2
  try dsimp only
  repeat' first
    | with_reducible assumption
    | with_reducible apply vOp_orderly

theorem vFp1_orderly {s0 s : State} (h : Orderly s0 s) (core : BitVec 6) (i : Instr) (lat : Nat) (vd : BitVec 5) (va : BitVec 5) (pg : BitVec 3) (f : Nat → Nat) :
    Orderly s0 (vFp1 s core i lat vd va pg f) := by
  unfold vFp1
  try dsimp only
  repeat' first
    | with_reducible assumption
    | with_reducible apply vOp_orderly

theorem vInt2_orderly {s0 s : State} (h : Orderly s0 s) (core : BitVec 6) (i : Instr) (vd : BitVec 5) (va : BitVec 5) (vb : BitVec 5) (pg : BitVec 3) (ty : BitVec 3) (f : Nat → Nat → Nat → Nat) :
    Orderly s0 (vInt2 s core i vd va vb pg ty f) := by
  unfold vInt2
  try dsimp only
  repeat' first
    | with_reducible assumption
    | with_reducible apply vOp_orderly

theorem vCmp_orderly {s0 s : State} (h : Orderly s0 s) (core : BitVec 6) (i : Instr) (pd : BitVec 3) (va : BitVec 5) (vb : BitVec 5) (pg : BitVec 3) (ty : BitVec 3) (f : Option Int → Bool) :
    Orderly s0 (vCmp s core i pd va vb pg ty f) := by
  unfold vCmp
  try dsimp only
  repeat' first
    | with_reducible assumption
    | with_reducible apply landIn_orderly
    | with_reducible apply slotOp_orderly
    | with_reducible apply orderly_ite
    | with_reducible apply orderly_fold_fst
    | with_reducible apply orderly_foldl
    | intro _

theorem pOp_orderly {s0 s : State} (h : Orderly s0 s) (core : BitVec 6) (i : Instr) (pd : BitVec 3) (f : State → Nat → BitVec 128) :
    Orderly s0 (pOp s core i pd f) := by
  unfold pOp
  try dsimp only
  repeat' first
    | with_reducible assumption
    | with_reducible apply landIn_orderly
    | with_reducible apply slotOp_orderly
    | with_reducible apply orderly_ite
    | with_reducible apply orderly_fold_fst
    | with_reducible apply orderly_foldl
    | intro _

theorem holdOp_orderly {s0 s : State} (h : Orderly s0 s) (ix : Nat) (c : Nat) (a : Nat) (len : Nat) (write : Bool) (body : State → State) (outside : State → State) (hbody : ∀ s, Orderly s0 s → Orderly s0 (body s)) (houtside : ∀ s, Orderly s0 s → Orderly s0 (outside s)) :
    Orderly s0 (holdOp s ix c a len write body outside) := by
  unfold holdOp
  try dsimp only
  repeat' first
    | with_reducible assumption
    | with_reducible apply bump_orderly
    | with_reducible apply coreFails_orderly
    | with_reducible apply orderly_ite
    | with_reducible apply hbody
    | with_reducible apply houtside

theorem branchTo_orderly {s0 s : State} (h : Orderly s0 s) (c : Nat) (off : BitVec 16) :
    Orderly s0 (branchTo s c off) := by
  unfold branchTo
  try dsimp only
  repeat' first
    | with_reducible assumption
    | with_reducible apply corePut_orderly

theorem branchOp_orderly {s0 s : State} (h : Orderly s0 s) (core : BitVec 6) (i : Instr) (off : BitVec 16) (taken : Nat → Bool) (also : State → Nat → Nat → State) (halso : ∀ s, Orderly s0 s → ∀ x1 x2, Orderly s0 (also s x1 x2)) :
    Orderly s0 (branchOp s core i off taken also) := by
  unfold branchOp
  try dsimp only
  repeat' first
    | with_reducible assumption
    | with_reducible apply coreFails_orderly
    | with_reducible apply slotOp_orderly
    | with_reducible apply branchTo_orderly
    | with_reducible apply orderly_ite
    | with_reducible apply halso
    | with_reducible apply orderly_fold_fst
    | with_reducible apply orderly_foldl
    | intro _

theorem sendOp_orderly {s0 s : State} (h : Orderly s0 s) (core : BitVec 6) (i : Instr) (vs : BitVec 5) (q : BitVec 2) (route : BitVec 12) :
    Orderly s0 (sendOp s core i vs q route) := by
  unfold sendOp
  try dsimp only
  repeat' first
    | with_reducible assumption
    | with_reducible apply bump_orderly
    | with_reducible apply sessPut_orderly
    | with_reducible apply coreFails_orderly
    | with_reducible apply slotOp_orderly
    | with_reducible apply orderly_ite
    | with_reducible apply orderly_fold_fst
    | with_reducible apply orderly_foldl
    | intro _
    | split

theorem recvOp_orderly {s0 s : State} (h : Orderly s0 s) (core : BitVec 6) (i : Instr) (vd : BitVec 5) (q : BitVec 2) (dir : BitVec 2) :
    Orderly s0 (recvOp s core i vd q dir) := by
  unfold recvOp
  try dsimp only
  repeat' first
    | with_reducible assumption
    | with_reducible apply corePut_orderly
    | with_reducible apply landIn_orderly
    | with_reducible apply coreFails_orderly
    | with_reducible apply slotOp_orderly
    | with_reducible apply orderly_ite
    | with_reducible apply orderly_fold_fst
    | with_reducible apply orderly_foldl
    | intro _
    | split

theorem cvtOp_orderly {s0 s : State} (h : Orderly s0 s) (core : BitVec 6) (i : Instr) (vd : BitVec 5) (va : BitVec 5) (src : Nat) (dst : Nat) (mode : Nat) (sat : Bool) (part : Nat) :
    Orderly s0 (cvtOp s core i vd va src dst mode sat part) := by
  unfold cvtOp
  try dsimp only
  repeat' first
    | with_reducible assumption
    | with_reducible apply draw_orderly
    | with_reducible apply landIn_orderly
    | with_reducible apply slotOp_orderly
    | with_reducible apply orderly_ite
    | with_reducible apply orderly_fold_fst
    | with_reducible apply orderly_foldl
    | intro _

theorem cvtSrOp_orderly {s0 s : State} (h : Orderly s0 s) (core : BitVec 6) (i : Instr) (vd : BitVec 5) (va : BitVec 5) (dst : Nat) (sat : Bool) (part : Nat) :
    Orderly s0 (cvtSrOp s core i vd va dst sat part) := by
  unfold cvtSrOp
  try dsimp only
  repeat' first
    | with_reducible assumption
    | with_reducible apply bumpN_orderly
    | with_reducible apply corePut_orderly
    | with_reducible apply landIn_orderly
    | with_reducible apply slotOp_orderly
    | with_reducible apply orderly_ite
    | with_reducible apply orderly_fold_fst
    | with_reducible apply orderly_foldl
    | intro _

theorem vmxOp_orderly {s0 s : State} (h : Orderly s0 s) (core : BitVec 6) (i : Instr) (vd : BitVec 5) (va : BitVec 5) (elt : Nat) (part : Nat) (sd : BitVec 5) :
    Orderly s0 (vmxOp s core i vd va elt part sd) := by
  unfold vmxOp
  try dsimp only
  repeat' first
    | with_reducible assumption
    | with_reducible apply landIn_orderly
    | with_reducible apply slotOp_orderly
    | with_reducible apply orderly_ite
    | with_reducible apply orderly_fold_fst
    | with_reducible apply orderly_foldl
    | intro _

theorem vrsumOp_orderly {s0 s : State} (h : Orderly s0 s) (core : BitVec 6) (i : Instr) (vd : BitVec 5) (va : BitVec 5) (pg : BitVec 3) (ty : BitVec 3) :
    Orderly s0 (vrsumOp s core i vd va pg ty) := by
  unfold vrsumOp
  try dsimp only
  repeat' first
    | with_reducible assumption
    | with_reducible apply landIn_orderly
    | with_reducible apply slotOp_orderly
    | with_reducible apply orderly_ite
    | with_reducible apply orderly_fold_fst
    | with_reducible apply orderly_foldl
    | intro _

theorem mxOp_orderly {s0 s : State} (h : Orderly s0 s) (core : BitVec 6) (i : Instr) (body : State → Nat → Nat → State) (hbody : ∀ s, Orderly s0 s → ∀ x1 x2, Orderly s0 (body s x1 x2)) :
    Orderly s0 (mxOp s core i body) := by
  unfold mxOp
  try dsimp only
  repeat' first
    | with_reducible assumption
    | with_reducible apply coreFails_orderly
    | with_reducible apply slotOp_orderly
    | with_reducible apply orderly_ite
    | with_reducible apply hbody
    | with_reducible apply orderly_fold_fst
    | with_reducible apply orderly_foldl
    | intro _

theorem mxMulOp_orderly {s0 s : State} (h : Orderly s0 s) (core : BitVec 6) (i : Instr) (ad : Nat) (ty : Nat) (z : Bool) (sa : BitVec 5) (sb : BitVec 5) (sk : BitVec 5) :
    Orderly s0 (mxMulOp s core i ad ty z sa sb sk) := by
  unfold mxMulOp
  try dsimp only
  repeat' first
    | with_reducible assumption
    | with_reducible apply quadPut_orderly
    | with_reducible apply coreFails_orderly
    | with_reducible apply mxOp_orderly
    | with_reducible apply orderly_ite
    | with_reducible apply orderly_fold_fst
    | with_reducible apply orderly_foldl
    | intro _

theorem mxStart_orderly {s0 s : State} (h : Orderly s0 s) (quad : Nat) :
    Orderly s0 (mxStart s quad) := by
  unfold mxStart
  try dsimp only
  repeat' first
    | with_reducible assumption
    | with_reducible apply quadPut_orderly
    | with_reducible apply endSess_orderly
    | with_reducible apply orderly_ite
    | with_reducible apply orderly_fold_fst
    | with_reducible apply orderly_foldl
    | intro _
    | split

theorem mxDone_orderly {s0 s : State} (h : Orderly s0 s) (quad : Nat) :
    Orderly s0 (mxDone s quad) := by
  unfold mxDone
  try dsimp only
  repeat' first
    | with_reducible assumption
    | with_reducible apply quadPut_orderly
    | with_reducible apply orderly_ite
    | with_reducible apply orderly_fold_fst
    | with_reducible apply orderly_foldl
    | intro _
    | split

theorem stageOp_orderly {s0 s : State} (h : Orderly s0 s) (core : BitVec 6) (i : Instr) (sn : BitVec 5) (out : Bool) :
    Orderly s0 (stageOp s core i sn out) := by
  unfold stageOp
  try dsimp only
  repeat' first
    | with_reducible assumption
    | with_reducible apply sessPut_orderly
    | with_reducible apply endSess_orderly
    | with_reducible apply coreFails_orderly
    | with_reducible apply slotOp_orderly
    | with_reducible apply orderly_ite
    | with_reducible apply orderly_fold_fst
    | with_reducible apply orderly_foldl
    | intro _
    | split

theorem gateOp_orderly {s0 s : State} (h : Orderly s0 s) (ix : Nat) (c : Nat) (g : Gate) :
    Orderly s0 (gateOp s ix c g) := by
  unfold gateOp
  try dsimp only
  repeat' first
    | with_reducible assumption
    | with_reducible apply sessPut_orderly
    | with_reducible apply corePut_orderly
    | with_reducible apply orderly_ite

theorem objRead_orderly {s0 s : State} (h : Orderly s0 s) (n : Nat) (object : DWord) (len : Nat) :
    Orderly s0 (objRead s n object len).1 := by
  unfold objRead
  try dsimp only
  repeat' first
    | with_reducible assumption
    | with_reducible apply masterRead_orderly
    | with_reducible apply orderly_ite
    | with_reducible apply orderly_fold_fst
    | with_reducible apply orderly_foldl
    | with_reducible apply orderly_fst_ite
    | intro _
    | split

theorem setSessWindows_orderly {s0 s : State} (h : Orderly s0 s) (k : KSess) (ws : List KWindow) :
    Orderly s0 (setSessWindows s k ws) := by
  unfold setSessWindows
  try dsimp only
  repeat' first
    | with_reducible assumption
    | with_reducible apply setWindows_orderly
    | with_reducible apply orderly_ite
    | with_reducible apply orderly_foldS
    | with_reducible apply orderly_fold_fst
    | with_reducible apply orderly_foldl
    | intro _

theorem enterLoading_orderly {s0 s : State} (h : Orderly s0 s) (ix : Nat) :
    Orderly s0 (enterLoading s ix) := by
  unfold enterLoading
  try dsimp only
  repeat' first
    | with_reducible assumption
    | with_reducible apply sessPut_orderly
    | with_reducible apply setSessWindows_orderly

theorem launchRefuse_orderly {s0 s : State} (h : Orderly s0 s) (r : Req) (status : Nat) (payload : List Byte) :
    Orderly s0 (launchRefuse s r status payload) := by
  unfold launchRefuse
  try dsimp only
  repeat' first
    | with_reducible assumption
    | with_reducible apply bump_orderly
    | with_reducible apply answer_orderly

theorem launchExec_orderly {s0 s : State} (h : Orderly s0 s) (r : Req) :
    Orderly s0 (launchExec s r) := by
  unfold launchExec
  try dsimp only
  repeat' first
    | with_reducible assumption
    | with_reducible apply bump_orderly
    | with_reducible apply markWindow_orderly
    | with_reducible apply grdMod_orderly
    | with_reducible apply sessPut_orderly
    | with_reducible apply masterRead_orderly
    | with_reducible apply objRead_orderly
    | with_reducible apply enterLoading_orderly
    | with_reducible apply launchRefuse_orderly
    | with_reducible apply orderly_ite
    | with_reducible apply orderly_fold_fst
    | with_reducible apply orderly_foldl
    | intro _
    | split

theorem kernelLaunch_orderly {s0 s : State} (h : Orderly s0 s) (op : Byte) (f : RxFrame) :
    Orderly s0 (kernelLaunch s op f) := by
  unfold kernelLaunch
  try dsimp only
  repeat' first
    | with_reducible assumption
    | with_reducible apply withRequest_orderly
    | with_reducible apply launchRefuse_orderly
    | with_reducible apply launchExec_orderly
    | with_reducible apply orderly_ite
    | with_reducible apply orderly_fold_fst
    | with_reducible apply orderly_foldl
    | intro _
    | split

theorem beginCycle_orderly {s0 s : State} (h : Orderly s0 s) (ix : Nat) :
    Orderly s0 (beginCycle s ix) := by
  unfold beginCycle
  try dsimp only
  repeat' first
    | with_reducible assumption
    | with_reducible apply sessPut_orderly
    | with_reducible apply endSess_orderly
    | with_reducible apply orderly_ite
    | with_reducible apply orderly_fold_fst
    | with_reducible apply orderly_foldl
    | exact Nat.le_refl _
    | rfl
    | intro _
    | split
    | dsimp only
    | with_reducible apply orderly_mk

theorem loadDone_orderly {s0 s : State} (h : Orderly s0 s) (ix : Nat) :
    Orderly s0 (loadDone s ix) := by
  unfold loadDone
  try dsimp only
  repeat' first
    | with_reducible assumption
    | with_reducible apply bump_orderly
    | with_reducible apply answer_orderly
    | with_reducible apply sessPut_orderly
    | with_reducible apply corePut_orderly
    | with_reducible apply clearStageWindows_orderly
    | with_reducible apply dropLaunch_orderly
    | with_reducible apply objRead_orderly
    | with_reducible apply setSessWindows_orderly
    | with_reducible apply orderly_ite
    | with_reducible apply orderly_foldS
    | with_reducible apply orderly_fold_fst
    | with_reducible apply orderly_foldl
    | intro _
    | split

theorem loadFail_orderly {s0 s : State} (h : Orderly s0 s) (ix : Nat) :
    Orderly s0 (loadFail s ix) := by
  unfold loadFail
  try dsimp only
  repeat' first
    | with_reducible assumption
    | with_reducible apply dropLaunch_orderly
    | with_reducible apply objRead_orderly
    | with_reducible apply orderly_ite
    | with_reducible apply orderly_fold_fst
    | with_reducible apply orderly_foldl
    | intro _
    | split

theorem dequeue_orderly {s0 s : State} (h : Orderly s0 s) (ix : Nat) :
    Orderly s0 (dequeue s ix) := by
  unfold dequeue
  try dsimp only
  repeat' first
    | with_reducible assumption
    | with_reducible apply grdMod_orderly
    | with_reducible apply enterLoading_orderly
    | with_reducible apply orderly_ite

theorem landApply_orderly {s0 s : State} (h : Orderly s0 s) (l : Land) :
    Orderly s0 (landApply s l) := by
  unfold landApply
  try dsimp only
  repeat' first
    | with_reducible assumption
    | with_reducible apply corePut_orderly
    | with_reducible apply quadPut_orderly
    | with_reducible apply orderly_ite
    | with_reducible apply orderly_fold_fst
    | with_reducible apply orderly_foldl
    | intro _
    | split

theorem moveFlits_orderly {s0 s : State} (h : Orderly s0 s) (ix : Nat) :
    Orderly s0 (moveFlits s ix).1 := by
  unfold moveFlits
  try dsimp only
  repeat' first
    | with_reducible assumption
    | with_reducible apply sessPut_orderly
    | with_reducible apply corePut_orderly
    | with_reducible apply orderly_ite
    | with_reducible apply orderly_fold_fst
    | with_reducible apply orderly_foldl
    | with_reducible apply orderly_fst_ite
    | intro _
    | split

theorem advanceCore_orderly {s0 s : State} (h : Orderly s0 s) (c : Nat) :
    Orderly s0 (advanceCore s c) := by
  unfold advanceCore
  try dsimp only
  repeat' first
    | with_reducible assumption
    | with_reducible apply corePut_orderly

theorem endCycle_orderly {s0 s : State} (h : Orderly s0 s) (ix : Nat) :
    Orderly s0 (endCycle s ix) := by
  unfold endCycle
  try dsimp only
  repeat' first
    | with_reducible assumption
    | with_reducible apply bump_orderly
    | with_reducible apply sessPut_orderly
    | with_reducible apply endSess_orderly
    | with_reducible apply beginCycle_orderly
    | with_reducible apply landApply_orderly
    | with_reducible apply moveFlits_orderly
    | with_reducible apply advanceCore_orderly
    | with_reducible apply orderly_ite
    | with_reducible apply orderly_foldS
    | with_reducible apply orderly_fold_fst
    | with_reducible apply orderly_foldl
    | intro _
    | split

theorem issueStage_orderly {s0 s : State} (h : Orderly s0 s) (ix : Nat) :
    Orderly s0 (issueStage s ix) := by
  unfold issueStage
  try dsimp only
  repeat' first
    | with_reducible assumption
    | with_reducible apply grdMod_orderly
    | with_reducible apply sessPut_orderly
    | with_reducible apply quadPut_orderly
    | with_reducible apply endSess_orderly
    | with_reducible apply orderly_ite
    | with_reducible apply orderly_foldS
    | with_reducible apply orderly_fold_fst
    | with_reducible apply orderly_foldl
    | intro _

theorem openGates_orderly {s0 s : State} (h : Orderly s0 s) (ix : Nat) :
    Orderly s0 (openGates s ix) := by
  unfold openGates
  try dsimp only
  repeat' first
    | with_reducible assumption
    | with_reducible apply sessPut_orderly
    | with_reducible apply corePut_orderly
    | with_reducible apply orderly_ite
    | with_reducible apply orderly_foldS
    | with_reducible apply orderly_fold_fst
    | with_reducible apply orderly_foldl
    | intro _
    | split

theorem sessTick_orderly {s0 s : State} (h : Orderly s0 s) (ix : Nat) :
    Orderly s0 (sessTick s ix) := by
  unfold sessTick
  try dsimp only
  repeat' first
    | with_reducible assumption
    | with_reducible apply bump_orderly
    | with_reducible apply beginCycle_orderly
    | with_reducible apply endCycle_orderly
    | with_reducible apply issueStage_orderly
    | with_reducible apply openGates_orderly
    | with_reducible apply orderly_ite

theorem gridTick_orderly {s0 s : State} (h : Orderly s0 s)  :
    Orderly s0 (gridTick s) := by
  unfold gridTick
  try dsimp only
  repeat' first
    | with_reducible assumption
    | with_reducible apply sessTick_orderly
    | with_reducible apply orderly_ite
    | with_reducible apply orderly_foldS

theorem targetPut_orderly {s0 s : State} (h : Orderly s0 s) (c : StageCmd) (bs : List Byte) :
    Orderly s0 (targetPut s c bs) := by
  unfold targetPut
  try dsimp only
  repeat' first
    | with_reducible assumption
    | with_reducible apply corePut_orderly
    | with_reducible apply quadPut_orderly
    | with_reducible apply orderly_ite

theorem stageRun_orderly {s0 s : State} (h : Orderly s0 s) (quad : Nat) :
    Orderly s0 (stageRun s quad) := by
  unfold stageRun
  try dsimp only
  repeat' first
    | with_reducible assumption
    | with_reducible apply quadPut_orderly
    | with_reducible apply stageComplete_orderly
    | with_reducible apply endSess_orderly
    | with_reducible apply releaseLines_orderly
    | with_reducible apply syncEnter_orderly
    | with_reducible apply mirrorOp_orderly
    | with_reducible apply masterRead_orderly
    | with_reducible apply masterWrite_orderly
    | with_reducible apply targetPut_orderly
    | with_reducible apply orderly_ite
    | with_reducible apply orderly_fold_fst
    | with_reducible apply orderly_foldl
    | intro _
    | split

theorem sessDone_orderly {s0 s : State} (h : Orderly s0 s) (ix : Nat) :
    Orderly s0 (sessDone s ix) := by
  unfold sessDone
  try dsimp only
  repeat' first
    | with_reducible assumption
    | with_reducible apply sessPut_orderly
    | with_reducible apply endSess_orderly
    | with_reducible apply issueStage_orderly
    | with_reducible apply openGates_orderly
    | with_reducible apply orderly_ite

theorem sessDeadline_orderly {s0 s : State} (h : Orderly s0 s) (ix : Nat) :
    Orderly s0 (sessDeadline s ix) := by
  unfold sessDeadline
  try dsimp only
  repeat' first
    | with_reducible assumption
    | with_reducible apply nowTo_orderly
    | with_reducible apply dropLaunch_orderly
    | with_reducible apply endSess_orderly
    | with_reducible apply orderly_ite
    | with_reducible apply orderly_fold_fst
    | with_reducible apply orderly_foldl
    | intro _
    | split

theorem sessCleared_orderly {s0 s : State} (h : Orderly s0 s) (ix : Nat) :
    Orderly s0 (sessCleared s ix) := by
  unfold sessCleared
  try dsimp only
  repeat' first
    | with_reducible assumption
    | with_reducible apply clearSess_orderly
    | with_reducible apply orderly_ite

theorem sessExpire_orderly {s0 s : State} (h : Orderly s0 s) (ix : Nat) :
    Orderly s0 (sessExpire s ix) := by
  unfold sessExpire
  try dsimp only
  repeat' first
    | with_reducible assumption
    | with_reducible apply nowTo_orderly
    | with_reducible apply grdMod_orderly
    | with_reducible apply sessCleared_orderly
    | with_reducible apply orderly_ite

theorem onSess_orderly {s0 s : State} (h : Orderly s0 s) (number : BitVec 16) (f : State → Nat → State) (hf : ∀ s, Orderly s0 s → ∀ x1, Orderly s0 (f s x1)) :
    Orderly s0 (onSess s number f) := by
  unfold onSess
  try dsimp only
  repeat' first
    | with_reducible assumption
    | with_reducible apply orderly_ite
    | with_reducible apply hf
    | with_reducible apply orderly_fold_fst
    | with_reducible apply orderly_foldl
    | intro _
    | split

theorem kernelMsg_orderly {s0 s : State} (h : Orderly s0 s) (op : Byte) (f : RxFrame) :
    Orderly s0 (kernelMsg s op f) := by
  unfold kernelMsg
  try dsimp only
  repeat' first
    | with_reducible assumption
    | with_reducible apply answer_orderly
    | with_reducible apply endSess_orderly
    | with_reducible apply checks_orderly
    | with_reducible apply withRequest_orderly
    | with_reducible apply orderly_ite
    | with_reducible apply orderly_fold_fst
    | with_reducible apply orderly_foldl
    | intro _
    | split

end Sys2Proof.Machine
end

