-- ==== Sys2Proof/Laws/OrdColl.lean ====
section
/-! SUPPORT. What the operations of Coll, SyncReq, Pitch, Resp, MemEvents, MirReq keep: `Orderly` of each. -/
namespace Sys2Proof.Machine

theorem openChunks_orderly {s0 : State} (fuel : Nat) {s : State} (h : Orderly s0 s) (ix : Nat) :
    Orderly s0 (openChunks fuel s ix) := by
  induction fuel generalizing s with
  | zero => exact h
  | succ fuel ih =>
    exact orderly_ite h (orderly_ite (ih (recPut_orderly h _ _)) (orderly_ite (bump0_orderly (recPut_orderly h _ _) _) h))

theorem openMore_orderly {s0 s : State} (h : Orderly s0 s) (ix : Nat) :
    Orderly s0 (openMore s ix) := by
  unfold openMore
  try dsimp only
  repeat' first
    | with_reducible assumption
    | with_reducible apply openChunks_orderly

theorem chunkPut_orderly {s0 s : State} (h : Orderly s0 s) (ix : Nat) (k : Nat) (c : CollChunk) :
    Orderly s0 (chunkPut s ix k c) := by
  unfold chunkPut
  try dsimp only
  repeat' first
    | with_reducible assumption
    | with_reducible apply recPut_orderly

theorem sendUnits_orderly {s0 s : State} (h : Orderly s0 s) (r : CollRec) (k : Nat) (op : Nat) (who : Nat) (ep : BitVec 12) (ctx : BitVec 16) (cap : Nat) (us : List (Nat × List Byte)) :
    Orderly s0 (sendUnits s r k op who ep ctx cap us).1 := by
  unfold sendUnits
  try dsimp only
  repeat' first
    | with_reducible assumption
    | with_reducible apply ctlSend_orderly
    | with_reducible apply orderly_ite
    | with_reducible apply orderly_foldS
    | with_reducible apply orderly_fold_fst
    | with_reducible apply orderly_foldl
    | with_reducible apply orderly_fst_ite
    | intro _

theorem writeChunk_orderly {s0 s : State} (h : Orderly s0 s) (ix : Nat) (k : Nat) :
    Orderly s0 (writeChunk s ix k) := by
  unfold writeChunk
  try dsimp only
  repeat' first
    | with_reducible assumption
    | with_reducible apply failRec_orderly
    | with_reducible apply releaseLines_orderly
    | with_reducible apply syncEnter_orderly
    | with_reducible apply mirrorOp_orderly
    | with_reducible apply masterWrite_orderly
    | with_reducible apply chunkPut_orderly
    | with_reducible apply orderly_ite
    | with_reducible apply orderly_fold_fst
    | with_reducible apply orderly_foldl
    | intro _
    | split

theorem sendResult_orderly {s0 s : State} (h : Orderly s0 s) (ix : Nat) (k : Nat) :
    Orderly s0 (sendResult s ix k) := by
  unfold sendResult
  try dsimp only
  repeat' first
    | with_reducible assumption
    | with_reducible apply chunkPut_orderly
    | with_reducible apply sendUnits_orderly
    | with_reducible apply orderly_ite
    | with_reducible apply orderly_fold_fst
    | with_reducible apply orderly_foldl
    | intro _
    | split

theorem postChunks_orderly {s0 : State} (fuel : Nat) {s : State} (h : Orderly s0 s) (ix : Nat) :
    Orderly s0 (postChunks fuel s ix) := by
  induction fuel generalizing s with
  | zero => exact h
  | succ fuel ih => exact orderly_ite h (orderly_ite (ih (recPut_orderly h _ _)) h)

theorem chunkStep_orderly {s0 s : State} (h : Orderly s0 s) (ix : Nat) (k : Nat) :
    Orderly s0 (chunkStep s ix k) := by
  unfold chunkStep
  try dsimp only
  repeat' first
    | with_reducible assumption
    | with_reducible apply bumpN_orderly
    | with_reducible apply openMore_orderly
    | with_reducible apply chunkPut_orderly
    | with_reducible apply sendUnits_orderly
    | with_reducible apply writeChunk_orderly
    | with_reducible apply sendResult_orderly
    | with_reducible apply postChunks_orderly
    | with_reducible apply orderly_ite
    | with_reducible apply orderly_fold_fst
    | with_reducible apply orderly_foldl
    | intro _
    | split

theorem stepAll_orderly {s0 s : State} (h : Orderly s0 s) (ix : Nat) :
    Orderly s0 (stepAll s ix) := by
  unfold stepAll
  try dsimp only
  repeat' first
    | with_reducible assumption
    | with_reducible apply chunkStep_orderly
    | with_reducible apply orderly_ite
    | with_reducible apply orderly_foldS
    | with_reducible apply orderly_fold_fst
    | with_reducible apply orderly_foldl
    | intro _

theorem openDeny_orderly {s0 s : State} (h : Orderly s0 s) (r : Req) (status : Nat) (field : Nat) (payload : List Byte) :
    Orderly s0 (openDeny s r status field payload) := by
  unfold openDeny
  try dsimp only
  repeat' first
    | with_reducible assumption
    | with_reducible apply bump_orderly
    | with_reducible apply answer_orderly

theorem openAccept_orderly {s0 s : State} (h : Orderly s0 s) (r : Req) (d : CollDesc) :
    Orderly s0 (openAccept s r d) := by
  unfold openAccept
  try dsimp only
  repeat' first
    | with_reducible assumption
    | with_reducible apply bump_orderly
    | with_reducible apply answer_orderly
    | with_reducible apply recPut_orderly
    | with_reducible apply clxWindows_orderly
    | with_reducible apply openMore_orderly

theorem collOpenReq_orderly {s0 s : State} (h : Orderly s0 s) (op : Byte) (f : RxFrame) :
    Orderly s0 (collOpenReq s op f) := by
  unfold collOpenReq
  try dsimp only
  repeat' first
    | with_reducible assumption
    | with_reducible apply withRequest_orderly
    | with_reducible apply openDeny_orderly
    | with_reducible apply openAccept_orderly
    | with_reducible apply orderly_ite
    | with_reducible apply orderly_fold_fst
    | with_reducible apply orderly_foldl
    | intro _
    | split

theorem touchWork_orderly {s0 s : State} (h : Orderly s0 s) (ix : Nat) (k : Nat) :
    Orderly s0 (touchWork s ix k) := by
  unfold touchWork
  try dsimp only
  repeat' first
    | with_reducible assumption
    | with_reducible apply draw_orderly
    | with_reducible apply lineWrite_orderly
    | with_reducible apply failRec_orderly
    | with_reducible apply badLine_orderly
    | with_reducible apply orderly_ite
    | with_reducible apply orderly_foldS
    | with_reducible apply orderly_fold_fst
    | with_reducible apply orderly_foldl
    | intro _
    | split

theorem takeUnit_orderly {s0 s : State} (h : Orderly s0 s) (ix : Nat) (child : Bool) (who : Nat) (op : Nat) (e : Nat × List Byte) :
    Orderly s0 (takeUnit s ix child who op e) := by
  unfold takeUnit
  try dsimp only
  repeat' first
    | with_reducible assumption
    | with_reducible apply chunkPut_orderly
    | with_reducible apply touchWork_orderly
    | with_reducible apply orderly_ite

theorem collFrame_orderly {s0 s : State} (h : Orderly s0 s) (r : Req) :
    Orderly s0 (collFrame s r) := by
  unfold collFrame
  try dsimp only
  repeat' first
    | with_reducible assumption
    | with_reducible apply bumpN_orderly
    | with_reducible apply bump_orderly
    | with_reducible apply answer_orderly
    | with_reducible apply chunkPut_orderly
    | with_reducible apply chunkStep_orderly
    | with_reducible apply takeUnit_orderly
    | with_reducible apply orderly_ite
    | with_reducible apply orderly_foldS
    | with_reducible apply orderly_fold_fst
    | with_reducible apply orderly_foldl
    | intro _
    | split

theorem collClose_orderly {s0 s : State} (h : Orderly s0 s) (r : Req) :
    Orderly s0 (collClose s r) := by
  unfold collClose
  try dsimp only
  repeat' first
    | with_reducible assumption
    | with_reducible apply bump_orderly
    | with_reducible apply markWindow_orderly
    | with_reducible apply answer_orderly
    | with_reducible apply clxMod_orderly
    | with_reducible apply recPut_orderly
    | with_reducible apply freeRec_orderly
    | with_reducible apply failRec_orderly
    | with_reducible apply orderly_ite
    | with_reducible apply orderly_fold_fst
    | with_reducible apply orderly_foldl
    | intro _
    | split

theorem collQuery_orderly {s0 s : State} (h : Orderly s0 s) (r : Req) :
    Orderly s0 (collQuery s r) := by
  unfold collQuery
  try dsimp only
  repeat' first
    | with_reducible assumption
    | with_reducible apply answer_orderly
    | with_reducible apply orderly_ite
    | with_reducible apply orderly_fold_fst
    | with_reducible apply orderly_foldl
    | intro _
    | split

theorem collRequest_orderly {s0 s : State} (h : Orderly s0 s) (op : Byte) (f : RxFrame) :
    Orderly s0 (collRequest s op f) := by
  unfold collRequest
  try dsimp only
  repeat' first
    | with_reducible assumption
    | with_reducible apply checks_orderly
    | with_reducible apply withRequest_orderly
    | with_reducible apply collFrame_orderly
    | with_reducible apply collClose_orderly
    | with_reducible apply collQuery_orderly
    | with_reducible apply orderly_ite
    | with_reducible apply orderly_fold_fst
    | with_reducible apply orderly_foldl
    | intro _

theorem collStart_orderly {s0 s : State} (h : Orderly s0 s) (ix : Nat) :
    Orderly s0 (collStart s ix) := by
  unfold collStart
  try dsimp only
  repeat' first
    | with_reducible assumption
    | with_reducible apply cd10To_orderly
    | with_reducible apply recPut_orderly
    | with_reducible apply stepAll_orderly
    | with_reducible apply orderly_ite
    | with_reducible apply orderly_fold_fst
    | with_reducible apply orderly_foldl
    | intro _
    | split

theorem collPace_orderly {s0 s : State} (h : Orderly s0 s) (ix : Nat) (k : Nat) :
    Orderly s0 (collPace s ix k) := by
  unfold collPace
  try dsimp only
  repeat' first
    | with_reducible assumption
    | with_reducible apply cd10To_orderly
    | with_reducible apply chunkStep_orderly
    | with_reducible apply orderly_ite
    | with_reducible apply orderly_fold_fst
    | with_reducible apply orderly_foldl
    | intro _
    | split

theorem collFinished_orderly {s0 s : State} (h : Orderly s0 s) (ix : Nat) (k : Nat) :
    Orderly s0 (collFinished s ix k) := by
  unfold collFinished
  try dsimp only
  repeat' first
    | with_reducible assumption
    | with_reducible apply bump_orderly
    | with_reducible apply recPut_orderly
    | with_reducible apply answerCloses_orderly
    | with_reducible apply traceColl_orderly
    | with_reducible apply orderly_ite
    | with_reducible apply orderly_fold_fst
    | with_reducible apply orderly_foldl
    | intro _
    | split

theorem collDeadline_orderly {s0 s : State} (h : Orderly s0 s) (ix : Nat) :
    Orderly s0 (collDeadline s ix) := by
  unfold collDeadline
  try dsimp only
  repeat' first
    | with_reducible assumption
    | with_reducible apply nowTo_orderly
    | with_reducible apply cd10To_orderly
    | with_reducible apply failRec_orderly
    | with_reducible apply collFinished_orderly
    | with_reducible apply orderly_ite
    | with_reducible apply orderly_foldS
    | with_reducible apply orderly_fold_fst
    | with_reducible apply orderly_foldl
    | intro _
    | split

theorem collExpire_orderly {s0 s : State} (h : Orderly s0 s) (ix : Nat) :
    Orderly s0 (collExpire s ix) := by
  unfold collExpire
  try dsimp only
  repeat' first
    | with_reducible assumption
    | with_reducible apply nowTo_orderly
    | with_reducible apply freeRec_orderly
    | with_reducible apply orderly_ite
    | with_reducible apply orderly_fold_fst
    | with_reducible apply orderly_foldl
    | intro _
    | split

theorem collForgetId_orderly {s0 s : State} (h : Orderly s0 s) (n : BitVec 8) (id : Nat) :
    Orderly s0 (collForgetId s n id) := by
  unfold collForgetId
  try dsimp only
  repeat' first
    | with_reducible assumption
    | with_reducible apply nowTo_orderly
    | with_reducible apply clxMod_orderly
    | with_reducible apply orderly_ite
    | with_reducible apply orderly_fold_fst
    | with_reducible apply orderly_foldl
    | intro _
    | split

theorem collAcked_orderly {s0 s : State} (h : Orderly s0 s) (id : Nat) (n : BitVec 8) (k : Nat) (op : Byte) :
    Orderly s0 (collAcked s id n k op) := by
  unfold collAcked
  try dsimp only
  repeat' first
    | with_reducible assumption
    | with_reducible apply chunkPut_orderly
    | with_reducible apply chunkStep_orderly
    | with_reducible apply orderly_ite
    | with_reducible apply orderly_fold_fst
    | with_reducible apply orderly_foldl
    | intro _
    | split

theorem collSendFailed_orderly {s0 s : State} (h : Orderly s0 s) (id : Nat) (n : BitVec 8) :
    Orderly s0 (collSendFailed s id n) := by
  unfold collSendFailed
  try dsimp only
  repeat' first
    | with_reducible assumption
    | with_reducible apply failRec_orderly
    | with_reducible apply orderly_ite
    | with_reducible apply orderly_fold_fst
    | with_reducible apply orderly_foldl
    | intro _
    | split

theorem swAgent_orderly {s0 s : State} (h : Orderly s0 s) (r : Req) (line : Nat) :
    Orderly s0 (swAgent s r line) := by
  unfold swAgent
  try dsimp only
  repeat' first
    | with_reducible assumption
    | with_reducible apply bump_orderly
    | with_reducible apply answer_orderly
    | with_reducible apply agentRequest_orderly
    | with_reducible apply badLine_orderly
    | with_reducible apply orderly_ite
    | with_reducible apply orderly_fold_fst
    | with_reducible apply orderly_foldl
    | intro _
    | split

theorem syncExec_orderly {s0 s : State} (h : Orderly s0 s) (r : Req) :
    Orderly s0 (syncExec s r) := by
  unfold syncExec
  try dsimp only
  repeat' first
    | with_reducible assumption
    | with_reducible apply writeBack_orderly
    | with_reducible apply swEvict_orderly
    | with_reducible apply swDone_orderly
    | with_reducible apply issueMisses_orderly
    | with_reducible apply fail14_orderly
    | with_reducible apply swAgent_orderly
    | with_reducible apply orderly_ite
    | with_reducible apply orderly_fold_fst
    | with_reducible apply orderly_foldl
    | intro _
    | split

theorem rerun_orderly {s0 s : State} (h : Orderly s0 s) (r : Req) :
    Orderly s0 (rerun s r) := by
  unfold rerun
  try dsimp only
  repeat' first
    | with_reducible assumption
    | with_reducible apply memExec_orderly
    | with_reducible apply bulkData_orderly
    | with_reducible apply syncExec_orderly
    | with_reducible apply orderly_ite

theorem settleLoop_orderly {s0 : State} (fuel : Nat) {s : State} (h : Orderly s0 s) : Orderly s0 (settleLoop fuel s) := by
  induction fuel generalizing s with
  | zero => exact h
  | succ fuel ih =>
    unfold settleLoop
    split
    · exact h
    · exact ih (rerun_orderly (swnMod_orderly h _) _)

theorem settle_orderly {s0 s : State} (h : Orderly s0 s)  :
    Orderly s0 (settle s) := by
  unfold settle
  try dsimp only
  repeat' first
    | with_reducible assumption
    | with_reducible apply releaseLines_orderly
    | with_reducible apply settleLoop_orderly
    | with_reducible apply orderly_ite
    | with_reducible apply orderly_foldS

theorem syncRequest_orderly {s0 s : State} (h : Orderly s0 s) (op : Byte) (f : RxFrame) :
    Orderly s0 (syncRequest s op f) := by
  unfold syncRequest
  try dsimp only
  repeat' first
    | with_reducible assumption
    | with_reducible apply checks_orderly
    | with_reducible apply withRequest_orderly
    | with_reducible apply syncExec_orderly
    | with_reducible apply settle_orderly
    | with_reducible apply orderly_ite
    | with_reducible apply orderly_fold_fst
    | with_reducible apply orderly_foldl
    | intro _

theorem lcDeny_orderly {s0 s : State} (h : Orderly s0 s) (r : Req) (reason : Nat) (field : Nat) :
    Orderly s0 (lcDeny s r reason field) := by
  unfold lcDeny
  try dsimp only
  repeat' first
    | with_reducible assumption
    | with_reducible apply bump0_orderly
    | with_reducible apply answer_orderly

theorem setLife_orderly {s0 s : State} (h : Orderly s0 s) (n : Nat) (l : Life) (op : Nat) :
    Orderly s0 (setLife s n l op) := by
  unfold setLife
  try dsimp only
  repeat' first
    | with_reducible assumption
    | with_reducible apply trace_orderly
    | with_reducible apply pSet_orderly

theorem moveUnit_orderly {s0 s : State} (h : Orderly s0 s) (n : Nat) (i : Intent) (a : Actual) :
    Orderly s0 (moveUnit s n i a) := by
  unfold moveUnit
  try dsimp only
  repeat' first
    | with_reducible assumption
    | with_reducible apply uSet_orderly
    | with_reducible apply uMove_orderly

theorem fillBuckets_orderly {s0 s : State} (h : Orderly s0 s) (n : Nat) :
    Orderly s0 (fillBuckets s n) := by
  unfold fillBuckets
  try dsimp only
  repeat' first
    | with_reducible assumption
    | with_reducible apply tmgMod_orderly
    | with_reducible apply bucketPut_orderly
    | with_reducible apply orderly_ite
    | with_reducible apply orderly_foldN
    | with_reducible apply orderly_fold_fst
    | with_reducible apply orderly_foldl
    | intro _

theorem mapPitch_orderly {s0 s : State} (h : Orderly s0 s) (n : Nat) :
    Orderly s0 (mapPitch s n) := by
  unfold mapPitch
  try dsimp only
  repeat' first
    | with_reducible assumption
    | with_reducible apply ptPut_orderly
    | with_reducible apply mapSlot_orderly
    | with_reducible apply unmapSlot_orderly
    | with_reducible apply splitPage_orderly
    | with_reducible apply orderly_ite
    | with_reducible apply orderly_foldS
    | with_reducible apply orderly_fold_fst
    | with_reducible apply orderly_foldl
    | intro _

theorem mapCocoons_orderly {s0 s : State} (h : Orderly s0 s) (n : Nat) :
    Orderly s0 (mapCocoons s n) := by
  unfold mapCocoons
  try dsimp only
  repeat' first
    | with_reducible assumption
    | with_reducible apply setPageAttrs_orderly
    | with_reducible apply orderly_ite
    | with_reducible apply orderly_foldS
    | with_reducible apply orderly_fold_fst
    | with_reducible apply orderly_foldl
    | intro _

theorem bindFly_orderly {s0 s : State} (h : Orderly s0 s) (n : Nat) (peer : Nat) (ctx : BitVec 16) :
    Orderly s0 (bindFly s n peer ctx) := by
  unfold bindFly
  try dsimp only
  repeat' first
    | with_reducible assumption
    | with_reducible apply mtPut_orderly

theorem dropContexts_orderly {s0 s : State} (h : Orderly s0 s) (cs : List (BitVec 16)) :
    Orderly s0 (dropContexts s cs) := by
  unfold dropContexts
  try dsimp only
  repeat' first
    | with_reducible assumption
    | with_reducible apply mtRemove_orderly
    | with_reducible apply orderly_ite
    | with_reducible apply orderly_foldS
    | with_reducible apply orderly_fold_fst
    | with_reducible apply orderly_foldl
    | intro _

theorem startProbe_orderly {s0 s : State} (h : Orderly s0 s) (n : Nat) (v : Settings) :
    Orderly s0 (startProbe s n v) := by
  unfold startProbe
  try dsimp only
  repeat' first
    | with_reducible assumption
    | with_reducible apply mirSet_orderly
    | with_reducible apply bindFly_orderly
    | with_reducible apply orderly_ite
    | with_reducible apply orderly_fold_fst
    | with_reducible apply orderly_foldl
    | intro _
    | split

theorem acceptCreate_orderly {s0 s : State} (h : Orderly s0 s) (r : Req) (n : Nat) (v : Settings) :
    Orderly s0 (acceptCreate s r n v) := by
  unfold acceptCreate
  try dsimp only
  repeat' first
    | with_reducible assumption
    | with_reducible apply bump0_orderly
    | with_reducible apply zeroPitchCounters_orderly
    | with_reducible apply granPut_orderly
    | with_reducible apply pSet_orderly
    | with_reducible apply markWindow_orderly
    | with_reducible apply slotPut_orderly
    | with_reducible apply pkPut_orderly
    | with_reducible apply setLife_orderly
    | with_reducible apply moveUnit_orderly
    | with_reducible apply fillBuckets_orderly
    | with_reducible apply startProbe_orderly
    | with_reducible apply orderly_ite
    | with_reducible apply orderly_foldS
    | with_reducible apply orderly_fold_fst
    | with_reducible apply orderly_foldl
    | intro _

theorem releaseCreate_orderly {s0 s : State} (h : Orderly s0 s) (n : Nat) :
    Orderly s0 (releaseCreate s n) := by
  unfold releaseCreate
  try dsimp only
  repeat' first
    | with_reducible assumption
    | with_reducible apply actMod_orderly
    | with_reducible apply granPut_orderly
    | with_reducible apply pSet_orderly
    | with_reducible apply slotPut_orderly
    | with_reducible apply pkPut_orderly
    | with_reducible apply mirSet_orderly
    | with_reducible apply setLife_orderly
    | with_reducible apply moveUnit_orderly
    | with_reducible apply dropContexts_orderly
    | with_reducible apply orderly_ite
    | with_reducible apply orderly_foldS
    | with_reducible apply orderly_fold_fst
    | with_reducible apply orderly_foldl
    | intro _
    | split

theorem createDone_orderly {s0 s : State} (h : Orderly s0 s) (n : Nat) :
    Orderly s0 (createDone s n) := by
  unfold createDone
  try dsimp only
  repeat' first
    | with_reducible assumption
    | with_reducible apply pSet_orderly
    | with_reducible apply answer_orderly
    | with_reducible apply setLife_orderly
    | with_reducible apply moveUnit_orderly
    | with_reducible apply mapPitch_orderly
    | with_reducible apply orderly_ite
    | with_reducible apply orderly_fold_fst
    | with_reducible apply orderly_foldl
    | intro _
    | split

theorem createFails_orderly {s0 s : State} (h : Orderly s0 s) (n : Nat) (reason : Nat) :
    Orderly s0 (createFails s n reason) := by
  unfold createFails
  try dsimp only
  repeat' first
    | with_reducible assumption
    | with_reducible apply lcDeny_orderly
    | with_reducible apply releaseCreate_orderly
    | with_reducible apply orderly_ite
    | with_reducible apply orderly_fold_fst
    | with_reducible apply orderly_foldl
    | intro _
    | split

theorem fumWindows_orderly {s0 s : State} (h : Orderly s0 s)  :
    Orderly s0 (fumWindows s) := by
  unfold fumWindows
  try dsimp only
  repeat' first
    | with_reducible assumption
    | with_reducible apply setWindows_orderly
    | with_reducible apply clearWindows_orderly
    | with_reducible apply orderly_ite

theorem strikeCocoons_orderly {s0 s : State} (h : Orderly s0 s) (n : Nat) :
    Orderly s0 (strikeCocoons s n) := by
  unfold strikeCocoons
  try dsimp only
  repeat' first
    | with_reducible assumption
    | with_reducible apply bump_orderly
    | with_reducible apply answer_orderly
    | with_reducible apply pkPut_orderly
    | with_reducible apply fumWindows_orderly
    | with_reducible apply orderly_ite
    | with_reducible apply orderly_foldS
    | with_reducible apply orderly_fold_fst
    | with_reducible apply orderly_foldl
    | intro _

theorem startStrike_orderly {s0 s : State} (h : Orderly s0 s) (r : Req) (n : Nat) (op : Nat) (fold : Bool) :
    Orderly s0 (startStrike s r n op fold) := by
  unfold startStrike
  try dsimp only
  repeat' first
    | with_reducible assumption
    | with_reducible apply pSet_orderly
    | with_reducible apply markWindow_orderly
    | with_reducible apply recallStart_orderly
    | with_reducible apply strikeGrid_orderly
    | with_reducible apply strikeColl_orderly
    | with_reducible apply strikeSync_orderly
    | with_reducible apply setLife_orderly
    | with_reducible apply moveUnit_orderly
    | with_reducible apply strikeCocoons_orderly

theorem forgetReq_orderly {s0 s : State} (h : Orderly s0 s) (r : Req) :
    Orderly s0 (forgetReq s r) := by
  unfold forgetReq
  try dsimp only
  repeat' first
    | with_reducible assumption
    | with_reducible apply actMod_orderly
    | with_reducible apply collForget_orderly
    | with_reducible apply syncForget_orderly
    | with_reducible apply bulkMod_orderly

theorem failAtDeadline_orderly {s0 s : State} (h : Orderly s0 s) (r : Req) :
    Orderly s0 (failAtDeadline s r).1 := by
  unfold failAtDeadline
  try dsimp only
  repeat' first
    | with_reducible assumption
    | with_reducible apply answer_orderly
    | with_reducible apply cutStreams_orderly
    | with_reducible apply forgetReq_orderly
    | with_reducible apply orderly_ite
    | with_reducible apply orderly_fold_fst
    | with_reducible apply orderly_foldl
    | with_reducible apply orderly_fst_ite

theorem dropSource_orderly {s0 s : State} (h : Orderly s0 s) (i : Nat) :
    Orderly s0 (dropSource s i) := by
  unfold dropSource
  try dsimp only
  repeat' first
    | with_reducible assumption
    | with_reducible apply tptMod_orderly
    | with_reducible apply actMod_orderly

theorem dropFlows_orderly {s0 s : State} (h : Orderly s0 s) (p : FlowId → Bool) :
    Orderly s0 (dropFlows s p) := by
  unfold dropFlows
  try dsimp only
  repeat' first
    | with_reducible assumption
    | with_reducible apply tptMod_orderly

theorem detachOne_orderly {s0 s : State} (h : Orderly s0 s) (i : Nat) (n : Nat) :
    Orderly s0 (detachOne s i n) := by
  unfold detachOne
  try dsimp only
  repeat' first
    | with_reducible assumption
    | with_reducible apply mtRemove_orderly
    | with_reducible apply dropSource_orderly
    | with_reducible apply dropFlows_orderly
    | with_reducible apply orderly_ite

theorem startFold_orderly {s0 s : State} (h : Orderly s0 s) (r : Req) (n : Nat) :
    Orderly s0 (startFold s r n) := by
  unfold startFold
  try dsimp only
  repeat' first
    | with_reducible assumption
    | with_reducible apply actMod_orderly
    | with_reducible apply bump0_orderly
    | with_reducible apply granPut_orderly
    | with_reducible apply pSet_orderly
    | with_reducible apply answer_orderly
    | with_reducible apply slotPut_orderly
    | with_reducible apply pkPut_orderly
    | with_reducible apply hDropWhere_orderly
    | with_reducible apply mirSet_orderly
    | with_reducible apply mirForget_orderly
    | with_reducible apply granuleReturned_orderly
    | with_reducible apply setLife_orderly
    | with_reducible apply dropFlows_orderly
    | with_reducible apply detachOne_orderly
    | with_reducible apply orderly_ite
    | with_reducible apply orderly_foldS
    | with_reducible apply orderly_fold_fst
    | with_reducible apply orderly_foldl
    | exact Nat.le_refl _
    | rfl
    | intro _
    | split
    | dsimp only
    | with_reducible apply orderly_mk

theorem strikeEnds_orderly {s0 s : State} (h : Orderly s0 s) (n : Nat) :
    Orderly s0 (strikeEnds s n) := by
  unfold strikeEnds
  try dsimp only
  repeat' first
    | with_reducible assumption
    | with_reducible apply pSet_orderly
    | with_reducible apply answer_orderly
    | with_reducible apply collFree_orderly
    | with_reducible apply startFold_orderly
    | with_reducible apply orderly_ite
    | with_reducible apply orderly_fold_fst
    | with_reducible apply orderly_foldl
    | intro _
    | split

theorem strikeDeadline_orderly {s0 s : State} (h : Orderly s0 s) (n : Nat) :
    Orderly s0 (strikeDeadline s n) := by
  unfold strikeDeadline
  try dsimp only
  repeat' first
    | with_reducible assumption
    | with_reducible apply bumpN_orderly
    | with_reducible apply pSet_orderly
    | with_reducible apply syncDeadline_orderly
    | with_reducible apply failAtDeadline_orderly
    | with_reducible apply strikeEnds_orderly
    | with_reducible apply orderly_ite
    | with_reducible apply orderly_fold_fst
    | with_reducible apply orderly_foldl
    | intro _
    | split

theorem releaseGranules_orderly {s0 s : State} (h : Orderly s0 s) (n : Nat) (rel : List Nat) :
    Orderly s0 (releaseGranules s n rel) := by
  unfold releaseGranules
  try dsimp only
  repeat' first
    | with_reducible assumption
    | with_reducible apply granPut_orderly
    | with_reducible apply pSet_orderly
    | with_reducible apply unmapSlot_orderly
    | with_reducible apply ptChanged_orderly
    | with_reducible apply orderly_ite
    | with_reducible apply orderly_foldS
    | with_reducible apply orderly_fold_fst
    | with_reducible apply orderly_foldl
    | exact Nat.le_refl _
    | rfl
    | intro _
    | split
    | dsimp only
    | with_reducible apply orderly_mk

theorem freeTaken_orderly {s0 s : State} (h : Orderly s0 s) (gs : List Nat) : Orderly s0 (freeTaken s gs) := by
  unfold freeTaken
  repeat' first
    | with_reducible assumption
    | with_reducible apply granPut_orderly
    | with_reducible apply orderly_foldS
    | intro _

theorem repitchApplied_orderly {s0 s : State} (h : Orderly s0 s) (n : Nat) :
    Orderly s0 (repitchApplied s n) := by
  unfold repitchApplied
  try dsimp only
  repeat' first
    | with_reducible assumption
    | with_reducible apply bump0_orderly
    | with_reducible apply granPut_orderly
    | with_reducible apply pSet_orderly
    | with_reducible apply answer_orderly
    | with_reducible apply mirSet_orderly
    | with_reducible apply lcDeny_orderly
    | with_reducible apply setLife_orderly
    | with_reducible apply moveUnit_orderly
    | with_reducible apply fillBuckets_orderly
    | with_reducible apply mapPitch_orderly
    | with_reducible apply mapCocoons_orderly
    | with_reducible apply bindFly_orderly
    | with_reducible apply dropContexts_orderly
    | with_reducible apply startProbe_orderly
    | with_reducible apply releaseGranules_orderly
    | with_reducible apply freeTaken_orderly
    | with_reducible apply orderly_ite
    | with_reducible apply orderly_foldS
    | with_reducible apply orderly_fold_fst
    | with_reducible apply orderly_foldl
    | intro _
    | split

theorem repitchFails_orderly {s0 s : State} (h : Orderly s0 s) (n : Nat) :
    Orderly s0 (repitchFails s n) := by
  unfold repitchFails
  try dsimp only
  repeat' first
    | with_reducible assumption
    | with_reducible apply pSet_orderly
    | with_reducible apply freeTaken_orderly
    | with_reducible apply lcDeny_orderly
    | with_reducible apply orderly_ite
    | with_reducible apply orderly_fold_fst
    | with_reducible apply orderly_foldl
    | intro _
    | split

theorem lifecycle_orderly {s0 s : State} (h : Orderly s0 s) (op : Byte) (f : RxFrame) (body : State → Req → Nat → State) (hbody : ∀ s, Orderly s0 s → ∀ x1 x2, Orderly s0 (body s x1 x2)) :
    Orderly s0 (lifecycle s op f body) := by
  unfold lifecycle
  try dsimp only
  repeat' first
    | with_reducible assumption
    | with_reducible apply withRequest_orderly
    | with_reducible apply lcDeny_orderly
    | with_reducible apply orderly_ite
    | with_reducible apply hbody
    | with_reducible apply orderly_fold_fst
    | with_reducible apply orderly_foldl
    | intro _
    | split

theorem pitchCreate_orderly {s0 s : State} (h : Orderly s0 s) (r : Req) (n : Nat) :
    Orderly s0 (pitchCreate s r n) := by
  unfold pitchCreate
  try dsimp only
  repeat' first
    | with_reducible assumption
    | with_reducible apply lcDeny_orderly
    | with_reducible apply acceptCreate_orderly
    | with_reducible apply orderly_ite
    | with_reducible apply orderly_fold_fst
    | with_reducible apply orderly_foldl
    | intro _
    | split

theorem pitchRepitch_orderly {s0 s : State} (h : Orderly s0 s) (r : Req) (n : Nat) :
    Orderly s0 (pitchRepitch s r n) := by
  unfold pitchRepitch
  try dsimp only
  repeat' first
    | with_reducible assumption
    | with_reducible apply pSet_orderly
    | with_reducible apply granPut_orderly
    | with_reducible apply orderly_foldS
    | with_reducible apply markWindow_orderly
    | with_reducible apply lcDeny_orderly
    | with_reducible apply orderly_ite
    | with_reducible apply orderly_fold_fst
    | with_reducible apply orderly_foldl
    | intro _
    | split

theorem pitchFold_orderly {s0 s : State} (h : Orderly s0 s) (r : Req) (n : Nat) :
    Orderly s0 (pitchFold s r n) := by
  unfold pitchFold
  try dsimp only
  repeat' first
    | with_reducible assumption
    | with_reducible apply startStrike_orderly
    | with_reducible apply startFold_orderly
    | with_reducible apply orderly_ite

theorem pitchAdjust_orderly {s0 s : State} (h : Orderly s0 s) (r : Req) (n : Nat) :
    Orderly s0 (pitchAdjust s r n) := by
  unfold pitchAdjust
  try dsimp only
  repeat' first
    | with_reducible assumption
    | with_reducible apply pSet_orderly
    | with_reducible apply answer_orderly
    | with_reducible apply bucketPut_orderly
    | with_reducible apply lcDeny_orderly
    | with_reducible apply orderly_ite

theorem attach_orderly {s0 s : State} (h : Orderly s0 s) (r : Req) (n : Nat) :
    Orderly s0 (attach s r n) := by
  unfold attach
  try dsimp only
  repeat' first
    | with_reducible assumption
    | with_reducible apply actMod_orderly
    | with_reducible apply answer_orderly
    | with_reducible apply mtPut_orderly
    | with_reducible apply lcDeny_orderly
    | with_reducible apply orderly_ite
    | with_reducible apply orderly_fold_fst
    | with_reducible apply orderly_foldl
    | intro _
    | split

theorem detach_orderly {s0 s : State} (h : Orderly s0 s) (r : Req) (n : Nat) :
    Orderly s0 (detach s r n) := by
  unfold detach
  try dsimp only
  repeat' first
    | with_reducible assumption
    | with_reducible apply answer_orderly
    | with_reducible apply hDropWhere_orderly
    | with_reducible apply collLostEndpoint_orderly
    | with_reducible apply syncDetach_orderly
    | with_reducible apply lcDeny_orderly
    | with_reducible apply detachOne_orderly
    | with_reducible apply orderly_ite

theorem pitchQuery_orderly {s0 s : State} (h : Orderly s0 s) (r : Req) (n : Nat) :
    Orderly s0 (pitchQuery s r n) := by
  unfold pitchQuery
  try dsimp only
  repeat' first
    | with_reducible assumption
    | with_reducible apply answer_orderly

theorem receiveOther_orderly {s0 s : State} (h : Orderly s0 s) (op : Byte) (f : RxFrame) :
    Orderly s0 (receiveOther s op f).1 := by
  unfold receiveOther
  try dsimp only
  repeat' first
    | with_reducible assumption
    | with_reducible apply tptMod_orderly
    | with_reducible apply bumpN_orderly
    | with_reducible apply bump_orderly
    | with_reducible apply bump0_orderly
    | with_reducible apply poolTake_orderly
    | with_reducible apply orderly_ite
    | with_reducible apply orderly_fold_fst
    | with_reducible apply orderly_foldl
    | with_reducible apply orderly_fst_ite
    | intro _
    | split

theorem rateCut_orderly {s0 s : State} (h : Orderly s0 s) (id : FlowId) :
    Orderly s0 (rateCut s id) := by
  unfold rateCut
  try dsimp only
  repeat' first
    | with_reducible assumption
    | with_reducible apply ctlPut_orderly

theorem rateRaise_orderly {s0 s : State} (h : Orderly s0 s) (id : FlowId) :
    Orderly s0 (rateRaise s id) := by
  unfold rateRaise
  try dsimp only
  repeat' first
    | with_reducible assumption
    | with_reducible apply nowTo_orderly
    | with_reducible apply ctlPut_orderly
    | with_reducible apply orderly_ite
    | with_reducible apply orderly_fold_fst
    | with_reducible apply orderly_foldl
    | intro _
    | split

theorem resend_orderly {s0 s : State} (h : Orderly s0 s) (id : FlowId) (q : CtlReq) :
    Orderly s0 (resend s id q) := by
  unfold resend
  try dsimp only
  repeat' first
    | with_reducible assumption
    | with_reducible apply tptMod_orderly
    | with_reducible apply bump_orderly
    | with_reducible apply enqueue_orderly
    | with_reducible apply orderly_ite
    | with_reducible apply orderly_fold_fst
    | with_reducible apply orderly_foldl
    | intro _
    | split

theorem revokeAll_orderly {s0 s : State} (h : Orderly s0 s) (ep : BitVec 12) (ctx : BitVec 16) :
    Orderly s0 (revokeAll s ep ctx) := by
  unfold revokeAll
  try dsimp only
  repeat' first
    | with_reducible assumption
    | with_reducible apply revoke_orderly
    | with_reducible apply collLostEndpoint_orderly
    | with_reducible apply orderly_ite
    | with_reducible apply orderly_fold_fst
    | with_reducible apply orderly_foldl
    | intro _
    | split

theorem originFails_orderly {s0 s : State} (h : Orderly s0 s) (id : FlowId) (q : CtlReq) :
    Orderly s0 (originFails s id q) := by
  unfold originFails
  try dsimp only
  repeat' first
    | with_reducible assumption
    | with_reducible apply swSendFailed_orderly
    | with_reducible apply swDataFailed_orderly
    | with_reducible apply flyLost_orderly
    | with_reducible apply collFrame_orderly
    | with_reducible apply collClose_orderly
    | with_reducible apply collSendFailed_orderly
    | with_reducible apply revokeAll_orderly
    | with_reducible apply orderly_ite
    | with_reducible apply orderly_fold_fst
    | with_reducible apply orderly_foldl
    | intro _
    | split

theorem ctlFail_orderly {s0 s : State} (h : Orderly s0 s) (id : FlowId) (q : CtlReq) :
    Orderly s0 (ctlFail s id q) := by
  unfold ctlFail
  try dsimp only
  repeat' first
    | with_reducible assumption
    | with_reducible apply bump_orderly
    | with_reducible apply faultRec_orderly
    | with_reducible apply ctlDrop_orderly
    | with_reducible apply sendHeld_orderly
    | with_reducible apply originFails_orderly

theorem requestTimeout_orderly {s0 s : State} (h : Orderly s0 s) (id : FlowId) (seq : BitVec 24) :
    Orderly s0 (requestTimeout s id seq) := by
  unfold requestTimeout
  try dsimp only
  repeat' first
    | with_reducible assumption
    | with_reducible apply nowTo_orderly
    | with_reducible apply ctlMod_orderly
    | with_reducible apply resend_orderly
    | with_reducible apply ctlFail_orderly
    | with_reducible apply orderly_ite
    | with_reducible apply orderly_fold_fst
    | with_reducible apply orderly_foldl
    | intro _
    | split

theorem retryResend_orderly {s0 s : State} (h : Orderly s0 s) (id : FlowId) (seq : BitVec 24) :
    Orderly s0 (retryResend s id seq) := by
  unfold retryResend
  try dsimp only
  repeat' first
    | with_reducible assumption
    | with_reducible apply nowTo_orderly
    | with_reducible apply ctlMod_orderly
    | with_reducible apply resend_orderly
    | with_reducible apply orderly_ite
    | with_reducible apply orderly_fold_fst
    | with_reducible apply orderly_foldl
    | intro _
    | split

theorem originAnswered_orderly {s0 s : State} (h : Orderly s0 s) (id : FlowId) (q : CtlReq) (status : Nat) (p : List Byte) :
    Orderly s0 (originAnswered s id q status p) := by
  unfold originAnswered
  try dsimp only
  repeat' first
    | with_reducible assumption
    | with_reducible apply actMod_orderly
    | with_reducible apply hFree_orderly
    | with_reducible apply forwardAnswer_orderly
    | with_reducible apply invalAnswer_orderly
    | with_reducible apply swSendFailed_orderly
    | with_reducible apply swDataFailed_orderly
    | with_reducible apply mirSet_orderly
    | with_reducible apply mirDone_orderly
    | with_reducible apply flyLost_orderly
    | with_reducible apply collSendFailed_orderly
    | with_reducible apply revokeAll_orderly
    | with_reducible apply orderly_ite
    | with_reducible apply orderly_foldS
    | with_reducible apply orderly_fold_fst
    | with_reducible apply orderly_foldl
    | intro _
    | split

theorem noteCtl_orderly {s0 s : State} (h : Orderly s0 s) (id : FlowId) (v : RxVia) :
    Orderly s0 (noteCtl s id v) := by
  unfold noteCtl
  try dsimp only
  repeat' first
    | with_reducible assumption
    | with_reducible apply ctlPut_orderly
    | with_reducible apply orderly_ite
    | with_reducible apply orderly_fold_fst
    | with_reducible apply orderly_foldl
    | intro _
    | split

theorem ctlResponse_orderly {s0 s : State} (h : Orderly s0 s) (op : Byte) (f : RxFrame) (then_ : State → CtlReq → Nat → State) (hthen_ : ∀ s, Orderly s0 s → ∀ x1 x2, Orderly s0 (then_ s x1 x2)) :
    Orderly s0 (ctlResponse s op f then_) := by
  unfold ctlResponse
  try dsimp only
  repeat' first
    | with_reducible assumption
    | with_reducible apply ctlDrop_orderly
    | with_reducible apply ctlMod_orderly
    | with_reducible apply sendHeld_orderly
    | with_reducible apply settle_orderly
    | with_reducible apply receiveOther_orderly
    | with_reducible apply rateCut_orderly
    | with_reducible apply originAnswered_orderly
    | with_reducible apply noteCtl_orderly
    | with_reducible apply orderly_ite
    | with_reducible apply hthen_
    | with_reducible apply orderly_fold_fst
    | with_reducible apply orderly_foldl
    | intro _
    | split

theorem ctlAnswer_orderly {s0 s : State} (h : Orderly s0 s) (op : Byte) (f : RxFrame) :
    Orderly s0 (ctlAnswer s op f) := by
  unfold ctlAnswer
  try dsimp only
  repeat' first
    | with_reducible assumption
    | with_reducible apply ctlResponse_orderly
    | with_reducible apply orderly_ite
    | with_reducible apply orderly_fold_fst
    | with_reducible apply orderly_foldl
    | intro _

theorem ctlAcked_orderly {s0 s : State} (h : Orderly s0 s) (id : FlowId) (q : CtlReq) :
    Orderly s0 (ctlAcked s id q) := by
  unfold ctlAcked
  try dsimp only
  repeat' first
    | with_reducible assumption
    | with_reducible apply ctlDrop_orderly
    | with_reducible apply ctlMod_orderly
    | with_reducible apply collFrame_orderly
    | with_reducible apply collClose_orderly
    | with_reducible apply collAcked_orderly
    | with_reducible apply orderly_ite
    | with_reducible apply orderly_fold_fst
    | with_reducible apply orderly_foldl
    | intro _
    | split

theorem transportAck_orderly {s0 s : State} (h : Orderly s0 s) (f : RxFrame) :
    Orderly s0 (transportAck s f) := by
  unfold transportAck
  try dsimp only
  repeat' first
    | with_reducible assumption
    | with_reducible apply bump_orderly
    | with_reducible apply ctlPut_orderly
    | with_reducible apply ctlMod_orderly
    | with_reducible apply sendHeld_orderly
    | with_reducible apply settle_orderly
    | with_reducible apply receiveOther_orderly
    | with_reducible apply rateCut_orderly
    | with_reducible apply resend_orderly
    | with_reducible apply noteCtl_orderly
    | with_reducible apply ctlAcked_orderly
    | with_reducible apply orderly_ite
    | with_reducible apply orderly_foldS
    | with_reducible apply orderly_fold_fst
    | with_reducible apply orderly_foldl
    | intro _
    | split

theorem ackDelayExpire_orderly {s0 s : State} (h : Orderly s0 s) (id : FlowId) :
    Orderly s0 (ackDelayExpire s id) := by
  unfold ackDelayExpire
  try dsimp only
  repeat' first
    | with_reducible assumption
    | with_reducible apply nowTo_orderly
    | with_reducible apply sendAck_orderly
    | with_reducible apply orderly_ite
    | with_reducible apply orderly_fold_fst
    | with_reducible apply orderly_foldl
    | intro _
    | split

theorem nackDelayExpire_orderly {s0 s : State} (h : Orderly s0 s) (id : FlowId) :
    Orderly s0 (nackDelayExpire s id) := by
  unfold nackDelayExpire
  try dsimp only
  repeat' first
    | with_reducible assumption
    | with_reducible apply nowTo_orderly
    | with_reducible apply sendNack_orderly
    | with_reducible apply orderly_ite
    | with_reducible apply orderly_fold_fst
    | with_reducible apply orderly_foldl
    | intro _
    | split

theorem missDrop_orderly {s0 s : State} (h : Orderly s0 s) (slice : Nat) (n : Nat) (page : Nat) :
    Orderly s0 (missDrop s slice n page) := by
  unfold missDrop
  try dsimp only
  repeat' first
    | with_reducible assumption
    | with_reducible apply actMod_orderly

theorem endWaiting_orderly {s0 s : State} (h : Orderly s0 s) (r : Req) (status : Nat) :
    Orderly s0 (endWaiting s r status) := by
  unfold endWaiting
  try dsimp only
  repeat' first
    | with_reducible assumption
    | with_reducible apply actMod_orderly
    | with_reducible apply answerEarly_orderly

theorem missServed_orderly {s0 s : State} (h : Orderly s0 s) (slice : Nat) (n : Nat) (page : Nat) :
    Orderly s0 (missServed s slice n page) := by
  unfold missServed
  try dsimp only
  repeat' first
    | with_reducible assumption
    | with_reducible apply bump_orderly
    | with_reducible apply faultRec_orderly
    | with_reducible apply tlbInsert_orderly
    | with_reducible apply rerun_orderly
    | with_reducible apply missDrop_orderly
    | with_reducible apply endWaiting_orderly
    | with_reducible apply orderly_ite
    | with_reducible apply orderly_foldS
    | with_reducible apply orderly_fold_fst
    | with_reducible apply orderly_foldl
    | intro _
    | split

theorem missTimeout_orderly {s0 s : State} (h : Orderly s0 s) (slice : Nat) (n : Nat) (page : Nat) :
    Orderly s0 (missTimeout s slice n page) := by
  unfold missTimeout
  try dsimp only
  repeat' first
    | with_reducible assumption
    | with_reducible apply bump_orderly
    | with_reducible apply nowTo_orderly
    | with_reducible apply faultRec_orderly
    | with_reducible apply missDrop_orderly
    | with_reducible apply endWaiting_orderly
    | with_reducible apply orderly_ite
    | with_reducible apply orderly_foldS
    | with_reducible apply orderly_fold_fst
    | with_reducible apply orderly_foldl
    | intro _
    | split

theorem changeEnds_orderly {s0 s : State} (h : Orderly s0 s) (c : PtChange) :
    Orderly s0 (changeEnds s c) := by
  unfold changeEnds
  try dsimp only
  repeat' first
    | with_reducible assumption
    | with_reducible apply bumpN_orderly
    | with_reducible apply bump_orderly
    | with_reducible apply cutStreams_orderly
    | with_reducible apply bulkEnd_orderly
    | with_reducible apply orderly_ite
    | with_reducible apply orderly_foldS
    | with_reducible apply orderly_fold_fst
    | with_reducible apply orderly_foldl
    | intro _

theorem changesDone_orderly {s0 s : State} (h : Orderly s0 s) (n : Nat) :
    Orderly s0 (changesDone s n) := by
  unfold changesDone
  try dsimp only
  repeat' first
    | with_reducible assumption
    | with_reducible apply actMod_orderly
    | with_reducible apply changeConfirmed_orderly
    | with_reducible apply collPageChange_orderly
    | with_reducible apply changeEnds_orderly
    | with_reducible apply orderly_ite
    | with_reducible apply orderly_foldS
    | with_reducible apply orderly_fold_fst
    | with_reducible apply orderly_foldl
    | intro _

theorem bulkIdle_orderly {s0 s : State} (h : Orderly s0 s) (id : FlowId) (tag : BitVec 32) :
    Orderly s0 (bulkIdle s id tag) := by
  unfold bulkIdle
  try dsimp only
  repeat' first
    | with_reducible assumption
    | with_reducible apply nowTo_orderly
    | with_reducible apply bulkEnd_orderly
    | with_reducible apply orderly_ite
    | with_reducible apply orderly_fold_fst
    | with_reducible apply orderly_foldl
    | intro _
    | split

theorem recallDeadline_orderly {s0 s : State} (h : Orderly s0 s) (ep : BitVec 12) (ctx : BitVec 16) :
    Orderly s0 (recallDeadline s ep ctx) := by
  unfold recallDeadline
  try dsimp only
  repeat' first
    | with_reducible assumption
    | with_reducible apply svcMod_orderly
    | with_reducible apply nowTo_orderly
    | with_reducible apply revokeAll_orderly
    | with_reducible apply orderly_ite
    | with_reducible apply orderly_fold_fst
    | with_reducible apply orderly_foldl
    | intro _
    | split

theorem resyncRun_orderly {s0 s : State} (h : Orderly s0 s) (n : Nat) (run : Nat × Nat × BitVec 16) :
    Orderly s0 (resyncRun s n run) := by
  unfold resyncRun
  try dsimp only
  repeat' first
    | with_reducible assumption
    | with_reducible apply mirMod_orderly
    | with_reducible apply bumpN_orderly
    | with_reducible apply bump_orderly
    | with_reducible apply ctlSend_orderly
    | with_reducible apply dmcRead_orderly
    | with_reducible apply orderly_ite
    | with_reducible apply orderly_foldS
    | with_reducible apply orderly_fold_fst
    | with_reducible apply orderly_foldl
    | rfl
    | intro _
    | split

theorem startResync_orderly {s0 s : State} (h : Orderly s0 s) (n : Nat) :
    Orderly s0 (startResync s n) := by
  unfold startResync
  try dsimp only
  repeat' first
    | with_reducible assumption
    | with_reducible apply mirSet_orderly
    | with_reducible apply resyncRun_orderly
    | with_reducible apply orderly_ite
    | with_reducible apply orderly_foldS
    | with_reducible apply orderly_fold_fst
    | with_reducible apply orderly_foldl
    | intro _

theorem resyncDone_orderly {s0 s : State} (h : Orderly s0 s) (n : Nat) :
    Orderly s0 (resyncDone s n) := by
  unfold resyncDone
  try dsimp only
  repeat' first
    | with_reducible assumption
    | with_reducible apply mirSet_orderly
    | with_reducible apply orderly_ite

theorem probeTimer_orderly {s0 s : State} (h : Orderly s0 s) (n : Nat) :
    Orderly s0 (probeTimer s n) := by
  unfold probeTimer
  try dsimp only
  repeat' first
    | with_reducible assumption
    | with_reducible apply ctlSend_orderly
    | with_reducible apply orderly_ite

theorem fixRole_orderly {s0 s : State} (h : Orderly s0 s) (n : Nat) (role : Role) (confirmed : Bool) :
    Orderly s0 (fixRole s n role confirmed) := by
  unfold fixRole
  try dsimp only
  repeat' first
    | with_reducible assumption
    | with_reducible apply mirSet_orderly

theorem probeExec_orderly {s0 s : State} (h : Orderly s0 s) (r : Req) :
    Orderly s0 (probeExec s r) := by
  unfold probeExec
  try dsimp only
  repeat' first
    | with_reducible assumption
    | with_reducible apply answer_orderly
    | with_reducible apply startResync_orderly
    | with_reducible apply fixRole_orderly
    | with_reducible apply orderly_ite

theorem probeAnswered_orderly {s0 s : State} (h : Orderly s0 s) (q : CtlReq) (status : Nat) :
    Orderly s0 (probeAnswered s q status) := by
  unfold probeAnswered
  try dsimp only
  repeat' first
    | with_reducible assumption
    | with_reducible apply collFrame_orderly
    | with_reducible apply collClose_orderly
    | with_reducible apply fixRole_orderly
    | with_reducible apply orderly_ite
    | with_reducible apply orderly_fold_fst
    | with_reducible apply orderly_foldl
    | intro _
    | split

theorem keepCarry_orderly {s0 s : State} (h : Orderly s0 s) (n : Nat) (rec_ : List Byte) :
    Orderly s0 (keepCarry s n rec_) := by
  unfold keepCarry
  try dsimp only
  repeat' first
    | with_reducible assumption
    | with_reducible apply flowPut_orderly
    | with_reducible apply orderly_ite

theorem mirWrite_orderly {s0 s : State} (h : Orderly s0 s) (n : Nat) (tc : BitVec 3) (owner : BitVec 16) (pva : Nat) (bs : List Byte) :
    Orderly s0 (mirWrite s n tc owner pva bs).1 := by
  unfold mirWrite
  try dsimp only
  repeat' first
    | with_reducible assumption
    | with_reducible apply masterWrite_orderly
    | with_reducible apply orderly_ite
    | with_reducible apply orderly_fold_fst
    | with_reducible apply orderly_foldl
    | with_reducible apply orderly_fst_ite
    | intro _
    | split

theorem mirRefused_orderly {s0 s : State} (h : Orderly s0 s) (n : Nat) (status : Nat) :
    Orderly s0 (mirRefused s n status) := by
  unfold mirRefused
  try dsimp only
  repeat' first
    | with_reducible assumption
    | with_reducible apply mirSet_orderly
    | with_reducible apply orderly_ite

theorem mirDataExec_orderly {s0 s : State} (h : Orderly s0 s) (r : Req) :
    Orderly s0 (mirDataExec s r) := by
  unfold mirDataExec
  try dsimp only
  repeat' first
    | with_reducible assumption
    | with_reducible apply answer_orderly
    | with_reducible apply keepCarry_orderly
    | with_reducible apply mirWrite_orderly
    | with_reducible apply mirRefused_orderly
    | with_reducible apply orderly_ite

theorem releaseExec_orderly {s0 s : State} (h : Orderly s0 s) (r : Req) :
    Orderly s0 (releaseExec s r) := by
  unfold releaseExec
  try dsimp only
  repeat' first
    | with_reducible assumption
    | with_reducible apply answer_orderly
    | with_reducible apply takeover_orderly
    | with_reducible apply orderly_ite

theorem mirPutWrite_orderly {s0 s : State} (h : Orderly s0 s) (b : BulkPut) (r : Req) :
    Orderly s0 (mirPutWrite s b r) := by
  unfold mirPutWrite
  try dsimp only
  repeat' first
    | with_reducible assumption
    | with_reducible apply respond_orderly
    | with_reducible apply answer_orderly
    | with_reducible apply bulkMod_orderly
    | with_reducible apply bulkDrop_orderly
    | with_reducible apply bulkEnd_orderly
    | with_reducible apply keepCarry_orderly
    | with_reducible apply mirWrite_orderly
    | with_reducible apply mirRefused_orderly
    | with_reducible apply orderly_ite
    | with_reducible apply orderly_fold_fst
    | with_reducible apply orderly_foldl
    | intro _
    | split

theorem mirPutExec_orderly {s0 s : State} (h : Orderly s0 s) (r : Req) :
    Orderly s0 (mirPutExec s r) := by
  unfold mirPutExec
  try dsimp only
  repeat' first
    | with_reducible assumption
    | with_reducible apply markWindow_orderly
    | with_reducible apply answer_orderly
    | with_reducible apply bulkMod_orderly
    | with_reducible apply answerEarly_orderly
    | with_reducible apply mirPutWrite_orderly
    | with_reducible apply orderly_ite
    | with_reducible apply orderly_foldS
    | with_reducible apply orderly_fold_fst
    | with_reducible apply orderly_foldl
    | intro _
    | split

theorem mirExec_orderly {s0 s : State} (h : Orderly s0 s) (r : Req) :
    Orderly s0 (mirExec s r) := by
  unfold mirExec
  try dsimp only
  repeat' first
    | with_reducible assumption
    | with_reducible apply answer_orderly
    | with_reducible apply bulkData_orderly
    | with_reducible apply probeExec_orderly
    | with_reducible apply mirDataExec_orderly
    | with_reducible apply releaseExec_orderly
    | with_reducible apply mirPutWrite_orderly
    | with_reducible apply mirPutExec_orderly
    | with_reducible apply orderly_ite
    | with_reducible apply orderly_fold_fst
    | with_reducible apply orderly_foldl
    | intro _
    | split

theorem kppWrite_orderly {s0 s : State} (h : Orderly s0 s) (op : Byte) (f : RxFrame) :
    Orderly s0 (kppWrite s op f) := by
  unfold kppWrite
  try dsimp only
  repeat' first
    | with_reducible assumption
    | with_reducible apply bulkMod_orderly
    | with_reducible apply memExec_orderly
    | with_reducible apply bulkData_orderly
    | with_reducible apply checks_orderly
    | with_reducible apply withRequest_orderly
    | with_reducible apply settle_orderly
    | with_reducible apply mirExec_orderly
    | with_reducible apply orderly_ite
    | with_reducible apply orderly_fold_fst
    | with_reducible apply orderly_foldl
    | intro _

theorem heartbeatTx_orderly {s0 s : State} (h : Orderly s0 s) (k : Nat) (mpLine : Bool) :
    Orderly s0 (heartbeatTx s k mpLine) := by
  unfold heartbeatTx
  try dsimp only
  repeat' first
    | with_reducible assumption
    | with_reducible apply bump0_orderly
    | with_reducible apply cd10To_orderly
    | with_reducible apply enqueue_orderly
    | with_reducible apply sendFrame_orderly
    | with_reducible apply peerSet_orderly
    | with_reducible apply orderly_ite
    | with_reducible apply orderly_fold_fst
    | with_reducible apply orderly_foldl
    | exact entry_of_mem (mem_of_tfind (by assumption)) h (cd10To_orderly (Orderly.refl _) _) (by assumption)
    | exact entry_of_mem (mem_of_tfind (by assumption)) h (nowTo_orderly (Orderly.refl _) _) (by assumption)
    | rfl
    | intro _
    | split
    | dsimp only

theorem beatBit_orderly {s0 s : State} (h : Orderly s0 s) (n : Nat) (bit : Bool) :
    Orderly s0 (beatBit s n bit) := by
  unfold beatBit
  try dsimp only
  repeat' first
    | with_reducible assumption
    | with_reducible apply mirSet_orderly
    | with_reducible apply mirFault_orderly
    | with_reducible apply orderly_ite

theorem heartbeatRx_orderly {s0 s : State} (h : Orderly s0 s) (f : RxFrame) :
    Orderly s0 (heartbeatRx s f) := by
  unfold heartbeatRx
  dsimp only
  have h1 := receiveOther_orderly h 0x7E f
  refine orderly_ite h1 ?_
  have h2 : Orderly s0 (if f.hdr.tc = 7 then
      meter (receiveOther s 0x7E f).1 0 7 (viaPort f.via) f.encap.dscp.toNat f.encap.bytes 0
      else ((receiveOther s 0x7E f).1, some false)).1 := orderly_fst_ite (meter_orderly h1 _ _ _ _ _ _) h1
  generalize (if f.hdr.tc = 7 then
      meter (receiveOther s 0x7E f).1 0 7 (viaPort f.via) f.encap.dscp.toNat f.encap.bytes 0
      else ((receiveOther s 0x7E f).1, some false)) = m at *
  split
  · exact h2
  · split
    · exact h2
    · rename_i k p hk
      have h3 := peerSet_orderly h2 k
      refine orderly_ite h2 (orderly_foldS _ _ _ (bump0_orderly (h3 _ ?_) _) (fun s hs n => beatBit_orderly hs n _))
      exact fun ht => entry_of_mem (k := k) (p := p) (List.mem_of_find?_eq_some hk) h2 (Orderly.refl _) ht

theorem guyLost_orderly {s0 s : State} (h : Orderly s0 s) (k : Nat) (mpLine : Bool) :
    Orderly s0 (guyLost s k mpLine) := by
  unfold guyLost
  try dsimp only
  repeat' first
    | with_reducible assumption
    | with_reducible apply bump0_orderly
    | with_reducible apply nowTo_orderly
    | with_reducible apply faultRec_orderly
    | with_reducible apply peerSet_orderly
    | with_reducible apply orderly_ite
    | with_reducible apply orderly_fold_fst
    | with_reducible apply orderly_foldl
    | exact entry_of_mem (mem_of_tfind (by assumption)) h (cd10To_orderly (Orderly.refl _) _) (by assumption)
    | exact entry_of_mem (mem_of_tfind (by assumption)) h (nowTo_orderly (Orderly.refl _) _) (by assumption)
    | rfl
    | intro _
    | split
    | dsimp only

theorem mirrorSelfFence_orderly {s0 s : State} (h : Orderly s0 s) (n : Nat) :
    Orderly s0 (mirrorSelfFence s n) := by
  unfold mirrorSelfFence
  try dsimp only
  repeat' first
    | with_reducible assumption
    | with_reducible apply nowTo_orderly
    | with_reducible apply selfFence_orderly
    | with_reducible apply orderly_ite

theorem mirrorTakeover_orderly {s0 s : State} (h : Orderly s0 s) (n : Nat) :
    Orderly s0 (mirrorTakeover s n) := by
  unfold mirrorTakeover
  try dsimp only
  repeat' first
    | with_reducible assumption
    | with_reducible apply nowTo_orderly
    | with_reducible apply takeover_orderly
    | with_reducible apply orderly_ite

end Sys2Proof.Machine
end

