-- ==== Sys2Proof/Laws/OrdPort.lean ====
section
/-! SUPPORT. What the operations of Chan, GateList, Tx, Port, Ptp keep: `Orderly` of each. -/
namespace Sys2Proof.Machine

theorem inorderLeft_orderly {s0 s : State} (h : Orderly s0 s) (c : Nat) :
    Orderly s0 (inorderLeft s c) := by
  unfold inorderLeft
  try dsimp only
  repeat' first
    | with_reducible assumption
    | with_reducible apply chMod_orderly

theorem touchBank_orderly {s0 s : State} (h : Orderly s0 s) (c : Nat) (line : Nat) :
    Orderly s0 (touchBank s c line) := by
  unfold touchBank
  try dsimp only
  repeat' first
    | with_reducible assumption
    | with_reducible apply bump_orderly
    | with_reducible apply chMod_orderly

theorem countAccess_orderly {s0 s : State} (h : Orderly s0 s) (c : Nat) (cls : Nat) (n : Nat) (write : Bool) :
    Orderly s0 (countAccess s c cls n write) := by
  unfold countAccess
  try dsimp only
  repeat' first
    | with_reducible assumption
    | with_reducible apply bump_orderly

theorem admitHeld_orderly {s0 : State} (fuel : Nat) {s : State} (h : Orderly s0 s) (c : Nat) :
    Orderly s0 (admitHeld fuel s c) := by
  induction fuel generalizing s with
  | zero => exact h
  | succ fuel ih =>
    unfold admitHeld
    dsimp only
    split
    · exact h
    · exact orderly_ite (ih (chMod_orderly h _ _)) h

theorem admitAll_orderly {s0 s : State} (h : Orderly s0 s) (c : Nat) :
    Orderly s0 (admitAll s c) := by
  unfold admitAll
  try dsimp only
  repeat' first
    | with_reducible assumption
    | with_reducible apply admitHeld_orderly

theorem readOuts_orderly {s0 : State} (c : Nat) (sticky : Option ReadOut) (fuel : Nat) {s : State} (h : Orderly s0 s)
    (outs : List ReadOut) (p t : Nat) (again : Bool) : Orderly s0 (readOuts c sticky fuel s outs p t again).1 := by
  induction fuel generalizing s outs p t again with
  | zero => exact h
  | succ fuel ih =>
    have h1 := bump_orderly h
    unfold readOuts
    split
    · split
      · exact h1 .mceReread c 0 0
      · exact h
    · split
      · exact h1 .mceParity c 0 0
      · exact ih (h1 .mceParity c 0 0) _ _ _ _
    · split
      · exact h1 .mceTagFail c 0 0
      · exact ih (h1 .mceTagFail c 0 0) _ _ _ _

theorem cutForLine_orderly {s0 s : State} (h : Orderly s0 s) (line : Nat) (status : Nat) (who : Option (FlowId × BitVec 24)) :
    Orderly s0 (cutForLine s line status who) := by
  unfold cutForLine
  try dsimp only
  repeat' first
    | with_reducible assumption
    | with_reducible apply cutStreams_orderly
    | with_reducible apply orderly_ite
    | with_reducible apply orderly_fold_fst
    | with_reducible apply orderly_foldl
    | intro _
    | split

theorem dropWrite_orderly {s0 s : State} (h : Orderly s0 s) (c : Nat) (line : Nat) (check : Bool) :
    Orderly s0 (dropWrite s c line check) := by
  unfold dropWrite
  try dsimp only
  repeat' first
    | with_reducible assumption
    | with_reducible apply chMod_orderly
    | with_reducible apply orderly_ite

theorem lineReadDone_orderly {s0 s : State} (h : Orderly s0 s) (c : Nat) (sub : Nat) (entryBad : Bool) (outs : List ReadOut) :
    Orderly s0 (lineReadDone s c sub entryBad outs) := by
  unfold lineReadDone
  try dsimp only
  repeat' first
    | with_reducible assumption
    | with_reducible apply bump_orderly
    | with_reducible apply faultRec_orderly
    | with_reducible apply chMod_orderly
    | with_reducible apply retirePage_orderly
    | with_reducible apply inorderLeft_orderly
    | with_reducible apply touchBank_orderly
    | with_reducible apply countAccess_orderly
    | with_reducible apply admitAll_orderly
    | with_reducible apply readOuts_orderly
    | with_reducible apply cutForLine_orderly
    | with_reducible apply dropWrite_orderly
    | with_reducible apply orderly_ite
    | with_reducible apply orderly_fold_fst
    | with_reducible apply orderly_foldl
    | intro _
    | split

theorem writeIssue_orderly {s0 s : State} (h : Orderly s0 s) (c : Nat) (sub : Nat) (bad : BitVec 16) :
    Orderly s0 (writeIssue s c sub bad) := by
  unfold writeIssue
  try dsimp only
  repeat' first
    | with_reducible assumption
    | with_reducible apply metaPut_orderly
    | with_reducible apply faultRec_orderly
    | with_reducible apply chMod_orderly
    | with_reducible apply inorderLeft_orderly
    | with_reducible apply touchBank_orderly
    | with_reducible apply countAccess_orderly
    | with_reducible apply orderly_ite
    | with_reducible apply orderly_fold_fst
    | with_reducible apply orderly_foldl
    | intro _
    | split

theorem agePromote_orderly {s0 s : State} (h : Orderly s0 s) (c : Nat) :
    Orderly s0 (agePromote s c) := by
  unfold agePromote
  try dsimp only
  repeat' first
    | with_reducible assumption
    | with_reducible apply bumpN_orderly
    | with_reducible apply nowTo_orderly
    | with_reducible apply chMod_orderly
    | with_reducible apply orderly_ite
    | with_reducible apply orderly_fold_fst
    | with_reducible apply orderly_foldl
    | intro _
    | split

theorem pageIdle_orderly {s0 s : State} (h : Orderly s0 s) (c : Nat) (b : Nat × Nat × Nat) :
    Orderly s0 (pageIdle s c b) := by
  unfold pageIdle
  try dsimp only
  repeat' first
    | with_reducible assumption
    | with_reducible apply nowTo_orderly
    | with_reducible apply chMod_orderly
    | with_reducible apply orderly_ite
    | with_reducible apply orderly_fold_fst
    | with_reducible apply orderly_foldl
    | intro _
    | split

theorem refreshInstant_orderly {s0 s : State} (h : Orderly s0 s)  :
    Orderly s0 (refreshInstant s) := by
  unfold refreshInstant
  try dsimp only
  repeat' first
    | with_reducible assumption
    | with_reducible apply dmcMod_orderly
    | with_reducible apply bump_orderly
    | with_reducible apply nowTo_orderly
    | with_reducible apply chMod_orderly
    | with_reducible apply orderly_ite
    | with_reducible apply orderly_foldN
    | with_reducible apply orderly_fold_fst
    | with_reducible apply orderly_foldl
    | with_reducible rfl
    | intro _
    | split

theorem subMod_orderly {s0 s : State} (h : Orderly s0 s) (c : Nat) (sub : Nat) (f : SubCh → SubCh) :
    Orderly s0 (subMod s c sub f) := by
  unfold subMod
  try dsimp only
  repeat' first
    | with_reducible assumption
    | with_reducible apply chMod_orderly

theorem retrainStart_orderly {s0 s : State} (h : Orderly s0 s) (c : Nat) :
    Orderly s0 (retrainStart s c) := by
  unfold retrainStart
  try dsimp only
  repeat' first
    | with_reducible assumption
    | with_reducible apply dmcMod_orderly
    | with_reducible apply uSet_orderly
    | with_reducible apply bump_orderly
    | with_reducible apply uMove_orderly
    | with_reducible apply chMod_orderly
    | with_reducible apply retireGroup_orderly
    | with_reducible apply orderly_ite
    | with_reducible apply orderly_fold_fst
    | with_reducible apply orderly_foldl
    | with_reducible rfl

theorem caAlert_orderly {s0 s : State} (h : Orderly s0 s) (c : Nat) (sub : Nat) :
    Orderly s0 (caAlert s c sub) := by
  unfold caAlert
  try dsimp only
  repeat' first
    | with_reducible assumption
    | with_reducible apply bump_orderly
    | with_reducible apply chMod_orderly
    | with_reducible apply subMod_orderly
    | with_reducible apply retrainStart_orderly
    | with_reducible apply orderly_ite

theorem caReplayDone_orderly {s0 s : State} (h : Orderly s0 s) (c : Nat) (sub : Nat) :
    Orderly s0 (caReplayDone s c sub) := by
  unfold caReplayDone
  try dsimp only
  repeat' first
    | with_reducible assumption
    | with_reducible apply bump_orderly
    | with_reducible apply subMod_orderly
    | with_reducible apply orderly_ite

theorem caConsecReset_orderly {s0 s : State} (h : Orderly s0 s) (c : Nat) (sub : Nat) :
    Orderly s0 (caConsecReset s c sub) := by
  unfold caConsecReset
  try dsimp only
  repeat' first
    | with_reducible assumption
    | with_reducible apply subMod_orderly
    | with_reducible apply orderly_ite

theorem retrainDone_orderly {s0 s : State} (h : Orderly s0 s) (c : Nat) (ok : Bool) :
    Orderly s0 (retrainDone s c ok) := by
  unfold retrainDone
  try dsimp only
  repeat' first
    | with_reducible assumption
    | with_reducible apply uSet_orderly
    | with_reducible apply bump_orderly
    | with_reducible apply uMove_orderly
    | with_reducible apply chMod_orderly
    | with_reducible apply retireGroup_orderly
    | with_reducible apply subMod_orderly
    | with_reducible apply orderly_ite
    | with_reducible apply orderly_foldN
    | with_reducible apply orderly_fold_fst
    | with_reducible apply orderly_foldl
    | intro _

theorem retrainTimeout_orderly {s0 s : State} (h : Orderly s0 s) (c : Nat) :
    Orderly s0 (retrainTimeout s c) := by
  unfold retrainTimeout
  try dsimp only
  repeat' first
    | with_reducible assumption
    | with_reducible apply nowTo_orderly
    | with_reducible apply retrainDone_orderly
    | with_reducible apply orderly_ite
    | with_reducible apply orderly_fold_fst
    | with_reducible apply orderly_foldl
    | intro _
    | split

theorem glPut_orderly {s0 s : State} (h : Orderly s0 s) (l : Nat) (g : GateList) :
    Orderly s0 (glPut s l g) := by
  unfold glPut
  try dsimp only
  repeat' first
    | with_reducible assumption
    | with_reducible apply tmgMod_orderly

theorem glCommit_orderly {s0 s : State} (h : Orderly s0 s) (l : Nat) :
    Orderly s0 (glCommit s l) := by
  unfold glCommit
  try dsimp only
  repeat' first
    | with_reducible assumption
    | with_reducible apply bump0_orderly
    | with_reducible apply faultRec_orderly
    | with_reducible apply glPut_orderly
    | with_reducible apply orderly_ite
    | with_reducible apply orderly_fold_fst
    | with_reducible apply orderly_foldl
    | intro _
    | split

theorem windowPrecharge_orderly {s0 s : State} (h : Orderly s0 s) (group : Nat) :
    Orderly s0 (windowPrecharge s group) := by
  unfold windowPrecharge
  try dsimp only
  repeat' first
    | with_reducible assumption
    | with_reducible apply bump_orderly
    | with_reducible apply chMod_orderly
    | with_reducible apply orderly_ite
    | with_reducible apply orderly_foldS
    | with_reducible apply orderly_fold_fst
    | with_reducible apply orderly_foldl
    | intro _

theorem intervalBegins_orderly {s0 s : State} (h : Orderly s0 s) (l : Nat) (entry : Nat) (at_ : Nat) :
    Orderly s0 (intervalBegins s l entry at_) := by
  unfold intervalBegins
  try dsimp only
  repeat' first
    | with_reducible assumption
    | with_reducible apply admitAll_orderly
    | with_reducible apply glPut_orderly
    | with_reducible apply windowPrecharge_orderly
    | with_reducible apply orderly_ite
    | with_reducible apply orderly_foldS

theorem takeOver_orderly {s0 s : State} (h : Orderly s0 s) (l : Nat) (at_ : Nat) (es : List (Word × Word)) :
    Orderly s0 (takeOver s l at_ es) := by
  unfold takeOver
  try dsimp only
  repeat' first
    | with_reducible assumption
    | with_reducible apply bump0_orderly
    | with_reducible apply trace_orderly
    | with_reducible apply glPut_orderly
    | with_reducible apply intervalBegins_orderly

theorem glTakeover_orderly {s0 s : State} (h : Orderly s0 s) (l : Nat) :
    Orderly s0 (glTakeover s l) := by
  unfold glTakeover
  try dsimp only
  repeat' first
    | with_reducible assumption
    | with_reducible apply cd10To_orderly
    | with_reducible apply takeOver_orderly
    | with_reducible apply orderly_ite
    | with_reducible apply orderly_fold_fst
    | with_reducible apply orderly_foldl
    | intro _
    | split

theorem glBoundary_orderly {s0 s : State} (h : Orderly s0 s) (l : Nat) :
    Orderly s0 (glBoundary s l) := by
  unfold glBoundary
  try dsimp only
  repeat' first
    | with_reducible assumption
    | with_reducible apply cd10To_orderly
    | with_reducible apply intervalBegins_orderly
    | with_reducible apply glTakeover_orderly
    | with_reducible apply orderly_ite
    | with_reducible apply orderly_fold_fst
    | with_reducible apply orderly_foldl
    | intro _
    | split

theorem refillTick_orderly {s0 s : State} (h : Orderly s0 s)  :
    Orderly s0 (refillTick s) := by
  unfold refillTick
  try dsimp only
  repeat' first
    | with_reducible assumption
    | with_reducible apply tmgMod_orderly
    | with_reducible apply periodicCd10_orderly
    | with_reducible apply bucketPut_orderly
    | with_reducible apply orderly_ite
    | with_reducible apply orderly_foldS
    | with_reducible apply orderly_foldN
    | with_reducible apply orderly_fold_fst
    | with_reducible apply orderly_foldl
    | intro _

theorem pcfgWrite_orderly {s0 s : State} (h : Orderly s0 s) (n : Nat) (v : Word) :
    Orderly s0 (pcfgWrite s n v) := by
  unfold pcfgWrite
  split
  · exact h
  · rename_i hn
    refine orderly_ite (regSet_rw_orderly h _ _ _ (rw := 1) ?_ (by decide)) (bump0_orderly h _)
    exact pcfg_bits n (by omega) (by omega)

theorem klrSent_orderly {s0 s : State} (h : Orderly s0 s) (l : Nat) :
    Orderly s0 (klrSent s l) := by
  unfold klrSent
  try dsimp only
  repeat' first
    | with_reducible assumption
    | with_reducible apply klrMod_orderly

theorem putWire_orderly {s0 s : State} (h : Orderly s0 s) (w : WireItem) :
    Orderly s0 (putWire s w) := by
  unfold putWire
  try dsimp only
  repeat' first
    | with_reducible assumption
    | with_reducible apply orderly_ite
    | with_reducible apply orderly_fold_fst
    | with_reducible apply orderly_foldl
    | exact Nat.le_refl _
    | with_reducible rfl
    | intro _
    | split
    | dsimp only
    | with_reducible apply orderly_mk

theorem klrCtl_orderly {s0 s : State} (h : Orderly s0 s) (l : Nat) (typ : Nat) (rq : Bool) (body : List Byte) :
    Orderly s0 (klrCtl s l typ rq body) := by
  unfold klrCtl
  try dsimp only
  repeat' first
    | with_reducible assumption
    | with_reducible apply klrSent_orderly
    | with_reducible apply putWire_orderly

theorem klrStatus_orderly {s0 s : State} (h : Orderly s0 s) (l : Nat) (rq : Bool) :
    Orderly s0 (klrStatus s l rq) := by
  unfold klrStatus
  try dsimp only
  repeat' first
    | with_reducible assumption
    | with_reducible apply bump_orderly
    | with_reducible apply klrMod_orderly
    | with_reducible apply klrCtl_orderly
    | with_reducible apply orderly_ite

theorem noteHeld_orderly {s0 s : State} (h : Orderly s0 s) (e : (Nat × Nat × Nat) × Queue) :
    Orderly s0 (noteHeld s e) := by
  unfold noteHeld
  try dsimp only
  repeat' first
    | with_reducible assumption
    | with_reducible apply bump_orderly
    | with_reducible apply qPut_orderly
    | with_reducible apply orderly_ite
    | with_reducible apply orderly_fold_fst
    | with_reducible apply orderly_foldl
    | intro _
    | split

theorem aliveNext_orderly {s0 s : State} (h : Orderly s0 s) (st : StreamId) :
    Orderly s0 (aliveNext s st).1 := by
  unfold aliveNext
  try dsimp only
  repeat' first
    | with_reducible assumption
    | with_reducible apply tptMod_orderly

theorem sealHdr_orderly {s0 s : State} (h : Orderly s0 s) (f : TxFrame) :
    Orderly s0 (sealHdr s f).1 := by
  unfold sealHdr
  try dsimp only
  repeat' first
    | with_reducible assumption
    | with_reducible apply aliveNext_orderly
    | with_reducible apply orderly_ite
    | with_reducible apply orderly_fold_fst
    | with_reducible apply orderly_foldl
    | with_reducible apply orderly_fst_ite

theorem putPlain_orderly {s0 s : State} (h : Orderly s0 s) (l : Nat) (f : TxFrame) (alive : Byte) (hcrc : Word) :
    Orderly s0 (putPlain s l f alive hcrc) := by
  unfold putPlain
  try dsimp only
  repeat' first
    | with_reducible assumption
    | with_reducible apply bump_orderly
    | with_reducible apply putWire_orderly
    | with_reducible apply orderly_ite
    | with_reducible apply orderly_fold_fst
    | with_reducible apply orderly_foldl
    | intro _
    | split

theorem putData_orderly {s0 s : State} (h : Orderly s0 s) (l : Nat) (f : TxFrame) (alive : Byte) (hcrc : Word) :
    Orderly s0 (putData s l f alive hcrc) := by
  unfold putData
  try dsimp only
  repeat' first
    | with_reducible assumption
    | with_reducible apply bumpN_orderly
    | with_reducible apply klrPut_orderly
    | with_reducible apply klrSent_orderly
    | with_reducible apply putWire_orderly

theorem handedOver_orderly {s0 s : State} (h : Orderly s0 s) (f : TxFrame) :
    Orderly s0 (handedOver s f) := by
  unfold handedOver
  try dsimp only
  repeat' first
    | with_reducible assumption
    | with_reducible apply tptMod_orderly
    | with_reducible apply trkRelease_orderly
    | with_reducible apply orderly_ite
    | with_reducible apply orderly_fold_fst
    | with_reducible apply orderly_foldl
    | intro _
    | split

theorem startHead_orderly {s0 s : State} (h : Orderly s0 s) (l : Nat) (h' : Head) :
    Orderly s0 (startHead s l h') := by
  unfold startHead
  try dsimp only
  repeat' first
    | with_reducible assumption
    | with_reducible apply tmgMod_orderly
    | with_reducible apply bumpN_orderly
    | with_reducible apply bump_orderly
    | with_reducible apply qPut_orderly
    | with_reducible apply sendHeld_orderly
    | with_reducible apply sealHdr_orderly
    | with_reducible apply putPlain_orderly
    | with_reducible apply putData_orderly
    | with_reducible apply handedOver_orderly
    | with_reducible apply orderly_ite

theorem startReplay_orderly {s0 s : State} (h : Orderly s0 s) (l : Nat) :
    Orderly s0 (startReplay s l) := by
  unfold startReplay
  try dsimp only
  repeat' first
    | with_reducible assumption
    | with_reducible apply bump_orderly
    | with_reducible apply klrPut_orderly
    | with_reducible apply klrSent_orderly
    | with_reducible apply putWire_orderly
    | with_reducible apply orderly_ite
    | with_reducible apply orderly_fold_fst
    | with_reducible apply orderly_foldl
    | intro _
    | split

theorem linkStart_orderly {s0 s : State} (h : Orderly s0 s) (l : Nat) :
    Orderly s0 (linkStart s l) := by
  unfold linkStart
  try dsimp only
  repeat' first
    | with_reducible assumption
    | with_reducible apply noteHeld_orderly
    | with_reducible apply startHead_orderly
    | with_reducible apply startReplay_orderly
    | with_reducible apply orderly_ite
    | with_reducible apply orderly_foldS
    | with_reducible apply orderly_fold_fst
    | with_reducible apply orderly_foldl
    | intro _
    | split

theorem prtPut_orderly {s0 s : State} (h : Orderly s0 s) (p : Nat) (x : Prt) :
    Orderly s0 (prtPut s p x) := by
  unfold prtPut
  try dsimp only
  repeat' first
    | with_reducible assumption
    | with_reducible apply orderly_ite
    | with_reducible apply orderly_fold_fst
    | with_reducible apply orderly_foldl
    | exact Nat.le_refl _
    | with_reducible rfl
    | intro _
    | split
    | dsimp only
    | with_reducible apply orderly_mk

theorem prtMod_orderly {s0 s : State} (h : Orderly s0 s) (p : Nat) (f : Prt → Prt) :
    Orderly s0 (prtMod s p f) := by
  unfold prtMod
  try dsimp only
  repeat' first
    | with_reducible assumption
    | with_reducible apply prtPut_orderly

theorem linkDown_orderly {s0 s : State} (h : Orderly s0 s) (l : Nat) :
    Orderly s0 (linkDown s l) := by
  unfold linkDown
  try dsimp only
  repeat' first
    | with_reducible assumption
    | with_reducible apply bump_orderly
    | with_reducible apply klrPut_orderly
    | with_reducible apply prtMod_orderly
    | with_reducible apply orderly_ite

theorem portTrain_orderly {s0 s : State} (h : Orderly s0 s) (p : Nat) :
    Orderly s0 (portTrain s p) := by
  unfold portTrain
  try dsimp only
  repeat' first
    | with_reducible assumption
    | with_reducible apply uSet_orderly
    | with_reducible apply uMove_orderly
    | with_reducible apply prtMod_orderly
    | with_reducible apply orderly_ite

theorem portDown_orderly {s0 s : State} (h : Orderly s0 s) (p : Nat) :
    Orderly s0 (portDown s p) := by
  unfold portDown
  try dsimp only
  repeat' first
    | with_reducible assumption
    | with_reducible apply linkDown_orderly
    | with_reducible apply portTrain_orderly
    | with_reducible apply orderly_ite
    | with_reducible apply orderly_foldS

theorem portBringUp_orderly {s0 s : State} (h : Orderly s0 s) (p : Nat) :
    Orderly s0 (portBringUp s p) := by
  unfold portBringUp
  try dsimp only
  repeat' first
    | with_reducible assumption
    | with_reducible apply klrMod_orderly
    | with_reducible apply prtMod_orderly
    | with_reducible apply orderly_ite
    | with_reducible apply orderly_foldS
    | with_reducible apply orderly_fold_fst
    | with_reducible apply orderly_foldl
    | intro _

theorem portLinksOff_orderly {s0 s : State} (h : Orderly s0 s) (p : Nat) :
    Orderly s0 (portLinksOff s p) := by
  unfold portLinksOff
  try dsimp only
  repeat' first
    | with_reducible assumption
    | with_reducible apply klrMod_orderly
    | with_reducible apply prtMod_orderly
    | with_reducible apply orderly_ite
    | with_reducible apply orderly_foldS
    | with_reducible apply orderly_fold_fst
    | with_reducible apply orderly_foldl
    | intro _

theorem retirePort_orderly {s0 s : State} (h : Orderly s0 s) (p : Nat) (cause : Nat) :
    Orderly s0 (retirePort s p cause) := by
  unfold retirePort
  try dsimp only
  repeat' first
    | with_reducible assumption
    | with_reducible apply portHandoff_orderly
    | with_reducible apply retireUnit_orderly
    | with_reducible apply portLinksOff_orderly
    | with_reducible apply orderly_ite

theorem laneFail_orderly {s0 s : State} (h : Orderly s0 s) (p : Nat) (l : Nat) (cause : Nat) :
    Orderly s0 (laneFail s p l cause) := by
  unfold laneFail
  try dsimp only
  repeat' first
    | with_reducible assumption
    | with_reducible apply bump_orderly
    | with_reducible apply retireUnit_orderly
    | with_reducible apply prtMod_orderly
    | with_reducible apply orderly_ite

theorem sendLmap_orderly {s0 s : State} (h : Orderly s0 s) (p : Nat) (op : Nat) (w : LmapSwap) :
    Orderly s0 (sendLmap s p op w) := by
  unfold sendLmap
  try dsimp only
  repeat' first
    | with_reducible assumption
    | with_reducible apply klrCtl_orderly

theorem laneSwap_orderly {s0 s : State} (h : Orderly s0 s) (p : Nat) (l : Nat) (x : Prt) (cause : Nat) :
    Orderly s0 (laneSwap s p l x cause) := by
  unfold laneSwap
  try dsimp only
  repeat' first
    | with_reducible assumption
    | with_reducible apply degradeUnit_orderly
    | with_reducible apply prtMod_orderly
    | with_reducible apply retirePort_orderly
    | with_reducible apply sendLmap_orderly
    | with_reducible apply orderly_ite

theorem softFault_orderly {s0 s : State} (h : Orderly s0 s) (p : Nat) (l : Nat) (symbols : Nat) :
    Orderly s0 (softFault s p l symbols) := by
  unfold softFault
  try dsimp only
  repeat' first
    | with_reducible assumption
    | with_reducible apply bumpN_orderly
    | with_reducible apply laneFail_orderly
    | with_reducible apply laneSwap_orderly
    | with_reducible apply orderly_ite

theorem hardFault_orderly {s0 s : State} (h : Orderly s0 s) (p : Nat) (l : Nat) :
    Orderly s0 (hardFault s p l) := by
  unfold hardFault
  try dsimp only
  repeat' first
    | with_reducible assumption
    | with_reducible apply portDown_orderly
    | with_reducible apply retirePort_orderly
    | with_reducible apply laneFail_orderly
    | with_reducible apply orderly_ite

theorem bringUpTimeout_orderly {s0 s : State} (h : Orderly s0 s) (p : Nat) (dark : BitVec 9) :
    Orderly s0 (bringUpTimeout s p dark) := by
  unfold bringUpTimeout
  try dsimp only
  repeat' first
    | with_reducible assumption
    | with_reducible apply nowTo_orderly
    | with_reducible apply prtMod_orderly
    | with_reducible apply retirePort_orderly
    | with_reducible apply laneFail_orderly
    | with_reducible apply orderly_ite
    | with_reducible apply orderly_foldS
    | with_reducible apply orderly_fold_fst
    | with_reducible apply orderly_foldl
    | intro _

theorem absentRetry_orderly {s0 s : State} (h : Orderly s0 s) (p : Nat) :
    Orderly s0 (absentRetry s p) := by
  unfold absentRetry
  try dsimp only
  repeat' first
    | with_reducible assumption
    | with_reducible apply nowTo_orderly
    | with_reducible apply prtMod_orderly
    | with_reducible apply orderly_ite

theorem portTryUp_orderly {s0 s : State} (h : Orderly s0 s) (p : Nat) :
    Orderly s0 (portTryUp s p) := by
  unfold portTryUp
  try dsimp only
  repeat' first
    | with_reducible assumption
    | with_reducible apply tptMod_orderly
    | with_reducible apply uSet_orderly
    | with_reducible apply uMove_orderly
    | with_reducible apply faultUnit_orderly
    | with_reducible apply sendHeld_orderly
    | with_reducible apply prtMod_orderly
    | with_reducible apply retirePort_orderly
    | with_reducible apply orderly_ite
    | with_reducible apply orderly_foldN
    | with_reducible apply orderly_fold_fst
    | with_reducible apply orderly_foldl
    | intro _

theorem replayBegin_orderly {s0 s : State} (h : Orderly s0 s) (l : Nat) :
    Orderly s0 (replayBegin s l) := by
  unfold replayBegin
  try dsimp only
  repeat' first
    | with_reducible assumption
    | with_reducible apply klrMod_orderly

theorem klrAcked_orderly {s0 s : State} (h : Orderly s0 s) (l : Nat) (ack : BitVec 24) :
    Orderly s0 (klrAcked s l ack) := by
  unfold klrAcked
  try dsimp only
  repeat' first
    | with_reducible assumption
    | with_reducible apply klrPut_orderly
    | with_reducible apply orderly_ite

theorem replayTimer_orderly {s0 s : State} (h : Orderly s0 s) (l : Nat) :
    Orderly s0 (replayTimer s l) := by
  unfold replayTimer
  try dsimp only
  repeat' first
    | with_reducible assumption
    | with_reducible apply bump_orderly
    | with_reducible apply nowTo_orderly
    | with_reducible apply klrMod_orderly
    | with_reducible apply linkDown_orderly
    | with_reducible apply portTrain_orderly
    | with_reducible apply replayBegin_orderly
    | with_reducible apply orderly_ite
    | with_reducible apply orderly_fold_fst
    | with_reducible apply orderly_foldl
    | intro _
    | split

theorem grantBlock_orderly {s0 s : State} (h : Orderly s0 s) (l : Nat) :
    Orderly s0 (grantBlock s l) := by
  unfold grantBlock
  try dsimp only
  repeat' first
    | with_reducible assumption
    | with_reducible apply klrPut_orderly
    | with_reducible apply orderly_ite
    | with_reducible apply orderly_fold_fst
    | with_reducible apply orderly_foldl
    | intro _
    | split

theorem klrFields_orderly {s0 s : State} (h : Orderly s0 s) (l : Nat) (h' : KlrHdr) :
    Orderly s0 (klrFields s l h') := by
  unfold klrFields
  try dsimp only
  repeat' first
    | with_reducible assumption
    | with_reducible apply klrMod_orderly
    | with_reducible apply klrAcked_orderly
    | with_reducible apply grantBlock_orderly
    | with_reducible apply orderly_ite

theorem klrCheck_orderly {s0 s : State} (h : Orderly s0 s) (typ : Nat) (rx : KlrRx) (k : State → State) (hk : ∀ s, Orderly s0 s → Orderly s0 (k s)) :
    Orderly s0 (klrCheck s typ rx k) := by
  unfold klrCheck
  try dsimp only
  repeat' first
    | with_reducible assumption
    | with_reducible apply bump_orderly
    | with_reducible apply orderly_ite
    | with_reducible apply hk

theorem klrBody_orderly {s0 s : State} (h : Orderly s0 s) (typ : Nat) (n : Nat) (rx : KlrRx) (k : State → State) (hk : ∀ s, Orderly s0 s → Orderly s0 (k s)) :
    Orderly s0 (klrBody s typ n rx k) := by
  unfold klrBody
  try dsimp only
  repeat' first
    | with_reducible assumption
    | with_reducible apply bump_orderly
    | with_reducible apply klrCheck_orderly
    | with_reducible apply orderly_ite
    | with_reducible apply hk
    | with_reducible apply orderly_fold_fst
    | with_reducible apply orderly_foldl
    | intro _

theorem klrAckDue_orderly {s0 s : State} (h : Orderly s0 s) (l : Nat) :
    Orderly s0 (klrAckDue s l) := by
  unfold klrAckDue
  try dsimp only
  repeat' first
    | with_reducible assumption
    | with_reducible apply klrMod_orderly
    | with_reducible apply klrStatus_orderly
    | with_reducible apply orderly_ite

theorem klrAccept_orderly {s0 s : State} (h : Orderly s0 s) (rx : KlrRx) :
    Orderly s0 (klrAccept s rx) := by
  unfold klrAccept
  try dsimp only
  repeat' first
    | with_reducible assumption
    | with_reducible apply bump_orderly
    | with_reducible apply klrPut_orderly
    | with_reducible apply klrAckDue_orderly
    | with_reducible apply orderly_ite

theorem klrDataRx_orderly {s0 s : State} (h : Orderly s0 s) (rx : KlrRx) :
    Orderly s0 (klrDataRx s rx) := by
  unfold klrDataRx
  try dsimp only
  repeat' first
    | with_reducible assumption
    | with_reducible apply bump_orderly
    | with_reducible apply klrMod_orderly
    | with_reducible apply klrStatus_orderly
    | with_reducible apply klrFields_orderly
    | with_reducible apply klrCheck_orderly
    | with_reducible apply klrAckDue_orderly
    | with_reducible apply klrAccept_orderly
    | with_reducible apply orderly_ite
    | with_reducible apply orderly_fold_fst
    | with_reducible apply orderly_foldl
    | intro _

theorem klrStatusRx_orderly {s0 s : State} (h : Orderly s0 s) (rx : KlrRx) :
    Orderly s0 (klrStatusRx s rx) := by
  unfold klrStatusRx
  try dsimp only
  repeat' first
    | with_reducible assumption
    | with_reducible apply bump_orderly
    | with_reducible apply klrMod_orderly
    | with_reducible apply replayBegin_orderly
    | with_reducible apply klrFields_orderly
    | with_reducible apply klrBody_orderly
    | with_reducible apply orderly_ite
    | with_reducible apply orderly_foldN
    | with_reducible apply orderly_fold_fst
    | with_reducible apply orderly_foldl
    | intro _

theorem klrAckExpire_orderly {s0 s : State} (h : Orderly s0 s) (l : Nat) :
    Orderly s0 (klrAckExpire s l) := by
  unfold klrAckExpire
  try dsimp only
  repeat' first
    | with_reducible assumption
    | with_reducible apply nowTo_orderly
    | with_reducible apply klrStatus_orderly
    | with_reducible apply orderly_ite
    | with_reducible apply orderly_fold_fst
    | with_reducible apply orderly_foldl
    | intro _
    | split

theorem klrPeriod_orderly {s0 s : State} (h : Orderly s0 s) (l : Nat) :
    Orderly s0 (klrPeriod s l) := by
  unfold klrPeriod
  try dsimp only
  repeat' first
    | with_reducible assumption
    | with_reducible apply nowTo_orderly
    | with_reducible apply klrStatus_orderly
    | with_reducible apply orderly_ite

theorem pcsUp_orderly {s0 s : State} (h : Orderly s0 s) (l : Nat) :
    Orderly s0 (pcsUp s l) := by
  unfold pcsUp
  try dsimp only
  repeat' first
    | with_reducible assumption
    | with_reducible apply klrMod_orderly
    | with_reducible apply portTryUp_orderly
    | with_reducible apply orderly_ite

theorem pcsDown_orderly {s0 s : State} (h : Orderly s0 s) (l : Nat) :
    Orderly s0 (pcsDown s l) := by
  unfold pcsDown
  try dsimp only
  repeat' first
    | with_reducible assumption
    | with_reducible apply linkDown_orderly
    | with_reducible apply portTrain_orderly
    | with_reducible apply orderly_ite

theorem klrUp_orderly {s0 s : State} (h : Orderly s0 s) (l : Nat) :
    Orderly s0 (klrUp s l) := by
  unfold klrUp
  try dsimp only
  repeat' first
    | with_reducible assumption
    | with_reducible apply bump_orderly
    | with_reducible apply klrPut_orderly
    | with_reducible apply portTryUp_orderly
    | with_reducible apply orderly_ite

theorem helloCheck_orderly {s0 s : State} (h : Orderly s0 s) (l : Nat) :
    Orderly s0 (helloCheck s l) := by
  unfold helloCheck
  try dsimp only
  repeat' first
    | with_reducible assumption
    | with_reducible apply klrUp_orderly
    | with_reducible apply orderly_ite

theorem helloSend_orderly {s0 s : State} (h : Orderly s0 s) (l : Nat) :
    Orderly s0 (helloSend s l) := by
  unfold helloSend
  try dsimp only
  repeat' first
    | with_reducible assumption
    | with_reducible apply nowTo_orderly
    | with_reducible apply klrMod_orderly
    | with_reducible apply klrCtl_orderly
    | with_reducible apply helloCheck_orderly
    | with_reducible apply orderly_ite

theorem helloRx_orderly {s0 s : State} (h : Orderly s0 s) (rx : KlrRx) :
    Orderly s0 (helloRx s rx) := by
  unfold helloRx
  try dsimp only
  repeat' first
    | with_reducible assumption
    | with_reducible apply bump_orderly
    | with_reducible apply klrPut_orderly
    | with_reducible apply prtMod_orderly
    | with_reducible apply klrBody_orderly
    | with_reducible apply helloCheck_orderly
    | with_reducible apply orderly_ite
    | with_reducible apply orderly_fold_fst
    | with_reducible apply orderly_foldl
    | intro _

theorem helloTimeout_orderly {s0 s : State} (h : Orderly s0 s) (l : Nat) :
    Orderly s0 (helloTimeout s l) := by
  unfold helloTimeout
  try dsimp only
  repeat' first
    | with_reducible assumption
    | with_reducible apply nowTo_orderly
    | with_reducible apply klrPut_orderly
    | with_reducible apply klrMod_orderly
    | with_reducible apply fenceUnit_orderly
    | with_reducible apply putPlain_orderly
    | with_reducible apply portLinksOff_orderly
    | with_reducible apply portTryUp_orderly
    | with_reducible apply helloRx_orderly
    | with_reducible apply orderly_ite
    | with_reducible apply orderly_foldS
    | with_reducible apply orderly_fold_fst
    | with_reducible apply orderly_foldl
    | intro _

theorem downRetire_orderly {s0 s : State} (h : Orderly s0 s) (p : Nat) :
    Orderly s0 (downRetire s p) := by
  unfold downRetire
  try dsimp only
  repeat' first
    | with_reducible assumption
    | with_reducible apply nowTo_orderly
    | with_reducible apply retirePort_orderly
    | with_reducible apply orderly_ite

theorem lmapRx_orderly {s0 s : State} (h : Orderly s0 s) (op : Nat) (rx : KlrRx) (k : State → Nat → LmapSwap → State) (hk : ∀ s, Orderly s0 s → ∀ x1 x2, Orderly s0 (k s x1 x2)) :
    Orderly s0 (lmapRx s op rx k) := by
  unfold lmapRx
  try dsimp only
  repeat' first
    | with_reducible assumption
    | with_reducible apply klrFields_orderly
    | with_reducible apply klrBody_orderly
    | with_reducible apply orderly_ite
    | with_reducible apply hk
    | with_reducible apply orderly_fold_fst
    | with_reducible apply orderly_foldl
    | intro _

theorem sendSwitch_orderly {s0 s : State} (h : Orderly s0 s) (p : Nat) (w : LmapSwap) :
    Orderly s0 (sendSwitch s p w) := by
  unfold sendSwitch
  try dsimp only
  repeat' first
    | with_reducible assumption
    | with_reducible apply prtMod_orderly
    | with_reducible apply sendLmap_orderly

theorem lmapReq_orderly {s0 s : State} (h : Orderly s0 s) (p : Nat) (w : LmapSwap) :
    Orderly s0 (lmapReq s p w) := by
  unfold lmapReq
  try dsimp only
  repeat' first
    | with_reducible assumption
    | with_reducible apply retirePort_orderly
    | with_reducible apply laneFail_orderly
    | with_reducible apply sendLmap_orderly
    | with_reducible apply sendSwitch_orderly
    | with_reducible apply orderly_ite
    | with_reducible apply orderly_fold_fst
    | with_reducible apply orderly_foldl
    | intro _
    | split

theorem lmapAck_orderly {s0 s : State} (h : Orderly s0 s) (p : Nat) (w : LmapSwap) :
    Orderly s0 (lmapAck s p w) := by
  unfold lmapAck
  try dsimp only
  repeat' first
    | with_reducible assumption
    | with_reducible apply sendSwitch_orderly
    | with_reducible apply orderly_ite
    | with_reducible apply orderly_fold_fst
    | with_reducible apply orderly_foldl
    | intro _
    | split

theorem lmapSwitch_orderly {s0 s : State} (h : Orderly s0 s) (p : Nat) (w : LmapSwap) :
    Orderly s0 (lmapSwitch s p w) := by
  unfold lmapSwitch
  try dsimp only
  repeat' first
    | with_reducible assumption
    | with_reducible apply prtMod_orderly
    | with_reducible apply orderly_ite
    | with_reducible apply orderly_fold_fst
    | with_reducible apply orderly_foldl
    | intro _
    | split

theorem lmapFinish_orderly {s0 s : State} (h : Orderly s0 s) (p : Nat) :
    Orderly s0 (lmapFinish s p) := by
  unfold lmapFinish
  try dsimp only
  repeat' first
    | with_reducible assumption
    | with_reducible apply bump_orderly
    | with_reducible apply degradeUnit_orderly
    | with_reducible apply prtMod_orderly
    | with_reducible apply orderly_ite
    | with_reducible apply orderly_fold_fst
    | with_reducible apply orderly_foldl
    | intro _
    | split

theorem lmapPoint_orderly {s0 s : State} (h : Orderly s0 s) (p : Nat) :
    Orderly s0 (lmapPoint s p) := by
  unfold lmapPoint
  try dsimp only
  repeat' first
    | with_reducible assumption
    | with_reducible apply prtMod_orderly
    | with_reducible apply sendLmap_orderly
    | with_reducible apply lmapFinish_orderly
    | with_reducible apply orderly_ite
    | with_reducible apply orderly_fold_fst
    | with_reducible apply orderly_foldl
    | intro _
    | split

theorem lmapDone_orderly {s0 s : State} (h : Orderly s0 s) (p : Nat) (w : LmapSwap) :
    Orderly s0 (lmapDone s p w) := by
  unfold lmapDone
  try dsimp only
  repeat' first
    | with_reducible assumption
    | with_reducible apply prtMod_orderly
    | with_reducible apply lmapFinish_orderly
    | with_reducible apply orderly_ite
    | with_reducible apply orderly_fold_fst
    | with_reducible apply orderly_foldl
    | intro _
    | split

theorem lmapRefuse_orderly {s0 s : State} (h : Orderly s0 s) (p : Nat) (x : LmapSwap) :
    Orderly s0 (lmapRefuse s p x) := by
  unfold lmapRefuse
  try dsimp only
  repeat' first
    | with_reducible assumption
    | with_reducible apply retirePort_orderly
    | with_reducible apply orderly_ite
    | with_reducible apply orderly_fold_fst
    | with_reducible apply orderly_foldl
    | intro _
    | split

theorem lmapTimeout_orderly {s0 s : State} (h : Orderly s0 s) (p : Nat) :
    Orderly s0 (lmapTimeout s p) := by
  unfold lmapTimeout
  try dsimp only
  repeat' first
    | with_reducible assumption
    | with_reducible apply nowTo_orderly
    | with_reducible apply portDown_orderly
    | with_reducible apply orderly_ite
    | with_reducible apply orderly_fold_fst
    | with_reducible apply orderly_foldl
    | intro _
    | split

theorem takeBack_orderly {s0 s : State} (h : Orderly s0 s) (fs : List TxFrame) :
    Orderly s0 (takeBack s fs) := by
  unfold takeBack
  try dsimp only
  repeat' first
    | with_reducible assumption
    | with_reducible apply tptMod_orderly
    | with_reducible apply qPut_orderly
    | with_reducible apply orderly_ite
    | with_reducible apply orderly_foldS
    | with_reducible apply orderly_fold_fst
    | with_reducible apply orderly_foldl
    | intro _
    | split

theorem handoffDone_orderly {s0 s : State} (h : Orderly s0 s) (p : Nat) :
    Orderly s0 (handoffDone s p) := by
  unfold handoffDone
  try dsimp only
  repeat' first
    | with_reducible assumption
    | with_reducible apply klrMod_orderly
    | with_reducible apply trkReopen_orderly
    | with_reducible apply helloRx_orderly
    | with_reducible apply takeBack_orderly
    | with_reducible apply orderly_ite
    | with_reducible apply orderly_foldS
    | with_reducible apply orderly_fold_fst
    | with_reducible apply orderly_foldl
    | intro _

theorem macReject_orderly {s0 s : State} (h : Orderly s0 s) (v : RxVia) (e : Encap) (fcsOk : Bool) (uncorr : Nat) :
    Orderly s0 (macReject s v e fcsOk uncorr) := by
  unfold macReject
  try dsimp only
  repeat' first
    | with_reducible assumption
    | with_reducible apply bumpN_orderly
    | with_reducible apply bump_orderly
    | with_reducible apply orderly_ite

theorem neighbourRx_orderly {s0 s : State} (h : Orderly s0 s) (l : Nat) (nd : Bool) (target : BitVec 128) :
    Orderly s0 (neighbourRx s l nd target) := by
  unfold neighbourRx
  try dsimp only
  repeat' first
    | with_reducible assumption
    | with_reducible apply enqueue_orderly
    | with_reducible apply putWire_orderly
    | with_reducible apply orderly_ite

theorem ptpPut_orderly {s0 s : State} (h : Orderly s0 s) (l : Nat) (p : PtpPort) :
    Orderly s0 (ptpPut s l p) := by
  unfold ptpPut
  try dsimp only
  repeat' first
    | with_reducible assumption
    | with_reducible apply orderly_ite
    | with_reducible apply orderly_fold_fst
    | with_reducible apply orderly_foldl
    | exact Nat.le_refl _
    | with_reducible rfl
    | intro _
    | split
    | dsimp only
    | with_reducible apply orderly_mk

theorem ptpMod_orderly {s0 s : State} (h : Orderly s0 s) (f : Ptp → Ptp) :
    Orderly s0 (ptpMod s f) := by
  unfold ptpMod
  try dsimp only
  repeat' first
    | with_reducible assumption
    | with_reducible apply orderly_ite
    | with_reducible apply orderly_fold_fst
    | with_reducible apply orderly_foldl
    | exact Nat.le_refl _
    | with_reducible rfl
    | intro _
    | split
    | dsimp only
    | with_reducible apply orderly_mk

theorem ptpDecide_orderly {s0 s : State} (h : Orderly s0 s)  :
    Orderly s0 (ptpDecide s) := by
  unfold ptpDecide
  try dsimp only
  repeat' first
    | with_reducible assumption
    | with_reducible apply ptpPut_orderly
    | with_reducible apply orderly_ite
    | with_reducible apply orderly_foldN
    | with_reducible apply orderly_fold_fst
    | with_reducible apply orderly_foldl
    | intro _

theorem ptpOffset_orderly {s0 s : State} (h : Orderly s0 s) (l : Nat) (t1 : Nat) (t2 : Nat) (corr : Int) :
    Orderly s0 (ptpOffset s l t1 t2 corr) := by
  unfold ptpOffset
  try dsimp only
  repeat' first
    | with_reducible assumption
    | with_reducible apply draw_orderly
    | with_reducible apply cd10Put_orderly
    | with_reducible apply ptpPut_orderly
    | with_reducible apply ptpMod_orderly

theorem ptpSend_orderly {s0 s : State} (h : Orderly s0 s) (l : Nat) (m : PtpMsg) :
    Orderly s0 (ptpSend s l m) := by
  unfold ptpSend
  try dsimp only
  repeat' first
    | with_reducible assumption
    | with_reducible apply enqueue_orderly

theorem ptpSync_orderly {s0 s : State} (h : Orderly s0 s) (l : Nat) :
    Orderly s0 (ptpSync s l) := by
  unfold ptpSync
  try dsimp only
  repeat' first
    | with_reducible assumption
    | with_reducible apply ptpPut_orderly
    | with_reducible apply ptpSend_orderly
    | with_reducible apply orderly_ite

theorem ptpDelayReq_orderly {s0 s : State} (h : Orderly s0 s) (l : Nat) (kind : PtpKind) :
    Orderly s0 (ptpDelayReq s l kind) := by
  unfold ptpDelayReq
  try dsimp only
  repeat' first
    | with_reducible assumption
    | with_reducible apply ptpPut_orderly
    | with_reducible apply ptpSend_orderly

theorem ptpInterval_orderly {s0 s : State} (h : Orderly s0 s) (l : Nat) (kind : PtpKind) :
    Orderly s0 (ptpInterval s l kind) := by
  unfold ptpInterval
  try dsimp only
  repeat' first
    | with_reducible assumption
    | with_reducible apply ptpPut_orderly
    | with_reducible apply ptpMod_orderly
    | with_reducible apply ptpDecide_orderly
    | with_reducible apply ptpSend_orderly
    | with_reducible apply ptpSync_orderly
    | with_reducible apply ptpDelayReq_orderly
    | with_reducible apply orderly_ite
    | with_reducible apply orderly_fold_fst
    | with_reducible apply orderly_foldl
    | intro _
    | split

theorem ptpHandle_orderly {s0 s : State} (h : Orderly s0 s) (l : Nat) (m : PtpMsg) (t : Nat) :
    Orderly s0 (ptpHandle s l m t) := by
  unfold ptpHandle
  try dsimp only
  repeat' first
    | with_reducible assumption
    | with_reducible apply ptpPut_orderly
    | with_reducible apply ptpMod_orderly
    | with_reducible apply ptpDecide_orderly
    | with_reducible apply ptpOffset_orderly
    | with_reducible apply ptpSend_orderly
    | with_reducible apply orderly_ite
    | with_reducible apply orderly_fold_fst
    | with_reducible apply orderly_foldl
    | intro _
    | split

theorem ptpRx_orderly {s0 s : State} (h : Orderly s0 s) (l : Nat) (m : PtpMsg) :
    Orderly s0 (ptpRx s l m) := by
  unfold ptpRx
  try dsimp only
  repeat' first
    | with_reducible assumption
    | with_reducible apply bump_orderly
    | with_reducible apply meter_orderly
    | with_reducible apply ptpHandle_orderly
    | with_reducible apply orderly_ite
    | with_reducible apply orderly_fold_fst
    | with_reducible apply orderly_foldl
    | intro _
    | split

theorem ptpSyncLost_orderly {s0 s : State} (h : Orderly s0 s)  :
    Orderly s0 (ptpSyncLost s) := by
  unfold ptpSyncLost
  try dsimp only
  repeat' first
    | with_reducible assumption
    | with_reducible apply nowTo_orderly
    | with_reducible apply ptpMod_orderly
    | with_reducible apply orderly_ite

theorem ptpStart_orderly {s0 s : State} (h : Orderly s0 s)  :
    Orderly s0 (ptpStart s) := by
  unfold ptpStart
  try dsimp only
  repeat' first
    | with_reducible assumption
    | with_reducible apply ptpPut_orderly
    | with_reducible apply ptpMod_orderly
    | with_reducible apply orderly_ite
    | with_reducible apply orderly_foldN
    | with_reducible apply orderly_fold_fst
    | with_reducible apply orderly_foldl
    | intro _

end Sys2Proof.Machine
end

