-- ==== Sys2Proof/Laws/OrdMgmt.lean ====
section
/-! SUPPORT. What the operations of RegTable, Agent, Parity, CollCmds, Life, Trust, Fabric keep: `Orderly` of each. -/
namespace Sys2Proof.Machine

theorem fromSource_orderly {s0 s : State} (h : Orderly s0 s) (src : MgmtSource) (s' : State) (hs' : Orderly s0 s') :
    Orderly s0 (fromSource s src s') := by
  unfold fromSource
  try dsimp only
  repeat' first
    | with_reducible assumption
    | with_reducible apply orderly_ite

theorem asOperator_orderly {s0 s : State} (h : Orderly s0 s) (src : MgmtSource) (s' : State) (hs' : Orderly s0 s') :
    Orderly s0 (asOperator s src s') := by
  unfold asOperator
  try dsimp only
  repeat' first
    | with_reducible assumption
    | with_reducible apply fromSource_orderly
    | with_reducible apply orderly_ite

theorem asBoot_orderly {s0 s : State} (h : Orderly s0 s) (src : MgmtSource) (s' : State) (hs' : Orderly s0 s') :
    Orderly s0 (asBoot s src s') := by
  unfold asBoot
  try dsimp only
  repeat' first
    | with_reducible assumption
    | with_reducible apply orderly_ite

theorem gridRetired_orderly {s0 s : State} (h : Orderly s0 s) (k : Nat) (cause : Nat) :
    Orderly s0 (gridRetired s k cause) := by
  unfold gridRetired
  try dsimp only
  repeat' first
    | with_reducible assumption
    | with_reducible apply bump0_orderly
    | with_reducible apply gridUnitLost_orderly
    | with_reducible apply degradeUnit_orderly
    | with_reducible apply orderly_ite
    | with_reducible apply orderly_fold_fst
    | with_reducible apply orderly_foldl
    | intro _
    | split

theorem chiefAgain_orderly {s0 s : State} (h : Orderly s0 s)  :
    Orderly s0 (chiefAgain s) := by
  unfold chiefAgain
  try dsimp only
  repeat' first
    | with_reducible assumption
    | with_reducible apply svcMod_orderly
    | with_reducible apply chipStop_orderly
    | with_reducible apply orderly_ite
    | with_reducible apply orderly_fold_fst
    | with_reducible apply orderly_foldl
    | intro _
    | split

theorem intentRefused_orderly {s0 s : State} (h : Orderly s0 s) (agent : Nat) :
    Orderly s0 (intentRefused s agent) := by
  unfold intentRefused
  try dsimp only
  repeat' first
    | with_reducible assumption
    | with_reducible apply fltMod_orderly

theorem retireAsked_orderly {s0 s : State} (h : Orderly s0 s) (k : Nat) :
    Orderly s0 (retireAsked s k) := by
  unfold retireAsked
  try dsimp only
  repeat' first
    | with_reducible assumption
    | with_reducible apply uSet_orderly
    | with_reducible apply uMove_orderly

theorem retiredRest_orderly {s0 s : State} (h : Orderly s0 s) (k : Nat) :
    Orderly s0 (retiredRest s k) := by
  unfold retiredRest
  try dsimp only
  repeat' first
    | with_reducible assumption
    | with_reducible apply bump_orderly
    | with_reducible apply portHandoff_orderly
    | with_reducible apply groupLost_orderly
    | with_reducible apply retireGroup_orderly
    | with_reducible apply prtMod_orderly
    | with_reducible apply portLinksOff_orderly
    | with_reducible apply laneSwap_orderly
    | with_reducible apply gridRetired_orderly
    | with_reducible apply chiefAgain_orderly
    | with_reducible apply orderly_ite

theorem bringUp_orderly {s0 s : State} (h : Orderly s0 s) (k : Nat) :
    Orderly s0 (bringUp s k) := by
  unfold bringUp
  try dsimp only
  repeat' first
    | with_reducible assumption
    | with_reducible apply uSet_orderly
    | with_reducible apply uMove_orderly
    | with_reducible apply portBringUp_orderly
    | with_reducible apply orderly_ite

theorem unitOff_orderly {s0 s : State} (h : Orderly s0 s) (k : Nat) :
    Orderly s0 (unitOff s k) := by
  unfold unitOff
  try dsimp only
  repeat' first
    | with_reducible assumption
    | with_reducible apply uSet_orderly
    | with_reducible apply uMove_orderly
    | with_reducible apply chMod_orderly
    | with_reducible apply regRelease_orderly
    | with_reducible apply orderly_ite

theorem intentSet_orderly {s0 s : State} (h : Orderly s0 s) (k : Nat) (i : Intent) :
    Orderly s0 (intentSet s k i) := by
  unfold intentSet
  try dsimp only
  repeat' first
    | with_reducible assumption
    | with_reducible apply uSet_orderly
    | with_reducible apply retireAsked_orderly
    | with_reducible apply retiredRest_orderly
    | with_reducible apply bringUp_orderly
    | with_reducible apply unitOff_orderly
    | with_reducible apply orderly_ite
    | with_reducible apply orderly_fold_fst
    | with_reducible apply orderly_foldl
    | intro _
    | split

theorem intentWrite_orderly {s0 s : State} (h : Orderly s0 s) (src : MgmtSource) (agent : Nat) (u : Nat) (v : Nat) :
    Orderly s0 (intentWrite s src agent u v) := by
  unfold intentWrite
  try dsimp only
  repeat' first
    | with_reducible assumption
    | with_reducible apply intentRefused_orderly
    | with_reducible apply intentSet_orderly
    | with_reducible apply orderly_ite
    | with_reducible apply orderly_fold_fst
    | with_reducible apply orderly_foldl
    | intro _
    | split

theorem bringUpDone_orderly {s0 s : State} (h : Orderly s0 s) (agent : Nat) (u : Nat) :
    Orderly s0 (bringUpDone s agent u) := by
  unfold bringUpDone
  try dsimp only
  repeat' first
    | with_reducible assumption
    | with_reducible apply uSet_orderly
    | with_reducible apply uMove_orderly
    | with_reducible apply sendHeld_orderly
    | with_reducible apply degradeUnit_orderly
    | with_reducible apply portTryUp_orderly
    | with_reducible apply chiefAgain_orderly
    | with_reducible apply orderly_ite

theorem bringUpFail_orderly {s0 s : State} (h : Orderly s0 s) (agent : Nat) (u : Nat) :
    Orderly s0 (bringUpFail s agent u) := by
  unfold bringUpFail
  try dsimp only
  repeat' first
    | with_reducible assumption
    | with_reducible apply uSet_orderly
    | with_reducible apply fenceUnit_orderly
    | with_reducible apply portLinksOff_orderly
    | with_reducible apply orderly_ite

theorem auditUnit_orderly {s0 s : State} (h : Orderly s0 s) (k : Nat) :
    Orderly s0 (auditUnit s k) := by
  unfold auditUnit
  try dsimp only
  repeat' first
    | with_reducible assumption
    | with_reducible apply uSet_orderly
    | with_reducible apply fenceUnit_orderly
    | with_reducible apply orderly_ite

theorem audit_orderly {s0 s : State} (h : Orderly s0 s)  :
    Orderly s0 (audit s) := by
  unfold audit
  try dsimp only
  repeat' first
    | with_reducible assumption
    | with_reducible apply periodic_orderly
    | with_reducible apply auditUnit_orderly
    | with_reducible apply orderly_ite
    | with_reducible apply orderly_foldS

theorem parityCharge_orderly {s0 s : State} (h : Orderly s0 s) (k : Nat) (cause : Nat) (number : Nat) :
    Orderly s0 (parityCharge s k cause number) := by
  unfold parityCharge
  try dsimp only
  repeat' first
    | with_reducible assumption
    | with_reducible apply grdMod_orderly
    | with_reducible apply retireUnit_orderly
    | with_reducible apply gridRetired_orderly
    | with_reducible apply orderly_ite

theorem holdRead_orderly {s0 s : State} (h : Orderly s0 s) (ix c : Nat) (again : Reread) (go : State) (hg : Orderly s0 go) :
    Orderly s0 (holdRead s ix c again go) := by
  unfold holdRead
  split
  · exact hg
  · exact bump0_orderly hg _
  · exact parityCharge_orderly (bump_orderly (coreFails_orderly h _ _ _) _ _ _ _) _ _ _

theorem mxRead_orderly {s0 s : State} (h : Orderly s0 s) (quad : Nat) (again : Reread) (go : State) (hg : Orderly s0 go) :
    Orderly s0 (mxRead s quad again go) := by
  unfold mxRead
  split
  · exact hg
  · exact hg
  · exact bump_orderly hg _ _ _ _
  · exact parityCharge_orderly (bump_orderly (endSess_orderly h _ _ _ _) _ _ _ _) _ _ _

theorem onRec_orderly {s0 s : State} (h : Orderly s0 s) (pitch : BitVec 8) (id : BitVec 24) (f : State → Nat → State) (hf : ∀ s, Orderly s0 s → ∀ x1, Orderly s0 (f s x1)) :
    Orderly s0 (onRec s pitch id f) := by
  unfold onRec
  try dsimp only
  repeat' first
    | with_reducible assumption
    | with_reducible apply orderly_ite
    | with_reducible apply hf
    | with_reducible apply orderly_fold_fst
    | with_reducible apply orderly_foldl
    | intro _
    | split

theorem unlessRestart_orderly {s0 s : State} (h : Orderly s0 s) (s' : State) (hs' : Orderly s0 s') :
    Orderly s0 (unlessRestart s s') := by
  unfold unlessRestart
  try dsimp only
  repeat' first
    | with_reducible assumption
    | with_reducible apply orderly_ite

theorem createTimeout_orderly {s0 s : State} (h : Orderly s0 s) (n : Nat) :
    Orderly s0 (createTimeout s n) := by
  unfold createTimeout
  try dsimp only
  repeat' first
    | with_reducible assumption
    | with_reducible apply nowTo_orderly
    | with_reducible apply createFails_orderly
    | with_reducible apply orderly_ite
    | with_reducible apply orderly_fold_fst
    | with_reducible apply orderly_foldl
    | intro _
    | split

theorem drainEnd_orderly {s0 s : State} (h : Orderly s0 s) (n : Nat) :
    Orderly s0 (drainEnd s n) := by
  unfold drainEnd
  try dsimp only
  repeat' first
    | with_reducible assumption
    | with_reducible apply strikeEnds_orderly
    | with_reducible apply orderly_ite

theorem drainDeadline_orderly {s0 s : State} (h : Orderly s0 s) (n : Nat) :
    Orderly s0 (drainDeadline s n) := by
  unfold drainDeadline
  try dsimp only
  repeat' first
    | with_reducible assumption
    | with_reducible apply nowTo_orderly
    | with_reducible apply strikeDeadline_orderly
    | with_reducible apply orderly_ite
    | with_reducible apply orderly_fold_fst
    | with_reducible apply orderly_foldl
    | intro _
    | split

theorem repitchTimeout_orderly {s0 s : State} (h : Orderly s0 s) (n : Nat) :
    Orderly s0 (repitchTimeout s n) := by
  unfold repitchTimeout
  try dsimp only
  repeat' first
    | with_reducible assumption
    | with_reducible apply nowTo_orderly
    | with_reducible apply repitchFails_orderly
    | with_reducible apply orderly_ite
    | with_reducible apply orderly_fold_fst
    | with_reducible apply orderly_foldl
    | intro _
    | split

theorem sweepDone_orderly {s0 s : State} (h : Orderly s0 s) (g : Nat) :
    Orderly s0 (sweepDone s g) := by
  unfold sweepDone
  try dsimp only
  repeat' first
    | with_reducible assumption
    | with_reducible apply svcMod_orderly
    | with_reducible apply bumpN_orderly
    | with_reducible apply granuleFree_orderly
    | with_reducible apply granuleReturned_orderly
    | with_reducible apply orderly_ite

theorem slotRefresh_orderly {s0 s : State} (h : Orderly s0 s) (k : Nat) :
    Orderly s0 (slotRefresh s k) := by
  unfold slotRefresh
  try dsimp only
  repeat' first
    | with_reducible assumption
    | with_reducible apply slotPut_orderly
    | with_reducible apply orderly_ite

theorem mgmtClose_orderly {s0 s : State} (h : Orderly s0 s) (number : BitVec 32) :
    Orderly s0 (mgmtClose s number) := by
  unfold mgmtClose
  try dsimp only
  repeat' first
    | with_reducible assumption
    | with_reducible apply tptMod_orderly
    | with_reducible apply dropFlows_orderly
    | with_reducible apply orderly_ite
    | with_reducible apply orderly_fold_fst
    | with_reducible apply orderly_foldl
    | intro _
    | split

theorem mgmtOpen_orderly {s0 s : State} (h : Orderly s0 s) (r : Req) :
    Orderly s0 (mgmtOpen s r) := by
  unfold mgmtOpen
  try dsimp only
  repeat' first
    | with_reducible assumption
    | with_reducible apply tptMod_orderly
    | with_reducible apply draw_orderly
    | with_reducible apply answer_orderly
    | with_reducible apply orderly_ite

theorem mgmtProof_orderly {s0 s : State} (h : Orderly s0 s) (r : Req) :
    Orderly s0 (mgmtProof s r) := by
  unfold mgmtProof
  try dsimp only
  repeat' first
    | with_reducible assumption
    | with_reducible apply mgmtMod_orderly
    | with_reducible apply answer_orderly
    | with_reducible apply orderly_ite
    | with_reducible apply orderly_fold_fst
    | with_reducible apply orderly_foldl
    | intro _
    | split

theorem mgmtCloseMsg_orderly {s0 s : State} (h : Orderly s0 s) (r : Req) :
    Orderly s0 (mgmtCloseMsg s r) := by
  unfold mgmtCloseMsg
  try dsimp only
  repeat' first
    | with_reducible assumption
    | with_reducible apply answer_orderly
    | with_reducible apply mgmtClose_orderly
    | with_reducible apply orderly_ite
    | with_reducible apply orderly_fold_fst
    | with_reducible apply orderly_foldl
    | intro _
    | split

theorem mgmtChecks_orderly {s0 s : State} (h : Orderly s0 s) (r : Req) (f : RxFrame) (body : State → State) (hbody : ∀ s, Orderly s0 s → Orderly s0 (body s)) :
    Orderly s0 (mgmtChecks s r f body) := by
  unfold mgmtChecks
  try dsimp only
  repeat' first
    | with_reducible assumption
    | with_reducible apply answer_orderly
    | with_reducible apply orderly_ite
    | with_reducible apply hbody

theorem mgmtSession_orderly {s0 s : State} (h : Orderly s0 s) (f : RxFrame) :
    Orderly s0 (mgmtSession s f) := by
  unfold mgmtSession
  try dsimp only
  repeat' first
    | with_reducible assumption
    | with_reducible apply answer_orderly
    | with_reducible apply withRequest_orderly
    | with_reducible apply mgmtOpen_orderly
    | with_reducible apply mgmtProof_orderly
    | with_reducible apply mgmtCloseMsg_orderly
    | with_reducible apply mgmtChecks_orderly
    | with_reducible apply orderly_ite
    | with_reducible apply orderly_fold_fst
    | with_reducible apply orderly_foldl
    | intro _

theorem mgmtExpire_orderly {s0 s : State} (h : Orderly s0 s) (number : BitVec 32) :
    Orderly s0 (mgmtExpire s number) := by
  unfold mgmtExpire
  try dsimp only
  repeat' first
    | with_reducible assumption
    | with_reducible apply nowTo_orderly
    | with_reducible apply mgmtClose_orderly
    | with_reducible apply orderly_ite
    | with_reducible apply orderly_fold_fst
    | with_reducible apply orderly_foldl
    | intro _
    | split

theorem mrExtend_orderly {s0 s : State} (h : Orderly s0 s) (n : Nat) (d : List Byte) (hn : 5 ≤ n) :
    Orderly s0 (mrExtend s n d) where
  step := h.step
  serving := h.serving
  locked := h.locked
  svn := h.svn
  now := h.now
  templates := h.templates
  img := h.img
  mr := by
    rw [← h.mr]
    exact take_lset _ _ _ _ hn
  tables := h.tables
  partners := h.partners
  bits := h.bits

theorem mr5Go_orderly {s0 s : State} (h : Orderly s0 s)  :
    Orderly s0 (mr5Go s) := by
  unfold mr5Go
  try dsimp only
  repeat' first
    | with_reducible assumption
    | with_reducible apply fumMod_orderly
    | with_reducible apply mrExtend_orderly
    | with_reducible apply orderly_ite
    | with_reducible apply orderly_fold_fst
    | with_reducible apply orderly_foldl
    | with_reducible rfl

theorem trust_orderly {s0 s : State} (h : Orderly s0 s) (op : Byte) (f : RxFrame) (len : Nat) (body : State → Req → State) (hbody : ∀ s, Orderly s0 s → ∀ x1, Orderly s0 (body s x1)) :
    Orderly s0 (trust s op f len body) := by
  unfold trust
  try dsimp only
  repeat' first
    | with_reducible assumption
    | with_reducible apply checks_orderly
    | with_reducible apply withRequest_orderly
    | with_reducible apply orderly_ite
    | with_reducible apply hbody
    | with_reducible apply orderly_fold_fst
    | with_reducible apply orderly_foldl
    | intro _

theorem quoteStart_orderly {s0 s : State} (h : Orderly s0 s) (r : Req) :
    Orderly s0 (quoteStart s r) := by
  unfold quoteStart
  try dsimp only
  repeat' first
    | with_reducible assumption
    | with_reducible apply fumMod_orderly
    | with_reducible apply bump_orderly
    | with_reducible apply markWindow_orderly
    | with_reducible apply answer_orderly
    | with_reducible apply pkPut_orderly
    | with_reducible apply orderly_ite
    | with_reducible apply orderly_fold_fst
    | with_reducible apply orderly_foldl
    | with_reducible rfl
    | intro _
    | split

theorem quoteSigned_orderly {s0 s : State} (h : Orderly s0 s) (id : FlowId) (seq : BitVec 24) :
    Orderly s0 (quoteSigned s id seq) := by
  unfold quoteSigned
  try dsimp only
  repeat' first
    | with_reducible assumption
    | with_reducible apply fumMod_orderly
    | with_reducible apply bump_orderly
    | with_reducible apply respond_orderly
    | with_reducible apply orderly_ite
    | with_reducible apply orderly_fold_fst
    | with_reducible apply orderly_foldl
    | with_reducible rfl
    | intro _
    | split

theorem ephGenerated_orderly {s0 s : State} (h : Orderly s0 s)  :
    Orderly s0 (ephGenerated s) := by
  unfold ephGenerated
  try dsimp only
  repeat' first
    | with_reducible assumption
    | with_reducible apply fumMod_orderly
    | with_reducible apply orderly_ite
    | with_reducible apply orderly_fold_fst
    | with_reducible apply orderly_foldl
    | exact Nat.le_refl _
    | with_reducible rfl
    | intro _
    | split
    | dsimp only
    | with_reducible apply orderly_mk

theorem keyDeliver_orderly {s0 s : State} (h : Orderly s0 s) (r : Req) :
    Orderly s0 (keyDeliver s r) := by
  unfold keyDeliver
  try dsimp only
  repeat' first
    | with_reducible assumption
    | with_reducible apply bump_orderly
    | with_reducible apply answer_orderly
    | with_reducible apply pkPut_orderly
    | with_reducible apply orderly_ite
    | with_reducible apply orderly_fold_fst
    | with_reducible apply orderly_foldl
    | intro _
    | split

theorem cocoonStart_orderly {s0 s : State} (h : Orderly s0 s) (r : Req) :
    Orderly s0 (cocoonStart s r) := by
  unfold cocoonStart
  try dsimp only
  repeat' first
    | with_reducible assumption
    | with_reducible apply markWindow_orderly
    | with_reducible apply answer_orderly
    | with_reducible apply pkPut_orderly
    | with_reducible apply ptChanged_orderly
    | with_reducible apply setPageAttrs_orderly
    | with_reducible apply fumWindows_orderly
    | with_reducible apply orderly_ite
    | with_reducible apply orderly_fold_fst
    | with_reducible apply orderly_foldl
    | intro _
    | split

theorem cocoonDone_orderly {s0 s : State} (h : Orderly s0 s) (n : Nat) :
    Orderly s0 (cocoonDone s n) := by
  unfold cocoonDone
  try dsimp only
  repeat' first
    | with_reducible assumption
    | with_reducible apply bump_orderly
    | with_reducible apply respond_orderly
    | with_reducible apply pkPut_orderly
    | with_reducible apply badLine_orderly
    | with_reducible apply writePieces_orderly
    | with_reducible apply fumWindows_orderly
    | with_reducible apply orderly_ite
    | with_reducible apply orderly_fold_fst
    | with_reducible apply orderly_foldl
    | intro _
    | split

theorem certGet_orderly {s0 s : State} (h : Orderly s0 s) (r : Req) :
    Orderly s0 (certGet s r) := by
  unfold certGet
  try dsimp only
  repeat' first
    | with_reducible assumption
    | with_reducible apply markWindow_orderly
    | with_reducible apply sendSegs_orderly

theorem fabMod_orderly {s0 s : State} (h : Orderly s0 s) (f : Fab → Fab) :
    Orderly s0 (fabMod s f) := by
  unfold fabMod
  try dsimp only
  repeat' first
    | with_reducible assumption
    | with_reducible apply orderly_ite
    | with_reducible apply orderly_fold_fst
    | with_reducible apply orderly_foldl
    | exact Nat.le_refl _
    | with_reducible rfl
    | intro _
    | split
    | dsimp only
    | with_reducible apply orderly_mk

theorem rtPut_orderly {s0 s : State} (h : Orderly s0 s) (n : Nat) (bank : Nat) (plane : Nat) (d : Nat) (v : Word) :
    Orderly s0 (rtPut s n bank plane d v) := by
  unfold rtPut
  try dsimp only
  repeat' first
    | with_reducible assumption
    | with_reducible apply fabMod_orderly

theorem rtWrite_orderly {s0 s : State} (h : Orderly s0 s) (src : MgmtSource) (n : Nat) (bank : Nat) (plane : Nat) (d : Nat) (v : Word) :
    Orderly s0 (rtWrite s src n bank plane d v) := by
  unfold rtWrite
  try dsimp only
  repeat' first
    | with_reducible assumption
    | with_reducible apply bump_orderly
    | with_reducible apply rtPut_orderly
    | with_reducible apply orderly_ite

theorem epochGo_orderly {s0 s : State} (h : Orderly s0 s)  :
    Orderly s0 (epochGo s) := by
  unfold epochGo
  try dsimp only
  repeat' first
    | with_reducible assumption
    | with_reducible apply fabMod_orderly
    | with_reducible apply orderly_ite

theorem epochSwitch_orderly {s0 s : State} (h : Orderly s0 s)  :
    Orderly s0 (epochSwitch s) := by
  unfold epochSwitch
  try dsimp only
  repeat' first
    | with_reducible assumption
    | with_reducible apply nowTo_orderly
    | with_reducible apply trace_orderly
    | with_reducible apply fabMod_orderly
    | with_reducible apply orderly_ite

theorem drainCheck_orderly {s0 s : State} (h : Orderly s0 s)  :
    Orderly s0 (drainCheck s) := by
  unfold drainCheck
  try dsimp only
  repeat' first
    | with_reducible assumption
    | with_reducible apply fabMod_orderly
    | with_reducible apply orderly_ite

theorem routerCycle_orderly {s0 s : State} (h : Orderly s0 s) (here : List FabPkt) (n : Nat) (plane : Nat) (starving : Bool) :
    Orderly s0 (routerCycle s here n plane starving).1 := by
  unfold routerCycle
  dsimp only
  have hr : ∀ (r : RouterStep) (p : FabPkt), Orderly s0 r.s → Orderly s0 (routeOne n r p).s := by
    intro r p h
    unfold routeOne
    repeat' split
    all_goals
      dsimp only
      first | with_reducible exact h | with_reducible exact bump_orderly h _ _ _ _
  have hf : ∀ (l : List FabPkt) (r : RouterStep), Orderly s0 r.s → Orderly s0 (l.foldl (routeOne n) r).s := by
    intro l
    induction l with
    | nil => exact fun _ h => h
    | cons p l ih => exact fun r h => ih _ (hr r p h)
  have h1 := hf (olderFirst here) { s := s, free := meshOuts n, out := false, moved := [] } h
  split
  · exact h1
  · refine orderly_fst_ite h1 (hr _ _ ?_)
    dsimp only
    exact fabMod_orderly (bump_orderly h1 _ _ _ _) _

theorem meshCycle_orderly {s0 s : State} (h : Orderly s0 s)  :
    Orderly s0 (meshCycle s) := by
  unfold meshCycle
  try dsimp only
  repeat' first
    | with_reducible assumption
    | with_reducible apply fabMod_orderly
    | with_reducible apply routerCycle_orderly
    | with_reducible apply orderly_ite
    | with_reducible apply orderly_foldN
    | with_reducible apply orderly_foldN_fst
    | with_reducible apply orderly_fold_fst
    | with_reducible apply orderly_foldl
    | intro _

theorem meshTick_orderly {s0 s : State} (h : Orderly s0 s) (before : Nat) :
    Orderly s0 (meshTick s before) := by
  unfold meshTick
  try dsimp only
  repeat' first
    | with_reducible assumption
    | with_reducible apply meshCycle_orderly
    | with_reducible apply orderly_ite
    | with_reducible apply orderly_foldN
    | with_reducible apply orderly_foldN_fst
    | with_reducible apply orderly_fold_fst
    | with_reducible apply orderly_foldl
    | intro _

theorem fabStarve_orderly {s0 s : State} (h : Orderly s0 s) (n : Nat) (plane : Nat) :
    Orderly s0 (fabStarve s n plane) := by
  unfold fabStarve
  try dsimp only
  repeat' first
    | with_reducible assumption
    | with_reducible apply bump_orderly
    | with_reducible apply fabMod_orderly
    | with_reducible apply fabStarve_orderly
    | with_reducible apply orderly_ite
    | with_reducible apply orderly_fold_fst
    | with_reducible apply orderly_foldl
    | intro _
    | split

theorem reflectReinject_orderly {s0 s : State} (h : Orderly s0 s) (h' : BitVec 128) (payload : BitVec 512) (plane : Nat) (fails : Nat) :
    Orderly s0 (reflectReinject s h' payload plane fails) := by
  unfold reflectReinject
  try dsimp only
  repeat' first
    | with_reducible assumption
    | with_reducible apply bumpN_orderly
    | with_reducible apply bump_orderly
    | with_reducible apply chipStopBy_orderly
    | with_reducible apply fabMod_orderly
    | with_reducible apply orderly_ite

end Sys2Proof.Machine
end

