-- ==== Sys2Proof/Laws/Turn.lean ====
section
/-! SUPPORT. `Turn s t`: an orderly change, or a chip-level reset on the way. -/
namespace Sys2Proof.Machine

/-- After a chip-level reset: boot step 1, unlocked, the SVN fuses kept. -/
structure Fresh (s t : State) : Prop where
  step : t.boot.step = 1
  serving : t.boot.serving = false
  locked : t.boot.locked = false
  svn : s.boot.svn ≤ t.boot.svn
  tables : tablesOk t = true

inductive Turn (s t : State) : Prop where
  | orderly (h : Orderly s t)
  | fresh (h : Fresh s t)

/-- What follows a turn in order. -/
theorem Turn.lift {s0 s t : State} (h : Turn s0 s) (g : Orderly s s → Orderly s t) : Turn s0 t := by
  have k := g (Orderly.refl s)
  cases h with
  | orderly h => exact .orderly (h.trans k)
  | fresh h =>
    exact .fresh ⟨k.step.trans h.step, k.serving.trans h.serving, k.locked.trans h.locked, Nat.le_trans h.svn k.svn,
      k.tables h.tables⟩

theorem Turn.trans {s t u : State} (h : Turn s t) (g : Turn t u) : Turn s u := by
  cases g with
  | orderly g => exact h.lift (fun _ => g)
  | fresh g =>
    have hs : s.boot.svn ≤ t.boot.svn := by
      cases h with
      | orderly h => exact h.svn
      | fresh h => exact h.svn
    exact .fresh ⟨g.step, g.serving, g.locked, Nat.le_trans hs g.svn, g.tables⟩

theorem Turn.refl (s : State) : Turn s s := .orderly (Orderly.refl s)

theorem turn_ite {s0 a b : State} {c : Prop} [Decidable c] (ha : Turn s0 a) (hb : Turn s0 b) :
    Turn s0 (if c then a else b) := by split <;> assumption

theorem turn_fst_ite {α : Type} {s0 : State} {a b : State × α} {c : Prop} [Decidable c] (ha : Turn s0 a.1)
    (hb : Turn s0 b.1) : Turn s0 (if c then a else b).1 := by split <;> assumption

theorem turn_foldl {α : Type} {s0 : State} (f : State → α → State) (l : List α) (s : State) (h : Turn s0 s)
    (hf : ∀ s, Turn s0 s → ∀ x, Turn s0 (f s x)) : Turn s0 (l.foldl f s) := by
  induction l generalizing s with
  | nil => exact h
  | cons x l ih => exact ih (f s x) (hf s h x)

theorem turn_foldN {s0 : State} (n : Nat) (f : State → Nat → State) (s : State) (h : Turn s0 s)
    (hf : ∀ s, Turn s0 s → ∀ x, Turn s0 (f s x)) : Turn s0 (foldN n f s) := turn_foldl f _ s h hf

theorem turn_foldS {α : Type} {s0 : State} (l : List α) (s : State) (f : State → α → State) (h : Turn s0 s)
    (hf : ∀ s, Turn s0 s → ∀ x, Turn s0 (f s x)) : Turn s0 (foldS l s f) := turn_foldl f l s h hf

theorem withRequest_turn {s0 s : State} (h : Turn s0 s) (op : Byte) (f : RxFrame) (body : State → Req → State)
    (hb : ∀ t, Turn s0 t → ∀ r, Turn s0 (body t r)) : Turn s0 (withRequest s op f body) := by
  unfold withRequest
  have hr := receive_orderly (Orderly.refl s) op f
  split
  · rename_i e
    rw [e] at hr
    cases hr with
    | done hr => exact h.lift (fun _ => hr)
  · rename_i e
    rw [e] at hr
    cases hr with
    | go hr => exact (hb _ (h.lift (fun _ => hr)) _).lift (fun h => ackNow_orderly h _)

end Sys2Proof.Machine
end

