-- ==== Sys2Proof/Laws/OrdPlat.lean ====
section
/-! SUPPORT. What the operations of Reset, Board, Service, Debug, Regs keep: `Orderly` of each. -/
namespace Sys2Proof.Machine

theorem brdMod_orderly {s0 s : State} (h : Orderly s0 s) (f : Brd → Brd) :
    Orderly s0 (brdMod s f) := by
  unfold brdMod
  try dsimp only
  repeat' first
    | with_reducible assumption
    | with_reducible apply orderly_ite
    | with_reducible apply orderly_fold_fst
    | with_reducible apply orderly_foldl
    | exact Nat.le_refl _
    | with_reducible rfl
    | intro _
    | split
    | dsimp only
    | with_reducible apply orderly_mk

theorem crgMod_orderly {s0 s : State} (h : Orderly s0 s) (f : Crg → Crg) :
    Orderly s0 (crgMod s f) := by
  unfold crgMod
  try dsimp only
  repeat' first
    | with_reducible assumption
    | with_reducible apply orderly_ite
    | with_reducible apply orderly_fold_fst
    | with_reducible apply orderly_foldl
    | exact Nat.le_refl _
    | with_reducible rfl
    | intro _
    | split
    | dsimp only
    | with_reducible apply orderly_mk

theorem chipReset_turn {s0 s : State} (h : Turn s0 s) (kind : Nat) :
    Turn s0 (chipReset s kind) := by
  have hs : s0.boot.svn ≤ s.boot.svn := by
    cases h with
    | orderly h => exact h.svn
    | fresh h => exact h.svn
  exact .fresh ⟨rfl, rfl, rfl, hs, rfl⟩

theorem askReset_turn {s0 s : State} (h : Turn s0 s) (kind : Nat) :
    Turn s0 (askReset s kind) := by
  unfold askReset
  try dsimp only
  repeat' first
    | with_reducible assumption
    | with_reducible refine Turn.lift ?_ (fun h => bootMod_orderly h _ (by with_reducible rfl) (by with_reducible rfl) (by with_reducible rfl) (by with_reducible exact Nat.le_refl _))
    | with_reducible apply chipReset_turn
    | with_reducible apply turn_ite

theorem powerOn_turn {s0 s : State} (h : Turn s0 s)  :
    Turn s0 (powerOn s) := by
  have hs : s0.boot.svn ≤ s.boot.svn := by
    cases h with
    | orderly h => exact h.svn
    | fresh h => exact h.svn
  exact .fresh ⟨rfl, rfl, rfl, hs, rfl⟩

theorem drawBytes_orderly {s0 s : State} (h : Orderly s0 s) (n : Nat) : Orderly s0 (drawBytes n s).2 := by
  induction n generalizing s with
  | zero => exact h
  | succ n ih => exact ih (draw_orderly h)

theorem flashSpoil_orderly {s0 s : State} (h : Orderly s0 s)  :
    Orderly s0 (flashSpoil s) := by
  unfold flashSpoil
  try dsimp only
  repeat' first
    | with_reducible assumption
    | with_reducible apply bootMod_orderly
    | with_reducible apply drawBytes_orderly
    | with_reducible apply orderly_ite
    | with_reducible apply orderly_fold_fst
    | with_reducible apply orderly_foldl
    | with_reducible rfl
    | intro _
    | split

theorem flashStart_orderly {s0 s : State} (h : Orderly s0 s) (op : Nat) :
    Orderly s0 (flashStart s op) := by
  unfold flashStart
  try dsimp only
  repeat' first
    | with_reducible assumption
    | with_reducible apply bump0_orderly
    | with_reducible apply bootMod_orderly
    | with_reducible apply orderly_ite
    | with_reducible apply orderly_fold_fst
    | with_reducible apply orderly_foldl
    | with_reducible rfl

theorem bump0_turn {s0 s : State} (h : Turn s0 s) (c : Cnt) :
    Turn s0 (bump0 s c) :=
  h.lift (fun h => bump0_orderly h c)

theorem drawBytes_turn {s0 s : State} (h : Turn s0 s) (a : Nat) :
    Turn s0 (drawBytes a s).2 :=
  h.lift (fun h => drawBytes_orderly h a)

theorem flashSpoil_turn {s0 s : State} (h : Turn s0 s)  :
    Turn s0 (flashSpoil s) :=
  h.lift (fun h => flashSpoil_orderly h )

theorem flashDone_turn {s0 s : State} (h : Turn s0 s) (ok : Bool) :
    Turn s0 (flashDone s ok) := by
  unfold flashDone
  try dsimp only
  repeat' first
    | with_reducible assumption
    | with_reducible apply bump0_turn
    | with_reducible refine Turn.lift ?_ (fun h => bootMod_orderly h _ (by with_reducible rfl) (by with_reducible rfl) (by with_reducible rfl) (by with_reducible exact Nat.le_refl _))
    | with_reducible apply chipReset_turn
    | with_reducible apply drawBytes_turn
    | with_reducible apply flashSpoil_turn
    | with_reducible apply turn_ite
    | intro _
    | split

theorem draw_turn {s0 s : State} (h : Turn s0 s)  :
    Turn s0 (draw s).2 :=
  h.lift (fun h => draw_orderly h )

theorem resetPin_turn {s0 s : State} (h : Turn s0 s) (ns : Nat) :
    Turn s0 (resetPin s ns) := by
  unfold resetPin
  try dsimp only
  repeat' first
    | with_reducible assumption
    | with_reducible apply draw_turn
    | with_reducible apply askReset_turn
    | with_reducible apply turn_ite

theorem powerDown_turn {s0 s : State} (h : Turn s0 s) (ns : Nat) :
    Turn s0 (powerDown s ns) := by
  unfold powerDown
  try dsimp only
  repeat' first
    | with_reducible assumption
    | with_reducible refine Turn.lift ?_ (fun h => bootMod_orderly h _ (by with_reducible rfl) (by with_reducible rfl) (by with_reducible rfl) (by with_reducible exact Nat.le_refl _))
    | with_reducible apply powerOn_turn
    | with_reducible apply flashSpoil_turn
    | with_reducible apply turn_ite

theorem haltBoot_turn {s0 s : State} (h : Turn s0 s) (heat : Bool) :
    Turn s0 (haltBoot s heat) := by
  unfold haltBoot
  try dsimp only
  repeat' first
    | with_reducible assumption
    | with_reducible refine Turn.lift ?_ (fun h => bootMod_orderly h _ (by with_reducible rfl) (by with_reducible rfl) (by with_reducible rfl) (by with_reducible exact Nat.le_refl _))
    | with_reducible apply askReset_turn
    | with_reducible apply turn_ite
    | intro _
    | split

theorem faultRec_turn {s0 s : State} (h : Turn s0 s) (i : FaultInfo) :
    Turn s0 (faultRec s i) :=
  h.lift (fun h => faultRec_orderly h i)

theorem chipStopBy_turn {s0 s : State} (h : Turn s0 s) (agent : Nat) (cause : Nat) :
    Turn s0 (chipStopBy s agent cause) :=
  h.lift (fun h => chipStopBy_orderly h agent cause)

theorem brdMod_turn {s0 s : State} (h : Turn s0 s) (f : Brd → Brd) :
    Turn s0 (brdMod s f) :=
  h.lift (fun h => brdMod_orderly h f)

theorem feedPair_turn {s0 s : State} (h : Turn s0 s) (va : Int) (vb : Int) (t : Nat) :
    Turn s0 (feedPair s va vb t) := by
  unfold feedPair
  try dsimp only
  repeat' first
    | with_reducible assumption
    | with_reducible apply bump0_turn
    | with_reducible apply faultRec_turn
    | with_reducible apply chipStopBy_turn
    | with_reducible apply brdMod_turn
    | with_reducible apply haltBoot_turn
    | with_reducible apply turn_ite

theorem periodic_turn {s0 s : State} (h : Turn s0 s) (event : Nat) (period : Nat) :
    Turn s0 (periodic s event period) :=
  h.lift (fun h => periodic_orderly h event period)

theorem adcFrame_turn {s0 s : State} (h : Turn s0 s) (codes : List (BitVec 12)) :
    Turn s0 (adcFrame s codes) := by
  unfold adcFrame
  try dsimp only
  repeat' first
    | with_reducible assumption
    | with_reducible apply bump0_turn
    | with_reducible apply periodic_turn
    | with_reducible apply brdMod_turn
    | with_reducible apply feedPair_turn
    | with_reducible apply turn_ite
    | with_reducible apply turn_foldN
    | intro _

theorem feedReturn_orderly {s0 s : State} (h : Orderly s0 s) (isB : Bool) :
    Orderly s0 (feedReturn s isB) := by
  unfold feedReturn
  try dsimp only
  repeat' first
    | with_reducible assumption
    | with_reducible apply nowTo_orderly
    | with_reducible apply bootMod_orderly
    | with_reducible apply brdMod_orderly
    | with_reducible apply orderly_ite
    | with_reducible apply orderly_fold_fst
    | with_reducible apply orderly_foldl
    | with_reducible rfl
    | intro _
    | split

theorem feedCtrl_orderly {s0 s : State} (h : Orderly s0 s) (v : Word) :
    Orderly s0 (feedCtrl s v) := by
  unfold feedCtrl
  dsimp only
  have hb : regBits brdAgent 0x104 = some (3, 0) := by decide
  exact orderly_ite (bump0_orderly h _) (brdMod_orderly (regSet_rw_orderly h _ _ _ hb (by decide)) _)

theorem fanForce_orderly {s0 s : State} (h : Orderly s0 s)  :
    Orderly s0 (fanForce s) := by
  unfold fanForce
  try dsimp only
  repeat' first
    | with_reducible assumption
    | with_reducible apply brdMod_orderly
    | with_reducible apply orderly_ite

theorem fanUpdate_orderly {s0 s : State} (h : Orderly s0 s)  :
    Orderly s0 (fanUpdate s) := by
  unfold fanUpdate
  try dsimp only
  repeat' first
    | with_reducible assumption
    | with_reducible apply periodic_orderly
    | with_reducible apply brdMod_orderly
    | with_reducible apply fanForce_orderly

theorem fanTach_orderly {s0 s : State} (h : Orderly s0 s) (pulses : List (BitVec 32)) :
    Orderly s0 (fanTach s pulses) := by
  unfold fanTach
  try dsimp only
  repeat' first
    | with_reducible assumption
    | with_reducible apply bump0_orderly
    | with_reducible apply periodic_orderly
    | with_reducible apply brdMod_orderly
    | with_reducible apply fanForce_orderly
    | with_reducible apply orderly_ite
    | with_reducible apply orderly_foldN
    | with_reducible apply orderly_foldN_fst
    | with_reducible apply orderly_fold_fst
    | with_reducible apply orderly_foldl
    | intro _

theorem fanForce_turn {s0 s : State} (h : Turn s0 s)  :
    Turn s0 (fanForce s) :=
  h.lift (fun h => fanForce_orderly h )

theorem thermalTrip_turn {s0 s : State} (h : Turn s0 s)  :
    Turn s0 (thermalTrip s) := by
  unfold thermalTrip
  try dsimp only
  repeat' first
    | with_reducible assumption
    | with_reducible apply chipStopBy_turn
    | with_reducible apply brdMod_turn
    | with_reducible apply haltBoot_turn
    | with_reducible apply fanForce_turn
    | with_reducible apply turn_ite

theorem dieRead_turn {s0 s : State} (h : Turn s0 s) (temps : List (BitVec 11)) :
    Turn s0 (dieRead s temps) := by
  unfold dieRead
  try dsimp only
  repeat' first
    | with_reducible assumption
    | with_reducible apply periodic_turn
    | with_reducible refine Turn.lift ?_ (fun h => bootMod_orderly h _ (by with_reducible rfl) (by with_reducible rfl) (by with_reducible rfl) (by with_reducible exact Nat.le_refl _))
    | with_reducible apply brdMod_turn
    | with_reducible apply thermalTrip_turn
    | with_reducible apply turn_ite

theorem modulePolled_orderly {s0 s : State} (h : Orderly s0 s) (slot : Nat) (r : Option (BitVec 12 × BitVec 16)) :
    Orderly s0 (modulePolled s slot r) := by
  unfold modulePolled
  try dsimp only
  repeat' first
    | with_reducible assumption
    | with_reducible apply bump0_orderly
    | with_reducible apply brdMod_orderly
    | with_reducible apply orderly_ite
    | with_reducible apply orderly_fold_fst
    | with_reducible apply orderly_foldl
    | intro _
    | split

theorem tripWhen_turn {s0 s : State} (h : Turn s0 s) (o : Bool) :
    Turn s0 (tripWhen o s) := by
  unfold tripWhen
  try dsimp only
  repeat' first
    | with_reducible assumption
    | with_reducible apply thermalTrip_turn
    | with_reducible apply turn_ite

theorem modulePolled_turn {s0 s : State} (h : Turn s0 s) (slot : Nat) (r : Option (BitVec 12 × BitVec 16)) :
    Turn s0 (modulePolled s slot r) :=
  h.lift (fun h => modulePolled_orderly h slot r)

theorem modulePoll_turn {s0 s : State} (h : Turn s0 s) (reads : List (Option (BitVec 12 × BitVec 16))) :
    Turn s0 (modulePoll s reads) := by
  unfold modulePoll
  try dsimp only
  repeat' first
    | with_reducible assumption
    | with_reducible refine Turn.lift ?_ (fun h => dmcMod_orderly h _ (by with_reducible rfl) (by with_reducible rfl))
    | with_reducible apply periodic_turn
    | with_reducible apply fanForce_turn
    | with_reducible apply modulePolled_turn
    | with_reducible apply tripWhen_turn
    | with_reducible apply turn_ite
    | with_reducible apply turn_foldN
    | intro _

theorem capDecision_orderly {s0 s : State} (h : Orderly s0 s)  :
    Orderly s0 (capDecision s) := by
  unfold capDecision
  try dsimp only
  repeat' first
    | with_reducible assumption
    | with_reducible apply bump0_orderly
    | with_reducible apply periodic_orderly
    | with_reducible apply brdMod_orderly
    | with_reducible apply crgMod_orderly
    | with_reducible apply orderly_ite

theorem stepRelock_orderly {s0 s : State} (h : Orderly s0 s)  :
    Orderly s0 (stepRelock s) := by
  unfold stepRelock
  try dsimp only
  repeat' first
    | with_reducible assumption
    | with_reducible apply bump0_orderly
    | with_reducible apply crgMod_orderly
    | with_reducible apply orderly_ite
    | with_reducible apply orderly_fold_fst
    | with_reducible apply orderly_foldl
    | exact Nat.le_refl _
    | with_reducible rfl
    | intro _
    | split
    | dsimp only
    | with_reducible apply orderly_mk

theorem pllUnlock_orderly {s0 s : State} (h : Orderly s0 s) (p : Nat) :
    Orderly s0 (pllUnlock s p) := by
  unfold pllUnlock
  try dsimp only
  repeat' first
    | with_reducible assumption
    | with_reducible apply bump0_orderly
    | with_reducible apply crgMod_orderly
    | with_reducible apply orderly_ite

theorem pllRelock_orderly {s0 s : State} (h : Orderly s0 s) (p : Nat) :
    Orderly s0 (pllRelock s p) := by
  unfold pllRelock
  try dsimp only
  repeat' first
    | with_reducible assumption
    | with_reducible apply crgMod_orderly
    | with_reducible apply orderly_ite

theorem cvuMod_orderly {s0 s : State} (h : Orderly s0 s) (k : Nat) (f : Cvu → Cvu) :
    Orderly s0 (cvuMod s k f) := by
  unfold cvuMod
  try dsimp only
  repeat' first
    | with_reducible assumption
    | with_reducible apply orderly_ite
    | with_reducible apply orderly_fold_fst
    | with_reducible apply orderly_foldl
    | exact Nat.le_refl _
    | with_reducible rfl
    | intro _
    | split
    | dsimp only
    | with_reducible apply orderly_mk

theorem wdogKick_orderly {s0 s : State} (h : Orderly s0 s) (k : Nat) :
    Orderly s0 (wdogKick s k) := by
  unfold wdogKick
  try dsimp only
  repeat' first
    | with_reducible assumption
    | with_reducible apply svcMod_orderly
    | with_reducible apply orderly_ite

theorem restartBegin_orderly {s0 s : State} (h : Orderly s0 s)  :
    Orderly s0 (restartBegin s) := by
  unfold restartBegin
  try dsimp only
  repeat' first
    | with_reducible assumption
    | with_reducible apply tptMod_orderly
    | with_reducible apply svcMod_orderly
    | with_reducible apply trace_orderly
    | with_reducible apply faultRec_orderly
    | with_reducible apply chipStop_orderly
    | with_reducible apply ptpMod_orderly
    | with_reducible apply orderly_ite
    | with_reducible apply orderly_fold_fst
    | with_reducible apply orderly_foldl
    | exact Nat.le_refl _
    | with_reducible rfl
    | intro _
    | split
    | dsimp only
    | with_reducible apply orderly_mk

theorem wdogExpire_orderly {s0 s : State} (h : Orderly s0 s) (sram : Bool) :
    Orderly s0 (wdogExpire s sram) := by
  unfold wdogExpire
  try dsimp only
  repeat' first
    | with_reducible assumption
    | with_reducible apply nowTo_orderly
    | with_reducible apply restartBegin_orderly
    | with_reducible apply orderly_ite
    | with_reducible apply orderly_fold_fst
    | with_reducible apply orderly_foldl
    | intro _
    | split

theorem resumeWork_orderly {s0 s : State} (h : Orderly s0 s) (n : Nat) :
    Orderly s0 (resumeWork s n) := by
  unfold resumeWork
  try dsimp only
  repeat' first
    | with_reducible assumption
    | with_reducible apply createFails_orderly
    | with_reducible apply strikeEnds_orderly
    | with_reducible apply repitchFails_orderly
    | with_reducible apply orderly_ite
    | with_reducible apply orderly_fold_fst
    | with_reducible apply orderly_foldl
    | intro _
    | split

theorem restartDone_orderly {s0 s : State} (h : Orderly s0 s) (firmwareOk : Bool) :
    Orderly s0 (restartDone s firmwareOk) := by
  unfold restartDone
  try dsimp only
  repeat' first
    | with_reducible assumption
    | with_reducible apply svcMod_orderly
    | with_reducible apply granuleReturned_orderly
    | with_reducible apply chipStop_orderly
    | with_reducible apply revokeAll_orderly
    | with_reducible apply ptpStart_orderly
    | with_reducible apply resumeWork_orderly
    | with_reducible apply orderly_ite
    | with_reducible apply orderly_foldS
    | with_reducible apply orderly_fold_fst
    | with_reducible apply orderly_foldl
    | intro _

theorem scParity_orderly {s0 s : State} (h : Orderly s0 s) (k : Nat) (again : Bool) :
    Orderly s0 (scParity s k again) := by
  unfold scParity
  try dsimp only
  repeat' first
    | with_reducible assumption
    | with_reducible apply svcMod_orderly
    | with_reducible apply retireUnit_orderly
    | with_reducible apply chiefAgain_orderly
    | with_reducible apply restartBegin_orderly
    | with_reducible apply orderly_ite

theorem traceSample_orderly {s0 s : State} (h : Orderly s0 s)  :
    Orderly s0 (traceSample s) := by
  unfold traceSample
  try dsimp only
  repeat' first
    | with_reducible assumption
    | with_reducible apply periodicCd10_orderly
    | with_reducible apply trace_orderly
    | with_reducible apply orderly_ite
    | with_reducible apply orderly_foldN
    | with_reducible apply orderly_foldN_fst
    | with_reducible apply orderly_fold_fst
    | with_reducible apply orderly_foldl
    | intro _

theorem memReadGo_orderly {s0 s : State} (h : Orderly s0 s)  :
    Orderly s0 (memReadGo s) := by
  unfold memReadGo
  try dsimp only
  repeat' first
    | with_reducible assumption
    | with_reducible apply dbgMod_orderly
    | with_reducible apply dmcRead_orderly
    | with_reducible apply orderly_ite

theorem memReadDone_orderly {s0 s : State} (h : Orderly s0 s)  :
    Orderly s0 (memReadDone s) := by
  unfold memReadDone
  try dsimp only
  repeat' first
    | with_reducible assumption
    | with_reducible apply dbgMod_orderly
    | with_reducible apply draw_orderly
    | with_reducible apply badLine_orderly
    | with_reducible apply orderly_ite
    | with_reducible apply orderly_fold_fst
    | with_reducible apply orderly_foldl
    | intro _
    | split

theorem captureStart_orderly {s0 s : State} (h : Orderly s0 s) (src : MgmtSource) (a : Nat) :
    Orderly s0 (captureStart s src a) := by
  unfold captureStart
  try dsimp only
  repeat' first
    | with_reducible assumption
    | with_reducible apply dbgMod_orderly

theorem captureEnd_orderly {s0 s : State} (h : Orderly s0 s) (src : MgmtSource) :
    Orderly s0 (captureEnd s src) := by
  unfold captureEnd
  try dsimp only
  repeat' first
    | with_reducible assumption
    | with_reducible apply dbgMod_orderly
    | with_reducible apply orderly_ite
    | with_reducible apply orderly_fold_fst
    | with_reducible apply orderly_foldl
    | intro _
    | split

theorem tapLoad_orderly {s0 s : State} (h : Orderly s0 s) (ir : Byte) :
    Orderly s0 (tapLoad s ir) := by
  unfold tapLoad
  try dsimp only
  repeat' first
    | with_reducible assumption
    | with_reducible apply dbgMod_orderly

theorem tapScan_orderly {s0 s : State} (h : Orderly s0 s) (ir : Byte) (bits : List Bool) :
    Orderly s0 (tapScan s ir bits) := by
  unfold tapScan
  try dsimp only
  repeat' first
    | with_reducible assumption
    | with_reducible apply dbgMod_orderly
    | with_reducible apply tapLoad_orderly

theorem tapBypass_orderly {s0 s : State} (h : Orderly s0 s) (ir : Byte) :
    Orderly s0 (tapBypass s ir) := by
  unfold tapBypass
  try dsimp only
  repeat' first
    | with_reducible assumption
    | with_reducible apply tapLoad_orderly
    | with_reducible apply orderly_ite

theorem tapReset_orderly {s0 s : State} (h : Orderly s0 s)  :
    Orderly s0 (tapReset s) := by
  unfold tapReset
  try dsimp only
  repeat' first
    | with_reducible assumption
    | with_reducible apply tapLoad_orderly

theorem agentRead_orderly {s0 s : State} (h : Orderly s0 s) (src : MgmtSource) (agent : Nat) (off : Nat) :
    Orderly s0 (agentRead s src agent off).1 := by
  unfold agentRead
  try dsimp only
  repeat' first
    | with_reducible assumption
    | with_reducible apply orderly_ite
    | with_reducible apply orderly_fold_fst
    | with_reducible apply orderly_foldl
    | with_reducible apply orderly_fst_ite
    | exact Nat.le_refl _
    | with_reducible rfl
    | intro _
    | split
    | dsimp only
    | with_reducible apply orderly_mk

theorem scopeWrite_orderly {s0 s : State} (h : Orderly s0 s) (src : MgmtSource) (v : Word) :
    Orderly s0 (scopeWrite s src v) := by
  unfold scopeWrite
  try dsimp only
  repeat' first
    | with_reducible assumption
    | with_reducible apply mgmtMod_orderly
    | with_reducible apply orderly_ite
    | with_reducible apply orderly_fold_fst
    | with_reducible apply orderly_foldl
    | intro _
    | split

theorem glWrite_orderly {s0 s : State} (h : Orderly s0 s) (src : MgmtSource) (off : Nat) (v : Word) :
    Orderly s0 (glWrite s src off v) := by
  unfold glWrite
  try dsimp only
  repeat' first
    | with_reducible assumption
    | with_reducible apply glPut_orderly
    | with_reducible apply glCommit_orderly
    | with_reducible apply orderly_ite

theorem cvuWrite_orderly {s0 s : State} (h : Orderly s0 s) (src : MgmtSource) (k : Nat) (off : Nat) (v : Word) :
    Orderly s0 (cvuWrite s src k off v) := by
  unfold cvuWrite
  try dsimp only
  repeat' first
    | with_reducible assumption
    | with_reducible apply cvuMod_orderly
    | with_reducible apply orderly_ite
    | with_reducible apply orderly_fold_fst
    | with_reducible apply orderly_foldl
    | intro _
    | split

theorem checkStart_orderly {s0 s : State} (h : Orderly s0 s)  :
    Orderly s0 (checkStart s) := by
  unfold checkStart
  try dsimp only
  repeat' first
    | with_reducible assumption
    | with_reducible apply bootMod_orderly
    | with_reducible apply orderly_ite
    | with_reducible apply orderly_fold_fst
    | with_reducible apply orderly_foldl
    | with_reducible rfl

theorem resetWrite_turn {s0 s : State} (h : Turn s0 s) (v : Word) :
    Turn s0 (resetWrite s v) := by
  unfold resetWrite
  try dsimp only
  repeat' first
    | with_reducible assumption
    | with_reducible apply askReset_turn
    | with_reducible apply turn_ite

theorem regStore_turn {s0 s : State} (h : Turn s0 s) (src : MgmtSource) (agent : Nat) (off : Nat) (v : Word) :
    Turn s0 (regStore s src agent off v) :=
  h.lift (fun h => regStore_orderly h src agent off v)

theorem flashStart_turn {s0 s : State} (h : Turn s0 s) (op : Nat) :
    Turn s0 (flashStart s op) :=
  h.lift (fun h => flashStart_orderly h op)

theorem checkStart_turn {s0 s : State} (h : Turn s0 s)  :
    Turn s0 (checkStart s) :=
  h.lift (fun h => checkStart_orderly h )

theorem bootWrite_turn {s0 s : State} (h : Turn s0 s) (src : MgmtSource) (off : Nat) (v : Word) :
    Turn s0 (bootWrite s src off v) := by
  unfold bootWrite
  try dsimp only
  repeat' first
    | with_reducible assumption
    | with_reducible apply regStore_turn
    | with_reducible refine Turn.lift ?_ (fun h => bootMod_orderly h _ (by with_reducible rfl) (by with_reducible rfl) (by with_reducible rfl) (by with_reducible exact Nat.le_refl _))
    | with_reducible apply flashStart_turn
    | with_reducible apply checkStart_turn
    | with_reducible apply resetWrite_turn
    | with_reducible apply turn_ite
    | intro _
    | split

theorem pcfgWrite_turn {s0 s : State} (h : Turn s0 s) (n : Nat) (v : Word) :
    Turn s0 (pcfgWrite s n v) :=
  h.lift (fun h => pcfgWrite_orderly h n v)

theorem mr5Go_turn {s0 s : State} (h : Turn s0 s)  :
    Turn s0 (mr5Go s) :=
  h.lift (fun h => mr5Go_orderly h )

theorem rtWrite_turn {s0 s : State} (h : Turn s0 s) (src : MgmtSource) (n : Nat) (bank : Nat) (plane : Nat) (d : Nat) (v : Word) :
    Turn s0 (rtWrite s src n bank plane d v) :=
  h.lift (fun h => rtWrite_orderly h src n bank plane d v)

theorem epochGo_turn {s0 s : State} (h : Turn s0 s)  :
    Turn s0 (epochGo s) :=
  h.lift (fun h => epochGo_orderly h )

theorem feedCtrl_turn {s0 s : State} (h : Turn s0 s) (v : Word) :
    Turn s0 (feedCtrl s v) :=
  h.lift (fun h => feedCtrl_orderly h v)

theorem wdogKick_turn {s0 s : State} (h : Turn s0 s) (k : Nat) :
    Turn s0 (wdogKick s k) :=
  h.lift (fun h => wdogKick_orderly h k)

theorem memReadGo_turn {s0 s : State} (h : Turn s0 s)  :
    Turn s0 (memReadGo s) :=
  h.lift (fun h => memReadGo_orderly h )

theorem glWrite_turn {s0 s : State} (h : Turn s0 s) (src : MgmtSource) (off : Nat) (v : Word) :
    Turn s0 (glWrite s src off v) :=
  h.lift (fun h => glWrite_orderly h src off v)

theorem cvuWrite_turn {s0 s : State} (h : Turn s0 s) (src : MgmtSource) (k : Nat) (off : Nat) (v : Word) :
    Turn s0 (cvuWrite s src k off v) :=
  h.lift (fun h => cvuWrite_orderly h src k off v)

theorem blockWrite_turn {s0 s : State} (h : Turn s0 s) (src : MgmtSource) (agent : Nat) (off : Nat) (v : Word) :
    Turn s0 (blockWrite s src agent off v) := by
  unfold blockWrite
  try dsimp only
  repeat' first
    | with_reducible assumption
    | with_reducible refine Turn.lift ?_ (fun h => fumMod_orderly h _ (by with_reducible rfl))
    | with_reducible apply pcfgWrite_turn
    | with_reducible apply regStore_turn
    | with_reducible apply mr5Go_turn
    | with_reducible apply rtWrite_turn
    | with_reducible apply epochGo_turn
    | with_reducible apply feedCtrl_turn
    | with_reducible apply wdogKick_turn
    | with_reducible apply memReadGo_turn
    | with_reducible apply glWrite_turn
    | with_reducible apply cvuWrite_turn
    | with_reducible apply bootWrite_turn
    | with_reducible apply turn_ite
    | intro _
    | split

theorem selSet_turn {s0 s : State} (h : Turn s0 s) (src : MgmtSource) (agent : Nat) (off : Nat) (v : Word) :
    Turn s0 (selSet s src agent off v) :=
  h.lift (fun h => selSet_orderly h src agent off v)

theorem intentWrite_turn {s0 s : State} (h : Turn s0 s) (src : MgmtSource) (agent : Nat) (u : Nat) (v : Nat) :
    Turn s0 (intentWrite s src agent u v) :=
  h.lift (fun h => intentWrite_orderly h src agent u v)

theorem captureStart_turn {s0 s : State} (h : Turn s0 s) (src : MgmtSource) (a : Nat) :
    Turn s0 (captureStart s src a) :=
  h.lift (fun h => captureStart_orderly h src a)

theorem scopeWrite_turn {s0 s : State} (h : Turn s0 s) (src : MgmtSource) (v : Word) :
    Turn s0 (scopeWrite s src v) :=
  h.lift (fun h => scopeWrite_orderly h src v)

theorem agentWrite_turn {s0 s : State} (h : Turn s0 s) (src : MgmtSource) (agent : Nat) (off : Nat) (v : Word) :
    Turn s0 (agentWrite s src agent off v) := by
  unfold agentWrite
  try dsimp only
  repeat' first
    | with_reducible assumption
    | with_reducible apply selSet_turn
    | with_reducible apply intentWrite_turn
    | with_reducible apply captureStart_turn
    | with_reducible apply scopeWrite_turn
    | with_reducible apply blockWrite_turn
    | with_reducible apply turn_ite
    | intro _
    | split

theorem regRead_orderly {s0 s : State} (h : Orderly s0 s) (src : MgmtSource) (a : Nat) :
    Orderly s0 (regRead s src a).1 := by
  unfold regRead
  try dsimp only
  repeat' first
    | with_reducible assumption
    | with_reducible apply captureEnd_orderly
    | with_reducible apply agentRead_orderly
    | with_reducible apply orderly_ite
    | with_reducible apply orderly_fold_fst
    | with_reducible apply orderly_foldl
    | with_reducible apply orderly_fst_ite
    | intro _
    | split

theorem captureEnd_turn {s0 s : State} (h : Turn s0 s) (src : MgmtSource) :
    Turn s0 (captureEnd s src) :=
  h.lift (fun h => captureEnd_orderly h src)

theorem regWrite_turn {s0 s : State} (h : Turn s0 s) (src : MgmtSource) (a : Nat) (v : Word) :
    Turn s0 (regWrite s src a v).1 := by
  unfold regWrite
  try dsimp only
  repeat' first
    | with_reducible assumption
    | with_reducible apply captureEnd_turn
    | with_reducible apply agentWrite_turn
    | with_reducible apply turn_ite
    | with_reducible apply turn_foldS
    | with_reducible apply turn_fst_ite
    | intro _
    | split

end Sys2Proof.Machine
end

