-- ==== Sys2Proof/Laws/OrdBoot.lean ====
section
/-! SUPPORT. What the operations of Access, Boot, Tick keep: `Orderly` of each. -/
namespace Sys2Proof.Machine

theorem uartPut_orderly {s0 s : State} (h : Orderly s0 s) (u : Uart) :
    Orderly s0 (uartPut s u) := by
  unfold uartPut
  try dsimp only
  repeat' first
    | with_reducible assumption
    | with_reducible apply orderly_ite
    | with_reducible apply orderly_fold_fst
    | with_reducible apply orderly_foldl
    | exact Nat.le_refl _
    | with_reducible rfl
    | intro _
    | split
    | dsimp only
    | with_reducible apply orderly_mk

theorem bootUp_orderly {s0 s : State} (h : Orderly s0 s) (k : Nat) :
    Orderly s0 (bootUp s k) := by
  unfold bootUp
  try dsimp only
  repeat' first
    | with_reducible assumption
    | with_reducible apply uSet_orderly
    | with_reducible apply bringUp_orderly
    | with_reducible apply orderly_ite

theorem bootServe_orderly {s0 s : State} (h : Orderly s0 s) (k : Nat) :
    Orderly s0 (bootServe s k) := by
  unfold bootServe
  try dsimp only
  repeat' first
    | with_reducible assumption
    | with_reducible apply uMove_orderly
    | with_reducible apply orderly_ite

theorem memoryStart_orderly {s0 s : State} (h : Orderly s0 s)  :
    Orderly s0 (memoryStart s) := by
  unfold memoryStart
  try dsimp only
  repeat' first
    | with_reducible assumption
    | with_reducible apply retireAsked_orderly
    | with_reducible apply bootUp_orderly
    | with_reducible apply orderly_ite
    | with_reducible apply orderly_foldS
    | with_reducible apply orderly_foldN
    | with_reducible apply orderly_foldN_fst
    | with_reducible apply orderly_fold_fst
    | with_reducible apply orderly_foldl
    | intro _

theorem portsStart_orderly {s0 s : State} (h : Orderly s0 s)  :
    Orderly s0 (portsStart s) := by
  unfold portsStart
  try dsimp only
  repeat' first
    | with_reducible assumption
    | with_reducible apply prtMod_orderly
    | with_reducible apply bootUp_orderly
    | with_reducible apply orderly_ite
    | with_reducible apply orderly_foldN
    | with_reducible apply orderly_foldN_fst
    | with_reducible apply orderly_fold_fst
    | with_reducible apply orderly_foldl
    | intro _

theorem channelTrained_orderly {s0 s : State} (h : Orderly s0 s) (c : Nat) (ok : Bool) (tr : Trained) :
    Orderly s0 (channelTrained s c ok tr) := by
  unfold channelTrained
  try dsimp only
  repeat' first
    | with_reducible assumption
    | with_reducible apply dmcMod_orderly
    | with_reducible apply chMod_orderly
    | with_reducible apply retireGroup_orderly
    | with_reducible apply bootMod_orderly
    | with_reducible apply crgMod_orderly
    | with_reducible apply orderly_ite
    | with_reducible apply orderly_fold_fst
    | with_reducible apply orderly_foldl
    | with_reducible rfl

theorem bindPartners_orderly {s0 s : State} (h : Orderly s0 s)  :
    Orderly s0 (bindPartners s) := by
  unfold bindPartners
  try dsimp only
  repeat' first
    | with_reducible assumption
    | with_reducible apply actMod_orderly
    | with_reducible apply orderly_ite
    | with_reducible apply orderly_foldS
    | with_reducible apply orderly_foldN
    | with_reducible apply orderly_foldN_fst
    | with_reducible apply orderly_fold_fst
    | with_reducible apply orderly_foldl
    | intro _

theorem initFlags_orderly {s0 s : State} (h : Orderly s0 s) (g : Nat) :
    Orderly s0 (initFlags s g) := by
  unfold initFlags
  try dsimp only
  repeat' first
    | with_reducible assumption
    | with_reducible apply chMod_orderly
    | with_reducible apply orderly_ite
    | with_reducible apply orderly_foldN
    | with_reducible apply orderly_foldN_fst
    | with_reducible apply orderly_fold_fst
    | with_reducible apply orderly_foldl
    | intro _

theorem granuleInit_orderly {s0 s : State} (h : Orderly s0 s) (g : Nat) :
    Orderly s0 (granuleInit s g) := by
  unfold granuleInit
  try dsimp only
  repeat' first
    | with_reducible assumption
    | with_reducible apply bumpN_orderly
    | with_reducible apply granPut_orderly
    | with_reducible apply granuleFree_orderly
    | with_reducible apply initFlags_orderly
    | with_reducible apply orderly_ite

theorem formDclass_orderly {s0 s : State} (h : Orderly s0 s)  :
    Orderly s0 (formDclass s) := by
  unfold formDclass
  try dsimp only
  repeat' first
    | with_reducible assumption
    | with_reducible apply orderly_ite
    | with_reducible apply orderly_fold_fst
    | with_reducible apply orderly_foldl
    | exact Nat.le_refl _
    | with_reducible rfl
    | intro _
    | split
    | dsimp only
    | with_reducible apply orderly_mk

theorem svnBurn_orderly {s0 s : State} (h : Orderly s0 s)  :
    Orderly s0 (svnBurn s) := by
  unfold svnBurn
  split
  · rename_i hs
    refine bootMod_orderly h _ rfl rfl rfl ?_
    have : s.boot.svn ≤ minSvn s := Nat.le_max_right _ _
    exact Nat.le_of_lt (Nat.lt_of_le_of_lt this hs.2.2)
  · exact h

theorem checkDone_orderly {s0 s : State} (h : Orderly s0 s) (flashOk : Bool) (badAddr : Nat) :
    Orderly s0 (checkDone s flashOk badAddr) := by
  unfold checkDone
  try dsimp only
  repeat' first
    | with_reducible assumption
    | with_reducible apply bump0_orderly
    | with_reducible apply bootMod_orderly
    | with_reducible apply orderly_ite
    | with_reducible apply orderly_fold_fst
    | with_reducible apply orderly_foldl
    | with_reducible rfl
    | intro _
    | split

theorem sourceWrite_turn {s0 s : State} (h : Turn s0 s) (src : MgmtSource) (a : Nat) (v : Word) :
    Turn s0 (sourceWrite s src a v) := by
  unfold sourceWrite
  try dsimp only
  repeat' first
    | with_reducible assumption
    | with_reducible apply regWrite_turn
    | with_reducible apply turn_ite

theorem sourceRead_orderly {s0 s : State} (h : Orderly s0 s) (src : MgmtSource) (a : Nat) :
    Orderly s0 (sourceRead s src a) := by
  unfold sourceRead
  try dsimp only
  repeat' first
    | with_reducible assumption
    | with_reducible apply regRead_orderly
    | with_reducible apply orderly_ite

theorem regRead_turn {s0 s : State} (h : Turn s0 s) (src : MgmtSource) (a : Nat) :
    Turn s0 (regRead s src a).1 :=
  h.lift (fun h => regRead_orderly h src a)

theorem entryAccess_turn {s0 s : State} (h : Turn s0 s) (src : MgmtSource) (reach : Nat → Bool) (e : List Byte) :
    Turn s0 (entryAccess s src reach e).1 := by
  unfold entryAccess
  try dsimp only
  repeat' first
    | with_reducible assumption
    | with_reducible apply draw_turn
    | with_reducible apply regRead_turn
    | with_reducible apply regWrite_turn
    | with_reducible apply turn_ite
    | with_reducible apply turn_fst_ite
    | intro _
    | split

theorem entriesRun_turn {s0 s : State} (h : Turn s0 s) (src : MgmtSource) (reach : Nat → Bool) (n : Nat) (p : List Byte) :
    Turn s0 (entriesRun src reach n s p).1 := by
  induction n generalizing s p with
  | zero => exact h
  | succ n ih =>
    have h1 := entryAccess_turn h src reach p
    unfold entriesRun
    exact turn_fst_ite h1 (ih h1 _)

theorem answer_turn {s0 s : State} (h : Turn s0 s) (r : Req) (status : Nat) (payload : List Byte) :
    Turn s0 (answer s r status payload) :=
  h.lift (fun h => answer_orderly h r status payload)

theorem entriesThen_turn {s0 s : State} (h : Turn s0 s) (src : MgmtSource) (reach : Nat → Bool) (k : Nat) (p : List Byte)
    (go : State → List Byte → State) (hg : ∀ t, Turn s0 t → ∀ p, Turn s0 (go t p)) :
    Turn s0 (entriesThen s src reach k p go) :=
  turn_ite (entriesRun_turn h _ _ _ _) (hg _ (entriesRun_turn h _ _ _ _) _)

theorem mgmtChecks_turn {s0 s : State} (h : Turn s0 s) (r : Req) (f : RxFrame) (body : State → State)
    (hb : ∀ t, Turn s0 t → Turn s0 (body t)) : Turn s0 (mgmtChecks s r f body) := by
  unfold mgmtChecks
  repeat' first
    | with_reducible assumption
    | with_reducible apply answer_turn
    | with_reducible apply hb
    | with_reducible apply turn_ite

theorem mgmtAccess_turn {s0 s : State} (h : Turn s0 s) (f : RxFrame) :
    Turn s0 (mgmtAccess s f) := by
  unfold mgmtAccess
  try dsimp only
  repeat' first
    | with_reducible assumption
    | with_reducible apply answer_turn
    | with_reducible apply withRequest_turn
    | with_reducible apply mgmtChecks_turn
    | with_reducible apply entriesThen_turn
    | with_reducible apply turn_ite
    | intro _
    | split

theorem bump_turn {s0 s : State} (h : Turn s0 s) (c : Cnt) (inst : Nat) (sub : Nat) (pitch : Nat) :
    Turn s0 (bump s c inst sub pitch) :=
  h.lift (fun h => bump_orderly h c inst sub pitch)

theorem enqueue_turn {s0 s : State} (h : Turn s0 s) (l : Nat) (f : TxFrame) :
    Turn s0 (enqueue s l f) :=
  h.lift (fun h => enqueue_orderly h l f)

theorem recoveryAccess_turn {s0 s : State} (h : Turn s0 s) (f : RxFrame) :
    Turn s0 (recoveryAccess s f) := by
  unfold recoveryAccess
  try dsimp only
  repeat' first
    | with_reducible assumption
    | with_reducible apply bump_turn
    | with_reducible apply enqueue_turn
    | with_reducible apply entriesThen_turn
    | with_reducible apply turn_ite
    | intro _
    | split

theorem dbgMod_turn {s0 s : State} (h : Turn s0 s) (f : Dbg → Dbg) :
    Turn s0 (dbgMod s f) :=
  h.lift (fun h => dbgMod_orderly h f)

theorem jtagAccess_turn {s0 s : State} (h : Turn s0 s) (op : Nat) (a : Nat) (v : Word) :
    Turn s0 (jtagAccess s op a v) := by
  unfold jtagAccess
  try dsimp only
  repeat' first
    | with_reducible assumption
    | with_reducible apply dbgMod_turn
    | with_reducible apply draw_turn
    | with_reducible apply regRead_turn
    | with_reducible apply regWrite_turn
    | with_reducible apply turn_ite
    | intro _
    | split

theorem tick_orderly {s0 s : State} (h : Orderly s0 s)  :
    Orderly s0 (tick s) := by
  unfold tick
  try dsimp only
  repeat' first
    | with_reducible assumption
    | with_reducible apply elapse_orderly
    | with_reducible apply gridTick_orderly
    | with_reducible apply meshTick_orderly

end Sys2Proof.Machine
end

