-- ==== Sys2Proof/Laws/BootSteps.lean ====
section
/-! SUPPORT. The boot sequence keeps what a sound state is: one lemma per step, then `bootStep` as a whole. -/
namespace Sys2Proof.Machine

/-- What every command keeps: the tables' form, a legal BOOT_STATUS, the SVN fuses, and what is locked. -/
structure Moves (s t : State) : Prop where
  svn : s.boot.svn ≤ t.boot.svn
  tables : tablesOk s = true → tablesOk t = true
  legal : bootLegal s = true → bootLegal t = true
  locked : tablesOk s = true → bootLegal s = true → s.boot.locked = true → t.boot.locked = true → sameLocked s t

theorem Orderly.moves {s t : State} (h : Orderly s t) : Moves s t where
  svn := h.svn
  tables := h.tables
  legal := by unfold bootLegal; rw [h.step, h.serving, h.locked]; exact id
  locked ht _ hl _ := ⟨h.templates, h.img, h.mr, h.partners ht, h.bits ht hl⟩

theorem Fresh.moves {s t : State} (h : Fresh s t) : Moves s t where
  svn := h.svn
  tables _ := h.tables
  legal _ := by unfold bootLegal; rw [h.step, h.serving, h.locked]; rfl
  locked _ _ _ hl := by rw [h.locked] at hl; cases hl

theorem Turn.moves {s t : State} (h : Turn s t) : Moves s t := by
  cases h with
  | orderly h => exact h.moves
  | fresh h => exact h.moves

/-- What a step of a boot sequence that has not locked yet leaves. -/
structure Boots (s t : State) : Prop where
  svn : s.boot.svn ≤ t.boot.svn
  tables : tablesOk s = true → tablesOk t = true
  legal : bootLegal t = true

theorem Boots.moves {s t : State} (h : Boots s t) (hl : s.boot.locked = false) : Moves s t :=
  ⟨h.svn, h.tables, fun _ => h.legal, fun _ _ h' => by rw [hl] at h'; cases h'⟩

/-- What the steps of the sequence keep on their way: like `Orderly`, but the image, its measurements and BOOT's step are
being written. -/
structure Booting (s t : State) : Prop where
  serving : t.boot.serving = false
  locked : t.boot.locked = false
  svn : s.boot.svn ≤ t.boot.svn
  tables : tablesOk s = true → tablesOk t = true

theorem Booting.start {s : State} (h1 : s.boot.serving = false) (h2 : s.boot.locked = false) : Booting s s :=
  ⟨h1, h2, Nat.le_refl _, id⟩

theorem Booting.lift {s0 s t : State} (h : Booting s0 s) (g : Orderly s s → Orderly s t) : Booting s0 t := by
  have k := g (Orderly.refl s)
  exact ⟨k.serving.trans h.serving, k.locked.trans h.locked, Nat.le_trans h.svn k.svn, fun ht => k.tables (h.tables ht)⟩

theorem Booting.turn {s0 s t : State} (h : Booting s0 s) (g : Turn s s → Turn s t) : Booting s0 t := by
  cases g (Turn.refl s) with
  | orderly k => exact h.lift (fun _ => k)
  | fresh k => exact ⟨k.serving, k.locked, Nat.le_trans h.svn k.svn, fun _ => k.tables⟩

/-- A change of what the image gives and of BOOT's step alone. -/
theorem Booting.image {s0 s t : State} (h : Booting s0 s) (hb1 : t.boot.serving = s.boot.serving)
    (hb2 : t.boot.locked = s.boot.locked) (hb3 : t.boot.svn = s.boot.svn) (hd : t.dmc = s.dmc) (hc : t.csr = s.csr)
    (hp : t.mir.peers = s.mir.peers) : Booting s0 t :=
  ⟨hb1.trans h.serving, hb2.trans h.locked, by rw [hb3]; exact h.svn, fun ht => by
    have := h.tables ht
    unfold tablesOk at *
    rwa [hd, hc, hp]⟩

theorem booting_foldl {α : Type} {s0 : State} (f : State → α → State) (l : List α) (s : State) (h : Booting s0 s)
    (hf : ∀ s, Booting s0 s → ∀ x, Booting s0 (f s x)) : Booting s0 (l.foldl f s) := by
  induction l generalizing s with
  | nil => exact h
  | cons x l ih => exact ih (f s x) (hf s h x)

theorem mrExtend_booting {s0 s : State} (h : Booting s0 s) (n : Nat) (d : List Byte) : Booting s0 (mrExtend s n d) :=
  h.image rfl rfl rfl rfl rfl rfl

theorem mrSections_booting {s0 s : State} (h : Booting s0 s) (n : Nat) (ts : List Nat) : Booting s0 (mrSections s n ts) :=
  booting_foldl _ _ s h (fun _ h _ => mrExtend_booting h _ _)

theorem uartPut_booting {s0 s : State} (h : Booting s0 s) (u : Uart) : Booting s0 (uartPut s u) :=
  h.lift (fun h => uartPut_orderly h u)

/-- A step of the sequence entered while it has not locked. -/
theorem stepTo_boots {s0 s : State} (h : Booting s0 s) (n : Nat) (hn : 1 ≤ n ∧ n ≤ 9) : Boots s0 (stepTo s n) where
  svn := h.svn
  tables ht := h.tables ht
  legal := by
    unfold bootLegal stepTo bootMod
    simp [h.serving, h.locked, hn]

theorem recover_boots {s0 s : State} (h : Booting s0 s) (cause addr : Nat) : Boots s0 (recover s cause addr) := by
  unfold recover
  dsimp only
  have key : ∀ r : State, r.boot.serving = false → r.boot.locked = false → r.boot.step = 15 → s.boot.svn ≤ r.boot.svn →
      (tablesOk s = true → tablesOk r = true) → Boots s0 (fanForce (uartPut r (.cause cause))) := by
    intro r h1 h2 h3 h4 h5
    have k := fanForce_orderly (uartPut_orderly (Orderly.refl r) (.cause cause))
    refine ⟨Nat.le_trans h.svn (Nat.le_trans h4 k.svn), fun ht => k.tables (h5 (h.tables ht)), ?_⟩
    unfold bootLegal
    rw [k.step, k.serving, k.locked, h1, h2, h3]
    rfl
  refine key _ rfl h.locked rfl (Nat.le_refl _) ?_
  intro ht
  simp only [tablesOk, Bool.and_eq_true] at ht ⊢
  exact ⟨⟨⟨rfl, rfl⟩, ht.1.2⟩, rfl⟩

theorem checked_boots {s0 s : State} (h : Booting s0 s) (f : Option BootFail) {go : State} (hg : Boots s0 go) :
    Boots s0 (checked s f go) := by
  unfold checked
  split
  · exact recover_boots h _ _
  · exact hg

theorem boots_ite {s0 a b : State} {c : Prop} [Decidable c] (ha : Boots s0 a) (hb : Boots s0 b) :
    Boots s0 (if c then a else b) := by split <;> assumption

theorem bootStep1_boots {s0 s : State} (h : Booting s0 s) : Boots s0 (bootStep1 s) := by
  refine stepTo_boots ?_ 2 (by decide)
  refine h.lift (fun h => uartPut_orderly (crgMod_orderly (orderly_foldN _ _ _ h (fun _ h _ => ?_)) _) _)
  exact klrMod_orderly (draw_orderly h) _ _

theorem bootStep2_boots {s0 s : State} (h : Booting s0 s) (ok : Bool) (a : Nat) : Boots s0 (bootStep2 s ok a) := by
  unfold bootStep2
  dsimp only
  refine checked_boots h _ (stepTo_boots (uartPut_booting (mrExtend_booting ?_ _ _) _) 3 (by decide))
  exact h.image rfl rfl rfl rfl rfl rfl

theorem bootStep3_boots {s0 s : State} (h : Booting s0 s) : Boots s0 (bootStep3 s) :=
  boots_ite (recover_boots h _ _) (stepTo_boots h 4 (by decide))

theorem zip_range_sorted {α : Type} (l : List α) (n k : Nat) : tsorted ((List.range' k n).zip l) = true := by
  induction n generalizing k l with
  | zero => rfl
  | succ n ih =>
    cases l with
    | nil => rfl
    | cons a l =>
      rw [List.range'_succ, List.zip_cons_cons]
      refine (tsorted_cons _ _ _).2 ⟨?_, ih l (k + 1)⟩
      intro e he
      have := List.mem_range'.1 (List.of_mem_zip he).1
      omega

theorem imageTaken_booting {s0 s : State} (h : Booting s0 s) : Booting s0 (imageTaken s) := by
  refine ⟨h.serving, h.locked, h.svn, fun ht => ?_⟩
  have h1 := h.tables ht
  simp only [tablesOk, Bool.and_eq_true] at h1 ⊢
  refine ⟨h1.1, ?_⟩
  show tsorted ((upto _).zip _) = true
  unfold upto
  rw [List.range_eq_range']
  exact zip_range_sorted _ _ _

theorem bootStep4_boots {s0 s : State} (h : Booting s0 s) (ok : Bool) (a : Nat) : Boots s0 (bootStep4 s ok a) :=
  checked_boots h _ (stepTo_boots (mrSections_booting (mrSections_booting (imageTaken_booting h) _ _) _ _) 5 (by decide))

theorem bootStep5_boots {s0 s : State} (h : Booting s0 s) (slots : BitVec 32) : Boots s0 (bootStep5 s slots) := by
  unfold bootStep5
  dsimp only
  have h1 : Booting s0 (foldS s.img.config s (fun s r => (regWrite s .image r.1 r.2).1)) :=
    booting_foldl _ _ s h (fun _ h _ => h.turn (fun h => regWrite_turn h _ _ _))
  generalize foldS s.img.config s (fun s r => (regWrite s .image r.1 r.2).1) = s1 at *
  refine stepTo_boots (h1.lift fun h => ?_) 6 (by decide)
  refine orderly_foldS _ _ _ ?_ (fun _ h _ => bootUp_orderly h _)
  refine bootUp_orderly (portsStart_orderly (memoryStart_orderly (brdMod_orderly ?_ _))) _
  exact bootMod_orderly (crgMod_orderly h _) _ rfl rfl rfl (Nat.le_refl _)

theorem bootStep6_boots {s0 s : State} (h : Booting s0 s) (hs : bootLegal s = true) : Boots s0 (bootStep6 s) := by
  unfold bootStep6
  dsimp only
  refine boots_ite ⟨h.svn, h.tables, hs⟩ (boots_ite (recover_boots h _ _) (boots_ite (recover_boots h _ _) ?_))
  refine stepTo_boots (h.lift fun h => ?_) 7 (by decide)
  refine bindPartners_orderly (fltMod_orderly (bootServe_orderly ?_ _) _)
  refine orderly_foldN _ _ _ ?_ (fun _ h _ => orderly_foldS _ _ _ h (fun _ h _ => bootServe_orderly h _))
  refine orderly_foldN _ _ _ ?_ (fun _ h _ => chMod_orderly h _ _)
  exact dmcMod_orderly h _ rfl rfl

theorem bootStep7_boots {s0 s : State} (h : Booting s0 s) (ok : Bool) (a : Nat) : Boots s0 (bootStep7 s ok a) := by
  unfold bootStep7
  dsimp only
  refine checked_boots h _ (stepTo_boots ?_ 8 (by decide))
  have h1 : Booting s0 (foldN 4 initFlags (bumpN s .swpLines 0 0 0 ((s.dmc.gran.filter
      (fun e => e.2.state = .system)).length * 0x1000000))) :=
    h.lift (fun h => orderly_foldN _ _ _ (bumpN_orderly h _ _ _ _ _) (fun _ h _ => initFlags_orderly h _))
  generalize foldN 4 initFlags _ = s1 at *
  have h2 : Booting s0 (libraryTaken s1) := h1.image rfl rfl rfl rfl rfl rfl
  refine Booting.lift (mrSections_booting (mrSections_booting h2 2 [6]) 3 [7] |>.lift (fun h => formDclass_orderly h)) ?_
  exact fun h => orderly_foldN _ _ _ h (fun _ h _ => bootUp_orderly h _)

theorem bootStep8_boots {s0 s : State} (h : Booting s0 s) : Boots s0 (bootStep8 s) := by
  unfold bootStep8
  dsimp only
  refine stepTo_boots (h.lift fun h => ptpStart_orderly (chiefAgain_orderly (svcMod_orderly ?_ _))) 9 (by decide)
  refine orderly_foldS _ _ _ (orderly_foldN _ _ _ h (fun _ h _ => bootServe_orderly h _)) (fun _ h k => ?_)
  exact orderly_ite (degradeUnit_orderly (bootServe_orderly h _) _ _) (bootServe_orderly h _)

theorem bootStep9_boots {s0 s : State} (h : Booting s0 s) (hs : s.boot.step = 9) : Boots s0 (bootStep9 s) := by
  unfold bootStep9
  dsimp only
  have h1 : Boots s0 (bootMod s (fun b => { b with serving := true, locked := true })) :=
    ⟨h.svn, h.tables, by unfold bootLegal bootMod; simp [hs]⟩
  generalize bootMod s _ = s1 at *
  have k := uartPut_orderly (tptMod_orderly (Orderly.refl s1) (fun t => { t with admitting := true })) .k9
  exact ⟨Nat.le_trans h1.svn k.svn, fun ht => k.tables (h1.tables ht), k.moves.legal h1.legal⟩

theorem Moves.refl (s : State) : Moves s s := (Orderly.refl s).moves

/-- Before the lock nothing is locked: what a step of the sequence starts from. -/
theorem booting_unlocked {s : State} (hb : booting s = true) (hl : bootLegal s = true) : Booting s s := by
  unfold booting at hb
  unfold bootLegal at hl
  simp only [Bool.and_eq_true, Bool.not_eq_true', beq_iff_eq] at hb hl
  exact Booting.start hb.1 (hl.1.2 ▸ hb.1)

theorem bootStep_moves {s : State} (hl : bootLegal s = true) (ok : Bool) (a : Nat) (slots : BitVec 32) :
    Moves s (bootStep s ok a slots) := by
  unfold bootStep
  dsimp only
  split
  · exact Moves.refl s
  · rename_i hb
    have hb' : booting s = true := by
      by_contra h
      simp_all
    have h := booting_unlocked hb' hl
    refine Boots.moves ?_ h.locked
    have h9 : s.boot.step ≤ 9 := by
      unfold booting at hb'
      simp at hb'
      exact hb'.2
    have h1 : 1 ≤ s.boot.step := by
      unfold bootLegal at hl
      simp at hl
      omega
    split
    · exact recover_boots h _ _
    · split
      · exact bootStep1_boots h
      · split
        · exact bootStep2_boots h _ _
        · split
          · exact bootStep3_boots h
          · split
            · exact bootStep4_boots h _ _
            · split
              · exact bootStep5_boots h _
              · split
                · exact bootStep6_boots h hl
                · split
                  · exact bootStep7_boots h _ _
                  · split
                    · exact bootStep8_boots h
                    · exact bootStep9_boots h (by omega)

theorem bootTimeout_moves {s : State} (hl : bootLegal s = true) : Moves s (bootTimeout s) := by
  unfold bootTimeout
  split
  · exact Moves.refl s
  · rename_i hb
    have hb' : booting s = true := by
      by_contra h
      simp_all
    have h := booting_unlocked hb' hl
    exact (recover_boots (h.lift (fun h => nowTo_orderly h _)) _ _).moves h.locked

end Sys2Proof.Machine
end

