-- ==== Sys2Proof/Laws/Execs.lean ====
section
/-! SUPPORT. Every command answers a next state, by an orderly change or a chip-level reset. -/
namespace Sys2Proof.Machine

theorem asBoot_turn {s0 s : State} (h : Turn s0 s) (src : MgmtSource) {s' : State} (hs' : Turn s0 s') :
    Turn s0 (asBoot s src s') := by
  unfold asBoot
  split <;> assumption

/-- A command goes on to a next state. -/
def Goes (s : State) (o : Host.Outcome State Fault Refusal) : Prop := ∃ t, o = .next t ∧ Turn s t

theorem execNop_goes (core : BitVec 6) (s : State) : Goes s (execNop core s) := by
  unfold execNop
  try dsimp only
  refine ⟨_, rfl, .orderly ?_⟩
  repeat' first
    | with_reducible exact Orderly.refl _
    | with_reducible assumption
    | with_reducible apply slotOp_orderly
    | with_reducible apply orderly_ite
    | with_reducible apply orderly_foldS
    | with_reducible apply orderly_foldN
    | intro _

theorem execAdd_goes (core : BitVec 6) (sd : BitVec 5) (sa : BitVec 5) (sb : BitVec 5) (s : State) : Goes s (execAdd core sd sa sb s) := by
  unfold execAdd
  try dsimp only
  refine ⟨_, rfl, .orderly ?_⟩
  repeat' first
    | with_reducible exact Orderly.refl _
    | with_reducible assumption
    | with_reducible apply sOp_orderly

theorem execSub_goes (core : BitVec 6) (sd : BitVec 5) (sa : BitVec 5) (sb : BitVec 5) (s : State) : Goes s (execSub core sd sa sb s) := by
  unfold execSub
  try dsimp only
  refine ⟨_, rfl, .orderly ?_⟩
  repeat' first
    | with_reducible exact Orderly.refl _
    | with_reducible assumption
    | with_reducible apply sOp_orderly

theorem execAnd_goes (core : BitVec 6) (sd : BitVec 5) (sa : BitVec 5) (sb : BitVec 5) (s : State) : Goes s (execAnd core sd sa sb s) := by
  unfold execAnd
  try dsimp only
  refine ⟨_, rfl, .orderly ?_⟩
  repeat' first
    | with_reducible exact Orderly.refl _
    | with_reducible assumption
    | with_reducible apply sOp_orderly

theorem execOr_goes (core : BitVec 6) (sd : BitVec 5) (sa : BitVec 5) (sb : BitVec 5) (s : State) : Goes s (execOr core sd sa sb s) := by
  unfold execOr
  try dsimp only
  refine ⟨_, rfl, .orderly ?_⟩
  repeat' first
    | with_reducible exact Orderly.refl _
    | with_reducible assumption
    | with_reducible apply sOp_orderly

theorem execXor_goes (core : BitVec 6) (sd : BitVec 5) (sa : BitVec 5) (sb : BitVec 5) (s : State) : Goes s (execXor core sd sa sb s) := by
  unfold execXor
  try dsimp only
  refine ⟨_, rfl, .orderly ?_⟩
  repeat' first
    | with_reducible exact Orderly.refl _
    | with_reducible assumption
    | with_reducible apply sOp_orderly

theorem execShl_goes (core : BitVec 6) (sd : BitVec 5) (sa : BitVec 5) (sb : BitVec 5) (s : State) : Goes s (execShl core sd sa sb s) := by
  unfold execShl
  try dsimp only
  refine ⟨_, rfl, .orderly ?_⟩
  repeat' first
    | with_reducible exact Orderly.refl _
    | with_reducible assumption
    | with_reducible apply sOp_orderly

theorem execShr_goes (core : BitVec 6) (sd : BitVec 5) (sa : BitVec 5) (sb : BitVec 5) (s : State) : Goes s (execShr core sd sa sb s) := by
  unfold execShr
  try dsimp only
  refine ⟨_, rfl, .orderly ?_⟩
  repeat' first
    | with_reducible exact Orderly.refl _
    | with_reducible assumption
    | with_reducible apply sOp_orderly

theorem execSra_goes (core : BitVec 6) (sd : BitVec 5) (sa : BitVec 5) (sb : BitVec 5) (s : State) : Goes s (execSra core sd sa sb s) := by
  unfold execSra
  try dsimp only
  refine ⟨_, rfl, .orderly ?_⟩
  repeat' first
    | with_reducible exact Orderly.refl _
    | with_reducible assumption
    | with_reducible apply sOp_orderly

theorem execMin_goes (core : BitVec 6) (sd : BitVec 5) (sa : BitVec 5) (sb : BitVec 5) (s : State) : Goes s (execMin core sd sa sb s) := by
  unfold execMin
  try dsimp only
  refine ⟨_, rfl, .orderly ?_⟩
  repeat' first
    | with_reducible exact Orderly.refl _
    | with_reducible assumption
    | with_reducible apply sOp_orderly

theorem execMax_goes (core : BitVec 6) (sd : BitVec 5) (sa : BitVec 5) (sb : BitVec 5) (s : State) : Goes s (execMax core sd sa sb s) := by
  unfold execMax
  try dsimp only
  refine ⟨_, rfl, .orderly ?_⟩
  repeat' first
    | with_reducible exact Orderly.refl _
    | with_reducible assumption
    | with_reducible apply sOp_orderly

theorem execMinu_goes (core : BitVec 6) (sd : BitVec 5) (sa : BitVec 5) (sb : BitVec 5) (s : State) : Goes s (execMinu core sd sa sb s) := by
  unfold execMinu
  try dsimp only
  refine ⟨_, rfl, .orderly ?_⟩
  repeat' first
    | with_reducible exact Orderly.refl _
    | with_reducible assumption
    | with_reducible apply sOp_orderly

theorem execMaxu_goes (core : BitVec 6) (sd : BitVec 5) (sa : BitVec 5) (sb : BitVec 5) (s : State) : Goes s (execMaxu core sd sa sb s) := by
  unfold execMaxu
  try dsimp only
  refine ⟨_, rfl, .orderly ?_⟩
  repeat' first
    | with_reducible exact Orderly.refl _
    | with_reducible assumption
    | with_reducible apply sOp_orderly

theorem execCeq_goes (core : BitVec 6) (sd : BitVec 5) (sa : BitVec 5) (sb : BitVec 5) (s : State) : Goes s (execCeq core sd sa sb s) := by
  unfold execCeq
  try dsimp only
  refine ⟨_, rfl, .orderly ?_⟩
  repeat' first
    | with_reducible exact Orderly.refl _
    | with_reducible assumption
    | with_reducible apply sOp_orderly

theorem execCne_goes (core : BitVec 6) (sd : BitVec 5) (sa : BitVec 5) (sb : BitVec 5) (s : State) : Goes s (execCne core sd sa sb s) := by
  unfold execCne
  try dsimp only
  refine ⟨_, rfl, .orderly ?_⟩
  repeat' first
    | with_reducible exact Orderly.refl _
    | with_reducible assumption
    | with_reducible apply sOp_orderly

theorem execClt_goes (core : BitVec 6) (sd : BitVec 5) (sa : BitVec 5) (sb : BitVec 5) (s : State) : Goes s (execClt core sd sa sb s) := by
  unfold execClt
  try dsimp only
  refine ⟨_, rfl, .orderly ?_⟩
  repeat' first
    | with_reducible exact Orderly.refl _
    | with_reducible assumption
    | with_reducible apply sOp_orderly

theorem execCltu_goes (core : BitVec 6) (sd : BitVec 5) (sa : BitVec 5) (sb : BitVec 5) (s : State) : Goes s (execCltu core sd sa sb s) := by
  unfold execCltu
  try dsimp only
  refine ⟨_, rfl, .orderly ?_⟩
  repeat' first
    | with_reducible exact Orderly.refl _
    | with_reducible assumption
    | with_reducible apply sOp_orderly

theorem execCle_goes (core : BitVec 6) (sd : BitVec 5) (sa : BitVec 5) (sb : BitVec 5) (s : State) : Goes s (execCle core sd sa sb s) := by
  unfold execCle
  try dsimp only
  refine ⟨_, rfl, .orderly ?_⟩
  repeat' first
    | with_reducible exact Orderly.refl _
    | with_reducible assumption
    | with_reducible apply sOp_orderly

theorem execCleu_goes (core : BitVec 6) (sd : BitVec 5) (sa : BitVec 5) (sb : BitVec 5) (s : State) : Goes s (execCleu core sd sa sb s) := by
  unfold execCleu
  try dsimp only
  refine ⟨_, rfl, .orderly ?_⟩
  repeat' first
    | with_reducible exact Orderly.refl _
    | with_reducible assumption
    | with_reducible apply sOp_orderly

theorem execMul_goes (core : BitVec 6) (sd : BitVec 5) (sa : BitVec 5) (sb : BitVec 5) (s : State) : Goes s (execMul core sd sa sb s) := by
  unfold execMul
  try dsimp only
  refine ⟨_, rfl, .orderly ?_⟩
  repeat' first
    | with_reducible exact Orderly.refl _
    | with_reducible assumption
    | with_reducible apply sOp_orderly

theorem execMulh_goes (core : BitVec 6) (sd : BitVec 5) (sa : BitVec 5) (sb : BitVec 5) (s : State) : Goes s (execMulh core sd sa sb s) := by
  unfold execMulh
  try dsimp only
  refine ⟨_, rfl, .orderly ?_⟩
  repeat' first
    | with_reducible exact Orderly.refl _
    | with_reducible assumption
    | with_reducible apply sOp_orderly

theorem execMulhu_goes (core : BitVec 6) (sd : BitVec 5) (sa : BitVec 5) (sb : BitVec 5) (s : State) : Goes s (execMulhu core sd sa sb s) := by
  unfold execMulhu
  try dsimp only
  refine ⟨_, rfl, .orderly ?_⟩
  repeat' first
    | with_reducible exact Orderly.refl _
    | with_reducible assumption
    | with_reducible apply sOp_orderly

theorem execFadd_goes (core : BitVec 6) (sd : BitVec 5) (sa : BitVec 5) (sb : BitVec 5) (s : State) : Goes s (execFadd core sd sa sb s) := by
  unfold execFadd
  try dsimp only
  refine ⟨_, rfl, .orderly ?_⟩
  repeat' first
    | with_reducible exact Orderly.refl _
    | with_reducible assumption
    | with_reducible apply sOp_orderly

theorem execFsub_goes (core : BitVec 6) (sd : BitVec 5) (sa : BitVec 5) (sb : BitVec 5) (s : State) : Goes s (execFsub core sd sa sb s) := by
  unfold execFsub
  try dsimp only
  refine ⟨_, rfl, .orderly ?_⟩
  repeat' first
    | with_reducible exact Orderly.refl _
    | with_reducible assumption
    | with_reducible apply sOp_orderly

theorem execFmul_goes (core : BitVec 6) (sd : BitVec 5) (sa : BitVec 5) (sb : BitVec 5) (s : State) : Goes s (execFmul core sd sa sb s) := by
  unfold execFmul
  try dsimp only
  refine ⟨_, rfl, .orderly ?_⟩
  repeat' first
    | with_reducible exact Orderly.refl _
    | with_reducible assumption
    | with_reducible apply sOp_orderly

theorem execFdiv_goes (core : BitVec 6) (sd : BitVec 5) (sa : BitVec 5) (sb : BitVec 5) (s : State) : Goes s (execFdiv core sd sa sb s) := by
  unfold execFdiv
  try dsimp only
  refine ⟨_, rfl, .orderly ?_⟩
  repeat' first
    | with_reducible exact Orderly.refl _
    | with_reducible assumption
    | with_reducible apply sOp_orderly

theorem execFsqrt_goes (core : BitVec 6) (sd : BitVec 5) (sa : BitVec 5) (s : State) : Goes s (execFsqrt core sd sa s) := by
  unfold execFsqrt
  try dsimp only
  refine ⟨_, rfl, .orderly ?_⟩
  repeat' first
    | with_reducible exact Orderly.refl _
    | with_reducible assumption
    | with_reducible apply sOp_orderly

theorem execFmin_goes (core : BitVec 6) (sd : BitVec 5) (sa : BitVec 5) (sb : BitVec 5) (s : State) : Goes s (execFmin core sd sa sb s) := by
  unfold execFmin
  try dsimp only
  refine ⟨_, rfl, .orderly ?_⟩
  repeat' first
    | with_reducible exact Orderly.refl _
    | with_reducible assumption
    | with_reducible apply sOp_orderly

theorem execFmax_goes (core : BitVec 6) (sd : BitVec 5) (sa : BitVec 5) (sb : BitVec 5) (s : State) : Goes s (execFmax core sd sa sb s) := by
  unfold execFmax
  try dsimp only
  refine ⟨_, rfl, .orderly ?_⟩
  repeat' first
    | with_reducible exact Orderly.refl _
    | with_reducible assumption
    | with_reducible apply sOp_orderly

theorem execI2f_goes (core : BitVec 6) (sd : BitVec 5) (sa : BitVec 5) (s : State) : Goes s (execI2f core sd sa s) := by
  unfold execI2f
  try dsimp only
  refine ⟨_, rfl, .orderly ?_⟩
  repeat' first
    | with_reducible exact Orderly.refl _
    | with_reducible assumption
    | with_reducible apply sOp_orderly

theorem execF2i_goes (core : BitVec 6) (sd : BitVec 5) (sa : BitVec 5) (s : State) : Goes s (execF2i core sd sa s) := by
  unfold execF2i
  try dsimp only
  refine ⟨_, rfl, .orderly ?_⟩
  repeat' first
    | with_reducible exact Orderly.refl _
    | with_reducible assumption
    | with_reducible apply sOp_orderly

theorem execAddi_goes (core : BitVec 6) (sd : BitVec 5) (sa : BitVec 5) (imm : BitVec 16) (s : State) : Goes s (execAddi core sd sa imm s) := by
  unfold execAddi
  try dsimp only
  refine ⟨_, rfl, .orderly ?_⟩
  repeat' first
    | with_reducible exact Orderly.refl _
    | with_reducible assumption
    | with_reducible apply sOp_orderly

theorem execAndi_goes (core : BitVec 6) (sd : BitVec 5) (sa : BitVec 5) (imm : BitVec 16) (s : State) : Goes s (execAndi core sd sa imm s) := by
  unfold execAndi
  try dsimp only
  refine ⟨_, rfl, .orderly ?_⟩
  repeat' first
    | with_reducible exact Orderly.refl _
    | with_reducible assumption
    | with_reducible apply sOp_orderly

theorem execOri_goes (core : BitVec 6) (sd : BitVec 5) (sa : BitVec 5) (imm : BitVec 16) (s : State) : Goes s (execOri core sd sa imm s) := by
  unfold execOri
  try dsimp only
  refine ⟨_, rfl, .orderly ?_⟩
  repeat' first
    | with_reducible exact Orderly.refl _
    | with_reducible assumption
    | with_reducible apply sOp_orderly

theorem execXori_goes (core : BitVec 6) (sd : BitVec 5) (sa : BitVec 5) (imm : BitVec 16) (s : State) : Goes s (execXori core sd sa imm s) := by
  unfold execXori
  try dsimp only
  refine ⟨_, rfl, .orderly ?_⟩
  repeat' first
    | with_reducible exact Orderly.refl _
    | with_reducible assumption
    | with_reducible apply sOp_orderly

theorem execLui_goes (core : BitVec 6) (sd : BitVec 5) (imm : BitVec 21) (s : State) : Goes s (execLui core sd imm s) := by
  unfold execLui
  try dsimp only
  refine ⟨_, rfl, .orderly ?_⟩
  repeat' first
    | with_reducible exact Orderly.refl _
    | with_reducible assumption
    | with_reducible apply sOp_orderly

theorem execSld_goes (core : BitVec 6) (sd : BitVec 5) (sa : BitVec 5) (imm : BitVec 16) (s : State) : Goes s (execSld core sd sa imm s) := by
  unfold execSld
  try dsimp only
  refine ⟨_, rfl, .orderly ?_⟩
  repeat' first
    | with_reducible exact Orderly.refl _
    | with_reducible assumption
    | with_reducible apply landIn_orderly
    | with_reducible apply slotOp_orderly
    | with_reducible apply holdOp_orderly
    | with_reducible apply orderly_ite
    | with_reducible apply orderly_foldS
    | with_reducible apply orderly_foldN
    | intro _

theorem execSst_goes (core : BitVec 6) (sd : BitVec 5) (sa : BitVec 5) (imm : BitVec 16) (s : State) : Goes s (execSst core sd sa imm s) := by
  unfold execSst
  try dsimp only
  refine ⟨_, rfl, .orderly ?_⟩
  repeat' first
    | with_reducible exact Orderly.refl _
    | with_reducible assumption
    | with_reducible apply landIn_orderly
    | with_reducible apply slotOp_orderly
    | with_reducible apply holdOp_orderly
    | with_reducible apply orderly_ite
    | with_reducible apply orderly_foldS
    | with_reducible apply orderly_foldN
    | intro _
    | split
    | dsimp only
    | simp only [id_eq]

theorem execBr_goes (core : BitVec 6) (off : BitVec 16) (s : State) : Goes s (execBr core off s) := by
  unfold execBr
  try dsimp only
  refine ⟨_, rfl, .orderly ?_⟩
  repeat' first
    | with_reducible exact Orderly.refl _
    | with_reducible assumption
    | with_reducible apply branchOp_orderly
    | with_reducible apply orderly_ite
    | with_reducible apply orderly_foldS
    | with_reducible apply orderly_foldN
    | intro _

theorem execBz_goes (core : BitVec 6) (sa : BitVec 5) (off : BitVec 16) (s : State) : Goes s (execBz core sa off s) := by
  unfold execBz
  try dsimp only
  refine ⟨_, rfl, .orderly ?_⟩
  repeat' first
    | with_reducible exact Orderly.refl _
    | with_reducible assumption
    | with_reducible apply branchOp_orderly
    | with_reducible apply orderly_ite
    | with_reducible apply orderly_foldS
    | with_reducible apply orderly_foldN
    | intro _

theorem execBnz_goes (core : BitVec 6) (sa : BitVec 5) (off : BitVec 16) (s : State) : Goes s (execBnz core sa off s) := by
  unfold execBnz
  try dsimp only
  refine ⟨_, rfl, .orderly ?_⟩
  repeat' first
    | with_reducible exact Orderly.refl _
    | with_reducible assumption
    | with_reducible apply branchOp_orderly
    | with_reducible apply orderly_ite
    | with_reducible apply orderly_foldS
    | with_reducible apply orderly_foldN
    | intro _

theorem execBnzd_goes (core : BitVec 6) (sa : BitVec 5) (off : BitVec 16) (s : State) : Goes s (execBnzd core sa off s) := by
  unfold execBnzd
  try dsimp only
  refine ⟨_, rfl, .orderly ?_⟩
  repeat' first
    | with_reducible exact Orderly.refl _
    | with_reducible assumption
    | with_reducible apply landIn_orderly
    | with_reducible apply branchOp_orderly
    | with_reducible apply orderly_ite
    | with_reducible apply orderly_foldS
    | with_reducible apply orderly_foldN
    | intro _

theorem execHalt_goes (core : BitVec 6) (s : State) : Goes s (execHalt core s) := by
  unfold execHalt
  try dsimp only
  refine ⟨_, rfl, .orderly ?_⟩
  repeat' first
    | with_reducible exact Orderly.refl _
    | with_reducible assumption
    | with_reducible apply corePut_orderly
    | with_reducible apply slotOp_orderly
    | with_reducible apply orderly_ite
    | with_reducible apply orderly_foldS
    | with_reducible apply orderly_foldN
    | intro _

theorem execVadd_goes (core : BitVec 6) (vd : BitVec 5) (va : BitVec 5) (vb : BitVec 5) (pg : BitVec 3) (ty : BitVec 3) (s : State) : Goes s (execVadd core vd va vb pg ty s) := by
  unfold execVadd
  try dsimp only
  refine ⟨_, rfl, .orderly ?_⟩
  repeat' first
    | with_reducible exact Orderly.refl _
    | with_reducible assumption
    | with_reducible apply vFp2_orderly

theorem execVsub_goes (core : BitVec 6) (vd : BitVec 5) (va : BitVec 5) (vb : BitVec 5) (pg : BitVec 3) (ty : BitVec 3) (s : State) : Goes s (execVsub core vd va vb pg ty s) := by
  unfold execVsub
  try dsimp only
  refine ⟨_, rfl, .orderly ?_⟩
  repeat' first
    | with_reducible exact Orderly.refl _
    | with_reducible assumption
    | with_reducible apply vFp2_orderly

theorem execVmul_goes (core : BitVec 6) (vd : BitVec 5) (va : BitVec 5) (vb : BitVec 5) (pg : BitVec 3) (ty : BitVec 3) (s : State) : Goes s (execVmul core vd va vb pg ty s) := by
  unfold execVmul
  try dsimp only
  refine ⟨_, rfl, .orderly ?_⟩
  repeat' first
    | with_reducible exact Orderly.refl _
    | with_reducible assumption
    | with_reducible apply vFp2_orderly

theorem execVmin_goes (core : BitVec 6) (vd : BitVec 5) (va : BitVec 5) (vb : BitVec 5) (pg : BitVec 3) (ty : BitVec 3) (s : State) : Goes s (execVmin core vd va vb pg ty s) := by
  unfold execVmin
  try dsimp only
  refine ⟨_, rfl, .orderly ?_⟩
  repeat' first
    | with_reducible exact Orderly.refl _
    | with_reducible assumption
    | with_reducible apply vFp2_orderly

theorem execVmax_goes (core : BitVec 6) (vd : BitVec 5) (va : BitVec 5) (vb : BitVec 5) (pg : BitVec 3) (ty : BitVec 3) (s : State) : Goes s (execVmax core vd va vb pg ty s) := by
  unfold execVmax
  try dsimp only
  refine ⟨_, rfl, .orderly ?_⟩
  repeat' first
    | with_reducible exact Orderly.refl _
    | with_reducible assumption
    | with_reducible apply vFp2_orderly

theorem execVfma_goes (core : BitVec 6) (vd : BitVec 5) (va : BitVec 5) (vb : BitVec 5) (pg : BitVec 3) (ty : BitVec 3) (s : State) : Goes s (execVfma core vd va vb pg ty s) := by
  unfold execVfma
  try dsimp only
  refine ⟨_, rfl, .orderly ?_⟩
  repeat' first
    | with_reducible exact Orderly.refl _
    | with_reducible assumption
    | with_reducible apply vOp_orderly

theorem execVfms_goes (core : BitVec 6) (vd : BitVec 5) (va : BitVec 5) (vb : BitVec 5) (pg : BitVec 3) (ty : BitVec 3) (s : State) : Goes s (execVfms core vd va vb pg ty s) := by
  unfold execVfms
  try dsimp only
  refine ⟨_, rfl, .orderly ?_⟩
  repeat' first
    | with_reducible exact Orderly.refl _
    | with_reducible assumption
    | with_reducible apply vOp_orderly

theorem execVabs_goes (core : BitVec 6) (vd : BitVec 5) (va : BitVec 5) (pg : BitVec 3) (ty : BitVec 3) (s : State) : Goes s (execVabs core vd va pg ty s) := by
  unfold execVabs
  try dsimp only
  refine ⟨_, rfl, .orderly ?_⟩
  repeat' first
    | with_reducible exact Orderly.refl _
    | with_reducible assumption
    | with_reducible apply vOp_orderly

theorem execVneg_goes (core : BitVec 6) (vd : BitVec 5) (va : BitVec 5) (pg : BitVec 3) (ty : BitVec 3) (s : State) : Goes s (execVneg core vd va pg ty s) := by
  unfold execVneg
  try dsimp only
  refine ⟨_, rfl, .orderly ?_⟩
  repeat' first
    | with_reducible exact Orderly.refl _
    | with_reducible assumption
    | with_reducible apply vOp_orderly

theorem execVdiv_goes (core : BitVec 6) (vd : BitVec 5) (va : BitVec 5) (vb : BitVec 5) (pg : BitVec 3) (s : State) : Goes s (execVdiv core vd va vb pg s) := by
  unfold execVdiv
  try dsimp only
  refine ⟨_, rfl, .orderly ?_⟩
  repeat' first
    | with_reducible exact Orderly.refl _
    | with_reducible assumption
    | with_reducible apply vOp_orderly

theorem execVsqrt_goes (core : BitVec 6) (vd : BitVec 5) (va : BitVec 5) (pg : BitVec 3) (s : State) : Goes s (execVsqrt core vd va pg s) := by
  unfold execVsqrt
  try dsimp only
  refine ⟨_, rfl, .orderly ?_⟩
  repeat' first
    | with_reducible exact Orderly.refl _
    | with_reducible assumption
    | with_reducible apply vFp1_orderly

theorem execVrsum_goes (core : BitVec 6) (vd : BitVec 5) (va : BitVec 5) (pg : BitVec 3) (ty : BitVec 3) (s : State) : Goes s (execVrsum core vd va pg ty s) := by
  unfold execVrsum
  try dsimp only
  refine ⟨_, rfl, .orderly ?_⟩
  repeat' first
    | with_reducible exact Orderly.refl _
    | with_reducible assumption
    | with_reducible apply vrsumOp_orderly

theorem execViadd_goes (core : BitVec 6) (vd : BitVec 5) (va : BitVec 5) (vb : BitVec 5) (pg : BitVec 3) (ty : BitVec 3) (s : State) : Goes s (execViadd core vd va vb pg ty s) := by
  unfold execViadd
  try dsimp only
  refine ⟨_, rfl, .orderly ?_⟩
  repeat' first
    | with_reducible exact Orderly.refl _
    | with_reducible assumption
    | with_reducible apply vInt2_orderly

theorem execVisub_goes (core : BitVec 6) (vd : BitVec 5) (va : BitVec 5) (vb : BitVec 5) (pg : BitVec 3) (ty : BitVec 3) (s : State) : Goes s (execVisub core vd va vb pg ty s) := by
  unfold execVisub
  try dsimp only
  refine ⟨_, rfl, .orderly ?_⟩
  repeat' first
    | with_reducible exact Orderly.refl _
    | with_reducible assumption
    | with_reducible apply vInt2_orderly

theorem execVand_goes (core : BitVec 6) (vd : BitVec 5) (va : BitVec 5) (vb : BitVec 5) (pg : BitVec 3) (ty : BitVec 3) (s : State) : Goes s (execVand core vd va vb pg ty s) := by
  unfold execVand
  try dsimp only
  refine ⟨_, rfl, .orderly ?_⟩
  repeat' first
    | with_reducible exact Orderly.refl _
    | with_reducible assumption
    | with_reducible apply vInt2_orderly

theorem execVor_goes (core : BitVec 6) (vd : BitVec 5) (va : BitVec 5) (vb : BitVec 5) (pg : BitVec 3) (ty : BitVec 3) (s : State) : Goes s (execVor core vd va vb pg ty s) := by
  unfold execVor
  try dsimp only
  refine ⟨_, rfl, .orderly ?_⟩
  repeat' first
    | with_reducible exact Orderly.refl _
    | with_reducible assumption
    | with_reducible apply vInt2_orderly

theorem execVxor_goes (core : BitVec 6) (vd : BitVec 5) (va : BitVec 5) (vb : BitVec 5) (pg : BitVec 3) (ty : BitVec 3) (s : State) : Goes s (execVxor core vd va vb pg ty s) := by
  unfold execVxor
  try dsimp only
  refine ⟨_, rfl, .orderly ?_⟩
  repeat' first
    | with_reducible exact Orderly.refl _
    | with_reducible assumption
    | with_reducible apply vInt2_orderly

theorem execVshl_goes (core : BitVec 6) (vd : BitVec 5) (va : BitVec 5) (vb : BitVec 5) (pg : BitVec 3) (ty : BitVec 3) (s : State) : Goes s (execVshl core vd va vb pg ty s) := by
  unfold execVshl
  try dsimp only
  refine ⟨_, rfl, .orderly ?_⟩
  repeat' first
    | with_reducible exact Orderly.refl _
    | with_reducible assumption
    | with_reducible apply vInt2_orderly

theorem execVshr_goes (core : BitVec 6) (vd : BitVec 5) (va : BitVec 5) (vb : BitVec 5) (pg : BitVec 3) (ty : BitVec 3) (s : State) : Goes s (execVshr core vd va vb pg ty s) := by
  unfold execVshr
  try dsimp only
  refine ⟨_, rfl, .orderly ?_⟩
  repeat' first
    | with_reducible exact Orderly.refl _
    | with_reducible assumption
    | with_reducible apply vInt2_orderly

theorem execVsra_goes (core : BitVec 6) (vd : BitVec 5) (va : BitVec 5) (vb : BitVec 5) (pg : BitVec 3) (ty : BitVec 3) (s : State) : Goes s (execVsra core vd va vb pg ty s) := by
  unfold execVsra
  try dsimp only
  refine ⟨_, rfl, .orderly ?_⟩
  repeat' first
    | with_reducible exact Orderly.refl _
    | with_reducible assumption
    | with_reducible apply vInt2_orderly

theorem execVimin_goes (core : BitVec 6) (vd : BitVec 5) (va : BitVec 5) (vb : BitVec 5) (pg : BitVec 3) (ty : BitVec 3) (s : State) : Goes s (execVimin core vd va vb pg ty s) := by
  unfold execVimin
  try dsimp only
  refine ⟨_, rfl, .orderly ?_⟩
  repeat' first
    | with_reducible exact Orderly.refl _
    | with_reducible assumption
    | with_reducible apply vInt2_orderly

theorem execVimax_goes (core : BitVec 6) (vd : BitVec 5) (va : BitVec 5) (vb : BitVec 5) (pg : BitVec 3) (ty : BitVec 3) (s : State) : Goes s (execVimax core vd va vb pg ty s) := by
  unfold execVimax
  try dsimp only
  refine ⟨_, rfl, .orderly ?_⟩
  repeat' first
    | with_reducible exact Orderly.refl _
    | with_reducible assumption
    | with_reducible apply vInt2_orderly

theorem execVcmpEq_goes (core : BitVec 6) (pd : BitVec 3) (va : BitVec 5) (vb : BitVec 5) (pg : BitVec 3) (ty : BitVec 3) (s : State) : Goes s (execVcmpEq core pd va vb pg ty s) := by
  unfold execVcmpEq
  try dsimp only
  refine ⟨_, rfl, .orderly ?_⟩
  repeat' first
    | with_reducible exact Orderly.refl _
    | with_reducible assumption
    | with_reducible apply vCmp_orderly

theorem execVcmpNe_goes (core : BitVec 6) (pd : BitVec 3) (va : BitVec 5) (vb : BitVec 5) (pg : BitVec 3) (ty : BitVec 3) (s : State) : Goes s (execVcmpNe core pd va vb pg ty s) := by
  unfold execVcmpNe
  try dsimp only
  refine ⟨_, rfl, .orderly ?_⟩
  repeat' first
    | with_reducible exact Orderly.refl _
    | with_reducible assumption
    | with_reducible apply vCmp_orderly

theorem execVcmpLt_goes (core : BitVec 6) (pd : BitVec 3) (va : BitVec 5) (vb : BitVec 5) (pg : BitVec 3) (ty : BitVec 3) (s : State) : Goes s (execVcmpLt core pd va vb pg ty s) := by
  unfold execVcmpLt
  try dsimp only
  refine ⟨_, rfl, .orderly ?_⟩
  repeat' first
    | with_reducible exact Orderly.refl _
    | with_reducible assumption
    | with_reducible apply vCmp_orderly

theorem execVcmpLe_goes (core : BitVec 6) (pd : BitVec 3) (va : BitVec 5) (vb : BitVec 5) (pg : BitVec 3) (ty : BitVec 3) (s : State) : Goes s (execVcmpLe core pd va vb pg ty s) := by
  unfold execVcmpLe
  try dsimp only
  refine ⟨_, rfl, .orderly ?_⟩
  repeat' first
    | with_reducible exact Orderly.refl _
    | with_reducible assumption
    | with_reducible apply vCmp_orderly

theorem execVsel_goes (core : BitVec 6) (vd : BitVec 5) (va : BitVec 5) (vb : BitVec 5) (pg : BitVec 3) (ty : BitVec 3) (s : State) : Goes s (execVsel core vd va vb pg ty s) := by
  unfold execVsel
  try dsimp only
  refine ⟨_, rfl, .orderly ?_⟩
  repeat' first
    | with_reducible exact Orderly.refl _
    | with_reducible assumption
    | with_reducible apply landIn_orderly
    | with_reducible apply slotOp_orderly
    | with_reducible apply orderly_ite
    | with_reducible apply orderly_foldS
    | with_reducible apply orderly_foldN
    | intro _

theorem execPand_goes (core : BitVec 6) (pd : BitVec 3) (pa : BitVec 3) (pb : BitVec 3) (s : State) : Goes s (execPand core pd pa pb s) := by
  unfold execPand
  try dsimp only
  refine ⟨_, rfl, .orderly ?_⟩
  repeat' first
    | with_reducible exact Orderly.refl _
    | with_reducible assumption
    | with_reducible apply pOp_orderly

theorem execPor_goes (core : BitVec 6) (pd : BitVec 3) (pa : BitVec 3) (pb : BitVec 3) (s : State) : Goes s (execPor core pd pa pb s) := by
  unfold execPor
  try dsimp only
  refine ⟨_, rfl, .orderly ?_⟩
  repeat' first
    | with_reducible exact Orderly.refl _
    | with_reducible assumption
    | with_reducible apply pOp_orderly

theorem execPxor_goes (core : BitVec 6) (pd : BitVec 3) (pa : BitVec 3) (pb : BitVec 3) (s : State) : Goes s (execPxor core pd pa pb s) := by
  unfold execPxor
  try dsimp only
  refine ⟨_, rfl, .orderly ?_⟩
  repeat' first
    | with_reducible exact Orderly.refl _
    | with_reducible assumption
    | with_reducible apply pOp_orderly

theorem execPnot_goes (core : BitVec 6) (pd : BitVec 3) (pa : BitVec 3) (s : State) : Goes s (execPnot core pd pa s) := by
  unfold execPnot
  try dsimp only
  refine ⟨_, rfl, .orderly ?_⟩
  repeat' first
    | with_reducible exact Orderly.refl _
    | with_reducible assumption
    | with_reducible apply pOp_orderly

theorem execVbcast_goes (core : BitVec 6) (vd : BitVec 5) (sa : BitVec 5) (pg : BitVec 3) (ty : BitVec 3) (s : State) : Goes s (execVbcast core vd sa pg ty s) := by
  unfold execVbcast
  try dsimp only
  refine ⟨_, rfl, .orderly ?_⟩
  repeat' first
    | with_reducible exact Orderly.refl _
    | with_reducible assumption
    | with_reducible apply vOp_orderly

theorem execVext_goes (core : BitVec 6) (sd : BitVec 5) (va : BitVec 5) (sb : BitVec 5) (ty : BitVec 3) (s : State) : Goes s (execVext core sd va sb ty s) := by
  unfold execVext
  try dsimp only
  refine ⟨_, rfl, .orderly ?_⟩
  repeat' first
    | with_reducible exact Orderly.refl _
    | with_reducible assumption
    | with_reducible apply sOp_orderly

theorem execVtrRcp_goes (core : BitVec 6) (vd : BitVec 5) (va : BitVec 5) (pg : BitVec 3) (s : State) : Goes s (execVtrRcp core vd va pg s) := by
  unfold execVtrRcp
  try dsimp only
  refine ⟨_, rfl, .orderly ?_⟩
  repeat' first
    | with_reducible exact Orderly.refl _
    | with_reducible assumption
    | with_reducible apply vFp1_orderly

theorem execVtrRsq_goes (core : BitVec 6) (vd : BitVec 5) (va : BitVec 5) (pg : BitVec 3) (s : State) : Goes s (execVtrRsq core vd va pg s) := by
  unfold execVtrRsq
  try dsimp only
  refine ⟨_, rfl, .orderly ?_⟩
  repeat' first
    | with_reducible exact Orderly.refl _
    | with_reducible assumption
    | with_reducible apply vFp1_orderly

theorem execVtrExp2_goes (core : BitVec 6) (vd : BitVec 5) (va : BitVec 5) (pg : BitVec 3) (s : State) : Goes s (execVtrExp2 core vd va pg s) := by
  unfold execVtrExp2
  try dsimp only
  refine ⟨_, rfl, .orderly ?_⟩
  repeat' first
    | with_reducible exact Orderly.refl _
    | with_reducible assumption
    | with_reducible apply vFp1_orderly

theorem execVtrLog2_goes (core : BitVec 6) (vd : BitVec 5) (va : BitVec 5) (pg : BitVec 3) (s : State) : Goes s (execVtrLog2 core vd va pg s) := by
  unfold execVtrLog2
  try dsimp only
  refine ⟨_, rfl, .orderly ?_⟩
  repeat' first
    | with_reducible exact Orderly.refl _
    | with_reducible assumption
    | with_reducible apply vFp1_orderly

theorem execVcvt_goes (core : BitVec 6) (vd : BitVec 5) (va : BitVec 5) (srcT : BitVec 4) (dstT : BitVec 4) (rm : BitVec 3) (sat : Bool) (part : BitVec 2) (s : State) : Goes s (execVcvt core vd va srcT dstT rm sat part s) := by
  unfold execVcvt
  try dsimp only
  refine ⟨_, rfl, .orderly ?_⟩
  repeat' first
    | with_reducible exact Orderly.refl _
    | with_reducible assumption
    | with_reducible apply cvtOp_orderly

theorem execVcvtSr_goes (core : BitVec 6) (vd : BitVec 5) (va : BitVec 5) (dstT : BitVec 4) (sat : Bool) (part : BitVec 2) (s : State) : Goes s (execVcvtSr core vd va dstT sat part s) := by
  unfold execVcvtSr
  try dsimp only
  refine ⟨_, rfl, .orderly ?_⟩
  repeat' first
    | with_reducible exact Orderly.refl _
    | with_reducible assumption
    | with_reducible apply cvtSrOp_orderly

theorem execVmx_goes (core : BitVec 6) (vd : BitVec 5) (va : BitVec 5) (elt : BitVec 4) (part : BitVec 3) (sd : BitVec 5) (s : State) : Goes s (execVmx core vd va elt part sd s) := by
  unfold execVmx
  try dsimp only
  refine ⟨_, rfl, .orderly ?_⟩
  repeat' first
    | with_reducible exact Orderly.refl _
    | with_reducible assumption
    | with_reducible apply vmxOp_orderly

theorem execVld_goes (core : BitVec 6) (v : BitVec 5) (sa : BitVec 5) (off : BitVec 13) (again : Reread) (s : State) : Goes s (execVld core v sa off again s) := by
  unfold execVld
  try dsimp only
  refine ⟨_, rfl, .orderly ?_⟩
  repeat' first
    | with_reducible exact Orderly.refl _
    | with_reducible assumption
    | with_reducible apply landIn_orderly
    | with_reducible apply slotOp_orderly
    | with_reducible apply holdOp_orderly
    | with_reducible apply holdRead_orderly
    | with_reducible apply orderly_ite
    | with_reducible apply orderly_foldS
    | with_reducible apply orderly_foldN
    | intro _

theorem execVst_goes (core : BitVec 6) (v : BitVec 5) (sa : BitVec 5) (pg : BitVec 3) (off : BitVec 13) (s : State) : Goes s (execVst core v sa pg off s) := by
  unfold execVst
  try dsimp only
  refine ⟨_, rfl, .orderly ?_⟩
  repeat' first
    | with_reducible exact Orderly.refl _
    | with_reducible assumption
    | with_reducible apply landIn_orderly
    | with_reducible apply slotOp_orderly
    | with_reducible apply holdOp_orderly
    | with_reducible apply orderly_ite
    | with_reducible apply orderly_foldS
    | with_reducible apply orderly_foldN
    | intro _
    | split
    | dsimp only
    | simp only [id_eq]

theorem execSend_goes (core : BitVec 6) (vs : BitVec 5) (q : BitVec 2) (route : BitVec 12) (s : State) : Goes s (execSend core vs q route s) := by
  unfold execSend
  try dsimp only
  refine ⟨_, rfl, .orderly ?_⟩
  repeat' first
    | with_reducible exact Orderly.refl _
    | with_reducible assumption
    | with_reducible apply sendOp_orderly

theorem execRecv_goes (core : BitVec 6) (vd : BitVec 5) (q : BitVec 2) (dir : BitVec 2) (s : State) : Goes s (execRecv core vd q dir s) := by
  unfold execRecv
  try dsimp only
  refine ⟨_, rfl, .orderly ?_⟩
  repeat' first
    | with_reducible exact Orderly.refl _
    | with_reducible assumption
    | with_reducible apply recvOp_orderly

theorem execMxMul_goes (core : BitVec 6) (ad : BitVec 3) (ty : BitVec 3) (z : Bool) (sa : BitVec 5) (sb : BitVec 5) (sk : BitVec 5) (s : State) : Goes s (execMxMul core ad ty z sa sb sk s) := by
  unfold execMxMul
  try dsimp only
  refine ⟨_, rfl, .orderly ?_⟩
  repeat' first
    | with_reducible exact Orderly.refl _
    | with_reducible assumption
    | with_reducible apply mxMulOp_orderly

theorem execMxMulStart_goes (quad : BitVec 4) (again : Reread) (s : State) : Goes s (execMxMulStart quad again s) := by
  unfold execMxMulStart
  try dsimp only
  refine ⟨_, rfl, .orderly ?_⟩
  repeat' first
    | with_reducible exact Orderly.refl _
    | with_reducible assumption
    | with_reducible apply mxStart_orderly
    | with_reducible apply mxRead_orderly

theorem execMxMulDone_goes (quad : BitVec 4) (s : State) : Goes s (execMxMulDone quad s) := by
  unfold execMxMulDone
  try dsimp only
  refine ⟨_, rfl, .orderly ?_⟩
  repeat' first
    | with_reducible exact Orderly.refl _
    | with_reducible assumption
    | with_reducible apply mxDone_orderly

theorem execAccRd_goes (core : BitVec 6) (v : BitVec 5) (an : BitVec 3) (sr : BitVec 5) (h' : Bool) (s : State) : Goes s (execAccRd core v an sr h' s) := by
  unfold execAccRd
  try dsimp only
  refine ⟨_, rfl, .orderly ?_⟩
  repeat' first
    | with_reducible exact Orderly.refl _
    | with_reducible assumption
    | with_reducible apply landIn_orderly
    | with_reducible apply mxOp_orderly
    | with_reducible apply orderly_ite
    | with_reducible apply orderly_foldS
    | with_reducible apply orderly_foldN
    | intro _

theorem execAccWr_goes (core : BitVec 6) (v : BitVec 5) (an : BitVec 3) (sr : BitVec 5) (h' : Bool) (s : State) : Goes s (execAccWr core v an sr h' s) := by
  unfold execAccWr
  try dsimp only
  refine ⟨_, rfl, .orderly ?_⟩
  repeat' first
    | with_reducible exact Orderly.refl _
    | with_reducible assumption
    | with_reducible apply landIn_orderly
    | with_reducible apply mxOp_orderly
    | with_reducible apply orderly_ite
    | with_reducible apply orderly_foldS
    | with_reducible apply orderly_foldN
    | intro _

theorem execAccZero_goes (core : BitVec 6) (an : BitVec 3) (s : State) : Goes s (execAccZero core an s) := by
  unfold execAccZero
  try dsimp only
  refine ⟨_, rfl, .orderly ?_⟩
  repeat' first
    | with_reducible exact Orderly.refl _
    | with_reducible assumption
    | with_reducible apply landIn_orderly
    | with_reducible apply mxOp_orderly
    | with_reducible apply orderly_ite
    | with_reducible apply orderly_foldS
    | with_reducible apply orderly_foldN
    | intro _

theorem execStgIn_goes (core : BitVec 6) (sn : BitVec 5) (s : State) : Goes s (execStgIn core sn s) := by
  unfold execStgIn
  try dsimp only
  refine ⟨_, rfl, .orderly ?_⟩
  repeat' first
    | with_reducible exact Orderly.refl _
    | with_reducible assumption
    | with_reducible apply stageOp_orderly

theorem execStgOut_goes (core : BitVec 6) (sn : BitVec 5) (s : State) : Goes s (execStgOut core sn s) := by
  unfold execStgOut
  try dsimp only
  refine ⟨_, rfl, .orderly ?_⟩
  repeat' first
    | with_reducible exact Orderly.refl _
    | with_reducible assumption
    | with_reducible apply stageOp_orderly

theorem execGateT_goes (core : BitVec 6) (mask : BitVec 16) (s : State) : Goes s (execGateT core mask s) := by
  unfold execGateT
  try dsimp only
  refine ⟨_, rfl, .orderly ?_⟩
  repeat' first
    | with_reducible exact Orderly.refl _
    | with_reducible assumption
    | with_reducible apply slotOp_orderly
    | with_reducible apply gateOp_orderly
    | with_reducible apply orderly_ite
    | with_reducible apply orderly_foldS
    | with_reducible apply orderly_foldN
    | intro _

theorem execGateC_goes (core : BitVec 6) (sa : BitVec 5) (sb : BitVec 5) (s : State) : Goes s (execGateC core sa sb s) := by
  unfold execGateC
  try dsimp only
  refine ⟨_, rfl, .orderly ?_⟩
  repeat' first
    | with_reducible exact Orderly.refl _
    | with_reducible assumption
    | with_reducible apply coreFails_orderly
    | with_reducible apply slotOp_orderly
    | with_reducible apply gateOp_orderly
    | with_reducible apply orderly_ite
    | with_reducible apply orderly_foldS
    | with_reducible apply orderly_foldN
    | intro _

theorem execCollOpen_goes (f : RxFrame) (s : State) : Goes s (execCollOpen f s) := by
  unfold execCollOpen
  try dsimp only
  refine ⟨_, rfl, .orderly ?_⟩
  repeat' first
    | with_reducible exact Orderly.refl _
    | with_reducible assumption
    | with_reducible apply collOpenReq_orderly

theorem execCollContrib_goes (f : RxFrame) (s : State) : Goes s (execCollContrib f s) := by
  unfold execCollContrib
  try dsimp only
  refine ⟨_, rfl, .orderly ?_⟩
  repeat' first
    | with_reducible exact Orderly.refl _
    | with_reducible assumption
    | with_reducible apply collRequest_orderly
    | with_reducible apply settle_orderly

theorem execCollPartial_goes (f : RxFrame) (s : State) : Goes s (execCollPartial f s) := by
  unfold execCollPartial
  try dsimp only
  refine ⟨_, rfl, .orderly ?_⟩
  repeat' first
    | with_reducible exact Orderly.refl _
    | with_reducible assumption
    | with_reducible apply collRequest_orderly
    | with_reducible apply settle_orderly

theorem execCollResult_goes (f : RxFrame) (s : State) : Goes s (execCollResult f s) := by
  unfold execCollResult
  try dsimp only
  refine ⟨_, rfl, .orderly ?_⟩
  repeat' first
    | with_reducible exact Orderly.refl _
    | with_reducible assumption
    | with_reducible apply collRequest_orderly
    | with_reducible apply settle_orderly

theorem execCollClose_goes (f : RxFrame) (s : State) : Goes s (execCollClose f s) := by
  unfold execCollClose
  try dsimp only
  refine ⟨_, rfl, .orderly ?_⟩
  repeat' first
    | with_reducible exact Orderly.refl _
    | with_reducible assumption
    | with_reducible apply collRequest_orderly
    | with_reducible apply settle_orderly

theorem execCollQuery_goes (f : RxFrame) (s : State) : Goes s (execCollQuery f s) := by
  unfold execCollQuery
  try dsimp only
  refine ⟨_, rfl, .orderly ?_⟩
  repeat' first
    | with_reducible exact Orderly.refl _
    | with_reducible assumption
    | with_reducible apply collRequest_orderly
    | with_reducible apply settle_orderly

theorem execCollStartTime_goes (pitch : BitVec 8) (id : BitVec 24) (s : State) : Goes s (execCollStartTime pitch id s) := by
  unfold execCollStartTime
  try dsimp only
  refine ⟨_, rfl, .orderly ?_⟩
  repeat' first
    | with_reducible exact Orderly.refl _
    | with_reducible assumption
    | with_reducible apply collStart_orderly
    | with_reducible apply onRec_orderly

theorem execCollPaceSlot_goes (pitch : BitVec 8) (id : BitVec 24) (chunk : BitVec 16) (s : State) : Goes s (execCollPaceSlot pitch id chunk s) := by
  unfold execCollPaceSlot
  try dsimp only
  refine ⟨_, rfl, .orderly ?_⟩
  repeat' first
    | with_reducible exact Orderly.refl _
    | with_reducible assumption
    | with_reducible apply collPace_orderly
    | with_reducible apply onRec_orderly
    | with_reducible apply orderly_ite
    | with_reducible apply orderly_foldS
    | with_reducible apply orderly_foldN
    | intro _

theorem execCollChunkFinished_goes (pitch : BitVec 8) (id : BitVec 24) (chunk : BitVec 16) (s : State) : Goes s (execCollChunkFinished pitch id chunk s) := by
  unfold execCollChunkFinished
  try dsimp only
  refine ⟨_, rfl, .orderly ?_⟩
  repeat' first
    | with_reducible exact Orderly.refl _
    | with_reducible assumption
    | with_reducible apply chunkStep_orderly
    | with_reducible apply collFinished_orderly
    | with_reducible apply settle_orderly
    | with_reducible apply onRec_orderly
    | with_reducible apply orderly_ite
    | with_reducible apply orderly_foldS
    | with_reducible apply orderly_foldN
    | intro _

theorem execCollDeadline_goes (pitch : BitVec 8) (id : BitVec 24) (s : State) : Goes s (execCollDeadline pitch id s) := by
  unfold execCollDeadline
  try dsimp only
  refine ⟨_, rfl, .orderly ?_⟩
  repeat' first
    | with_reducible exact Orderly.refl _
    | with_reducible assumption
    | with_reducible apply collDeadline_orderly
    | with_reducible apply settle_orderly
    | with_reducible apply onRec_orderly

theorem execCollRecordExpire_goes (pitch : BitVec 8) (id : BitVec 24) (s : State) : Goes s (execCollRecordExpire pitch id s) := by
  unfold execCollRecordExpire
  try dsimp only
  refine ⟨_, rfl, .orderly ?_⟩
  repeat' first
    | with_reducible exact Orderly.refl _
    | with_reducible assumption
    | with_reducible apply collExpire_orderly
    | with_reducible apply onRec_orderly

theorem execCollAbortIdExpire_goes (pitch : BitVec 8) (id : BitVec 24) (s : State) : Goes s (execCollAbortIdExpire pitch id s) := by
  unfold execCollAbortIdExpire
  try dsimp only
  refine ⟨_, rfl, .orderly ?_⟩
  repeat' first
    | with_reducible exact Orderly.refl _
    | with_reducible assumption
    | with_reducible apply collForgetId_orderly

theorem execKernelLaunch_goes (f : RxFrame) (s : State) : Goes s (execKernelLaunch f s) := by
  unfold execKernelLaunch
  try dsimp only
  refine ⟨_, rfl, .orderly ?_⟩
  repeat' first
    | with_reducible exact Orderly.refl _
    | with_reducible assumption
    | with_reducible apply kernelLaunch_orderly

theorem execKernelQuery_goes (f : RxFrame) (s : State) : Goes s (execKernelQuery f s) := by
  unfold execKernelQuery
  try dsimp only
  refine ⟨_, rfl, .orderly ?_⟩
  repeat' first
    | with_reducible exact Orderly.refl _
    | with_reducible assumption
    | with_reducible apply kernelMsg_orderly

theorem execKernelAbort_goes (f : RxFrame) (s : State) : Goes s (execKernelAbort f s) := by
  unfold execKernelAbort
  try dsimp only
  refine ⟨_, rfl, .orderly ?_⟩
  repeat' first
    | with_reducible exact Orderly.refl _
    | with_reducible assumption
    | with_reducible apply kernelMsg_orderly

theorem execKernelDequeue_goes (session : BitVec 16) (s : State) : Goes s (execKernelDequeue session s) := by
  unfold execKernelDequeue
  try dsimp only
  refine ⟨_, rfl, .orderly ?_⟩
  repeat' first
    | with_reducible exact Orderly.refl _
    | with_reducible assumption
    | with_reducible apply dequeue_orderly
    | with_reducible apply onSess_orderly

theorem execKernelLoadDone_goes (session : BitVec 16) (s : State) : Goes s (execKernelLoadDone session s) := by
  unfold execKernelLoadDone
  try dsimp only
  refine ⟨_, rfl, .orderly ?_⟩
  repeat' first
    | with_reducible exact Orderly.refl _
    | with_reducible assumption
    | with_reducible apply loadDone_orderly
    | with_reducible apply onSess_orderly

theorem execKernelLoadFail_goes (session : BitVec 16) (s : State) : Goes s (execKernelLoadFail session s) := by
  unfold execKernelLoadFail
  try dsimp only
  refine ⟨_, rfl, .orderly ?_⟩
  repeat' first
    | with_reducible exact Orderly.refl _
    | with_reducible assumption
    | with_reducible apply loadFail_orderly
    | with_reducible apply onSess_orderly

theorem execKernelSessionDone_goes (session : BitVec 16) (s : State) : Goes s (execKernelSessionDone session s) := by
  unfold execKernelSessionDone
  try dsimp only
  refine ⟨_, rfl, .orderly ?_⟩
  repeat' first
    | with_reducible exact Orderly.refl _
    | with_reducible assumption
    | with_reducible apply sessDone_orderly
    | with_reducible apply onSess_orderly

theorem execKernelDeadline_goes (session : BitVec 16) (s : State) : Goes s (execKernelDeadline session s) := by
  unfold execKernelDeadline
  try dsimp only
  refine ⟨_, rfl, .orderly ?_⟩
  repeat' first
    | with_reducible exact Orderly.refl _
    | with_reducible assumption
    | with_reducible apply sessDeadline_orderly
    | with_reducible apply onSess_orderly

theorem execKernelClearDone_goes (session : BitVec 16) (s : State) : Goes s (execKernelClearDone session s) := by
  unfold execKernelClearDone
  try dsimp only
  refine ⟨_, rfl, .orderly ?_⟩
  repeat' first
    | with_reducible exact Orderly.refl _
    | with_reducible assumption
    | with_reducible apply sessCleared_orderly
    | with_reducible apply onSess_orderly

theorem execKernelRecordExpire_goes (session : BitVec 16) (s : State) : Goes s (execKernelRecordExpire session s) := by
  unfold execKernelRecordExpire
  try dsimp only
  refine ⟨_, rfl, .orderly ?_⟩
  repeat' first
    | with_reducible exact Orderly.refl _
    | with_reducible assumption
    | with_reducible apply sessExpire_orderly
    | with_reducible apply onSess_orderly

theorem execStageCommandDone_goes (quad : BitVec 4) (s : State) : Goes s (execStageCommandDone quad s) := by
  unfold execStageCommandDone
  try dsimp only
  refine ⟨_, rfl, .orderly ?_⟩
  repeat' first
    | with_reducible exact Orderly.refl _
    | with_reducible assumption
    | with_reducible apply stageRun_orderly
    | with_reducible apply settle_orderly

theorem execRead_goes (f : RxFrame) (s : State) : Goes s (execRead f s) := by
  unfold execRead
  try dsimp only
  refine ⟨_, rfl, .orderly ?_⟩
  repeat' first
    | with_reducible exact Orderly.refl _
    | with_reducible assumption
    | with_reducible apply memRequest_orderly
    | with_reducible apply settle_orderly

theorem execWrite_goes (f : RxFrame) (s : State) : Goes s (execWrite f s) := by
  unfold execWrite
  try dsimp only
  refine ⟨_, rfl, .orderly ?_⟩
  repeat' first
    | with_reducible exact Orderly.refl _
    | with_reducible assumption
    | with_reducible apply kppWrite_orderly

theorem execWriteNotify_goes (f : RxFrame) (s : State) : Goes s (execWriteNotify f s) := by
  unfold execWriteNotify
  try dsimp only
  refine ⟨_, rfl, .orderly ?_⟩
  repeat' first
    | with_reducible exact Orderly.refl _
    | with_reducible assumption
    | with_reducible apply memRequest_orderly
    | with_reducible apply settle_orderly

theorem execAAdd_goes (f : RxFrame) (s : State) : Goes s (execAAdd f s) := by
  unfold execAAdd
  try dsimp only
  refine ⟨_, rfl, .orderly ?_⟩
  repeat' first
    | with_reducible exact Orderly.refl _
    | with_reducible assumption
    | with_reducible apply memRequest_orderly
    | with_reducible apply settle_orderly

theorem execASwap_goes (f : RxFrame) (s : State) : Goes s (execASwap f s) := by
  unfold execASwap
  try dsimp only
  refine ⟨_, rfl, .orderly ?_⟩
  repeat' first
    | with_reducible exact Orderly.refl _
    | with_reducible assumption
    | with_reducible apply memRequest_orderly
    | with_reducible apply settle_orderly

theorem execACas_goes (f : RxFrame) (s : State) : Goes s (execACas f s) := by
  unfold execACas
  try dsimp only
  refine ⟨_, rfl, .orderly ?_⟩
  repeat' first
    | with_reducible exact Orderly.refl _
    | with_reducible assumption
    | with_reducible apply memRequest_orderly
    | with_reducible apply settle_orderly

theorem execAAnd_goes (f : RxFrame) (s : State) : Goes s (execAAnd f s) := by
  unfold execAAnd
  try dsimp only
  refine ⟨_, rfl, .orderly ?_⟩
  repeat' first
    | with_reducible exact Orderly.refl _
    | with_reducible assumption
    | with_reducible apply memRequest_orderly
    | with_reducible apply settle_orderly

theorem execAOr_goes (f : RxFrame) (s : State) : Goes s (execAOr f s) := by
  unfold execAOr
  try dsimp only
  refine ⟨_, rfl, .orderly ?_⟩
  repeat' first
    | with_reducible exact Orderly.refl _
    | with_reducible assumption
    | with_reducible apply memRequest_orderly
    | with_reducible apply settle_orderly

theorem execAXor_goes (f : RxFrame) (s : State) : Goes s (execAXor f s) := by
  unfold execAXor
  try dsimp only
  refine ⟨_, rfl, .orderly ?_⟩
  repeat' first
    | with_reducible exact Orderly.refl _
    | with_reducible assumption
    | with_reducible apply memRequest_orderly
    | with_reducible apply settle_orderly

theorem execASmin_goes (f : RxFrame) (s : State) : Goes s (execASmin f s) := by
  unfold execASmin
  try dsimp only
  refine ⟨_, rfl, .orderly ?_⟩
  repeat' first
    | with_reducible exact Orderly.refl _
    | with_reducible assumption
    | with_reducible apply memRequest_orderly
    | with_reducible apply settle_orderly

theorem execASmax_goes (f : RxFrame) (s : State) : Goes s (execASmax f s) := by
  unfold execASmax
  try dsimp only
  refine ⟨_, rfl, .orderly ?_⟩
  repeat' first
    | with_reducible exact Orderly.refl _
    | with_reducible assumption
    | with_reducible apply memRequest_orderly
    | with_reducible apply settle_orderly

theorem execAUmin_goes (f : RxFrame) (s : State) : Goes s (execAUmin f s) := by
  unfold execAUmin
  try dsimp only
  refine ⟨_, rfl, .orderly ?_⟩
  repeat' first
    | with_reducible exact Orderly.refl _
    | with_reducible assumption
    | with_reducible apply memRequest_orderly
    | with_reducible apply settle_orderly

theorem execAUmax_goes (f : RxFrame) (s : State) : Goes s (execAUmax f s) := by
  unfold execAUmax
  try dsimp only
  refine ⟨_, rfl, .orderly ?_⟩
  repeat' first
    | with_reducible exact Orderly.refl _
    | with_reducible assumption
    | with_reducible apply memRequest_orderly
    | with_reducible apply settle_orderly

theorem execAFadd32_goes (f : RxFrame) (s : State) : Goes s (execAFadd32 f s) := by
  unfold execAFadd32
  try dsimp only
  refine ⟨_, rfl, .orderly ?_⟩
  repeat' first
    | with_reducible exact Orderly.refl _
    | with_reducible assumption
    | with_reducible apply memRequest_orderly
    | with_reducible apply settle_orderly

theorem execAFaddbf16_goes (f : RxFrame) (s : State) : Goes s (execAFaddbf16 f s) := by
  unfold execAFaddbf16
  try dsimp only
  refine ⟨_, rfl, .orderly ?_⟩
  repeat' first
    | with_reducible exact Orderly.refl _
    | with_reducible assumption
    | with_reducible apply memRequest_orderly
    | with_reducible apply settle_orderly

theorem execBulkGet_goes (f : RxFrame) (s : State) : Goes s (execBulkGet f s) := by
  unfold execBulkGet
  try dsimp only
  refine ⟨_, rfl, .orderly ?_⟩
  repeat' first
    | with_reducible exact Orderly.refl _
    | with_reducible assumption
    | with_reducible apply memRequest_orderly
    | with_reducible apply settle_orderly

theorem execBulkPut_goes (f : RxFrame) (s : State) : Goes s (execBulkPut f s) := by
  unfold execBulkPut
  try dsimp only
  refine ⟨_, rfl, .orderly ?_⟩
  repeat' first
    | with_reducible exact Orderly.refl _
    | with_reducible assumption
    | with_reducible apply kppWrite_orderly

theorem execBulkCopy_goes (f : RxFrame) (s : State) : Goes s (execBulkCopy f s) := by
  unfold execBulkCopy
  try dsimp only
  refine ⟨_, rfl, .orderly ?_⟩
  repeat' first
    | with_reducible exact Orderly.refl _
    | with_reducible assumption
    | with_reducible apply memRequest_orderly
    | with_reducible apply settle_orderly

theorem execBulkData_goes (f : RxFrame) (s : State) : Goes s (execBulkData f s) := by
  unfold execBulkData
  try dsimp only
  refine ⟨_, rfl, .orderly ?_⟩
  repeat' first
    | with_reducible exact Orderly.refl _
    | with_reducible assumption
    | with_reducible apply kppWrite_orderly

theorem execXlate_goes (f : RxFrame) (s : State) : Goes s (execXlate f s) := by
  unfold execXlate
  try dsimp only
  refine ⟨_, rfl, .orderly ?_⟩
  repeat' first
    | with_reducible exact Orderly.refl _
    | with_reducible assumption
    | with_reducible apply memRequest_orderly
    | with_reducible apply settle_orderly

theorem execXlateRelease_goes (f : RxFrame) (s : State) : Goes s (execXlateRelease f s) := by
  unfold execXlateRelease
  try dsimp only
  refine ⟨_, rfl, .orderly ?_⟩
  repeat' first
    | with_reducible exact Orderly.refl _
    | with_reducible assumption
    | with_reducible apply memRequest_orderly
    | with_reducible apply settle_orderly

theorem execBulkIdleTimeout_goes (flow : FlowId) (tag : BitVec 32) (s : State) : Goes s (execBulkIdleTimeout flow tag s) := by
  unfold execBulkIdleTimeout
  try dsimp only
  refine ⟨_, rfl, .orderly ?_⟩
  repeat' first
    | with_reducible exact Orderly.refl _
    | with_reducible assumption
    | with_reducible apply settle_orderly
    | with_reducible apply bulkIdle_orderly

theorem execXlateInvalResponse_goes (f : RxFrame) (s : State) : Goes s (execXlateInvalResponse f s) := by
  unfold execXlateInvalResponse
  try dsimp only
  refine ⟨_, rfl, .orderly ?_⟩
  repeat' first
    | with_reducible exact Orderly.refl _
    | with_reducible assumption
    | with_reducible apply ctlAnswer_orderly

theorem execReservedOpcodeRequest_goes (op : BitVec 8) (f : RxFrame) (s : State) : Goes s (execReservedOpcodeRequest op f s) := by
  unfold execReservedOpcodeRequest
  try dsimp only
  refine ⟨_, rfl, .orderly ?_⟩
  repeat' first
    | with_reducible exact Orderly.refl _
    | with_reducible assumption
    | with_reducible apply answer_orderly
    | with_reducible apply withRequest_orderly
    | with_reducible apply orderly_ite
    | with_reducible apply orderly_foldS
    | with_reducible apply orderly_foldN
    | intro _

theorem execSwReadShared_goes (f : RxFrame) (s : State) : Goes s (execSwReadShared f s) := by
  unfold execSwReadShared
  try dsimp only
  refine ⟨_, rfl, .orderly ?_⟩
  repeat' first
    | with_reducible exact Orderly.refl _
    | with_reducible assumption
    | with_reducible apply syncRequest_orderly

theorem execSwReadOwn_goes (f : RxFrame) (s : State) : Goes s (execSwReadOwn f s) := by
  unfold execSwReadOwn
  try dsimp only
  refine ⟨_, rfl, .orderly ?_⟩
  repeat' first
    | with_reducible exact Orderly.refl _
    | with_reducible assumption
    | with_reducible apply syncRequest_orderly

theorem execSwUpgrade_goes (f : RxFrame) (s : State) : Goes s (execSwUpgrade f s) := by
  unfold execSwUpgrade
  try dsimp only
  refine ⟨_, rfl, .orderly ?_⟩
  repeat' first
    | with_reducible exact Orderly.refl _
    | with_reducible assumption
    | with_reducible apply syncRequest_orderly

theorem execSwWriteback_goes (f : RxFrame) (s : State) : Goes s (execSwWriteback f s) := by
  unfold execSwWriteback
  try dsimp only
  refine ⟨_, rfl, .orderly ?_⟩
  repeat' first
    | with_reducible exact Orderly.refl _
    | with_reducible assumption
    | with_reducible apply syncRequest_orderly

theorem execSwEvict_goes (f : RxFrame) (s : State) : Goes s (execSwEvict f s) := by
  unfold execSwEvict
  try dsimp only
  refine ⟨_, rfl, .orderly ?_⟩
  repeat' first
    | with_reducible exact Orderly.refl _
    | with_reducible assumption
    | with_reducible apply syncRequest_orderly

theorem execSwDone_goes (f : RxFrame) (s : State) : Goes s (execSwDone f s) := by
  unfold execSwDone
  try dsimp only
  refine ⟨_, rfl, .orderly ?_⟩
  repeat' first
    | with_reducible exact Orderly.refl _
    | with_reducible assumption
    | with_reducible apply syncRequest_orderly

theorem execSwForwardResponse_goes (f : RxFrame) (s : State) : Goes s (execSwForwardResponse f s) := by
  unfold execSwForwardResponse
  try dsimp only
  refine ⟨_, rfl, .orderly ?_⟩
  repeat' first
    | with_reducible exact Orderly.refl _
    | with_reducible assumption
    | with_reducible apply ctlAnswer_orderly

theorem execSwInvalidateResponse_goes (f : RxFrame) (s : State) : Goes s (execSwInvalidateResponse f s) := by
  unfold execSwInvalidateResponse
  try dsimp only
  refine ⟨_, rfl, .orderly ?_⟩
  repeat' first
    | with_reducible exact Orderly.refl _
    | with_reducible assumption
    | with_reducible apply ctlAnswer_orderly

theorem execSwDoneTimeout_goes (line : BitVec 38) (s : State) : Goes s (execSwDoneTimeout line s) := by
  unfold execSwDoneTimeout
  try dsimp only
  refine ⟨_, rfl, .orderly ?_⟩
  repeat' first
    | with_reducible exact Orderly.refl _
    | with_reducible assumption
    | with_reducible apply swDoneTimeout_orderly
    | with_reducible apply settle_orderly

theorem execCollFrameResponse_goes (op : BitVec 8) (f : RxFrame) (s : State) : Goes s (execCollFrameResponse op f s) := by
  unfold execCollFrameResponse
  try dsimp only
  refine ⟨_, rfl, .orderly ?_⟩
  repeat' first
    | with_reducible exact Orderly.refl _
    | with_reducible assumption
    | with_reducible apply ctlAnswer_orderly
    | with_reducible apply orderly_ite

theorem execCollCloseResponse_goes (f : RxFrame) (s : State) : Goes s (execCollCloseResponse f s) := by
  unfold execCollCloseResponse
  try dsimp only
  refine ⟨_, rfl, .orderly ?_⟩
  repeat' first
    | with_reducible exact Orderly.refl _
    | with_reducible assumption
    | with_reducible apply ctlAnswer_orderly

theorem execKernelEventResponse_goes (f : RxFrame) (s : State) : Goes s (execKernelEventResponse f s) := by
  unfold execKernelEventResponse
  try dsimp only
  refine ⟨_, rfl, .orderly ?_⟩
  repeat' first
    | with_reducible exact Orderly.refl _
    | with_reducible assumption
    | with_reducible apply ctlAnswer_orderly

theorem execRequestTimeoutRetransmit_goes (flow : FlowId) (seq : BitVec 24) (s : State) : Goes s (execRequestTimeoutRetransmit flow seq s) := by
  unfold execRequestTimeoutRetransmit
  try dsimp only
  refine ⟨_, rfl, .orderly ?_⟩
  repeat' first
    | with_reducible exact Orderly.refl _
    | with_reducible assumption
    | with_reducible apply settle_orderly
    | with_reducible apply requestTimeout_orderly

theorem execRetryResend_goes (flow : FlowId) (seq : BitVec 24) (s : State) : Goes s (execRetryResend flow seq s) := by
  unfold execRetryResend
  try dsimp only
  refine ⟨_, rfl, .orderly ?_⟩
  repeat' first
    | with_reducible exact Orderly.refl _
    | with_reducible assumption
    | with_reducible apply retryResend_orderly

theorem execTransportAck_goes (f : RxFrame) (s : State) : Goes s (execTransportAck f s) := by
  unfold execTransportAck
  try dsimp only
  refine ⟨_, rfl, .orderly ?_⟩
  repeat' first
    | with_reducible exact Orderly.refl _
    | with_reducible assumption
    | with_reducible apply transportAck_orderly

theorem execAckDelayExpire_goes (flow : FlowId) (s : State) : Goes s (execAckDelayExpire flow s) := by
  unfold execAckDelayExpire
  try dsimp only
  refine ⟨_, rfl, .orderly ?_⟩
  repeat' first
    | with_reducible exact Orderly.refl _
    | with_reducible assumption
    | with_reducible apply ackDelayExpire_orderly

theorem execNackDelayExpire_goes (flow : FlowId) (s : State) : Goes s (execNackDelayExpire flow s) := by
  unfold execNackDelayExpire
  try dsimp only
  refine ⟨_, rfl, .orderly ?_⟩
  repeat' first
    | with_reducible exact Orderly.refl _
    | with_reducible assumption
    | with_reducible apply nackDelayExpire_orderly

theorem execFlowRateRaise_goes (flow : FlowId) (s : State) : Goes s (execFlowRateRaise flow s) := by
  unfold execFlowRateRaise
  try dsimp only
  refine ⟨_, rfl, .orderly ?_⟩
  repeat' first
    | with_reducible exact Orderly.refl _
    | with_reducible assumption
    | with_reducible apply rateRaise_orderly

theorem execMissServiceDone_goes (slice : BitVec 4) (pitch : BitVec 8) (page : BitVec 27) (s : State) : Goes s (execMissServiceDone slice pitch page s) := by
  unfold execMissServiceDone
  try dsimp only
  refine ⟨_, rfl, .orderly ?_⟩
  repeat' first
    | with_reducible exact Orderly.refl _
    | with_reducible assumption
    | with_reducible apply settle_orderly
    | with_reducible apply missServed_orderly

theorem execMissTimeout_goes (slice : BitVec 4) (pitch : BitVec 8) (page : BitVec 27) (s : State) : Goes s (execMissTimeout slice pitch page s) := by
  unfold execMissTimeout
  try dsimp only
  refine ⟨_, rfl, .orderly ?_⟩
  repeat' first
    | with_reducible exact Orderly.refl _
    | with_reducible assumption
    | with_reducible apply missTimeout_orderly

theorem execPageTableChangeDone_goes (pitch : BitVec 8) (s : State) : Goes s (execPageTableChangeDone pitch s) := by
  unfold execPageTableChangeDone
  try dsimp only
  refine ⟨_, rfl, .orderly ?_⟩
  repeat' first
    | with_reducible exact Orderly.refl _
    | with_reducible assumption
    | with_reducible apply settle_orderly
    | with_reducible apply changesDone_orderly

theorem execRecallDeadline_goes (endpoint : BitVec 12) (context : BitVec 16) (s : State) : Goes s (execRecallDeadline endpoint context s) := by
  unfold execRecallDeadline
  try dsimp only
  refine ⟨_, rfl, .orderly ?_⟩
  repeat' first
    | with_reducible exact Orderly.refl _
    | with_reducible assumption
    | with_reducible apply settle_orderly
    | with_reducible apply recallDeadline_orderly

theorem execHeartbeatTx_goes (peer : BitVec 4) (mpLine : Bool) (s : State) : Goes s (execHeartbeatTx peer mpLine s) := by
  unfold execHeartbeatTx
  try dsimp only
  refine ⟨_, rfl, .orderly ?_⟩
  repeat' first
    | with_reducible exact Orderly.refl _
    | with_reducible assumption
    | with_reducible apply heartbeatTx_orderly

theorem execHeartbeat_goes (f : RxFrame) (s : State) : Goes s (execHeartbeat f s) := by
  unfold execHeartbeat
  try dsimp only
  refine ⟨_, rfl, .orderly ?_⟩
  repeat' first
    | with_reducible exact Orderly.refl _
    | with_reducible assumption
    | with_reducible apply heartbeatRx_orderly

theorem execGuyLineLost_goes (peer : BitVec 4) (mpLine : Bool) (s : State) : Goes s (execGuyLineLost peer mpLine s) := by
  unfold execGuyLineLost
  try dsimp only
  refine ⟨_, rfl, .orderly ?_⟩
  repeat' first
    | with_reducible exact Orderly.refl _
    | with_reducible assumption
    | with_reducible apply guyLost_orderly

theorem execMirrorSelfFence_goes (pitch : BitVec 8) (s : State) : Goes s (execMirrorSelfFence pitch s) := by
  unfold execMirrorSelfFence
  try dsimp only
  refine ⟨_, rfl, .orderly ?_⟩
  repeat' first
    | with_reducible exact Orderly.refl _
    | with_reducible assumption
    | with_reducible apply mirrorSelfFence_orderly

theorem execMirrorTakeover_goes (pitch : BitVec 8) (s : State) : Goes s (execMirrorTakeover pitch s) := by
  unfold execMirrorTakeover
  try dsimp only
  refine ⟨_, rfl, .orderly ?_⟩
  repeat' first
    | with_reducible exact Orderly.refl _
    | with_reducible assumption
    | with_reducible apply mirrorTakeover_orderly

theorem execProbeTimer_goes (pitch : BitVec 8) (s : State) : Goes s (execProbeTimer pitch s) := by
  unfold execProbeTimer
  try dsimp only
  refine ⟨_, rfl, .orderly ?_⟩
  repeat' first
    | with_reducible exact Orderly.refl _
    | with_reducible assumption
    | with_reducible apply probeTimer_orderly

theorem execProbe_goes (f : RxFrame) (s : State) : Goes s (execProbe f s) := by
  unfold execProbe
  try dsimp only
  refine ⟨_, rfl, .orderly ?_⟩
  repeat' first
    | with_reducible exact Orderly.refl _
    | with_reducible assumption
    | with_reducible apply kppWrite_orderly
    | with_reducible apply orderly_ite

theorem execProbeResponse_goes (f : RxFrame) (s : State) : Goes s (execProbeResponse f s) := by
  unfold execProbeResponse
  try dsimp only
  refine ⟨_, rfl, .orderly ?_⟩
  repeat' first
    | with_reducible exact Orderly.refl _
    | with_reducible assumption
    | with_reducible apply ctlResponse_orderly
    | with_reducible apply probeAnswered_orderly

theorem execRelease_goes (f : RxFrame) (s : State) : Goes s (execRelease f s) := by
  unfold execRelease
  try dsimp only
  refine ⟨_, rfl, .orderly ?_⟩
  repeat' first
    | with_reducible exact Orderly.refl _
    | with_reducible assumption
    | with_reducible apply kppWrite_orderly
    | with_reducible apply orderly_ite

theorem execReleaseResponse_goes (f : RxFrame) (s : State) : Goes s (execReleaseResponse f s) := by
  unfold execReleaseResponse
  try dsimp only
  refine ⟨_, rfl, .orderly ?_⟩
  repeat' first
    | with_reducible exact Orderly.refl _
    | with_reducible assumption
    | with_reducible apply ctlAnswer_orderly

theorem execMirrorData_goes (op : BitVec 8) (f : RxFrame) (s : State) : Goes s (execMirrorData op f s) := by
  unfold execMirrorData
  try dsimp only
  refine ⟨_, rfl, .orderly ?_⟩
  repeat' first
    | with_reducible exact Orderly.refl _
    | with_reducible assumption
    | with_reducible apply kppWrite_orderly
    | with_reducible apply orderly_ite

theorem execMirrorResponse_goes (op : BitVec 8) (f : RxFrame) (s : State) : Goes s (execMirrorResponse op f s) := by
  unfold execMirrorResponse
  try dsimp only
  refine ⟨_, rfl, .orderly ?_⟩
  repeat' first
    | with_reducible exact Orderly.refl _
    | with_reducible assumption
    | with_reducible apply ctlResponse_orderly
    | with_reducible apply probeAnswered_orderly
    | with_reducible apply orderly_ite

theorem execResyncDone_goes (pitch : BitVec 8) (s : State) : Goes s (execResyncDone pitch s) := by
  unfold execResyncDone
  try dsimp only
  refine ⟨_, rfl, .orderly ?_⟩
  repeat' first
    | with_reducible exact Orderly.refl _
    | with_reducible assumption
    | with_reducible apply resyncDone_orderly

theorem execPitchCreate_goes (f : RxFrame) (s : State) : Goes s (execPitchCreate f s) := by
  unfold execPitchCreate
  try dsimp only
  refine ⟨_, rfl, .orderly ?_⟩
  repeat' first
    | with_reducible exact Orderly.refl _
    | with_reducible assumption
    | with_reducible apply lifecycle_orderly
    | with_reducible apply pitchCreate_orderly

theorem execPitchInstallDone_goes (pitch : BitVec 8) (s : State) : Goes s (execPitchInstallDone pitch s) := by
  unfold execPitchInstallDone
  try dsimp only
  refine ⟨_, rfl, .orderly ?_⟩
  repeat' first
    | with_reducible exact Orderly.refl _
    | with_reducible assumption
    | with_reducible apply createDone_orderly
    | with_reducible apply unlessRestart_orderly

theorem execPitchCreateTimeout_goes (pitch : BitVec 8) (s : State) : Goes s (execPitchCreateTimeout pitch s) := by
  unfold execPitchCreateTimeout
  try dsimp only
  refine ⟨_, rfl, .orderly ?_⟩
  repeat' first
    | with_reducible exact Orderly.refl _
    | with_reducible assumption
    | with_reducible apply unlessRestart_orderly
    | with_reducible apply createTimeout_orderly

theorem execPitchInstallFail_goes (pitch : BitVec 8) (s : State) : Goes s (execPitchInstallFail pitch s) := by
  unfold execPitchInstallFail
  try dsimp only
  refine ⟨_, rfl, .orderly ?_⟩
  repeat' first
    | with_reducible exact Orderly.refl _
    | with_reducible assumption
    | with_reducible apply createFails_orderly
    | with_reducible apply unlessRestart_orderly

theorem execPitchStrike_goes (f : RxFrame) (s : State) : Goes s (execPitchStrike f s) := by
  unfold execPitchStrike
  try dsimp only
  refine ⟨_, rfl, .orderly ?_⟩
  repeat' first
    | with_reducible exact Orderly.refl _
    | with_reducible assumption
    | with_reducible apply settle_orderly
    | with_reducible apply startStrike_orderly
    | with_reducible apply lifecycle_orderly
    | with_reducible apply orderly_ite
    | with_reducible apply orderly_foldS
    | with_reducible apply orderly_foldN
    | intro _

theorem execStrikeDrainEnd_goes (pitch : BitVec 8) (s : State) : Goes s (execStrikeDrainEnd pitch s) := by
  unfold execStrikeDrainEnd
  try dsimp only
  refine ⟨_, rfl, .orderly ?_⟩
  repeat' first
    | with_reducible exact Orderly.refl _
    | with_reducible assumption
    | with_reducible apply drainEnd_orderly

theorem execStrikeDrainDeadline_goes (pitch : BitVec 8) (s : State) : Goes s (execStrikeDrainDeadline pitch s) := by
  unfold execStrikeDrainDeadline
  try dsimp only
  refine ⟨_, rfl, .orderly ?_⟩
  repeat' first
    | with_reducible exact Orderly.refl _
    | with_reducible assumption
    | with_reducible apply settle_orderly
    | with_reducible apply drainDeadline_orderly

theorem execPitchRepitch_goes (f : RxFrame) (s : State) : Goes s (execPitchRepitch f s) := by
  unfold execPitchRepitch
  try dsimp only
  refine ⟨_, rfl, .orderly ?_⟩
  repeat' first
    | with_reducible exact Orderly.refl _
    | with_reducible assumption
    | with_reducible apply lifecycle_orderly
    | with_reducible apply pitchRepitch_orderly

theorem execRepitchApplied_goes (pitch : BitVec 8) (s : State) : Goes s (execRepitchApplied pitch s) := by
  unfold execRepitchApplied
  try dsimp only
  refine ⟨_, rfl, .orderly ?_⟩
  repeat' first
    | with_reducible exact Orderly.refl _
    | with_reducible assumption
    | with_reducible apply repitchApplied_orderly
    | with_reducible apply unlessRestart_orderly

theorem execRepitchApplyTimeout_goes (pitch : BitVec 8) (s : State) : Goes s (execRepitchApplyTimeout pitch s) := by
  unfold execRepitchApplyTimeout
  try dsimp only
  refine ⟨_, rfl, .orderly ?_⟩
  repeat' first
    | with_reducible exact Orderly.refl _
    | with_reducible assumption
    | with_reducible apply unlessRestart_orderly
    | with_reducible apply repitchTimeout_orderly

theorem execPitchFold_goes (f : RxFrame) (s : State) : Goes s (execPitchFold f s) := by
  unfold execPitchFold
  try dsimp only
  refine ⟨_, rfl, .orderly ?_⟩
  repeat' first
    | with_reducible exact Orderly.refl _
    | with_reducible assumption
    | with_reducible apply settle_orderly
    | with_reducible apply lifecycle_orderly
    | with_reducible apply pitchFold_orderly

theorem execKeySlotRefresh_goes (slot : BitVec 8) (s : State) : Goes s (execKeySlotRefresh slot s) := by
  unfold execKeySlotRefresh
  try dsimp only
  refine ⟨_, rfl, .orderly ?_⟩
  repeat' first
    | with_reducible exact Orderly.refl _
    | with_reducible assumption
    | with_reducible apply slotRefresh_orderly

theorem execSweepGranuleDone_goes (granule : BitVec 14) (s : State) : Goes s (execSweepGranuleDone granule s) := by
  unfold execSweepGranuleDone
  try dsimp only
  refine ⟨_, rfl, .orderly ?_⟩
  repeat' first
    | with_reducible exact Orderly.refl _
    | with_reducible assumption
    | with_reducible apply sweepDone_orderly

theorem execPitchAdjust_goes (f : RxFrame) (s : State) : Goes s (execPitchAdjust f s) := by
  unfold execPitchAdjust
  try dsimp only
  refine ⟨_, rfl, .orderly ?_⟩
  repeat' first
    | with_reducible exact Orderly.refl _
    | with_reducible assumption
    | with_reducible apply lifecycle_orderly
    | with_reducible apply pitchAdjust_orderly

theorem execAttach_goes (f : RxFrame) (s : State) : Goes s (execAttach f s) := by
  unfold execAttach
  try dsimp only
  refine ⟨_, rfl, .orderly ?_⟩
  repeat' first
    | with_reducible exact Orderly.refl _
    | with_reducible assumption
    | with_reducible apply lifecycle_orderly
    | with_reducible apply attach_orderly

theorem execDetach_goes (f : RxFrame) (s : State) : Goes s (execDetach f s) := by
  unfold execDetach
  try dsimp only
  refine ⟨_, rfl, .orderly ?_⟩
  repeat' first
    | with_reducible exact Orderly.refl _
    | with_reducible assumption
    | with_reducible apply settle_orderly
    | with_reducible apply lifecycle_orderly
    | with_reducible apply detach_orderly

theorem execPitchQuery_goes (f : RxFrame) (s : State) : Goes s (execPitchQuery f s) := by
  unfold execPitchQuery
  try dsimp only
  refine ⟨_, rfl, .orderly ?_⟩
  repeat' first
    | with_reducible exact Orderly.refl _
    | with_reducible assumption
    | with_reducible apply lifecycle_orderly
    | with_reducible apply pitchQuery_orderly

theorem execMgmtSessionOpen_goes (f : RxFrame) (s : State) : Goes s (execMgmtSessionOpen f s) := by
  unfold execMgmtSessionOpen
  try dsimp only
  refine ⟨_, rfl, .orderly ?_⟩
  repeat' first
    | with_reducible exact Orderly.refl _
    | with_reducible assumption
    | with_reducible apply mgmtSession_orderly

theorem execMgmtSessionProof_goes (f : RxFrame) (s : State) : Goes s (execMgmtSessionProof f s) := by
  unfold execMgmtSessionProof
  try dsimp only
  refine ⟨_, rfl, .orderly ?_⟩
  repeat' first
    | with_reducible exact Orderly.refl _
    | with_reducible assumption
    | with_reducible apply mgmtSession_orderly

theorem execMgmtSessionClose_goes (f : RxFrame) (s : State) : Goes s (execMgmtSessionClose f s) := by
  unfold execMgmtSessionClose
  try dsimp only
  refine ⟨_, rfl, .orderly ?_⟩
  repeat' first
    | with_reducible exact Orderly.refl _
    | with_reducible assumption
    | with_reducible apply mgmtSession_orderly

theorem execMgmtSessionExpire_goes (number : BitVec 32) (s : State) : Goes s (execMgmtSessionExpire number s) := by
  unfold execMgmtSessionExpire
  try dsimp only
  refine ⟨_, rfl, .orderly ?_⟩
  repeat' first
    | with_reducible exact Orderly.refl _
    | with_reducible assumption
    | with_reducible apply mgmtExpire_orderly

theorem execAttestQuote_goes (f : RxFrame) (s : State) : Goes s (execAttestQuote f s) := by
  unfold execAttestQuote
  try dsimp only
  refine ⟨_, rfl, .orderly ?_⟩
  repeat' first
    | with_reducible exact Orderly.refl _
    | with_reducible assumption
    | with_reducible apply trust_orderly
    | with_reducible apply quoteStart_orderly

theorem execAttestQuoteSigned_goes (flow : FlowId) (seq : BitVec 24) (s : State) : Goes s (execAttestQuoteSigned flow seq s) := by
  unfold execAttestQuoteSigned
  try dsimp only
  refine ⟨_, rfl, .orderly ?_⟩
  repeat' first
    | with_reducible exact Orderly.refl _
    | with_reducible assumption
    | with_reducible apply quoteSigned_orderly

theorem execEphKeyGenerated_goes  (s : State) : Goes s (execEphKeyGenerated s) := by
  unfold execEphKeyGenerated
  try dsimp only
  refine ⟨_, rfl, .orderly ?_⟩
  repeat' first
    | with_reducible exact Orderly.refl _
    | with_reducible assumption
    | with_reducible apply ephGenerated_orderly

theorem execKeyDeliver_goes (f : RxFrame) (s : State) : Goes s (execKeyDeliver f s) := by
  unfold execKeyDeliver
  try dsimp only
  refine ⟨_, rfl, .orderly ?_⟩
  repeat' first
    | with_reducible exact Orderly.refl _
    | with_reducible assumption
    | with_reducible apply trust_orderly
    | with_reducible apply keyDeliver_orderly

theorem execCocoonLoad_goes (f : RxFrame) (s : State) : Goes s (execCocoonLoad f s) := by
  unfold execCocoonLoad
  try dsimp only
  refine ⟨_, rfl, .orderly ?_⟩
  repeat' first
    | with_reducible exact Orderly.refl _
    | with_reducible assumption
    | with_reducible apply trust_orderly
    | with_reducible apply cocoonStart_orderly

theorem execCocoonLoadDone_goes (pitch : BitVec 8) (s : State) : Goes s (execCocoonLoadDone pitch s) := by
  unfold execCocoonLoadDone
  try dsimp only
  refine ⟨_, rfl, .orderly ?_⟩
  repeat' first
    | with_reducible exact Orderly.refl _
    | with_reducible assumption
    | with_reducible apply cocoonDone_orderly

theorem execCertGet_goes (f : RxFrame) (s : State) : Goes s (execCertGet f s) := by
  unfold execCertGet
  try dsimp only
  refine ⟨_, rfl, .orderly ?_⟩
  repeat' first
    | with_reducible exact Orderly.refl _
    | with_reducible assumption
    | with_reducible apply trust_orderly
    | with_reducible apply certGet_orderly

theorem execLineReadDone_goes (chan : BitVec 4) (sub : Bool) (entryBad : Bool) (outs : List ReadOut) (s : State) : Goes s (execLineReadDone chan sub entryBad outs s) := by
  unfold execLineReadDone
  try dsimp only
  refine ⟨_, rfl, .orderly ?_⟩
  repeat' first
    | with_reducible exact Orderly.refl _
    | with_reducible assumption
    | with_reducible apply lineReadDone_orderly

theorem execWriteBufferIssue_goes (chan : BitVec 4) (sub : Bool) (bad : BitVec 16) (s : State) : Goes s (execWriteBufferIssue chan sub bad s) := by
  unfold execWriteBufferIssue
  try dsimp only
  refine ⟨_, rfl, .orderly ?_⟩
  repeat' first
    | with_reducible exact Orderly.refl _
    | with_reducible assumption
    | with_reducible apply writeIssue_orderly

theorem execRefreshInstant_goes  (s : State) : Goes s (execRefreshInstant s) := by
  unfold execRefreshInstant
  try dsimp only
  refine ⟨_, rfl, .orderly ?_⟩
  repeat' first
    | with_reducible exact Orderly.refl _
    | with_reducible assumption
    | with_reducible apply refreshInstant_orderly

theorem execAgePromotion_goes (chan : BitVec 4) (s : State) : Goes s (execAgePromotion chan s) := by
  unfold execAgePromotion
  try dsimp only
  refine ⟨_, rfl, .orderly ?_⟩
  repeat' first
    | with_reducible exact Orderly.refl _
    | with_reducible assumption
    | with_reducible apply agePromote_orderly

theorem execPageIdlePrecharge_goes (chan : BitVec 4) (sub : Bool) (rank : BitVec 4) (bank : BitVec 5) (s : State) : Goes s (execPageIdlePrecharge chan sub rank bank s) := by
  unfold execPageIdlePrecharge
  try dsimp only
  refine ⟨_, rfl, .orderly ?_⟩
  repeat' first
    | with_reducible exact Orderly.refl _
    | with_reducible assumption
    | with_reducible apply pageIdle_orderly

theorem execCaAlert_goes (chan : BitVec 4) (sub : Bool) (s : State) : Goes s (execCaAlert chan sub s) := by
  unfold execCaAlert
  try dsimp only
  refine ⟨_, rfl, .orderly ?_⟩
  repeat' first
    | with_reducible exact Orderly.refl _
    | with_reducible assumption
    | with_reducible apply caAlert_orderly

theorem execCaReplayDone_goes (chan : BitVec 4) (sub : Bool) (s : State) : Goes s (execCaReplayDone chan sub s) := by
  unfold execCaReplayDone
  try dsimp only
  refine ⟨_, rfl, .orderly ?_⟩
  repeat' first
    | with_reducible exact Orderly.refl _
    | with_reducible assumption
    | with_reducible apply caReplayDone_orderly

theorem execCaConsecReset_goes (chan : BitVec 4) (sub : Bool) (s : State) : Goes s (execCaConsecReset chan sub s) := by
  unfold execCaConsecReset
  try dsimp only
  refine ⟨_, rfl, .orderly ?_⟩
  repeat' first
    | with_reducible exact Orderly.refl _
    | with_reducible assumption
    | with_reducible apply caConsecReset_orderly

theorem execRetrainDone_goes (chan : BitVec 4) (ok : Bool) (s : State) : Goes s (execRetrainDone chan ok s) := by
  unfold execRetrainDone
  try dsimp only
  refine ⟨_, rfl, .orderly ?_⟩
  repeat' first
    | with_reducible exact Orderly.refl _
    | with_reducible assumption
    | with_reducible apply retrainDone_orderly

theorem execRetrainTimeout_goes (chan : BitVec 4) (s : State) : Goes s (execRetrainTimeout chan s) := by
  unfold execRetrainTimeout
  try dsimp only
  refine ⟨_, rfl, .orderly ?_⟩
  repeat' first
    | with_reducible exact Orderly.refl _
    | with_reducible assumption
    | with_reducible apply retrainTimeout_orderly

theorem execGateListTakeover_goes (list : BitVec 4) (s : State) : Goes s (execGateListTakeover list s) := by
  unfold execGateListTakeover
  try dsimp only
  refine ⟨_, rfl, .orderly ?_⟩
  repeat' first
    | with_reducible exact Orderly.refl _
    | with_reducible assumption
    | with_reducible apply glTakeover_orderly

theorem execGateIntervalBoundary_goes (list : BitVec 4) (s : State) : Goes s (execGateIntervalBoundary list s) := by
  unfold execGateIntervalBoundary
  try dsimp only
  refine ⟨_, rfl, .orderly ?_⟩
  repeat' first
    | with_reducible exact Orderly.refl _
    | with_reducible assumption
    | with_reducible apply glBoundary_orderly

theorem execLinkFrameStart_goes (link : Fin 9) (s : State) : Goes s (execLinkFrameStart link s) := by
  unfold execLinkFrameStart
  try dsimp only
  refine ⟨_, rfl, .orderly ?_⟩
  repeat' first
    | with_reducible exact Orderly.refl _
    | with_reducible assumption
    | with_reducible apply linkStart_orderly

theorem execTokenRefillTick_goes  (s : State) : Goes s (execTokenRefillTick s) := by
  unfold execTokenRefillTick
  try dsimp only
  refine ⟨_, rfl, .orderly ?_⟩
  repeat' first
    | with_reducible exact Orderly.refl _
    | with_reducible assumption
    | with_reducible apply refillTick_orderly

theorem execLaneSoftFault_goes (port : BitVec 2) (lane : Fin 9) (symbols : BitVec 32) (s : State) : Goes s (execLaneSoftFault port lane symbols s) := by
  unfold execLaneSoftFault
  try dsimp only
  refine ⟨_, rfl, .orderly ?_⟩
  repeat' first
    | with_reducible exact Orderly.refl _
    | with_reducible assumption
    | with_reducible apply softFault_orderly

theorem execLaneHardFault_goes (port : BitVec 2) (lane : Fin 9) (s : State) : Goes s (execLaneHardFault port lane s) := by
  unfold execLaneHardFault
  try dsimp only
  refine ⟨_, rfl, .orderly ?_⟩
  repeat' first
    | with_reducible exact Orderly.refl _
    | with_reducible assumption
    | with_reducible apply hardFault_orderly

theorem execLmapReq_goes (rx : KlrRx) (s : State) : Goes s (execLmapReq rx s) := by
  unfold execLmapReq
  try dsimp only
  refine ⟨_, rfl, .orderly ?_⟩
  repeat' first
    | with_reducible exact Orderly.refl _
    | with_reducible assumption
    | with_reducible apply lmapRx_orderly
    | with_reducible apply lmapReq_orderly

theorem execLmapAck_goes (rx : KlrRx) (s : State) : Goes s (execLmapAck rx s) := by
  unfold execLmapAck
  try dsimp only
  refine ⟨_, rfl, .orderly ?_⟩
  repeat' first
    | with_reducible exact Orderly.refl _
    | with_reducible assumption
    | with_reducible apply lmapRx_orderly
    | with_reducible apply lmapAck_orderly

theorem execLmapSwitch_goes (rx : KlrRx) (s : State) : Goes s (execLmapSwitch rx s) := by
  unfold execLmapSwitch
  try dsimp only
  refine ⟨_, rfl, .orderly ?_⟩
  repeat' first
    | with_reducible exact Orderly.refl _
    | with_reducible assumption
    | with_reducible apply lmapRx_orderly
    | with_reducible apply lmapSwitch_orderly

theorem execLmapSwitchPoint_goes (port : BitVec 2) (s : State) : Goes s (execLmapSwitchPoint port s) := by
  unfold execLmapSwitchPoint
  try dsimp only
  refine ⟨_, rfl, .orderly ?_⟩
  repeat' first
    | with_reducible exact Orderly.refl _
    | with_reducible assumption
    | with_reducible apply lmapPoint_orderly

theorem execLmapDone_goes (rx : KlrRx) (s : State) : Goes s (execLmapDone rx s) := by
  unfold execLmapDone
  try dsimp only
  refine ⟨_, rfl, .orderly ?_⟩
  repeat' first
    | with_reducible exact Orderly.refl _
    | with_reducible assumption
    | with_reducible apply lmapRx_orderly
    | with_reducible apply lmapDone_orderly

theorem execLmapRefuse_goes (rx : KlrRx) (s : State) : Goes s (execLmapRefuse rx s) := by
  unfold execLmapRefuse
  try dsimp only
  refine ⟨_, rfl, .orderly ?_⟩
  repeat' first
    | with_reducible exact Orderly.refl _
    | with_reducible assumption
    | with_reducible apply lmapRx_orderly
    | with_reducible apply lmapRefuse_orderly

theorem execLmapSwapTimeout_goes (port : BitVec 2) (s : State) : Goes s (execLmapSwapTimeout port s) := by
  unfold execLmapSwapTimeout
  try dsimp only
  refine ⟨_, rfl, .orderly ?_⟩
  repeat' first
    | with_reducible exact Orderly.refl _
    | with_reducible assumption
    | with_reducible apply lmapTimeout_orderly

theorem execLaneBringupTimeout_goes (port : BitVec 2) (dark : BitVec 9) (s : State) : Goes s (execLaneBringupTimeout port dark s) := by
  unfold execLaneBringupTimeout
  try dsimp only
  refine ⟨_, rfl, .orderly ?_⟩
  repeat' first
    | with_reducible exact Orderly.refl _
    | with_reducible assumption
    | with_reducible apply bringUpTimeout_orderly

theorem execPeerAbsentRetry_goes (port : BitVec 2) (s : State) : Goes s (execPeerAbsentRetry port s) := by
  unfold execPeerAbsentRetry
  try dsimp only
  refine ⟨_, rfl, .orderly ?_⟩
  repeat' first
    | with_reducible exact Orderly.refl _
    | with_reducible assumption
    | with_reducible apply absentRetry_orderly

theorem execPcsLinkUp_goes (link : Fin 8) (s : State) : Goes s (execPcsLinkUp link s) := by
  unfold execPcsLinkUp
  try dsimp only
  refine ⟨_, rfl, .orderly ?_⟩
  repeat' first
    | with_reducible exact Orderly.refl _
    | with_reducible assumption
    | with_reducible apply pcsUp_orderly

theorem execPcsLinkDown_goes (link : Fin 8) (s : State) : Goes s (execPcsLinkDown link s) := by
  unfold execPcsLinkDown
  try dsimp only
  refine ⟨_, rfl, .orderly ?_⟩
  repeat' first
    | with_reducible exact Orderly.refl _
    | with_reducible assumption
    | with_reducible apply pcsDown_orderly

theorem execHello_goes (rx : KlrRx) (s : State) : Goes s (execHello rx s) := by
  unfold execHello
  try dsimp only
  refine ⟨_, rfl, .orderly ?_⟩
  repeat' first
    | with_reducible exact Orderly.refl _
    | with_reducible assumption
    | with_reducible apply helloRx_orderly

theorem execHelloSendTimer_goes (link : Fin 8) (s : State) : Goes s (execHelloSendTimer link s) := by
  unfold execHelloSendTimer
  try dsimp only
  refine ⟨_, rfl, .orderly ?_⟩
  repeat' first
    | with_reducible exact Orderly.refl _
    | with_reducible assumption
    | with_reducible apply helloSend_orderly

theorem execHelloTimeout_goes (link : Fin 8) (s : State) : Goes s (execHelloTimeout link s) := by
  unfold execHelloTimeout
  try dsimp only
  refine ⟨_, rfl, .orderly ?_⟩
  repeat' first
    | with_reducible exact Orderly.refl _
    | with_reducible assumption
    | with_reducible apply helloTimeout_orderly

theorem execKlrData_goes (rx : KlrRx) (s : State) : Goes s (execKlrData rx s) := by
  unfold execKlrData
  try dsimp only
  refine ⟨_, rfl, .orderly ?_⟩
  repeat' first
    | with_reducible exact Orderly.refl _
    | with_reducible assumption
    | with_reducible apply klrDataRx_orderly

theorem execKlrStatus_goes (rx : KlrRx) (s : State) : Goes s (execKlrStatus rx s) := by
  unfold execKlrStatus
  try dsimp only
  refine ⟨_, rfl, .orderly ?_⟩
  repeat' first
    | with_reducible exact Orderly.refl _
    | with_reducible assumption
    | with_reducible apply klrStatusRx_orderly

theorem execKlrAckDelayExpire_goes (link : Fin 8) (s : State) : Goes s (execKlrAckDelayExpire link s) := by
  unfold execKlrAckDelayExpire
  try dsimp only
  refine ⟨_, rfl, .orderly ?_⟩
  repeat' first
    | with_reducible exact Orderly.refl _
    | with_reducible assumption
    | with_reducible apply klrAckExpire_orderly

theorem execKlrStatusPeriod_goes (link : Fin 8) (s : State) : Goes s (execKlrStatusPeriod link s) := by
  unfold execKlrStatusPeriod
  try dsimp only
  refine ⟨_, rfl, .orderly ?_⟩
  repeat' first
    | with_reducible exact Orderly.refl _
    | with_reducible assumption
    | with_reducible apply klrPeriod_orderly

theorem execKlrReplayTimer_goes (link : Fin 8) (s : State) : Goes s (execKlrReplayTimer link s) := by
  unfold execKlrReplayTimer
  try dsimp only
  refine ⟨_, rfl, .orderly ?_⟩
  repeat' first
    | with_reducible exact Orderly.refl _
    | with_reducible assumption
    | with_reducible apply replayTimer_orderly

theorem execKlrDownRetire_goes (port : BitVec 2) (s : State) : Goes s (execKlrDownRetire port s) := by
  unfold execKlrDownRetire
  try dsimp only
  refine ⟨_, rfl, .orderly ?_⟩
  repeat' first
    | with_reducible exact Orderly.refl _
    | with_reducible assumption
    | with_reducible apply downRetire_orderly

theorem execKlrHandoffDone_goes (port : BitVec 2) (s : State) : Goes s (execKlrHandoffDone port s) := by
  unfold execKlrHandoffDone
  try dsimp only
  refine ⟨_, rfl, .orderly ?_⟩
  repeat' first
    | with_reducible exact Orderly.refl _
    | with_reducible assumption
    | with_reducible apply handoffDone_orderly

theorem execPtpFrameRx_goes (link : Fin 8) (msg : PtpMsg) (s : State) : Goes s (execPtpFrameRx link msg s) := by
  unfold execPtpFrameRx
  try dsimp only
  refine ⟨_, rfl, .orderly ?_⟩
  repeat' first
    | with_reducible exact Orderly.refl _
    | with_reducible assumption
    | with_reducible apply ptpRx_orderly

theorem execPtpSyncTimeout_goes  (s : State) : Goes s (execPtpSyncTimeout s) := by
  unfold execPtpSyncTimeout
  try dsimp only
  refine ⟨_, rfl, .orderly ?_⟩
  repeat' first
    | with_reducible exact Orderly.refl _
    | with_reducible assumption
    | with_reducible apply ptpSyncLost_orderly

theorem execPtpMessageInterval_goes (link : Fin 8) (kind : PtpKind) (s : State) : Goes s (execPtpMessageInterval link kind s) := by
  unfold execPtpMessageInterval
  try dsimp only
  refine ⟨_, rfl, .orderly ?_⟩
  repeat' first
    | with_reducible exact Orderly.refl _
    | with_reducible assumption
    | with_reducible apply ptpInterval_orderly

theorem execArpNdRequest_goes (link : Fin 9) (nd : Bool) (target : BitVec 128) (s : State) : Goes s (execArpNdRequest link nd target s) := by
  unfold execArpNdRequest
  try dsimp only
  refine ⟨_, rfl, .orderly ?_⟩
  repeat' first
    | with_reducible exact Orderly.refl _
    | with_reducible assumption
    | with_reducible apply neighbourRx_orderly

theorem execPauseFrameRx_goes (via : RxVia) (s : State) : Goes s (execPauseFrameRx via s) := by
  unfold execPauseFrameRx
  try dsimp only
  refine ⟨_, rfl, .orderly ?_⟩
  repeat' first
    | with_reducible exact Orderly.refl _
    | with_reducible assumption
    | with_reducible apply bump_orderly

theorem execMacFrameReject_goes (via : RxVia) (encap : Encap) (fcsOk : Bool) (uncorr : BitVec 16) (s : State) : Goes s (execMacFrameReject via encap fcsOk uncorr s) := by
  unfold execMacFrameReject
  try dsimp only
  refine ⟨_, rfl, .orderly ?_⟩
  repeat' first
    | with_reducible exact Orderly.refl _
    | with_reducible assumption
    | with_reducible apply macReject_orderly

theorem execAgtIntentWrite_goes (src : MgmtSource) (agent : BitVec 16) (unit : BitVec 9) (value : BitVec 4) (s : State) : Goes s (execAgtIntentWrite src agent unit value s) := by
  unfold execAgtIntentWrite
  try dsimp only
  refine ⟨_, rfl, .orderly ?_⟩
  repeat' first
    | with_reducible exact Orderly.refl _
    | with_reducible assumption
    | with_reducible apply fromSource_orderly
    | with_reducible apply intentWrite_orderly

theorem execAudit_goes  (s : State) : Goes s (execAudit s) := by
  unfold execAudit
  try dsimp only
  refine ⟨_, rfl, .orderly ?_⟩
  repeat' first
    | with_reducible exact Orderly.refl _
    | with_reducible assumption
    | with_reducible apply audit_orderly

theorem execBringUpComplete_goes (agent : BitVec 16) (unit : BitVec 9) (s : State) : Goes s (execBringUpComplete agent unit s) := by
  unfold execBringUpComplete
  try dsimp only
  refine ⟨_, rfl, .orderly ?_⟩
  repeat' first
    | with_reducible exact Orderly.refl _
    | with_reducible assumption
    | with_reducible apply bringUpDone_orderly

theorem execBringUpFail_goes (agent : BitVec 16) (unit : BitVec 9) (s : State) : Goes s (execBringUpFail agent unit s) := by
  unfold execBringUpFail
  try dsimp only
  refine ⟨_, rfl, .orderly ?_⟩
  repeat' first
    | with_reducible exact Orderly.refl _
    | with_reducible assumption
    | with_reducible apply bringUpFail_orderly

theorem execGateListCommit_goes (src : MgmtSource) (list : BitVec 4) (s : State) : Goes s (execGateListCommit src list s) := by
  unfold execGateListCommit
  try dsimp only
  refine ⟨_, rfl, .orderly ?_⟩
  repeat' first
    | with_reducible exact Orderly.refl _
    | with_reducible assumption
    | with_reducible apply glCommit_orderly
    | with_reducible apply asOperator_orderly

theorem execTmgPcfgWrite_goes (src : MgmtSource) (pitch : BitVec 8) (value : BitVec 32) (s : State) : Goes s (execTmgPcfgWrite src pitch value s) := by
  unfold execTmgPcfgWrite
  try dsimp only
  refine ⟨_, rfl, .orderly ?_⟩
  repeat' first
    | with_reducible exact Orderly.refl _
    | with_reducible assumption
    | with_reducible apply pcfgWrite_orderly
    | with_reducible apply asOperator_orderly

theorem execFabReflectReinject_goes (hdr : BitVec 128) (payload : BitVec 512) (plane : BitVec 1) (fails : BitVec 2) (s : State) : Goes s (execFabReflectReinject hdr payload plane fails s) := by
  unfold execFabReflectReinject
  try dsimp only
  refine ⟨_, rfl, .orderly ?_⟩
  repeat' first
    | with_reducible exact Orderly.refl _
    | with_reducible assumption
    | with_reducible apply reflectReinject_orderly

theorem execFabStarve_goes (router : BitVec 6) (plane : BitVec 2) (s : State) : Goes s (execFabStarve router plane s) := by
  unfold execFabStarve
  try dsimp only
  refine ⟨_, rfl, .orderly ?_⟩
  repeat' first
    | with_reducible exact Orderly.refl _
    | with_reducible assumption
    | with_reducible apply fabStarve_orderly

theorem execFabRtWrite_goes (src : MgmtSource) (router : BitVec 6) (bank : BitVec 1) (plane : BitVec 2) (dest : BitVec 6) (value : BitVec 32) (s : State) : Goes s (execFabRtWrite src router bank plane dest value s) := by
  unfold execFabRtWrite
  try dsimp only
  refine ⟨_, rfl, .orderly ?_⟩
  repeat' first
    | with_reducible exact Orderly.refl _
    | with_reducible assumption
    | with_reducible apply fromSource_orderly
    | with_reducible apply rtWrite_orderly

theorem execFabEpochGo_goes (src : MgmtSource) (s : State) : Goes s (execFabEpochGo src s) := by
  unfold execFabEpochGo
  try dsimp only
  refine ⟨_, rfl, .orderly ?_⟩
  repeat' first
    | with_reducible exact Orderly.refl _
    | with_reducible assumption
    | with_reducible apply asOperator_orderly
    | with_reducible apply epochGo_orderly

theorem execFabEpochSwitch_goes  (s : State) : Goes s (execFabEpochSwitch s) := by
  unfold execFabEpochSwitch
  try dsimp only
  refine ⟨_, rfl, .orderly ?_⟩
  repeat' first
    | with_reducible exact Orderly.refl _
    | with_reducible assumption
    | with_reducible apply epochSwitch_orderly

theorem execFabDrainCheck_goes  (s : State) : Goes s (execFabDrainCheck s) := by
  unfold execFabDrainCheck
  try dsimp only
  refine ⟨_, rfl, .orderly ?_⟩
  repeat' first
    | with_reducible exact Orderly.refl _
    | with_reducible assumption
    | with_reducible apply drainCheck_orderly

theorem execFumMr5Extend_goes (src : MgmtSource) (s : State) : Goes s (execFumMr5Extend src s) := by
  unfold execFumMr5Extend
  try dsimp only
  refine ⟨_, rfl, .orderly ?_⟩
  repeat' first
    | with_reducible exact Orderly.refl _
    | with_reducible assumption
    | with_reducible apply asOperator_orderly
    | with_reducible apply mr5Go_orderly

theorem execAdcFrame_goes (codes : List (BitVec 12)) (s : State) : Goes s (execAdcFrame codes s) := by
  unfold execAdcFrame
  try dsimp only
  refine ⟨_, rfl, ?_⟩
  repeat' first
    | with_reducible exact Turn.refl _
    | with_reducible assumption
    | with_reducible apply adcFrame_turn

theorem execFeedReturn_goes (feedB : Bool) (s : State) : Goes s (execFeedReturn feedB s) := by
  unfold execFeedReturn
  try dsimp only
  refine ⟨_, rfl, .orderly ?_⟩
  repeat' first
    | with_reducible exact Orderly.refl _
    | with_reducible assumption
    | with_reducible apply feedReturn_orderly

theorem execFeedOffWrite_goes (src : MgmtSource) (value : BitVec 32) (s : State) : Goes s (execFeedOffWrite src value s) := by
  unfold execFeedOffWrite
  try dsimp only
  refine ⟨_, rfl, .orderly ?_⟩
  repeat' first
    | with_reducible exact Orderly.refl _
    | with_reducible assumption
    | with_reducible apply asOperator_orderly
    | with_reducible apply feedCtrl_orderly

theorem execDieTempRead_goes (temps : List (BitVec 11)) (s : State) : Goes s (execDieTempRead temps s) := by
  unfold execDieTempRead
  try dsimp only
  refine ⟨_, rfl, ?_⟩
  repeat' first
    | with_reducible exact Turn.refl _
    | with_reducible assumption
    | with_reducible apply dieRead_turn

theorem execModulePoll_goes (reads : List (Option (BitVec 12 × BitVec 16))) (s : State) : Goes s (execModulePoll reads s) := by
  unfold execModulePoll
  try dsimp only
  refine ⟨_, rfl, ?_⟩
  repeat' first
    | with_reducible exact Turn.refl _
    | with_reducible assumption
    | with_reducible apply modulePoll_turn

theorem execFanUpdate_goes  (s : State) : Goes s (execFanUpdate s) := by
  unfold execFanUpdate
  try dsimp only
  refine ⟨_, rfl, .orderly ?_⟩
  repeat' first
    | with_reducible exact Orderly.refl _
    | with_reducible assumption
    | with_reducible apply fanUpdate_orderly

theorem execFanTachCount_goes (pulses : List (BitVec 32)) (s : State) : Goes s (execFanTachCount pulses s) := by
  unfold execFanTachCount
  try dsimp only
  refine ⟨_, rfl, .orderly ?_⟩
  repeat' first
    | with_reducible exact Orderly.refl _
    | with_reducible assumption
    | with_reducible apply fanTach_orderly

theorem execCapDecision_goes  (s : State) : Goes s (execCapDecision s) := by
  unfold execCapDecision
  try dsimp only
  refine ⟨_, rfl, .orderly ?_⟩
  repeat' first
    | with_reducible exact Orderly.refl _
    | with_reducible assumption
    | with_reducible apply capDecision_orderly

theorem execClockStepRelock_goes  (s : State) : Goes s (execClockStepRelock s) := by
  unfold execClockStepRelock
  try dsimp only
  refine ⟨_, rfl, .orderly ?_⟩
  repeat' first
    | with_reducible exact Orderly.refl _
    | with_reducible assumption
    | with_reducible apply stepRelock_orderly

theorem execPllUnlock_goes (pll : Fin 8) (s : State) : Goes s (execPllUnlock pll s) := by
  unfold execPllUnlock
  try dsimp only
  refine ⟨_, rfl, .orderly ?_⟩
  repeat' first
    | with_reducible exact Orderly.refl _
    | with_reducible assumption
    | with_reducible apply pllUnlock_orderly

theorem execPllRelock_goes (pll : Fin 8) (s : State) : Goes s (execPllRelock pll s) := by
  unfold execPllRelock
  try dsimp only
  refine ⟨_, rfl, .orderly ?_⟩
  repeat' first
    | with_reducible exact Orderly.refl _
    | with_reducible assumption
    | with_reducible apply pllRelock_orderly

theorem execCvuInit_goes (sc : Fin 4) (poly : BitVec 2) (s : State) : Goes s (execCvuInit sc poly s) := by
  unfold execCvuInit
  try dsimp only
  refine ⟨_, rfl, .orderly ?_⟩
  repeat' first
    | with_reducible exact Orderly.refl _
    | with_reducible assumption
    | with_reducible apply cvuMod_orderly

theorem execCvuCtrlPoly_goes (sc : Fin 4) (poly : BitVec 2) (s : State) : Goes s (execCvuCtrlPoly sc poly s) := by
  unfold execCvuCtrlPoly
  try dsimp only
  refine ⟨_, rfl, .orderly ?_⟩
  repeat' first
    | with_reducible exact Orderly.refl _
    | with_reducible assumption
    | with_reducible apply cvuMod_orderly

theorem execCvuFeedB_goes (sc : Fin 4) (data : BitVec 8) (s : State) : Goes s (execCvuFeedB sc data s) := by
  unfold execCvuFeedB
  try dsimp only
  refine ⟨_, rfl, .orderly ?_⟩
  repeat' first
    | with_reducible exact Orderly.refl _
    | with_reducible assumption
    | with_reducible apply cvuMod_orderly

theorem execCvuFeedH_goes (sc : Fin 4) (data : BitVec 16) (s : State) : Goes s (execCvuFeedH sc data s) := by
  unfold execCvuFeedH
  try dsimp only
  refine ⟨_, rfl, .orderly ?_⟩
  repeat' first
    | with_reducible exact Orderly.refl _
    | with_reducible assumption
    | with_reducible apply cvuMod_orderly

theorem execCvuFeedW_goes (sc : Fin 4) (data : BitVec 32) (s : State) : Goes s (execCvuFeedW sc data s) := by
  unfold execCvuFeedW
  try dsimp only
  refine ⟨_, rfl, .orderly ?_⟩
  repeat' first
    | with_reducible exact Orderly.refl _
    | with_reducible assumption
    | with_reducible apply cvuMod_orderly

theorem execCvuValueWrite_goes (sc : Fin 4) (data : BitVec 32) (s : State) : Goes s (execCvuValueWrite sc data s) := by
  unfold execCvuValueWrite
  try dsimp only
  refine ⟨_, rfl, .orderly ?_⟩
  repeat' first
    | with_reducible exact Orderly.refl _
    | with_reducible assumption
    | with_reducible apply cvuMod_orderly

theorem execSvcWdogKick_goes (sc : Fin 4) (s : State) : Goes s (execSvcWdogKick sc s) := by
  unfold execSvcWdogKick
  try dsimp only
  refine ⟨_, rfl, .orderly ?_⟩
  repeat' first
    | with_reducible exact Orderly.refl _
    | with_reducible assumption
    | with_reducible apply wdogKick_orderly

theorem execWatchdogExpire_goes (sram : Bool) (s : State) : Goes s (execWatchdogExpire sram s) := by
  unfold execWatchdogExpire
  try dsimp only
  refine ⟨_, rfl, .orderly ?_⟩
  repeat' first
    | with_reducible exact Orderly.refl _
    | with_reducible assumption
    | with_reducible apply wdogExpire_orderly

theorem execSvcRestartDone_goes (firmwareOk : Bool) (s : State) : Goes s (execSvcRestartDone firmwareOk s) := by
  unfold execSvcRestartDone
  try dsimp only
  refine ⟨_, rfl, .orderly ?_⟩
  repeat' first
    | with_reducible exact Orderly.refl _
    | with_reducible assumption
    | with_reducible apply restartDone_orderly

theorem execScCacheParity_goes (sc : Fin 4) (again : Bool) (s : State) : Goes s (execScCacheParity sc again s) := by
  unfold execScCacheParity
  try dsimp only
  refine ⟨_, rfl, .orderly ?_⟩
  repeat' first
    | with_reducible exact Orderly.refl _
    | with_reducible assumption
    | with_reducible apply scParity_orderly

theorem execDbgMemRead_goes (src : MgmtSource) (s : State) : Goes s (execDbgMemRead src s) := by
  unfold execDbgMemRead
  try dsimp only
  refine ⟨_, rfl, .orderly ?_⟩
  repeat' first
    | with_reducible exact Orderly.refl _
    | with_reducible assumption
    | with_reducible apply asOperator_orderly
    | with_reducible apply memReadGo_orderly

theorem execDbgMemReadDone_goes  (s : State) : Goes s (execDbgMemReadDone s) := by
  unfold execDbgMemReadDone
  try dsimp only
  refine ⟨_, rfl, .orderly ?_⟩
  repeat' first
    | with_reducible exact Orderly.refl _
    | with_reducible assumption
    | with_reducible apply memReadDone_orderly

theorem execDbgStoreCapture_goes (src : MgmtSource) (addr : BitVec 22) (s : State) : Goes s (execDbgStoreCapture src addr s) := by
  unfold execDbgStoreCapture
  try dsimp only
  refine ⟨_, rfl, .orderly ?_⟩
  repeat' first
    | with_reducible exact Orderly.refl _
    | with_reducible assumption
    | with_reducible apply selSet_orderly
    | with_reducible apply fromSource_orderly
    | with_reducible apply captureStart_orderly
    | with_reducible apply captureEnd_orderly

theorem execDbgStoreCaptureDone_goes (src : MgmtSource) (s : State) : Goes s (execDbgStoreCaptureDone src s) := by
  unfold execDbgStoreCaptureDone
  try dsimp only
  refine ⟨_, rfl, .orderly ?_⟩
  repeat' first
    | with_reducible exact Orderly.refl _
    | with_reducible assumption
    | with_reducible apply captureEnd_orderly

theorem execTraceSample_goes  (s : State) : Goes s (execTraceSample s) := by
  unfold execTraceSample
  try dsimp only
  refine ⟨_, rfl, .orderly ?_⟩
  repeat' first
    | with_reducible exact Orderly.refl _
    | with_reducible assumption
    | with_reducible apply traceSample_orderly

theorem execIdcode_goes  (s : State) : Goes s (execIdcode s) := by
  unfold execIdcode
  try dsimp only
  refine ⟨_, rfl, .orderly ?_⟩
  repeat' first
    | with_reducible exact Orderly.refl _
    | with_reducible assumption
    | with_reducible apply tapLoad_orderly

theorem execSamplePreload_goes (bits : List Bool) (s : State) : Goes s (execSamplePreload bits s) := by
  unfold execSamplePreload
  try dsimp only
  refine ⟨_, rfl, .orderly ?_⟩
  repeat' first
    | with_reducible exact Orderly.refl _
    | with_reducible assumption
    | with_reducible apply tapScan_orderly

theorem execExtest_goes (bits : List Bool) (s : State) : Goes s (execExtest bits s) := by
  unfold execExtest
  try dsimp only
  refine ⟨_, rfl, .orderly ?_⟩
  repeat' first
    | with_reducible exact Orderly.refl _
    | with_reducible assumption
    | with_reducible apply tapScan_orderly

theorem execClamp_goes  (s : State) : Goes s (execClamp s) := by
  unfold execClamp
  try dsimp only
  refine ⟨_, rfl, .orderly ?_⟩
  repeat' first
    | with_reducible exact Orderly.refl _
    | with_reducible assumption
    | with_reducible apply tapLoad_orderly

theorem execHighz_goes  (s : State) : Goes s (execHighz s) := by
  unfold execHighz
  try dsimp only
  refine ⟨_, rfl, .orderly ?_⟩
  repeat' first
    | with_reducible exact Orderly.refl _
    | with_reducible assumption
    | with_reducible apply tapLoad_orderly

theorem execBypass_goes (ir : BitVec 8) (s : State) : Goes s (execBypass ir s) := by
  unfold execBypass
  try dsimp only
  refine ⟨_, rfl, .orderly ?_⟩
  repeat' first
    | with_reducible exact Orderly.refl _
    | with_reducible assumption
    | with_reducible apply tapBypass_orderly

theorem execTapReset_goes  (s : State) : Goes s (execTapReset s) := by
  unfold execTapReset
  try dsimp only
  refine ⟨_, rfl, .orderly ?_⟩
  repeat' first
    | with_reducible exact Orderly.refl _
    | with_reducible assumption
    | with_reducible apply tapReset_orderly

theorem execPowerOn_goes  (s : State) : Goes s (execPowerOn s) := by
  unfold execPowerOn
  try dsimp only
  refine ⟨_, rfl, ?_⟩
  repeat' first
    | with_reducible exact Turn.refl _
    | with_reducible assumption
    | with_reducible apply powerOn_turn

theorem execSvnBurn_goes  (s : State) : Goes s (execSvnBurn s) := by
  unfold execSvnBurn
  try dsimp only
  refine ⟨_, rfl, .orderly ?_⟩
  repeat' first
    | with_reducible exact Orderly.refl _
    | with_reducible assumption
    | with_reducible apply svnBurn_orderly

theorem execChannelTrainingDone_goes (chan : BitVec 4) (ok : Bool) (tr : Trained) (s : State) : Goes s (execChannelTrainingDone chan ok tr s) := by
  unfold execChannelTrainingDone
  try dsimp only
  refine ⟨_, rfl, .orderly ?_⟩
  repeat' first
    | with_reducible exact Orderly.refl _
    | with_reducible assumption
    | with_reducible apply channelTrained_orderly

theorem execInitGranuleDone_goes (granule : BitVec 14) (s : State) : Goes s (execInitGranuleDone granule s) := by
  unfold execInitGranuleDone
  try dsimp only
  refine ⟨_, rfl, .orderly ?_⟩
  repeat' first
    | with_reducible exact Orderly.refl _
    | with_reducible assumption
    | with_reducible apply granuleInit_orderly

theorem execFlashRead_goes (src : MgmtSource) (s : State) : Goes s (execFlashRead src s) := by
  unfold execFlashRead
  try dsimp only
  refine ⟨_, rfl, .orderly ?_⟩
  repeat' first
    | with_reducible exact Orderly.refl _
    | with_reducible assumption
    | with_reducible apply asBoot_orderly
    | with_reducible apply flashStart_orderly

theorem execFlashProgram_goes (src : MgmtSource) (s : State) : Goes s (execFlashProgram src s) := by
  unfold execFlashProgram
  try dsimp only
  refine ⟨_, rfl, .orderly ?_⟩
  repeat' first
    | with_reducible exact Orderly.refl _
    | with_reducible assumption
    | with_reducible apply asBoot_orderly
    | with_reducible apply flashStart_orderly

theorem execFlashErase_goes (src : MgmtSource) (s : State) : Goes s (execFlashErase src s) := by
  unfold execFlashErase
  try dsimp only
  refine ⟨_, rfl, .orderly ?_⟩
  repeat' first
    | with_reducible exact Orderly.refl _
    | with_reducible assumption
    | with_reducible apply asBoot_orderly
    | with_reducible apply flashStart_orderly

theorem execFlashCmdDone_goes (ok : Bool) (s : State) : Goes s (execFlashCmdDone ok s) := by
  unfold execFlashCmdDone
  try dsimp only
  refine ⟨_, rfl, ?_⟩
  repeat' first
    | with_reducible exact Turn.refl _
    | with_reducible assumption
    | with_reducible apply flashDone_turn

theorem execBootCheck_goes (src : MgmtSource) (s : State) : Goes s (execBootCheck src s) := by
  unfold execBootCheck
  try dsimp only
  refine ⟨_, rfl, .orderly ?_⟩
  repeat' first
    | with_reducible exact Orderly.refl _
    | with_reducible assumption
    | with_reducible apply asBoot_orderly
    | with_reducible apply checkStart_orderly

theorem execBootCheckDone_goes (flashOk : Bool) (badAddr : BitVec 29) (s : State) : Goes s (execBootCheckDone flashOk badAddr s) := by
  unfold execBootCheckDone
  try dsimp only
  refine ⟨_, rfl, .orderly ?_⟩
  repeat' first
    | with_reducible exact Orderly.refl _
    | with_reducible assumption
    | with_reducible apply checkDone_orderly

theorem execChipResetCmd_goes (src : MgmtSource) (key : BitVec 16) (s : State) : Goes s (execChipResetCmd src key s) := by
  unfold execChipResetCmd
  try dsimp only
  refine ⟨_, rfl, ?_⟩
  repeat' first
    | with_reducible exact Turn.refl _
    | with_reducible assumption
    | with_reducible apply asBoot_turn
    | with_reducible apply resetWrite_turn

theorem execRecoveryReset_goes (src : MgmtSource) (key : BitVec 16) (s : State) : Goes s (execRecoveryReset src key s) := by
  unfold execRecoveryReset
  try dsimp only
  refine ⟨_, rfl, ?_⟩
  repeat' first
    | with_reducible exact Turn.refl _
    | with_reducible assumption
    | with_reducible apply asBoot_turn
    | with_reducible apply resetWrite_turn

theorem execResetNPin_goes (ns : BitVec 32) (s : State) : Goes s (execResetNPin ns s) := by
  unfold execResetNPin
  try dsimp only
  refine ⟨_, rfl, ?_⟩
  repeat' first
    | with_reducible exact Turn.refl _
    | with_reducible assumption
    | with_reducible apply resetPin_turn

theorem execPowerDown_goes (ns : BitVec 32) (s : State) : Goes s (execPowerDown ns s) := by
  unfold execPowerDown
  try dsimp only
  refine ⟨_, rfl, ?_⟩
  repeat' first
    | with_reducible exact Turn.refl _
    | with_reducible assumption
    | with_reducible apply powerDown_turn

theorem execMgmtAccess_goes (f : RxFrame) (s : State) : Goes s (execMgmtAccess f s) := by
  unfold execMgmtAccess
  try dsimp only
  refine ⟨_, rfl, ?_⟩
  repeat' first
    | with_reducible exact Turn.refl _
    | with_reducible assumption
    | with_reducible apply mgmtAccess_turn

theorem execRegisterWrite_goes (src : MgmtSource) (addr : BitVec 32) (value : BitVec 32) (s : State) : Goes s (execRegisterWrite src addr value s) := by
  unfold execRegisterWrite
  try dsimp only
  refine ⟨_, rfl, ?_⟩
  repeat' first
    | with_reducible exact Turn.refl _
    | with_reducible assumption
    | with_reducible apply sourceWrite_turn

theorem execRecoveryAccess_goes (f : RxFrame) (s : State) : Goes s (execRecoveryAccess f s) := by
  unfold execRecoveryAccess
  try dsimp only
  refine ⟨_, rfl, ?_⟩
  repeat' first
    | with_reducible exact Turn.refl _
    | with_reducible assumption
    | with_reducible apply recoveryAccess_turn

theorem execSvcMgmtScopeWrite_goes (src : MgmtSource) (value : BitVec 32) (s : State) : Goes s (execSvcMgmtScopeWrite src value s) := by
  unfold execSvcMgmtScopeWrite
  try dsimp only
  refine ⟨_, rfl, ?_⟩
  repeat' first
    | with_reducible exact Turn.refl _
    | with_reducible assumption
    | with_reducible apply sourceWrite_turn

theorem execAgtCntRead_goes (src : MgmtSource) (agent : BitVec 16) (s : State) : Goes s (execAgtCntRead src agent s) := by
  unfold execAgtCntRead
  try dsimp only
  refine ⟨_, rfl, .orderly ?_⟩
  repeat' first
    | with_reducible exact Orderly.refl _
    | with_reducible assumption
    | with_reducible apply sourceRead_orderly

theorem execJtagMgmtAccess_goes (op : BitVec 2) (addr : BitVec 32) (data : BitVec 32) (s : State) : Goes s (execJtagMgmtAccess op addr data s) := by
  unfold execJtagMgmtAccess
  try dsimp only
  refine ⟨_, rfl, ?_⟩
  repeat' first
    | with_reducible exact Turn.refl _
    | with_reducible assumption
    | with_reducible apply jtagAccess_turn

end Sys2Proof.Machine
end

