-- ==== Sys2Proof/Laws/Moves.lean ====
section
/-! SUPPORT. What any command may do to the state: it keeps a sound state sound (`Moves`, of BootSteps.lean). -/
namespace Sys2Proof.Machine
/-- An answer of the form every meaning has keeps a sound state sound. -/
theorem goes_moves {s t : State} {o : Host.Outcome State Fault Refusal} (h : Goes s o) (e : o = .next t) : Moves s t := by
  obtain ⟨u, h1, h2⟩ := h
  rw [h1] at e
  cases e
  exact h2.moves
/-- Every command keeps a sound state sound. -/
theorem exec_moves (c : Instr) (s t : State) (hl : bootLegal s = true) (h : exec c s = .next t) : Moves s t := by
  cases c with
  | agtIntentWrite src agent unit value => exact goes_moves (execAgtIntentWrite_goes _ _ _ _ s) h
  | audit => exact goes_moves (execAudit_goes  s) h
  | bringUpComplete agent unit => exact goes_moves (execBringUpComplete_goes _ _ s) h
  | bringUpFail agent unit => exact goes_moves (execBringUpFail_goes _ _ s) h
  | pitchCreate f => exact goes_moves (execPitchCreate_goes _ s) h
  | pitchInstallDone pitch => exact goes_moves (execPitchInstallDone_goes _ s) h
  | pitchCreateTimeout pitch => exact goes_moves (execPitchCreateTimeout_goes _ s) h
  | pitchInstallFail pitch => exact goes_moves (execPitchInstallFail_goes _ s) h
  | pitchStrike f => exact goes_moves (execPitchStrike_goes _ s) h
  | strikeDrainEnd pitch => exact goes_moves (execStrikeDrainEnd_goes _ s) h
  | strikeDrainDeadline pitch => exact goes_moves (execStrikeDrainDeadline_goes _ s) h
  | pitchRepitch f => exact goes_moves (execPitchRepitch_goes _ s) h
  | repitchApplied pitch => exact goes_moves (execRepitchApplied_goes _ s) h
  | repitchApplyTimeout pitch => exact goes_moves (execRepitchApplyTimeout_goes _ s) h
  | pitchFold f => exact goes_moves (execPitchFold_goes _ s) h
  | keySlotRefresh slot => exact goes_moves (execKeySlotRefresh_goes _ s) h
  | sweepGranuleDone granule => exact goes_moves (execSweepGranuleDone_goes _ s) h
  | pitchAdjust f => exact goes_moves (execPitchAdjust_goes _ s) h
  | attach f => exact goes_moves (execAttach_goes _ s) h
  | detach f => exact goes_moves (execDetach_goes _ s) h
  | pitchQuery f => exact goes_moves (execPitchQuery_goes _ s) h
  | mgmtSessionOpen f => exact goes_moves (execMgmtSessionOpen_goes _ s) h
  | mgmtSessionProof f => exact goes_moves (execMgmtSessionProof_goes _ s) h
  | mgmtSessionClose f => exact goes_moves (execMgmtSessionClose_goes _ s) h
  | mgmtSessionExpire number => exact goes_moves (execMgmtSessionExpire_goes _ s) h
  | mgmtAccess f => exact goes_moves (execMgmtAccess_goes _ s) h
  | registerWrite src addr value => exact goes_moves (execRegisterWrite_goes _ _ _ s) h
  | read f => exact goes_moves (execRead_goes _ s) h
  | write f => exact goes_moves (execWrite_goes _ s) h
  | writeNotify f => exact goes_moves (execWriteNotify_goes _ s) h
  | aAdd f => exact goes_moves (execAAdd_goes _ s) h
  | aSwap f => exact goes_moves (execASwap_goes _ s) h
  | aCas f => exact goes_moves (execACas_goes _ s) h
  | aAnd f => exact goes_moves (execAAnd_goes _ s) h
  | aOr f => exact goes_moves (execAOr_goes _ s) h
  | aXor f => exact goes_moves (execAXor_goes _ s) h
  | aSmin f => exact goes_moves (execASmin_goes _ s) h
  | aSmax f => exact goes_moves (execASmax_goes _ s) h
  | aUmin f => exact goes_moves (execAUmin_goes _ s) h
  | aUmax f => exact goes_moves (execAUmax_goes _ s) h
  | aFadd32 f => exact goes_moves (execAFadd32_goes _ s) h
  | aFaddbf16 f => exact goes_moves (execAFaddbf16_goes _ s) h
  | bulkGet f => exact goes_moves (execBulkGet_goes _ s) h
  | bulkPut f => exact goes_moves (execBulkPut_goes _ s) h
  | bulkCopy f => exact goes_moves (execBulkCopy_goes _ s) h
  | bulkData f => exact goes_moves (execBulkData_goes _ s) h
  | bulkIdleTimeout flow tag => exact goes_moves (execBulkIdleTimeout_goes _ _ s) h
  | xlate f => exact goes_moves (execXlate_goes _ s) h
  | xlateRelease f => exact goes_moves (execXlateRelease_goes _ s) h
  | xlateInvalResponse f => exact goes_moves (execXlateInvalResponse_goes _ s) h
  | reservedOpcodeRequest op f => exact goes_moves (execReservedOpcodeRequest_goes _ _ s) h
  | swReadShared f => exact goes_moves (execSwReadShared_goes _ s) h
  | swReadOwn f => exact goes_moves (execSwReadOwn_goes _ s) h
  | swUpgrade f => exact goes_moves (execSwUpgrade_goes _ s) h
  | swWriteback f => exact goes_moves (execSwWriteback_goes _ s) h
  | swEvict f => exact goes_moves (execSwEvict_goes _ s) h
  | swDone f => exact goes_moves (execSwDone_goes _ s) h
  | swForwardResponse f => exact goes_moves (execSwForwardResponse_goes _ s) h
  | swInvalidateResponse f => exact goes_moves (execSwInvalidateResponse_goes _ s) h
  | swDoneTimeout line => exact goes_moves (execSwDoneTimeout_goes _ s) h
  | collOpen f => exact goes_moves (execCollOpen_goes _ s) h
  | collContrib f => exact goes_moves (execCollContrib_goes _ s) h
  | collPartial f => exact goes_moves (execCollPartial_goes _ s) h
  | collResult f => exact goes_moves (execCollResult_goes _ s) h
  | collClose f => exact goes_moves (execCollClose_goes _ s) h
  | collQuery f => exact goes_moves (execCollQuery_goes _ s) h
  | collFrameResponse op f => exact goes_moves (execCollFrameResponse_goes _ _ s) h
  | collStartTime pitch id => exact goes_moves (execCollStartTime_goes _ _ s) h
  | collPaceSlot pitch id chunk => exact goes_moves (execCollPaceSlot_goes _ _ _ s) h
  | collChunkFinished pitch id chunk => exact goes_moves (execCollChunkFinished_goes _ _ _ s) h
  | collDeadline pitch id => exact goes_moves (execCollDeadline_goes _ _ s) h
  | collRecordExpire pitch id => exact goes_moves (execCollRecordExpire_goes _ _ s) h
  | collAbortIdExpire pitch id => exact goes_moves (execCollAbortIdExpire_goes _ _ s) h
  | kernelLaunch f => exact goes_moves (execKernelLaunch_goes _ s) h
  | kernelQuery f => exact goes_moves (execKernelQuery_goes _ s) h
  | kernelAbort f => exact goes_moves (execKernelAbort_goes _ s) h
  | kernelEventResponse f => exact goes_moves (execKernelEventResponse_goes _ s) h
  | kernelDequeue session => exact goes_moves (execKernelDequeue_goes _ s) h
  | kernelLoadDone session => exact goes_moves (execKernelLoadDone_goes _ s) h
  | kernelLoadFail session => exact goes_moves (execKernelLoadFail_goes _ s) h
  | kernelSessionDone session => exact goes_moves (execKernelSessionDone_goes _ s) h
  | kernelDeadline session => exact goes_moves (execKernelDeadline_goes _ s) h
  | kernelClearDone session => exact goes_moves (execKernelClearDone_goes _ s) h
  | kernelRecordExpire session => exact goes_moves (execKernelRecordExpire_goes _ s) h
  | stageCommandDone quad => exact goes_moves (execStageCommandDone_goes _ s) h
  | nop core => exact goes_moves (execNop_goes _ s) h
  | add core sd sa sb => exact goes_moves (execAdd_goes _ _ _ _ s) h
  | sub core sd sa sb => exact goes_moves (execSub_goes _ _ _ _ s) h
  | and core sd sa sb => exact goes_moves (execAnd_goes _ _ _ _ s) h
  | or core sd sa sb => exact goes_moves (execOr_goes _ _ _ _ s) h
  | xor core sd sa sb => exact goes_moves (execXor_goes _ _ _ _ s) h
  | shl core sd sa sb => exact goes_moves (execShl_goes _ _ _ _ s) h
  | shr core sd sa sb => exact goes_moves (execShr_goes _ _ _ _ s) h
  | sra core sd sa sb => exact goes_moves (execSra_goes _ _ _ _ s) h
  | min core sd sa sb => exact goes_moves (execMin_goes _ _ _ _ s) h
  | max core sd sa sb => exact goes_moves (execMax_goes _ _ _ _ s) h
  | minu core sd sa sb => exact goes_moves (execMinu_goes _ _ _ _ s) h
  | maxu core sd sa sb => exact goes_moves (execMaxu_goes _ _ _ _ s) h
  | ceq core sd sa sb => exact goes_moves (execCeq_goes _ _ _ _ s) h
  | cne core sd sa sb => exact goes_moves (execCne_goes _ _ _ _ s) h
  | clt core sd sa sb => exact goes_moves (execClt_goes _ _ _ _ s) h
  | cltu core sd sa sb => exact goes_moves (execCltu_goes _ _ _ _ s) h
  | cle core sd sa sb => exact goes_moves (execCle_goes _ _ _ _ s) h
  | cleu core sd sa sb => exact goes_moves (execCleu_goes _ _ _ _ s) h
  | mul core sd sa sb => exact goes_moves (execMul_goes _ _ _ _ s) h
  | mulh core sd sa sb => exact goes_moves (execMulh_goes _ _ _ _ s) h
  | mulhu core sd sa sb => exact goes_moves (execMulhu_goes _ _ _ _ s) h
  | fadd core sd sa sb => exact goes_moves (execFadd_goes _ _ _ _ s) h
  | fsub core sd sa sb => exact goes_moves (execFsub_goes _ _ _ _ s) h
  | fmul core sd sa sb => exact goes_moves (execFmul_goes _ _ _ _ s) h
  | fdiv core sd sa sb => exact goes_moves (execFdiv_goes _ _ _ _ s) h
  | fsqrt core sd sa => exact goes_moves (execFsqrt_goes _ _ _ s) h
  | fmin core sd sa sb => exact goes_moves (execFmin_goes _ _ _ _ s) h
  | fmax core sd sa sb => exact goes_moves (execFmax_goes _ _ _ _ s) h
  | i2f core sd sa => exact goes_moves (execI2f_goes _ _ _ s) h
  | f2i core sd sa => exact goes_moves (execF2i_goes _ _ _ s) h
  | addi core sd sa imm => exact goes_moves (execAddi_goes _ _ _ _ s) h
  | andi core sd sa imm => exact goes_moves (execAndi_goes _ _ _ _ s) h
  | ori core sd sa imm => exact goes_moves (execOri_goes _ _ _ _ s) h
  | xori core sd sa imm => exact goes_moves (execXori_goes _ _ _ _ s) h
  | lui core sd imm => exact goes_moves (execLui_goes _ _ _ s) h
  | sld core sd sa imm => exact goes_moves (execSld_goes _ _ _ _ s) h
  | sst core sd sa imm => exact goes_moves (execSst_goes _ _ _ _ s) h
  | br core off => exact goes_moves (execBr_goes _ _ s) h
  | bz core sa off => exact goes_moves (execBz_goes _ _ _ s) h
  | bnz core sa off => exact goes_moves (execBnz_goes _ _ _ s) h
  | bnzd core sa off => exact goes_moves (execBnzd_goes _ _ _ s) h
  | halt core => exact goes_moves (execHalt_goes _ s) h
  | vadd core vd va vb pg ty => exact goes_moves (execVadd_goes _ _ _ _ _ _ s) h
  | vsub core vd va vb pg ty => exact goes_moves (execVsub_goes _ _ _ _ _ _ s) h
  | vmul core vd va vb pg ty => exact goes_moves (execVmul_goes _ _ _ _ _ _ s) h
  | vfma core vd va vb pg ty => exact goes_moves (execVfma_goes _ _ _ _ _ _ s) h
  | vfms core vd va vb pg ty => exact goes_moves (execVfms_goes _ _ _ _ _ _ s) h
  | vmin core vd va vb pg ty => exact goes_moves (execVmin_goes _ _ _ _ _ _ s) h
  | vmax core vd va vb pg ty => exact goes_moves (execVmax_goes _ _ _ _ _ _ s) h
  | vabs core vd va pg ty => exact goes_moves (execVabs_goes _ _ _ _ _ s) h
  | vneg core vd va pg ty => exact goes_moves (execVneg_goes _ _ _ _ _ s) h
  | vdiv core vd va vb pg => exact goes_moves (execVdiv_goes _ _ _ _ _ s) h
  | vsqrt core vd va pg => exact goes_moves (execVsqrt_goes _ _ _ _ s) h
  | vrsum core vd va pg ty => exact goes_moves (execVrsum_goes _ _ _ _ _ s) h
  | viadd core vd va vb pg ty => exact goes_moves (execViadd_goes _ _ _ _ _ _ s) h
  | visub core vd va vb pg ty => exact goes_moves (execVisub_goes _ _ _ _ _ _ s) h
  | vand core vd va vb pg ty => exact goes_moves (execVand_goes _ _ _ _ _ _ s) h
  | vor core vd va vb pg ty => exact goes_moves (execVor_goes _ _ _ _ _ _ s) h
  | vxor core vd va vb pg ty => exact goes_moves (execVxor_goes _ _ _ _ _ _ s) h
  | vshl core vd va vb pg ty => exact goes_moves (execVshl_goes _ _ _ _ _ _ s) h
  | vshr core vd va vb pg ty => exact goes_moves (execVshr_goes _ _ _ _ _ _ s) h
  | vsra core vd va vb pg ty => exact goes_moves (execVsra_goes _ _ _ _ _ _ s) h
  | vimin core vd va vb pg ty => exact goes_moves (execVimin_goes _ _ _ _ _ _ s) h
  | vimax core vd va vb pg ty => exact goes_moves (execVimax_goes _ _ _ _ _ _ s) h
  | vcmpEq core pd va vb pg ty => exact goes_moves (execVcmpEq_goes _ _ _ _ _ _ s) h
  | vcmpNe core pd va vb pg ty => exact goes_moves (execVcmpNe_goes _ _ _ _ _ _ s) h
  | vcmpLt core pd va vb pg ty => exact goes_moves (execVcmpLt_goes _ _ _ _ _ _ s) h
  | vcmpLe core pd va vb pg ty => exact goes_moves (execVcmpLe_goes _ _ _ _ _ _ s) h
  | vsel core vd va vb pg ty => exact goes_moves (execVsel_goes _ _ _ _ _ _ s) h
  | pand core pd pa pb => exact goes_moves (execPand_goes _ _ _ _ s) h
  | por core pd pa pb => exact goes_moves (execPor_goes _ _ _ _ s) h
  | pxor core pd pa pb => exact goes_moves (execPxor_goes _ _ _ _ s) h
  | pnot core pd pa => exact goes_moves (execPnot_goes _ _ _ s) h
  | vbcast core vd sa pg ty => exact goes_moves (execVbcast_goes _ _ _ _ _ s) h
  | vext core sd va sb ty => exact goes_moves (execVext_goes _ _ _ _ _ s) h
  | vtrRcp core vd va pg => exact goes_moves (execVtrRcp_goes _ _ _ _ s) h
  | vtrRsq core vd va pg => exact goes_moves (execVtrRsq_goes _ _ _ _ s) h
  | vtrExp2 core vd va pg => exact goes_moves (execVtrExp2_goes _ _ _ _ s) h
  | vtrLog2 core vd va pg => exact goes_moves (execVtrLog2_goes _ _ _ _ s) h
  | vcvt core vd va srcT dstT rm sat part => exact goes_moves (execVcvt_goes _ _ _ _ _ _ _ _ s) h
  | vcvtSr core vd va dstT sat part => exact goes_moves (execVcvtSr_goes _ _ _ _ _ _ s) h
  | vmx core vd va elt part sd => exact goes_moves (execVmx_goes _ _ _ _ _ _ s) h
  | vld core v sa off again => exact goes_moves (execVld_goes _ _ _ _ _ s) h
  | vst core v sa pg off => exact goes_moves (execVst_goes _ _ _ _ _ s) h
  | send core vs q route => exact goes_moves (execSend_goes _ _ _ _ s) h
  | recv core vd q dir => exact goes_moves (execRecv_goes _ _ _ _ s) h
  | mxMul core ad ty z sa sb sk => exact goes_moves (execMxMul_goes _ _ _ _ _ _ _ s) h
  | mxMulStart quad again => exact goes_moves (execMxMulStart_goes _ _ s) h
  | mxMulDone quad => exact goes_moves (execMxMulDone_goes _ s) h
  | accRd core v an sr h => exact goes_moves (execAccRd_goes _ _ _ _ _ s) h
  | accWr core v an sr h => exact goes_moves (execAccWr_goes _ _ _ _ _ s) h
  | accZero core an => exact goes_moves (execAccZero_goes _ _ s) h
  | stgIn core sn => exact goes_moves (execStgIn_goes _ _ s) h
  | stgOut core sn => exact goes_moves (execStgOut_goes _ _ s) h
  | gateT core mask => exact goes_moves (execGateT_goes _ _ s) h
  | gateC core sa sb => exact goes_moves (execGateC_goes _ _ _ s) h
  | requestTimeoutRetransmit flow seq => exact goes_moves (execRequestTimeoutRetransmit_goes _ _ s) h
  | retryResend flow seq => exact goes_moves (execRetryResend_goes _ _ s) h
  | transportAck f => exact goes_moves (execTransportAck_goes _ s) h
  | ackDelayExpire flow => exact goes_moves (execAckDelayExpire_goes _ s) h
  | nackDelayExpire flow => exact goes_moves (execNackDelayExpire_goes _ s) h
  | flowRateRaise flow => exact goes_moves (execFlowRateRaise_goes _ s) h
  | klrHandoffDone port => exact goes_moves (execKlrHandoffDone_goes _ s) h
  | missServiceDone slice pitch page => exact goes_moves (execMissServiceDone_goes _ _ _ s) h
  | missTimeout slice pitch page => exact goes_moves (execMissTimeout_goes _ _ _ s) h
  | pageTableChangeDone pitch => exact goes_moves (execPageTableChangeDone_goes _ s) h
  | recallDeadline endpoint context => exact goes_moves (execRecallDeadline_goes _ _ s) h
  | lineReadDone chan sub entryBad outs => exact goes_moves (execLineReadDone_goes _ _ _ _ s) h
  | writeBufferIssue chan sub bad => exact goes_moves (execWriteBufferIssue_goes _ _ _ s) h
  | refreshInstant => exact goes_moves (execRefreshInstant_goes  s) h
  | agePromotion chan => exact goes_moves (execAgePromotion_goes _ s) h
  | pageIdlePrecharge chan sub rank bank => exact goes_moves (execPageIdlePrecharge_goes _ _ _ _ s) h
  | caAlert chan sub => exact goes_moves (execCaAlert_goes _ _ s) h
  | caReplayDone chan sub => exact goes_moves (execCaReplayDone_goes _ _ s) h
  | caConsecReset chan sub => exact goes_moves (execCaConsecReset_goes _ _ s) h
  | retrainDone chan ok => exact goes_moves (execRetrainDone_goes _ _ s) h
  | retrainTimeout chan => exact goes_moves (execRetrainTimeout_goes _ s) h
  | channelTrainingDone chan ok tr => exact goes_moves (execChannelTrainingDone_goes _ _ _ s) h
  | initGranuleDone granule => exact goes_moves (execInitGranuleDone_goes _ s) h
  | gateListCommit src list => exact goes_moves (execGateListCommit_goes _ _ s) h
  | gateListTakeover list => exact goes_moves (execGateListTakeover_goes _ s) h
  | gateIntervalBoundary list => exact goes_moves (execGateIntervalBoundary_goes _ s) h
  | tmgPcfgWrite src pitch value => exact goes_moves (execTmgPcfgWrite_goes _ _ _ s) h
  | linkFrameStart link => exact goes_moves (execLinkFrameStart_goes _ s) h
  | laneSoftFault port lane symbols => exact goes_moves (execLaneSoftFault_goes _ _ _ s) h
  | laneHardFault port lane => exact goes_moves (execLaneHardFault_goes _ _ s) h
  | lmapReq rx => exact goes_moves (execLmapReq_goes _ s) h
  | lmapAck rx => exact goes_moves (execLmapAck_goes _ s) h
  | lmapSwitch rx => exact goes_moves (execLmapSwitch_goes _ s) h
  | lmapSwitchPoint port => exact goes_moves (execLmapSwitchPoint_goes _ s) h
  | lmapDone rx => exact goes_moves (execLmapDone_goes _ s) h
  | lmapRefuse rx => exact goes_moves (execLmapRefuse_goes _ s) h
  | lmapSwapTimeout port => exact goes_moves (execLmapSwapTimeout_goes _ s) h
  | laneBringupTimeout port dark => exact goes_moves (execLaneBringupTimeout_goes _ _ s) h
  | peerAbsentRetry port => exact goes_moves (execPeerAbsentRetry_goes _ s) h
  | pcsLinkUp link => exact goes_moves (execPcsLinkUp_goes _ s) h
  | pcsLinkDown link => exact goes_moves (execPcsLinkDown_goes _ s) h
  | hello rx => exact goes_moves (execHello_goes _ s) h
  | helloSendTimer link => exact goes_moves (execHelloSendTimer_goes _ s) h
  | helloTimeout link => exact goes_moves (execHelloTimeout_goes _ s) h
  | klrData rx => exact goes_moves (execKlrData_goes _ s) h
  | klrStatus rx => exact goes_moves (execKlrStatus_goes _ s) h
  | klrAckDelayExpire link => exact goes_moves (execKlrAckDelayExpire_goes _ s) h
  | klrStatusPeriod link => exact goes_moves (execKlrStatusPeriod_goes _ s) h
  | klrReplayTimer link => exact goes_moves (execKlrReplayTimer_goes _ s) h
  | klrDownRetire port => exact goes_moves (execKlrDownRetire_goes _ s) h
  | ptpFrameRx link msg => exact goes_moves (execPtpFrameRx_goes _ _ s) h
  | ptpSyncTimeout => exact goes_moves (execPtpSyncTimeout_goes  s) h
  | arpNdRequest link nd target => exact goes_moves (execArpNdRequest_goes _ _ _ s) h
  | pauseFrameRx via => exact goes_moves (execPauseFrameRx_goes _ s) h
  | macFrameReject via encap fcsOk uncorr => exact goes_moves (execMacFrameReject_goes _ _ _ _ s) h
  | fabReflectReinject hdr payload plane fails => exact goes_moves (execFabReflectReinject_goes _ _ _ _ s) h
  | fabStarve router plane => exact goes_moves (execFabStarve_goes _ _ s) h
  | fabRtWrite src router bank plane dest value => exact goes_moves (execFabRtWrite_goes _ _ _ _ _ _ s) h
  | fabEpochGo src => exact goes_moves (execFabEpochGo_goes _ s) h
  | fabEpochSwitch => exact goes_moves (execFabEpochSwitch_goes  s) h
  | fabDrainCheck => exact goes_moves (execFabDrainCheck_goes  s) h
  | heartbeatTx peer mpLine => exact goes_moves (execHeartbeatTx_goes _ _ s) h
  | heartbeat f => exact goes_moves (execHeartbeat_goes _ s) h
  | guyLineLost peer mpLine => exact goes_moves (execGuyLineLost_goes _ _ s) h
  | mirrorSelfFence pitch => exact goes_moves (execMirrorSelfFence_goes _ s) h
  | mirrorTakeover pitch => exact goes_moves (execMirrorTakeover_goes _ s) h
  | probeTimer pitch => exact goes_moves (execProbeTimer_goes _ s) h
  | probe f => exact goes_moves (execProbe_goes _ s) h
  | probeResponse f => exact goes_moves (execProbeResponse_goes _ s) h
  | release f => exact goes_moves (execRelease_goes _ s) h
  | releaseResponse f => exact goes_moves (execReleaseResponse_goes _ s) h
  | mirrorData op f => exact goes_moves (execMirrorData_goes _ _ s) h
  | mirrorResponse op f => exact goes_moves (execMirrorResponse_goes _ _ s) h
  | resyncDone pitch => exact goes_moves (execResyncDone_goes _ s) h
  | powerOn => exact goes_moves (execPowerOn_goes  s) h
  | bootStepComplete flashOk badAddr slots => cases h; exact bootStep_moves hl _ _ _
  | bootStepTimeout => cases h; exact bootTimeout_moves hl
  | svnBurn => exact goes_moves (execSvnBurn_goes  s) h
  | flashRead src => exact goes_moves (execFlashRead_goes _ s) h
  | flashProgram src => exact goes_moves (execFlashProgram_goes _ s) h
  | flashErase src => exact goes_moves (execFlashErase_goes _ s) h
  | flashCmdDone ok => exact goes_moves (execFlashCmdDone_goes _ s) h
  | bootCheck src => exact goes_moves (execBootCheck_goes _ s) h
  | bootCheckDone flashOk badAddr => exact goes_moves (execBootCheckDone_goes _ _ s) h
  | chipResetCmd src key => exact goes_moves (execChipResetCmd_goes _ _ s) h
  | recoveryReset src key => exact goes_moves (execRecoveryReset_goes _ _ s) h
  | resetNPin ns => exact goes_moves (execResetNPin_goes _ s) h
  | powerDown ns => exact goes_moves (execPowerDown_goes _ s) h
  | tapReset => exact goes_moves (execTapReset_goes  s) h
  | recoveryAccess f => exact goes_moves (execRecoveryAccess_goes _ s) h
  | svcMgmtScopeWrite src value => exact goes_moves (execSvcMgmtScopeWrite_goes _ _ s) h
  | agtCntRead src agent => exact goes_moves (execAgtCntRead_goes _ _ s) h
  | fumMr5Extend src => exact goes_moves (execFumMr5Extend_goes _ s) h
  | cvuInit sc poly => exact goes_moves (execCvuInit_goes _ _ s) h
  | cvuCtrlPoly sc poly => exact goes_moves (execCvuCtrlPoly_goes _ _ s) h
  | cvuFeedB sc data => exact goes_moves (execCvuFeedB_goes _ _ s) h
  | cvuFeedH sc data => exact goes_moves (execCvuFeedH_goes _ _ s) h
  | cvuFeedW sc data => exact goes_moves (execCvuFeedW_goes _ _ s) h
  | cvuValueWrite sc data => exact goes_moves (execCvuValueWrite_goes _ _ s) h
  | svcWdogKick sc => exact goes_moves (execSvcWdogKick_goes _ s) h
  | watchdogExpire sram => exact goes_moves (execWatchdogExpire_goes _ s) h
  | svcRestartDone firmwareOk => exact goes_moves (execSvcRestartDone_goes _ s) h
  | scCacheParity sc again => exact goes_moves (execScCacheParity_goes _ _ s) h
  | dbgMemRead src => exact goes_moves (execDbgMemRead_goes _ s) h
  | dbgMemReadDone => exact goes_moves (execDbgMemReadDone_goes  s) h
  | dbgStoreCapture src addr => exact goes_moves (execDbgStoreCapture_goes _ _ s) h
  | traceSample => exact goes_moves (execTraceSample_goes  s) h
  | jtagMgmtAccess op addr data => exact goes_moves (execJtagMgmtAccess_goes _ _ _ s) h
  | idcode => exact goes_moves (execIdcode_goes  s) h
  | samplePreload bits => exact goes_moves (execSamplePreload_goes _ s) h
  | extest bits => exact goes_moves (execExtest_goes _ s) h
  | clamp => exact goes_moves (execClamp_goes  s) h
  | highz => exact goes_moves (execHighz_goes  s) h
  | bypass ir => exact goes_moves (execBypass_goes _ s) h
  | attestQuote f => exact goes_moves (execAttestQuote_goes _ s) h
  | attestQuoteSigned flow seq => exact goes_moves (execAttestQuoteSigned_goes _ _ s) h
  | ephKeyGenerated => exact goes_moves (execEphKeyGenerated_goes  s) h
  | keyDeliver f => exact goes_moves (execKeyDeliver_goes _ s) h
  | cocoonLoad f => exact goes_moves (execCocoonLoad_goes _ s) h
  | cocoonLoadDone pitch => exact goes_moves (execCocoonLoadDone_goes _ s) h
  | certGet f => exact goes_moves (execCertGet_goes _ s) h
  | adcFrame codes => exact goes_moves (execAdcFrame_goes _ s) h
  | feedReturn feedB => exact goes_moves (execFeedReturn_goes _ s) h
  | feedOffWrite src value => exact goes_moves (execFeedOffWrite_goes _ _ s) h
  | dieTempRead temps => exact goes_moves (execDieTempRead_goes _ s) h
  | modulePoll reads => exact goes_moves (execModulePoll_goes _ s) h
  | fanUpdate => exact goes_moves (execFanUpdate_goes  s) h
  | fanTachCount pulses => exact goes_moves (execFanTachCount_goes _ s) h
  | capDecision => exact goes_moves (execCapDecision_goes  s) h
  | clockStepRelock => exact goes_moves (execClockStepRelock_goes  s) h
  | pllUnlock pll => exact goes_moves (execPllUnlock_goes _ s) h
  | pllRelock pll => exact goes_moves (execPllRelock_goes _ s) h
  | collCloseResponse f => exact goes_moves (execCollCloseResponse_goes _ s) h
  | ptpMessageInterval link kind => exact goes_moves (execPtpMessageInterval_goes _ _ s) h
  | tokenRefillTick => exact goes_moves (execTokenRefillTick_goes  s) h
  | dbgStoreCaptureDone src => exact goes_moves (execDbgStoreCaptureDone_goes _ s) h

end Sys2Proof.Machine
end

