-- ==== Sys2Proof/Laws/SpecSource.lean ====
section
/-! SUPPORT. Lemmas for the statements: commands of a source: open, closed, scoped (R467). -/
namespace Sys2Proof.Machine

theorem asOperator_open {s src s'} (h1 : scopeOf s src = none) (h2 : srcOpen s src = true) (h3 : s.boot.step ≠ 15) : asOperator s src s' = s' := by
  simp [asOperator, fromSource, h1, h2, h3]

theorem fromSource_open {s src s'} (h2 : srcOpen s src = true) (h3 : s.boot.step ≠ 15) : fromSource s src s' = s' := by
  simp [fromSource, h2, h3]

theorem asOperator_scoped {s src s'} (h1 : scopeOf s src ≠ none) : asOperator s src s' = s := by
  cases h : scopeOf s src <;> simp_all [asOperator]

theorem sysWrite_rest (s : State) (o : Nat) (bs : List Byte) : (sysWrite s o bs).svc = s.svc ∧ (sysWrite s o bs).pitches = s.pitches ∧ (sysWrite s o bs).boot = s.boot := by
  unfold sysWrite; dsimp only; split <;> exact ⟨rfl, rfl, rfl⟩

theorem trace_rest (s : State) (a b c d : Nat) (e : List Byte) : (trace s a b c d e).svc = s.svc ∧ (trace s a b c d e).pitches = s.pitches ∧ (trace s a b c d e).boot = s.boot := by
  unfold trace; dsimp only; split
  · exact sysWrite_rest _ _ _
  · exact ⟨rfl, rfl, rfl⟩

theorem faultRec_rest (s : State) (i : FaultInfo) (hi : i.unit = none) : (faultRec s i).svc = s.svc ∧ (faultRec s i).pitches = s.pitches ∧ (faultRec s i).boot = s.boot := by
  unfold faultRec; dsimp only
  rw [hi]; dsimp only
  rw [(trace_rest _ _ _ _ _ _).1, (trace_rest _ _ _ _ _ _).2.1, (trace_rest _ _ _ _ _ _).2.2]
  split <;> (try split) <;> exact ⟨rfl, rfl, rfl⟩

theorem sourceOk_open {s src a v} (h1 : srcOpen s src = true) (h2 : recovering s = false) (h3 : src ≠ .image) : sourceOk s src a v = true := by
  unfold sourceOk; rw [if_neg h3, h1, h2]; rfl

theorem captureEnd_stored {s src} (h : s.dbg.capturing.find? (fun e => e.1 = src) = none) : captureEnd s src = s := by unfold captureEnd; rw [h]

end Sys2Proof.Machine
end

