-- ==== Sys2Proof/Laws/SpecBoard.lean ====
section
/-! SUPPORT. Lemmas for the statements: frames of conversions, feeds, temperatures, fans and clock decisions (R486 to R499). -/
namespace Sys2Proof.Machine

theorem periodic_rest (s : State) (e p : Nat) : (periodic s e p).csr = s.csr ∧ (periodic s e p).brd = s.brd ∧ (periodic s e p).boot = s.boot ∧
    (periodic s e p).crg = s.crg ∧ (periodic s e p).svc = s.svc ∧ (periodic s e p).dmc = s.dmc := ⟨rfl, rfl, rfl, rfl, rfl, rfl⟩

theorem regField_csr {s t : State} (h : t.csr = s.csr) (a o l n) : regField t a o l n = regField s a o l n := by
  unfold regField regGet; rw [h]

theorem regField_periodic (s : State) (e p a o l n) : regField (periodic s e p) a o l n = regField s a o l n := regField_csr rfl _ _ _ _

theorem map_upto_congr {α : Type} (n : Nat) (f g : Nat → α) (h : ∀ k, k < n → f k = g k) : (upto n).map f = (upto n).map g := by
  apply List.map_congr_left; intro a ha; exact h a (by simpa [upto] using ha)

def adcFrame_body (s : State) (code : Nat → Nat) (bad : Bool) (value : Nat → Int) (ain : List (Int × Nat)) (window : Nat) (power : Int) : State :=
  let s1 := brdMod s (fun b => { b with ain := ain })
  let s2 := if bad = true then bump0 s1 .brdAdcCal else s1
  let s3 := brdMod s2 (fun b => { b with powers := b.powers.filter (fun p => s.now < p.1 + window) ++ [(s.now, power)] })
  (List.range 4).foldl (fun s j => if halted s = true ∧ (!halted s3) = true then s
    else feedPair s (value (8 * j)) (value (8 * j + 4)) (s3.now - 16000 + 4000 * j)) s3

theorem feed_falls_iff (s : State) (f : Feed) (v : Int) (t : Nat) : feedFalls (feedSample s f v t) = true ↔ f.present = true ∧ v < feedUv s ∧ 2 ≤ f.lowRun := by
  unfold feedFalls feedSample; dsimp only
  by_cases h : v < feedUv s
  · simp [h]
  · simp [h]

theorem booting_rest (s t : State) (h : t.boot = s.boot) : booting t = booting s := by unfold booting; rw [h]

theorem now_nowTo (s : State) (x : Nat) : (nowTo s x).now = max s.now x := by show s.now + (x - s.now) = _; omega

theorem feed_of_put (f : Feed) (o : Bool) : (if (!o) = true then { f with on := true } else { f with on := false, present := false, lowRun := 0 } : Feed) =
    if o = true then { f with on := false, present := false, lowRun := 0 } else { f with on := true } := by cases o <;> rfl

theorem lt_foldl_max (l : List Nat) : ∀ (b x : Nat), x < l.foldl max b ↔ x < b ∨ ∃ a ∈ l, x < a := by
  induction l with
  | nil => intro b x; simp
  | cons c l ih => intro b x; rw [List.foldl_cons, ih]; simp only [List.mem_cons, exists_eq_or_imp, ← or_assoc]; exact or_congr (by omega) Iff.rfl

theorem lt_hottest (s : State) (x : Nat) : x < hottest s ↔ ∃ a ∈ s.brd.die, x < a := by
  unfold hottest; rw [lt_foldl_max]; simp

theorem fanForce_tripped (s : State) (h : s.brd.tripped = true) : fanForce s = brdMod s (fun b => { b with fans := b.fans.map (fun f => { f with duty := 100 }) }) := by
  unfold fanForce; rw [if_pos]; unfold fansFull; rw [h]; simp

def poll_end (s1 : State) : State :=
  let ms := (s1.brd.mods.filter (·.2.present)).map (·.2)
  let hot := ms.any (fun m => m.unknown || decide ((340 : Int) < m.temp))
  let cool := ms.all (fun m => !m.unknown && decide (m.temp ≤ (328 : Int)))
  let s2 := dmcMod s1 (fun d => { d with hotNext := d.hotNext || hot, coolSince := if cool then some (d.coolSince.getD s1.now) else none })
  tripWhen (ms.any (fun m => decide (2 ≤ m.excess))) (fanForce s2)

theorem poll_exec (s : State) (reads : List (Option (BitVec 12 × BitVec 16))) : exec (.modulePoll reads) s = .next
    (poll_end ((List.range 32).foldl (fun x k => modulePolled x k ((reads[k]?).getD none)) (periodic s 9 8000000))) := by
  show Host.Outcome.next (modulePoll s reads) = _
  unfold modulePoll
  generalize periodic s 9 8000000 = x
  dsimp only; unfold foldN
  generalize (List.range 32).foldl (fun x k => modulePolled x k ((reads[k]?).getD none)) x = u
  rfl

theorem foldl_max_le (l : List Int) : ∀ (b x : Int), l.foldl max b ≤ x ↔ b ≤ x ∧ ∀ a ∈ l, a ≤ x := by
  induction l with
  | nil => intro b x; simp
  | cons c l ih => intro b x; rw [List.foldl_cons, ih]; simp only [List.mem_cons, forall_eq_or_imp]; constructor
                   · rintro ⟨h, k⟩; exact ⟨by omega, by omega, k⟩
                   · rintro ⟨h, h2, k⟩; exact ⟨by omega, k⟩

theorem foldl_max_mem (l : List Int) : ∀ (b : Int), l.foldl max b = b ∨ l.foldl max b ∈ l := by
  induction l with
  | nil => intro b; simp
  | cons c l ih =>
    intro b; rw [List.foldl_cons]
    rcases ih (max b c) with h | h
    · rw [h]; rcases le_total b c with k | k
      · right; rw [max_eq_right k]; simp
      · left; exact max_eq_left k
    · right; exact List.mem_cons_of_mem _ h

theorem fan_temp (s : State) : ((hottest s : Int) * 5 - 800 ≤ fanTemp s) ∧ (∀ x, hottestModule s = some x → x * 10 ≤ fanTemp s) ∧
    (∀ k, k < 8 → (regField s brdAgent 0x500 24 8).testBit k = true → ainValue s (16 + k) * 4 ≤ fanTemp s) ∧
    (fanTemp s = (hottest s : Int) * 5 - 800 ∨ (∃ x, hottestModule s = some x ∧ fanTemp s = x * 10) ∨
      (∃ k, k < 8 ∧ (regField s brdAgent 0x500 24 8).testBit k = true ∧ fanTemp s = ainValue s (16 + k) * 4)) := by
  have key := (foldl_max_le ((match hottestModule s with | some t => [t * 10] | none => []) ++
    ((upto 8).filter (fun k => (regField s brdAgent 0x500 24 8).testBit k)).map (fun k => ainValue s (16 + k) * 4)) ((hottest s : Int) * 5 - 800) (fanTemp s)).1 (le_refl _)
  have mem := foldl_max_mem ((match hottestModule s with | some t => [t * 10] | none => []) ++
    ((upto 8).filter (fun k => (regField s brdAgent 0x500 24 8).testBit k)).map (fun k => ainValue s (16 + k) * 4)) ((hottest s : Int) * 5 - 800)
  refine ⟨key.1, ?_, ?_, ?_⟩
  · intro x hx; apply key.2; rw [hx]; simp
  · intro k hk hb; apply key.2; apply List.mem_append_right
    exact List.mem_map.2 ⟨k, List.mem_filter.2 ⟨by simpa [upto] using hk, hb⟩, rfl⟩
  · rcases mem with h | h
    · exact .inl h
    · rcases List.mem_append.1 h with h | h
      · right; left
        cases hx : hottestModule s with
        | none => rw [hx] at h; cases h
        | some x =>
          simp only [hx] at h
          refine ⟨x, rfl, ?_⟩
          have h' := List.mem_singleton.1 h
          unfold fanTemp; dsimp only; rw [hx]; exact h'
-- (show _ = _ from List.mem_singleton.1 (show _ ∈ [x * 10] from h)) ▸ (by unfold fanTemp; rw [hx])⟩
      · right; right
        obtain ⟨k, hk, e⟩ := List.mem_map.1 h
        obtain ⟨a, b⟩ := List.mem_filter.1 hk
        exact ⟨k, by simpa [upto] using a, b, e.symm⟩

theorem fan_duty (s : State) (t : Int) :
    let least := regField s brdAgent 0x500 0 7
    let lo : Int := (regField s brdAgent 0x500 8 7 : Nat) * 40
    let hi : Int := (regField s brdAgent 0x500 16 7 : Nat) * 40
    (t ≤ lo → fanDuty s t = least) ∧ (lo < t → hi ≤ t → fanDuty s t = 100) ∧
    (lo < t → t < hi → least ≤ 100 → least ≤ fanDuty s t ∧ fanDuty s t ≤ 100 ∧
      ((100 - least : Nat) : Int) * (t - lo) ≤ ((fanDuty s t - least : Nat) : Int) * (hi - lo) ∧
      (((fanDuty s t - least : Nat) : Int) - 1) * (hi - lo) < ((100 - least : Nat) : Int) * (t - lo)) := by
  intro least lo hi
  refine ⟨?_, ?_, ?_⟩
  · intro h; unfold fanDuty; dsimp only; rw [if_pos h]
  · intro h h2; unfold fanDuty; dsimp only; rw [if_neg (show ¬ t ≤ lo by omega), if_pos (show hi ≤ t from h2)]
  · intro h h2 h3
    have e : fanDuty s t = least + ((100 - least) * (t - lo).toNat + (hi - lo).toNat - 1) / (hi - lo).toNat := by
      unfold fanDuty; dsimp only; rw [if_neg (show ¬ t ≤ lo by omega), if_neg (show ¬ hi ≤ t by omega)]
    rw [e]
    clear_value lo hi least
    obtain ⟨d, hd⟩ : ∃ d : Nat, hi - lo = d := ⟨(hi - lo).toNat, by omega⟩
    obtain ⟨x, hx⟩ : ∃ x : Nat, t - lo = x := ⟨(t - lo).toNat, by omega⟩
    rw [hd, hx]
    simp only [Int.toNat_natCast, Nat.add_sub_cancel_left]
    have hd0 : 0 < d := by omega
    have hxd : x < d := by omega
    have hx0 : 0 < x := by omega
    set m := 100 - least with hm
    have hdm := Nat.div_add_mod (m * x + d - 1) d
    have hlt := Nat.mod_lt (m * x + d - 1) hd0
    set q := (m * x + d - 1) / d with hq
    have hmx : m * x ≤ m * d := Nat.mul_le_mul_left _ (by omega)
    have q1 : m * x ≤ q * d := by rw [Nat.mul_comm q d]; omega
    have q2 : d * q ≤ m * x + d - 1 := by omega
    refine ⟨Nat.le_add_right _ _, ?_, ?_, ?_⟩
    · have : q ≤ m := by
        by_contra hc
        have : (m + 1) * d ≤ q * d := Nat.mul_le_mul_right _ (by omega)
        have e3 : (m + 1) * d = m * d + d := Nat.succ_mul _ _
        rw [Nat.mul_comm q d] at this
        omega
      omega
    · exact_mod_cast q1
    · have : q * d < m * x + d := by rw [Nat.mul_comm q d]; omega
      have h' : (q : Int) * d < m * x + d := by exact_mod_cast this
      linarith

def fanOne (pulses : List (BitVec 32)) (x : State) (n : Nat) : State :=
  if !fanEnabled x n then x
  else
    let cfg := 0x510 + 4 * n
    let rpm := ((pulses[n]?).getD 0).toNat * 60 / (regField x brdAgent cfg 1 2 + 1)
    let f := (x.brd.fans[n]?).getD {}
    let slow := decide (rpm < regField x brdAgent cfg 16 16)
    let below := if slow then f.below + 1 else 0
    let above := if slow then 0 else f.above + 1
    let low := if f.low then decide (above < 2) else decide (2 ≤ below)
    let s1 := brdMod x (fun b => { b with fans := lset b.fans n { f with rpm := min 0xFFFF rpm, below := below, above := above, low := low } })
    if low ∧ !f.low then bump0 s1 .brdFanLow else s1

theorem tach_exec (s : State) (pulses) : exec (.fanTachCount pulses) s = .next (fanForce (foldN 8 (fanOne pulses) (periodic s 5 1000000000))) := by
  show Host.Outcome.next (fanTach s pulses) = _
  unfold fanTach fanOne; rfl

theorem tach_one (pulses : List (BitVec 32)) (x : State) (n : Nat) : fanOne pulses x n =
      (let rpm := ((pulses[n]?).getD 0).toNat * 60 / (regField x brdAgent (0x510 + 4 * n) 1 2 + 1)
      let f := (x.brd.fans[n]?).getD {}
      let min_ := regField x brdAgent (0x510 + 4 * n) 16 16
      let put (g : Fan) : State := brdMod x (fun b => { b with fans := lset b.fans n g })
      if regField x brdAgent (0x510 + 4 * n) 0 1 ≠ 1 then x
      else if rpm < min_ then
        (let g : Fan := { f with rpm := min 0xFFFF rpm, below := f.below + 1, above := 0, low := f.low || decide (1 ≤ f.below) }
         if f.low = false ∧ 1 ≤ f.below then bump0 (put g) .brdFanLow else put g)
      else put { f with rpm := min 0xFFFF rpm, below := 0, above := f.above + 1, low := f.low && decide (f.above = 0) }) := by
  unfold fanOne fanEnabled; dsimp only
  by_cases h1 : regField x brdAgent (0x510 + 4 * n) 0 1 = 1
  · rw [if_neg (show ¬ (!decide (regField x brdAgent (0x510 + 4 * n) 0 1 = 1)) = true by rw [h1]; decide), if_neg (show ¬ (regField x brdAgent (0x510 + 4 * n) 0 1 ≠ 1) by rw [h1]; simp)]
    generalize (x.brd.fans[n]?).getD {} = f
    by_cases h2 : ((pulses[n]?).getD 0).toNat * 60 / (regField x brdAgent (0x510 + 4 * n) 1 2 + 1) < regField x brdAgent (0x510 + 4 * n) 16 16
    · rw [if_pos h2]; simp only [decide_eq_true h2, if_true]
      have e : (if f.low = true then decide (0 < 2) else decide (2 ≤ f.below + 1)) = (f.low || decide (1 ≤ f.below)) := by
        cases f.low
        · show decide _ = (false || decide _); rw [Bool.false_or, decide_eq_decide]; omega
        · rfl
      rw [e]
      cases hl : f.low <;> by_cases hb : 1 ≤ f.below <;> simp [hb]
    · rw [if_neg h2]; simp only [decide_eq_false h2, if_false, Bool.false_eq_true]
      have e : (if f.low = true then decide (f.above + 1 < 2) else decide (2 ≤ 0)) = (f.low && decide (f.above = 0)) := by
        cases f.low
        · rfl
        · show decide _ = (true && decide _); rw [Bool.true_and, decide_eq_decide]; omega
      rw [e]
      cases hl : f.low <;> by_cases hb : f.above = 0 <;> simp [hb]
  · rw [if_pos (show (!decide (regField x brdAgent (0x510 + 4 * n) 0 1 = 1)) = true by simpa using h1), if_pos h1]

theorem genOf_csr (s : State) (a b : Nat) : (periodic s a b).csr = s.csr := rfl

theorem genOf_brd (s : State) (a b : Nat) : (periodic s a b).brd = s.brd := rfl

theorem fan_general (s : State) : fanUpdate s = fanForce (brdMod (periodic s 4 100000000) (fun b => { b with fans := (upto 8).map (fun n =>
        { (b.fans[n]?).getD {} with duty := if fanEnabled s n then fanDuty s (fanTemp s) else 100 }) })) := by
  have h2 : ∀ (a : State) (b c d : Nat), fanTemp (nowTo { a with ticks := tset 0 a.ticks b c } d) = fanTemp a := fun _ _ _ _ => rfl
  have h3 : ∀ (a : State) (b c d : Nat) (x : Int), fanDuty (nowTo { a with ticks := tset 0 a.ticks b c } d) x = fanDuty a x := fun _ _ _ _ _ => rfl
  have h4 : ∀ (a : State) (b c d n : Nat), fanEnabled (nowTo { a with ticks := tset 0 a.ticks b c } d) n = fanEnabled a n := fun _ _ _ _ _ => rfl
  unfold fanUpdate periodic; dsimp only; simp only [h2, h3, h4]

def ClockBody (s : State) : State :=
  if s.crg.stepping ∨ s.svc.restarting ∨ s.boot.step < 5 ∨ recovering s then s
  else
    let c := clockChoice s
    let s1 := brdMod s (fun b => { b with throttling := c.throttle, capFloor := c.floor, quiet := c.quiet })
    let s2 := if c.throttle then bump0 s1 .brdThrottle else s1
    if c.target = gridFreq s then s2
    else
      let s3 := brdMod s2 (fun b => { b with stepAt := some s.now, quiet := 0 })
      crgMod s3 (fun x => { x with target := some c.target, stepping := true, lock := x.lock &&& 0xF9 })

theorem clockDecision_exec (s : State) : exec .capDecision s = .next (ClockBody (periodic s 6 1000000)) := by
  show Host.Outcome.next (capDecision s) = _
  unfold capDecision ClockBody; rfl

def preTarget (s : State) (now : Nat) : Int :=
  let f : Int := (gridFreq s : Int)
  let limit := regField s brdAgent 0x110 0 12
  let stepW := regField s brdAgent 0x110 12 6
  let hyst := regField s brdAgent 0x110 18 6
  let hold := regField s brdAgent 0x110 24 8
  let window := regField s brdAgent 0x114 0 6
  let fmax : Int := ((min gradeMax (regField s brdAgent 0x114 16 5) : Nat) : Int)
  let throttleAt := regField s brdAgent 0x118 0 8 * 8
  let p := powerSum s
  let excess : Int := p.1 - ((limit * 10 * p.2 : Nat) : Int)
  let rested : Bool := match s.brd.stepAt with
    | none => true
    | some t => decide (t + window * 1000000 ≤ now)
  let t1 : Int := if 0 < limit ∧ 0 < excess ∧ rested then f - (ceilDiv excess.toNat (stepW * 10 * p.2) : Nat) else f
  let throttle := decide (throttleAt < hottest s)
  let t2 := if throttle then min t1 (f - 1) else t1
  let t3 := min t2 fmax
  let calm := (decide (limit = 0) || decide (excess + ((hyst * 10 * p.2 : Nat) : Int) ≤ 0)) && decide (hottest s + 24 ≤ throttleAt)
  let quiet := if calm then s.brd.quiet + 1 else 0
  if t3 = f ∧ f < fmax ∧ hold ≤ quiet then f + 1 else t3

theorem choice_floor (s : State) : (clockChoice s).floor = decide (preTarget s s.now < (regField s brdAgent 0x114 8 5 : Nat)) ∧
   (clockChoice s).target = (max (preTarget s s.now) (regField s brdAgent 0x114 8 5 : Nat)).toNat ∧
   (clockChoice s).throttle = decide (regField s brdAgent 0x118 0 8 * 8 < hottest s) := ⟨rfl, rfl, rfl⟩

theorem ceil_eq (e b d : Nat) (hb : 0 < b) (h1 : e ≤ d * b) (h2 : d * b < e + b) : ceilDiv e b = d := by
  unfold ceilDiv; rw [if_neg (by omega)]
  apply Nat.div_eq_of_lt_le
  · omega
  · rw [Nat.succ_mul]; omega

theorem cap_facts (u : State) (hcond : ¬ (u.crg.stepping = true ∨ u.svc.restarting = true ∨ u.boot.step < 5 ∨ recovering u = true)) :
    (ClockBody u).brd.throttling = (clockChoice u).throttle ∧ (ClockBody u).brd.capFloor = (clockChoice u).floor ∧
        ((clockChoice u).target = gridFreq u → (ClockBody u).crg = u.crg ∧ (ClockBody u).brd.quiet = (clockChoice u).quiet ∧ (ClockBody u).brd.stepAt = u.brd.stepAt) ∧
        ((clockChoice u).target ≠ gridFreq u → (ClockBody u).crg = { u.crg with target := some (clockChoice u).target, stepping := true, lock := u.crg.lock &&& 0xF9 } ∧
          (ClockBody u).brd.quiet = 0 ∧ (ClockBody u).brd.stepAt = some u.now) := by
  unfold ClockBody; rw [if_neg hcond]; dsimp only
  generalize clockChoice u = c
  cases c with
  | mk th fl q tg =>
    dsimp only
    by_cases ht : tg = gridFreq u
    · rw [if_pos ht]; cases th
      · exact ⟨rfl, rfl, fun _ => ⟨rfl, rfl, rfl⟩, fun h => absurd ht h⟩
      · exact ⟨rfl, rfl, fun _ => ⟨rfl, rfl, rfl⟩, fun h => absurd ht h⟩
    · rw [if_neg ht]; cases th
      · exact ⟨rfl, rfl, fun h => absurd h ht, fun _ => ⟨rfl, rfl, rfl⟩⟩
      · exact ⟨rfl, rfl, fun h => absurd h ht, fun _ => ⟨rfl, rfl, rfl⟩⟩

def preForm (f fmax d : Int) (hold quiet : Nat) (power hot : Bool) : Int :=
  let t1 := if power = true then f - d else f
  let t2 := if hot = true then min t1 (f - 1) else t1
  if min t2 fmax = f ∧ f < fmax ∧ hold ≤ quiet then f + 1 else min t2 fmax

theorem pre_arith (f fmax d : Int) (hd : 0 ≤ d) (hold quiet : Nat) (power hot : Bool) :
    let g := preForm f fmax d hold quiet power hot
    (power = false → hot = false → (g = f ∨ g = fmax ∨ g = f + 1)) ∧
    (power = true → hot = false → f ≤ fmax → 1 ≤ d → g = f - d) ∧
    (hot = true → g ≤ f - 1) ∧ (power = false → hot = true → f ≤ fmax + 1 → g = f - 1) ∧
    (g = f + 1 → hot = false ∧ hold ≤ quiet ∧ f < fmax) ∧
    (power = false → hot = false → f < fmax → hold ≤ quiet → g = f + 1) ∧ (power = false → hot = false → f ≤ fmax → quiet < hold → g = f) ∧ (fmax < f → g ≤ fmax) ∧ g ≤ f + 1 := by
  unfold preForm
  cases power <;> cases hot <;> simp <;> (refine ⟨?_, ?_⟩ <;> (try split)) <;> omega

def restedB (s : State) (now : Nat) : Bool := match s.brd.stepAt with
  | none => true
  | some t => decide (t + regField s brdAgent 0x114 0 6 * 1000000 ≤ now)

def excessI (s : State) : Int := (powerSum s).1 - ((regField s brdAgent 0x110 0 12 * 10 * (powerSum s).2 : Nat) : Int)

def calmB (s : State) : Bool := (decide (regField s brdAgent 0x110 0 12 = 0) || decide (excessI s + ((regField s brdAgent 0x110 18 6 * 10 * (powerSum s).2 : Nat) : Int) ≤ 0)) && decide (hottest s + 24 ≤ regField s brdAgent 0x118 0 8 * 8)

def quietN (s : State) : Nat := if calmB s = true then s.brd.quiet + 1 else 0

def powerB (s : State) (now : Nat) : Bool := decide (0 < regField s brdAgent 0x110 0 12 ∧ 0 < excessI s ∧ restedB s now = true)

def stepsN (s : State) : Nat := ceilDiv (excessI s).toNat (regField s brdAgent 0x110 12 6 * 10 * (powerSum s).2)

theorem pre_form (s : State) (now : Nat) : preTarget s now = preForm (gridFreq s : Int) ((min gradeMax (regField s brdAgent 0x114 16 5) : Nat) : Int) (stepsN s : Nat)
    (regField s brdAgent 0x110 24 8) (quietN s) (powerB s now) (decide (regField s brdAgent 0x118 0 8 * 8 < hottest s)) := by
  unfold preForm
  have : (if powerB s now = true then (gridFreq s : Int) - (stepsN s : Nat) else (gridFreq s : Int)) =
     if 0 < regField s brdAgent 0x110 0 12 ∧ 0 < excessI s ∧ restedB s now = true then (gridFreq s : Int) - (stepsN s : Nat) else (gridFreq s : Int) := by
    unfold powerB; exact if_congr decide_eq_true_iff rfl rfl
  rw [this]; rfl

theorem quiet_form (s : State) : (clockChoice s).quiet = quietN s := rfl

theorem n_form (s : State) (a : Nat) : ((a * 10 * (powerSum s).2 : Nat) : Int) = ((a : Int) * 10) * ((powerSum s).2 : Nat) := by push_cast; rfl

theorem excess_form (s : State) : excessI s = (powerSum s).1 - ((regField s brdAgent 0x110 0 12 : Nat) : Int) * 10 * ((powerSum s).2 : Nat) := by
  unfold excessI; rw [n_form]

theorem rested_iff (s : State) (now : Nat) : restedB s now = true ↔ ∀ x, s.brd.stepAt = some x → x + regField s brdAgent 0x114 0 6 * 1000000 ≤ now := by
  unfold restedB; cases s.brd.stepAt <;> simp

theorem power_iff (s : State) (now : Nat) : powerB s now = true ↔ (0 < ((regField s brdAgent 0x110 0 12 : Nat) : Int) * 10 ∧
    ((regField s brdAgent 0x110 0 12 : Nat) : Int) * 10 * ((powerSum s).2 : Nat) < (powerSum s).1 ∧ ∀ x, s.brd.stepAt = some x → x + regField s brdAgent 0x114 0 6 * 1000000 ≤ now) := by
  unfold powerB; rw [decide_eq_true_iff, rested_iff, excess_form]
  exact and_congr (by omega) (and_congr (by omega) Iff.rfl)

theorem calm_iff (s : State) : calmB s = true ↔ (((regField s brdAgent 0x110 0 12 : Nat) : Int) * 10 = 0 ∨
    (powerSum s).1 ≤ (((regField s brdAgent 0x110 0 12 : Nat) : Int) * 10 - ((regField s brdAgent 0x110 18 6 : Nat) : Int) * 10) * ((powerSum s).2 : Nat)) ∧
    hottest s + 24 ≤ regField s brdAgent 0x118 0 8 * 8 := by
  unfold calmB; rw [n_form, excess_form, Int.sub_mul]
  simp only [Bool.and_eq_true, Bool.or_eq_true, decide_eq_true_eq]
  exact and_congr (or_congr (by omega) (by omega)) Iff.rfl

theorem steps_eq (s : State) (now k : Nat) (hw : powerB s now = true) (hs : 0 < ((regField s brdAgent 0x110 12 6 : Nat) : Int) * 10)
    (h1 : ((k : Int) - 1) * (((regField s brdAgent 0x110 12 6 : Nat) : Int) * 10 * ((powerSum s).2 : Nat)) < (powerSum s).1 - ((regField s brdAgent 0x110 0 12 : Nat) : Int) * 10 * ((powerSum s).2 : Nat))
    (h2 : (powerSum s).1 - ((regField s brdAgent 0x110 0 12 : Nat) : Int) * 10 * ((powerSum s).2 : Nat) ≤ (k : Int) * (((regField s brdAgent 0x110 12 6 : Nat) : Int) * 10 * ((powerSum s).2 : Nat))) :
    stepsN s = k ∧ 1 ≤ k := by
  have hx : 0 < excessI s := by have := (decide_eq_true_iff.1 hw); exact this.2.1
  rw [← excess_form] at h1 h2
  have hn1 : 1 ≤ (powerSum s).2 := by unfold powerSum; exact Nat.le_max_left _ _
  have hb := n_form s (regField s brdAgent 0x110 12 6)
  rw [← hb] at h1 h2
  have hbp : 0 < regField s brdAgent 0x110 12 6 * 10 * (powerSum s).2 := Nat.mul_pos (by omega) hn1
  unfold stepsN
  generalize regField s brdAgent 0x110 12 6 * 10 * (powerSum s).2 = b at *
  generalize excessI s = e at *
  have hk : 1 ≤ k := by
    rcases Nat.eq_zero_or_pos k with rfl | h
    · simp at h2; omega
    · exact h
  refine ⟨ceil_eq _ _ _ hbp ?_ ?_, hk⟩
  · have : ((e.toNat : Nat) : Int) ≤ ((k * b : Nat) : Int) := by rw [Nat.cast_mul, Int.toNat_of_nonneg (by omega)]; exact h2
    exact_mod_cast this
  · have : ((k * b : Nat) : Int) < ((e.toNat + b : Nat) : Int) := by
      rw [Nat.cast_mul, Nat.cast_add, Int.toNat_of_nonneg (by omega)]; rw [Int.sub_mul] at h1; omega
    exact_mod_cast this

end Sys2Proof.Machine
end

