-- ==== Sys2Proof/Laws/SpecRequest.lean ====
section
/-! SUPPORT. Lemmas for the statements: a request that passes its checks runs its body, and what writing lines changes (R63, R131, R164, R227). -/
namespace Sys2Proof.Machine

theorem takeTracker_go {s r t q} (h : takeTracker s r = .go t q) : q = r := by
  unfold takeTracker at h; split at h
  · cases h; rfl
  · split at h
    · cases h
    · cases h; rfl

theorem check8_go {s r fl t q} (h : check8 s r fl = .go t q) : q = r := by
  unfold check8 at h; split at h <;> try cases h
  · exact takeTracker_go h
  · split at h
    · exact takeTracker_go h
    · cases h
    · split at h <;> cases h

theorem enterFlow_go {s r t q} (h : enterFlow s r = .go t q) : q = r := by
  unfold enterFlow at h; split at h
  · cases h
  · split at h
    · exact check8_go h
    · split at h
      · exact takeTracker_go h
      · split at h
        · cases h
        · exact check8_go h

theorem receive_anyOpcode {s op f t r} (h : receive s op f = .go t r) : r.op = op := by
  unfold receive at h
  dsimp only at h
  split at h; · cases h
  split at h; · cases h
  split at h; · cases h
  split at h; · cases h
  split at h; · cases h
  split at h
  · split at h
    · cases h
    · cases h
    · split at h
      · cases h
      · rw [enterFlow_go h]; rfl
    · split at h
      · cases h
      · rw [enterFlow_go h]; rfl
  · split at h
    · cases h
    · rw [enterFlow_go h]; rfl

theorem withRequest_go {s op f body t r} (h : receive s op f = .go t r) : withRequest s op f body = ackNow (body t r) r.flow := by
  simp [withRequest, h]

theorem checks_go {t r body} {lg ag : Bool} (ho : opKnown r.op = true) (h1 : flagMisuse t r = false) (h2 : permitted t r = true) (h3 : lg = true)
    (h4 : ag = true) (h6 : pitchCheck t r = none) : checks t r lg ag body = body t := by
  simp [checks, h1, h2, h3, h4, h6, ho]

theorem memRequest_go {s op f t r} (h0 : receive s op f = .go t r) (h : Checked t r) (h3 : lenOk t r = true) (h4 : alignOk t r = true) (ho : opKnown op = true) (h21 : op ≠ 0x21) (h23 : op ≠ 0x23) (h32 : op ≠ 0x32) :
    memRequest s op f = ackNow (memExec t r) r.flow := by
  obtain ⟨h1, h2, h5, h6⟩ := h
  have e := receive_anyOpcode h0
  unfold memRequest; rw [withRequest_go h0]; simp only [if_neg h21, if_neg h23, if_neg h32]
  rw [checks_go (by rw [e]; exact ho) h1 h2 h3 h4 h6]

theorem kppWrite_go {s op f t r} (h0 : receive s op f = .go t r) (h : Checked t r) (h3 : lenOk t r = true) (h4 : alignOk t r = true) (ho : opKnown op = true) (h21 : op ≠ 0x21) (h23 : op ≠ 0x23) :
    kppWrite s op f = settle (ackNow (memExec t r) r.flow) := by
  obtain ⟨h1, h2, h5, h6⟩ := h
  have e := receive_anyOpcode h0
  unfold kppWrite; rw [withRequest_go h0]; simp only [if_neg h21, if_neg h23]
  rw [checks_go (by rw [e]; exact ho) h1 h2 h3 h4 h6]; simp [h5]

theorem memExec_go {t r ps sl u} (h : check14 t r (needsOf t r) = .ok ps sl) (ho : obtainLines t r ((ps[0]?).getD []) ((ps[1]?).getD []) = (u, true))
  (h30 : r.op ≠ 0x30) : memExec t r = releaseLines (
        if r.op.toNat = 0x01 then streamOut u r r.address.toNat ((ps[0]?).getD [])
        else if r.op.toNat = 0x02 then runWrite u r ((ps[0]?).getD [])
        else if r.op.toNat = 0x03 then runNotify u r ((ps[0]?).getD []) ((ps[1]?).getD [])
        else if isAtomic r.op then runAtomic u r ((ps[0]?).getD [])
        else if r.op.toNat = 0x20 then
          streamOut u r 0 (rowPieces (readDesc r.payload 0) (descReach u r (readDesc r.payload 0)) ((ps[0]?).getD []) (rowFuel (readDesc r.payload 0) r.length.toNat) 0 r.length.toNat)
        else if r.op.toNat = 0x21 then runPut u r ((ps[0]?).getD [])
        else if r.op.toNat = 0x22 then runCopy u r ((ps[0]?).getD []) ((ps[1]?).getD [])
        else
          match tlbFind u sl r.pitch.toNat r.address.toNat with
          | some t => issueHandle u r sl r.address.toNat t
          | none => u) r := by
  unfold memExec
  have h3 : ¬ (r.op.toNat = 0x30) := fun e => h30 (BitVec.eq_of_toNat_eq e)
  simp only [h3, false_and, if_false, h]
  simp only [ho]; rfl

theorem ready_mem {s op f r ps u} (h : Ready s op f r ps u) (ho : opKnown op = true) (h21 : op ≠ 0x21) (h23 : op ≠ 0x23) (h32 : op ≠ 0x32) :
    ∃ t sl, r.op = op ∧ memRequest s op f = ackNow (memExec t r) r.flow ∧ kppWrite s op f = settle (ackNow (memExec t r) r.flow) ∧ check14 t r (needsOf t r) = .ok ps sl ∧
    obtainLines t r ((ps[0]?).getD []) ((ps[1]?).getD []) = (u, true) := by
  obtain ⟨t, h0, hc, h3, h4, ⟨sl, h14⟩, hl⟩ := h
  exact ⟨t, sl, receive_anyOpcode h0, memRequest_go h0 hc h3 h4 ho h21 h23 h32, kppWrite_go h0 hc h3 h4 ho h21 h23, h14, hl⟩

theorem fp_opcodes_ne {a b : Byte} (h : a.toNat ≠ b.toNat) : a ≠ b := fun e => h (by rw [e])

theorem atomic_answers {s op f r ps u} (h : Ready s op f r ps u) (ho : opKnown op = true) (h21 : op ≠ 0x21) (h23 : op ≠ 0x23) (h32 : op ≠ 0x32)
   (ia : isAtomic op = true) (n1 : op.toNat ≠ 1) (n2 : op.toNat ≠ 2) (n3 : op.toNat ≠ 3) (n30 : op ≠ 0x30) :
   r.op = op ∧ Host.Outcome.next (φ := Fault) (ρ := Refusal) (settle (memRequest s op f)) = operated (runAtomic u r ((ps[0]?).getD [])) r := by
  obtain ⟨t, sl, e, hk, -, h14, hl⟩ := ready_mem h ho h21 h23 h32
  have go := memExec_go h14 hl (by rw [e]; exact n30)
  rw [e] at go; simp only [n1, n2, n3, ia, if_false, if_true] at go
  refine ⟨e, ?_⟩; rw [hk, go]; rfl

theorem atomic_integer {u : State} {r : Req} {p : List Piece} {op : Byte} (e : r.op = op) (hb : firstBad u r.context (pieceLines p) = none) (hi : isIntAtomic op = true)
   (x : Nat) (hx : atomInt op r.length.toNat (leNat (piecesBytes u p)) (beAt r.payload (if op = 0x12 then r.length.toNat else 0) r.length.toNat) (beAt r.payload 0 r.length.toNat) = x) :
   runAtomic u r p = completeWrite (queueWrites (writePieces u r.pitch.toNat r.context p (leBytes r.length.toNat x)) r (pieceLines p)) r
      [((reach u r r.address.toNat).getD r.address.toNat, r.length.toNat)] (beBytes r.length.toNat (leNat (piecesBytes u p))) := by
  unfold runAtomic; simp only [hb]; subst x; subst e; simp only [atomApply, hi, if_true]; rfl

theorem atomic_float {u : State} {r : Req} {p : List Piece} {op : Byte} (e : r.op = op) (hb : firstBad u r.context (pieceLines p) = none) (hi : isIntAtomic op = false)
   (k : Nat) (hk : atomElem op = k) (g : Nat → Nat → Nat) (hg : ∀ a b, (if k = 4 then addF32 a b else addBf16 a b) = g a b) :
   runAtomic u r p = completeWrite (queueWrites (writePieces u r.pitch.toNat r.context p 
      ((upto ((piecesBytes u p).length / k)).zip (upto (r.payload.length / k)) |>.flatMap (fun i =>
        leBytes k (g (leNat (((piecesBytes u p).drop (k * i.1)).take k)) (beNat ((r.payload.drop (k * i.2)).take k)))))
   ) r (pieceLines p)) r
      [((reach u r r.address.toNat).getD r.address.toNat, r.length.toNat)] ((upto ((piecesBytes u p).length / k)).flatMap (fun i => (((piecesBytes u p).drop (k * i)).take k).reverse)) := by
  unfold runAtomic; simp only [hb]; subst e; simp only [atomApply, hi]
  simp only [hk, hg, Bool.false_eq_true, if_false]
  have z : (elems k (piecesBytes u p)).zip (elems k r.payload) = ((upto ((piecesBytes u p).length / k)).zip (upto (r.payload.length / k))).map (fun i => (((piecesBytes u p).drop (k * i.1)).take k, (r.payload.drop (k * i.2)).take k)) := by
    simp [elems, List.zip_map, Nat.mul_comm]
  rw [z]; simp only [elems, List.flatMap_map, Nat.mul_comm]; rfl

theorem tget_putBytes (bs : List Byte) : ∀ (m : Tab Byte) (a x : Nat),
    tget 0 (putBytes m a bs) x = if h : a ≤ x ∧ x < a + bs.length then bs[x - a]'(by omega) else tget 0 m x := by
  induction bs with
  | nil => intro m a x; simp [putBytes]
  | cons b t ih =>
    intro m a x; simp only [putBytes, ih, List.length_cons]
    by_cases h1 : a + 1 ≤ x ∧ x < a + 1 + t.length
    · rw [dif_pos h1, dif_pos (by omega)]
      have : x - a = (x - (a+1)) + 1 := by omega
      simp [this]
    · rw [dif_neg h1]
      by_cases h2 : x = a
      · subst h2; simp
      · rw [dif_neg (by omega), tget_tset_other]; exact h2

theorem memByte_memPut (s : State) (a : Nat) (bs : List Byte) (x : Nat) :
    memByte (memPut s a bs) x = if h : a ≤ x ∧ x < a + bs.length then bs[x - a]'(by omega) else memByte s x := tget_putBytes bs _ _ _

theorem memByte_metaPut (s : State) (a : Nat) (m : LineMeta) (x : Nat) : memByte (metaPut s a m) x = memByte s x := rfl

theorem memByte_bump (s : State) (c : Cnt) (i j k : Nat) (x : Nat) : memByte (bump s c i j k) x = memByte s x := by
  unfold bump bumpN; dsimp only; split <;> rfl

theorem metaGet_bump (s : State) (c : Cnt) (i j k : Nat) (x : Nat) : metaGet (bump s c i j k) x = metaGet s x := by
  unfold bump bumpN; dsimp only; split <;> rfl

theorem metaGet_memPut (s : State) (a : Nat) (bs : List Byte) (x : Nat) : metaGet (memPut s a bs) x = metaGet s x := rfl

theorem metaGet_metaPut (s : State) (a : Nat) (m : LineMeta) (x : Nat) : metaGet (metaPut s a m) x = if x / 64 = a / 64 then m else metaGet s x := by
  simp only [metaGet, metaPut]; split
  · rename_i h; rw [h, tget_tset_self]
  · rename_i h; rw [tget_tset_other]; exact h

theorem memByte_lineWrite (s : State) (n : Nat) (ctx : BitVec 16) (p : Nat) (bs : List Byte) (x : Nat) (hl : p % 64 + bs.length ≤ 64) :
    memByte (lineWrite s n ctx p bs) x = if h : p ≤ x ∧ x < p + bs.length then bs[x - p]'(by omega) else
      if x / 64 = p / 64 ∧ (metaGet s p).owner = 0xFFFF then 0 else memByte s x := by
  unfold lineWrite; simp only [memByte_metaPut, memByte_memPut]
  split
  · rfl
  · split
    · rename_i h
      simp only [memByte_bump, memByte_memPut]
      by_cases h2 : x / 64 = p / 64
      · rw [dif_pos (by simp only [zeros, List.length_replicate]; omega), if_pos ⟨h2, h⟩]; simp only [zeros, List.getElem_replicate]
      · rw [dif_neg (by simp only [zeros, List.length_replicate]; omega), if_neg (by simp [h2])]
    · rename_i h; rw [if_neg (fun e => h e.2)]

theorem pitchKey_memPut (s : State) (n a : Nat) (bs : List Byte) : pitchKey (memPut s a bs) n = pitchKey s n := rfl

theorem pitchKey_bump (s : State) (n : Nat) (c : Cnt) (i j k : Nat) : pitchKey (bump s c i j k) n = pitchKey s n := by
  unfold bump bumpN; dsimp only; split <;> rfl

theorem metaGet_lineWrite (s : State) (n : Nat) (ctx : BitVec 16) (p : Nat) (bs : List Byte) (x : Nat) :
    metaGet (lineWrite s n ctx p bs) x = if x / 64 = p / 64 then { owner := ctx, keySlot := (pitchKey s n).1, keyGen := (pitchKey s n).2 } else metaGet s x := by
  unfold lineWrite; simp only [metaGet_metaPut, metaGet_memPut]
  split
  · rfl
  · split
    · simp [metaGet_bump, metaGet_memPut]
    · rfl

theorem fum_bump (s : State) (c : Cnt) (i j k : Nat) : (bump s c i j k).fum = s.fum := by unfold bump bumpN; dsimp only; split <;> rfl

theorem fum_lineWrite (s : State) (n : Nat) (ctx : BitVec 16) (p : Nat) (bs : List Byte) : (lineWrite s n ctx p bs).fum = s.fum := by
  unfold lineWrite; dsimp only [metaPut, memPut]; split
  · rw [fum_bump]
  · rfl

theorem writePiece_eff (fuel : Nat) : ∀ (s : State) (n : Nat) (ctx : BitVec 16) (p : Nat) (bs : List Byte), (bs ≠ [] → (p % 64 + bs.length + 63) / 64 ≤ fuel) →
    let t := writePiece fuel s n ctx p bs
    (∀ x, (h : p ≤ x ∧ x < p + bs.length) → memByte t x = bs[x - p]'(by omega)) ∧
    (∀ x, x / 64 < p / 64 ∨ (p + bs.length + 63) / 64 ≤ x / 64 → memByte t x = memByte s x ∧ metaGet t x = metaGet s x) ∧
    (∀ x, p / 64 ≤ x / 64 → x / 64 < (p + bs.length + 63) / 64 → bs ≠ [] → (metaGet t x).owner = ctx) ∧
    (∀ x, x < p → x / 64 = p / 64 → (metaGet s p).owner = ctx → ctx ≠ 0xFFFF → memByte t x = memByte s x) := by
  induction fuel with
  | zero =>
    intro s n ctx p bs hf t
    have : bs = [] := by by_contra h; have := hf h; have := List.length_pos_iff.2 h; omega
    subst this
    have e : t = s := by simp [t, writePiece]
    rw [e]; refine ⟨?_, ?_, ?_, ?_⟩
    · intro x h; simp at h; omega
    · intro x h; exact ⟨rfl, rfl⟩
    · intro x h1 h2 h3; exact absurd rfl h3
    · intro x _ _ _ _; rfl
  | succ k ih =>
    intro s n ctx p bs hf t
    by_cases hb : bs.isEmpty
    · have : bs = [] := by simpa using hb
      subst this
      have e : t = s := by simp [t, writePiece]
      rw [e]; refine ⟨?_, ?_, ?_, ?_⟩
      · intro x h; simp at h; omega
      · intro x h; exact ⟨rfl, rfl⟩
      · intro x h1 h2 h3; exact absurd rfl h3
      · intro x _ _ _ _; rfl
    · have hne : bs ≠ [] := by simpa using hb
      have hp : 0 < bs.length := List.length_pos_iff.2 hne
      have e : t = writePiece k (lineWrite s n ctx p (bs.take (64 - p % 64))) n ctx (p + min (64 - p % 64) bs.length) (bs.drop (64 - p % 64)) := by
        simp only [t, writePiece]; rw [if_neg hb]
      have hl : p % 64 + (bs.take (64 - p % 64)).length ≤ 64 := by simp; omega
      rw [e]; clear e t
      by_cases hh : bs.length ≤ 64 - p % 64
      · have hd : bs.drop (64 - p % 64) = [] := List.drop_eq_nil_of_le hh
        have ht : bs.take (64 - p % 64) = bs := List.take_of_length_le hh
        rw [Nat.min_eq_right hh, hd, ht]; rw [ht] at hl
        have ee : ∀ k s, writePiece k s n ctx (p + bs.length) [] = s := by intro k s; cases k <;> simp [writePiece]
        rw [ee]
        refine ⟨?_, ?_, ?_, ?_⟩
        · intro x h; rw [memByte_lineWrite _ _ _ _ _ _ hl, dif_pos h]
        · intro x h; rw [memByte_lineWrite _ _ _ _ _ _ hl, dif_neg (by omega), if_neg (by omega), metaGet_lineWrite, if_neg (by omega)]; exact ⟨rfl, rfl⟩
        · intro x h1 h2 _; rw [metaGet_lineWrite, if_pos (by omega)]
        · intro x h1 h2 h3 h4; rw [memByte_lineWrite _ _ _ _ _ _ hl, dif_neg (by omega), if_neg (fun e => h4 (h3.symm.trans e.2))]
      · obtain ⟨i1, i2, i3, i4⟩ := ih (lineWrite s n ctx p (bs.take (64 - p % 64))) n ctx (p + (64 - p % 64)) (bs.drop (64 - p % 64)) (by intro _; have := hf hne; simp; omega)
        rw [Nat.min_eq_left (by omega)]
        have hne' : bs.drop (64 - p % 64) ≠ [] := by simp; omega
        have hdl : (bs.drop (64 - p % 64)).length = bs.length - (64 - p % 64) := by simp
        have htl : (bs.take (64 - p % 64)).length = 64 - p % 64 := by simp; omega
        refine ⟨?_, ?_, ?_, ?_⟩
        · intro x h
          by_cases hx : x < p + (64 - p % 64)
          · rw [(i2 x (by omega)).1, memByte_lineWrite _ _ _ _ _ _ hl, dif_pos (by omega)]; simp
          · rw [i1 x (by omega)]; simp; congr 1; omega
        · intro x h
          have := i2 x (by omega)
          rw [this.1, this.2, memByte_lineWrite _ _ _ _ _ _ hl, dif_neg (by omega), if_neg (by omega), metaGet_lineWrite, if_neg (by omega)]; exact ⟨rfl, rfl⟩
        · intro x h1 h2 _
          by_cases hx : x / 64 = p / 64
          · rw [(i2 x (by omega)).2, metaGet_lineWrite, if_pos hx]
          · exact i3 x (by omega) (by omega) hne'
        · intro x h1 h2 h3 h4
          rw [(i2 x (by omega)).1, memByte_lineWrite _ _ _ _ _ _ hl, dif_neg (by omega), if_neg (fun e => h4 (h3.symm.trans e.2))]

theorem pieceBytes_written {s : State} {p : Piece} {bs : List Byte} (hl : bs.length = p.len)
    (h1 : ∀ x, (h : p.ppa ≤ x ∧ x < p.ppa + bs.length) → memByte s x = bs[x - p.ppa]'(by omega))
    (h2 : ∀ x, p.ppa / 64 ≤ x / 64 → x / 64 < (p.ppa + bs.length + 63) / 64 → bs ≠ [] → (metaGet s x).owner ≠ 0xFFFF) : pieceBytes s p = bs := by
  have mb : ∀ n a i, (memBytes s a n)[i]? = if i < n then some (memByte s (a + i)) else none := by
    intro n; induction n with
    | zero => intro a i; simp [memBytes]
    | succ k ih =>
      intro a i; simp only [memBytes]
      cases i with
      | zero => simp
      | succ i => simp [ih, Nat.add_assoc, Nat.add_comm 1]
  have ml : ∀ n a, (memBytes s a n).length = n := by
    intro n; induction n with
    | zero => intro a; rfl
    | succ k ih => intro a; simp [memBytes, ih]
  by_cases hb : bs = []
  · subst hb; simp at hl; simp [pieceBytes, ← hl]
  have hp : 0 < bs.length := List.length_pos_iff.2 hb
  have cat : ∀ k L, (∀ i, i < k → (metaGet s ((L + i) * 64)).owner ≠ 0xFFFF) →
      ((upto k).map (fun i => (L + i) * 64)).flatMap (linePlain s) = memBytes s (L * 64) (k * 64) := by
    intro k; induction k with
    | zero => intro L _; simp [upto, memBytes]
    | succ k ih =>
      intro L h
      have split : ∀ m n a, memBytes s a (m + n) = memBytes s a m ++ memBytes s (a + m) n := by
        intro m; induction m with
        | zero => intro n a; simp [memBytes]
        | succ m ih => intro n a; rw [Nat.succ_add]; simp [memBytes, ih, Nat.add_assoc, Nat.add_comm 1]
      rw [upto, List.range_succ, List.map_append, List.flatMap_append, Nat.succ_mul, split]
      rw [show (List.range k) = upto k from rfl, ih L (fun i hi => h i (by omega))]
      congr 1
      simp only [List.map_cons, List.map_nil, List.flatMap_cons, List.flatMap_nil, List.append_nil, linePlain]
      rw [if_neg (h k (by omega))]; congr 1; omega
  have hne : p.len ≠ 0 := by omega
  unfold pieceBytes linesOf; rw [if_neg hne]; dsimp only
  rw [cat _ _ (by
    intro i hi; refine h2 _ ?_ ?_ hb
    · rw [Nat.mul_div_cancel _ (by decide)]; omega
    · rw [Nat.mul_div_cancel _ (by decide)]; omega)]
  apply List.ext_getElem?
  intro i
  by_cases hi : i < bs.length
  · rw [List.getElem?_take, if_pos (by omega), List.getElem?_drop, mb, if_pos (by omega), List.getElem?_eq_getElem hi]
    rw [show p.ppa / 64 * 64 + (p.ppa - p.ppa / 64 * 64 + i) = p.ppa + i by omega, h1 _ (by omega)]; simp
  · rw [List.getElem?_take, if_neg (by omega), List.getElem?_eq_none (by omega)]

theorem swn_bump (s : State) (c : Cnt) (i j k : Nat) : (bump s c i j k).swn = s.swn := by unfold bump bumpN; dsimp only; split <;> rfl

theorem dirGet_dirPut (s : State) (ix : Nat) (e : SwEnt) : dirGet (dirPut s ix e) ix = e := by simp [dirGet, dirPut, swnMod]

theorem swn_enqueue (s : State) (l : Nat) (f : TxFrame) : (enqueue s l f).swn = s.swn := by
  unfold enqueue; split
  · exact swn_bump _ _ _ _ _
  · rfl

theorem swn_sendFrame (s : State) (id) (f : TxFrame) : (sendFrame s id f).swn = s.swn := by
  unfold sendFrame; split
  · exact swn_enqueue _ _ _
  · rfl

theorem swn_addTrailer (s : State) (r f) : (addTrailer s r f).1.swn = s.swn := by unfold addTrailer; split <;> rfl

theorem swn_respond (s : State) (r : Req) (st : Nat) (p : List Byte) : (respond s r st p).swn = s.swn := by
  unfold respond respondAt; split
  · rfl
  · dsimp only
    have a : ∀ w f, (cacheStore w r f).swn = w.swn := by intro w f; unfold cacheStore; repeat' (first | rfl | split)
    have b : ∀ w f, (respSend w r f).swn = w.swn := by intro w f; unfold respSend; split; exacts [swn_sendFrame _ _ _, swn_enqueue _ _ _]
    rw [b]; split
    · rw [swn_bump, swn_addTrailer]
    · rw [a, swn_bump, swn_addTrailer]

theorem swn_answer (s : State) (r : Req) (st : Nat) (p : List Byte) : (answer s r st p).swn = s.swn := by
  unfold answer; rw [swn_respond]; split
  · unfold excuse; repeat' (first | rfl | split)
  · unfold markWindow; split <;> rfl

theorem swnow_lineWrite (s : State) (n ctx p bs) : (lineWrite s n ctx p bs).swn = s.swn := by
  unfold lineWrite; dsimp only [metaPut, memPut]; split
  · rw [swn_bump]
  · rfl

theorem swn_ctlSend (s : State) (id f o) : (ctlSend s id f o).swn = s.swn := by
  unfold ctlSend; split
  · rfl
  · split
    · rfl
    · rw [swn_enqueue]; rfl

theorem dirGet_dirFind {s t : State} (h : s.swn = t.swn) (ix) : dirGet s ix = dirGet t ix := by simp [dirGet, h]

theorem syncRequest_runs {s t op f r} (h0 : receive s op f = .go t r) (hc : Checked t r) (hl : swLenOk r = true) (ha : r.address.toNat % 64 = 0) (ho : opKnown op = true) :
    syncRequest s op f = settle (ackNow (syncExec t r) r.flow) := by
  obtain ⟨h1, h2, h5, h6⟩ := hc
  have e := receive_anyOpcode h0
  unfold syncRequest; rw [withRequest_go h0, checks_go (by rw [e]; exact ho) h1 h2 hl (by simp [ha]) h6]

theorem order_homeIdle (t : State) (r : Req) (ix line : Nat) (count : Cnt) (own : Bool)
   (hcnt : (if r.op = 0x40 then Cnt.swnReqShared else if r.op = 0x41 then .swnReqOwn else .swnReqUpgrade) = count) :
        let n := r.pitch.toNat
        let a := answer (bump (dirNew t ix line r.address.toNat n) count 0 0 n) r stOk (zeros 8)
        let e : SwEnt := { line := line, pva := r.address.toNat, pitch := n, stamp := t.swn.stamp + 1 }
        let x : SwTxn := { kind := .agent r own, needDone := true, dataDue := true }
        let b := dirPut a ix { e with txn := some x }
        let c1 := if own ∧ (metaGet b line).owner = 0xFFFF then lineWrite b n r.context line (zeros 64) else b
     orderAgent (dirNew t ix line r.address.toNat n) ix r own = (dirPut (sendHomeData c1 ix r.endpoint.toNat (if own then 3 else 2)) ix
          { e with txn := some { x with dataDue := false, sentAt := some b.now } }) := by
  intro n a e x b c1
  have g0 : dirGet (dirNew t ix line r.address.toNat n) ix = e := by simp [dirNew, dirGet, dirPut, swnMod, e]
  unfold orderAgent; simp only [g0, hcnt]
  have e1 : e.state = .hi := rfl
  simp only [e1]
  have z : (zeros 4 ++ zeros 4) = zeros 8 := rfl
  simp only [reduceCtorEq, or_self, decide_false, Bool.false_eq_true, if_false, Bool.not_false, or_false, and_false, z]
  have ga : dirGet a ix = e := by
    rw [dirGet_dirFind (show a.swn = (dirNew t ix line r.address.toNat n).swn by simp only [a]; rw [swn_answer, swn_bump]), g0]
  have st : startInvals a ix { kind := .agent r own, needDone := true, dataDue := true } [] = b := by
    simp only [startInvals, ga, foldS, List.foldl_nil]; rfl
  show txnStep (startInvals a ix _ []) ix = _
  rw [st]
  unfold txnStep; rw [dirGet_dirPut]; simp only [x, List.isEmpty_nil]
  simp
  cases own <;> simp [c1, e1] <;> rfl

end Sys2Proof.Machine
end

