-- ==== Sys2Proof/Laws/SpecColl.lean ====
section
/-! SUPPORT. Lemmas for the statements: exact sums, and a collective's frame that passes its checks (R258, R265). -/
namespace Sys2Proof.Machine

theorem accAdd_comm (a b : ExAcc) : accAdd a b = accAdd b a := by
  cases a <;> cases b <;> simp [accAdd, Int.add_comm]
  rename_i x y; cases x <;> cases y <;> simp

theorem accAdd_assoc (a b c : ExAcc) : accAdd (accAdd a b) c = accAdd a (accAdd b c) := by
  cases a <;> cases b <;> cases c <;> simp [accAdd, Int.add_assoc] <;> (try (rename_i x y z; cases x <;> cases y <;> cases z <;> simp [accAdd])) <;> (try (rename_i x y; cases x <;> cases y <;> simp [accAdd]))

theorem collective_runs {s t op f r} (h0 : receive s op f = .go t r) (hc : Checked t r) (hl : collLenOk r = true) (ho : opKnown op = true) :
    collRequest s op f = ackNow (if op = 0x54 then collClose t r else if op = 0x55 then collQuery t r else collFrame t r) r.flow := by
  obtain ⟨h1, h2, h5, h6⟩ := hc
  have e := receive_anyOpcode h0
  unfold collRequest; rw [withRequest_go h0, checks_go (by rw [e]; exact ho) h1 h2 hl rfl h6]

end Sys2Proof.Machine
end

