-- ==== Sys2Proof/Laws/SpecGrid.lean ====
section
/-! SUPPORT. Lemmas for the statements: what running a slot of a bundle lands, element by element (R310 to R342). -/
namespace Sys2Proof.Machine

theorem slotOp_runs {s core i ix b} (h : coreSess s core.toNat = some ix) (w : wellFormed i = true) :
    slotOp s core i b = b s ix core.toNat := by simp [slotOp, h, w]

theorem scalarOp_lands {s core i lat sd v ix} (h : coreSess s core.toNat = some ix) (w : wellFormed i = true) :
    sOp s core i lat sd v = landIn s ix core.toNat lat (.sreg sd.toNat (v core.toNat)) := by simp [sOp, slotOp_runs h w]

theorem f2i_saturates (y : Machine.Num) : numToInt 64 1 y = (match y with
      | .nan => 0
      | .inf neg => if neg then -(2 ^ 63) else 2 ^ 63 - 1
      | .fin neg m x =>
        let whole : Int := if 0 ≤ x then (m : Int) * 2 ^ x.toNat else (m : Int) / 2 ^ (-x).toNat
        if neg then max (-whole) (-(2 ^ 63)) else min whole (2 ^ 63 - 1)) := by
  cases y with
  | nan => rfl
  | inf n => cases n <;> rfl
  | fin neg m x =>
    simp only [numToInt, roundMode]
    have : ((if (0:Int) - x ≤ 0 then m * 2 ^ (-((0:Int) - x)).toNat
        else if (1:Nat) = 0 then roundUnits m x 0 false else
          if (decide (m % 2 ^ ((0:Int) - x).toNat ≠ 0) && (decide ((1:Nat) = 2) && !neg || decide ((1:Nat) = 3) && neg)) = true
            then m / 2 ^ ((0:Int) - x).toNat + 1 else m / 2 ^ ((0:Int) - x).toNat : Nat) : Int)
        = if 0 ≤ x then (m : Int) * 2 ^ x.toNat else (m : Int) / 2 ^ (-x).toNat := by
      simp only [Int.zero_sub]
      by_cases hx : 0 ≤ x
      · rw [if_pos hx, if_pos (by omega)]; simp
      · rw [if_neg hx, if_neg (by omega)]; simp
    rw [this]
    generalize (if 0 ≤ x then (m : Int) * 2 ^ x.toNat else (m : Int) / 2 ^ (-x).toNat) = w at *
    have hw : 0 ≤ w := by rw [← this]; exact Int.natCast_nonneg _
    cases neg <;> simp <;> omega

theorem noHazard_of_all {k : KSess} {c lo len : Nat} {w : Bool} (h : (k.pend.all (fun p => p.quad ≠ quadOf c ∨ p.target ≠ coreIn c)) = true) :
    hazard k (quadOf c) (coreIn c) lo len w = false := by
  simp only [hazard, List.any_eq_false, List.all_eq_true] at *
  intro p hp; have := h p hp; simp at this ⊢; intro a b; rcases this with this | this <;> contradiction

theorem holdOp_within {s ix c a len w body out} (h : a < 0x180000) (z : hazard (sessGet s ix) (quadOf c) (coreIn c) a len w = false) :
    holdOp s ix c a len w body out = body s := by
  simp only [holdOp]; rw [if_neg (by show ¬(0x180000 ≤ a); omega), if_neg (by rw [z]; decide)]

theorem holdOp_beyond {s ix c a len w body out} (h : 0x180000 ≤ a) :
    holdOp s ix c a len w body out = out (bump s .grdHoldOor 0 0 (sessGet s ix).pitch.toNat) := by
  simp only [holdOp]; rw [if_pos (show holdSize ≤ a from h)]

theorem vecOf_lt (b : Nat) : ∀ l : List Nat, vecOf b l < 2 ^ (b * l.length)
  | [] => by simp [vecOf]
  | a :: t => by
    have := vecOf_lt b t
    have h1 : a % 2 ^ b < 2 ^ b := Nat.mod_lt _ (by positivity)
    simp only [vecOf, List.length_cons, Nat.mul_add, Nat.mul_one, Nat.pow_add]
    have := Nat.mul_le_mul_left (2^b) (Nat.succ_le_of_lt this)
    rw [Nat.mul_succ] at this; rw [Nat.mul_comm (2 ^ (b * t.length))]; omega

theorem vecOf_getLsbD (b : Nat) : ∀ (l : List Nat) (e : Nat), (vecOf b l >>> (b * e)) % 2 ^ b = l[e]?.getD 0 % 2 ^ b
  | [], e => by simp [vecOf]
  | a :: t, 0 => by simp [vecOf]
  | a :: t, e + 1 => by
    have h1 : a % 2 ^ b < 2 ^ b := Nat.mod_lt _ (by positivity)
    have := vecOf_getLsbD b t e
    rw [show b * (e+1) = b + b * e by ring, Nat.shiftRight_add]
    have : vecOf b (a :: t) >>> b = vecOf b t := by
      rw [Nat.shiftRight_eq_div_pow]; simp only [vecOf]
      rw [Nat.add_mul_div_left _ _ (by positivity), Nat.div_eq_of_lt h1]; simp
    rw [this]; simpa using vecOf_getLsbD b t e

theorem elAt_vecOf {b n : Nat} {g : Nat → Nat} (hb : b * n = 1024) {e : Nat} (he : e < n) :
    elAt (BitVec.ofNat 1024 (vecOf b ((upto n).map g))) b e = g e % 2 ^ b := by
  have hl := vecOf_lt b ((upto n).map g)
  rw [show ((upto n).map g).length = n by simp [upto], hb] at hl
  simp only [elAt, BitVec.toNat_ofNat, Nat.mod_eq_of_lt hl, vecOf_getLsbD]
  simp [upto, he]

theorem elAt_govMask {p : BitVec 128} {w e : Nat} (hw : w * (128 / w) = 128) (he : e < 128 / w) :
    elAt (govMask p w) (8 * w) e = (if p.getLsbD (w * e) then 2 ^ (8 * w) - 1 else 0) := by
  simp only [govMask]; rw [elAt_vecOf (by rw [Nat.mul_assoc, hw]) he]
  unfold governed
  have : 0 < 2 ^ (8*w) := by positivity
  cases p.getLsbD (w * e)
  · simp
  · simp only [if_true]; exact Nat.mod_eq_of_lt (by omega)

theorem vOp_lands {s core i lat vd pg w f ix} (h : coreSess s core.toNat = some ix) (wf : wellFormed i = true) (hw : w * (128 / w) = 128) :
    landsElements (.next (vOp s core i lat vd pg w f)) s ix core.toNat lat vd.toNat (pReg s core.toNat pg) w (f s core.toNat) := by
  simp only [vOp, slotOp_runs h wf]
  exact ⟨_, _, rfl, fun e he => ⟨elAt_vecOf (by rw [Nat.mul_assoc, hw]) he, elAt_govMask hw he⟩⟩

theorem landsElements_congr {o s ix c lat vd p w} {f g : Nat → Nat} (hfg : ∀ e, e < 128 / w → f e % 2 ^ (8 * w) = g e % 2 ^ (8 * w))
    (h : landsElements o s ix c lat vd p w f) : landsElements o s ix c lat vd p w g := by
  obtain ⟨m, v, h1, h2⟩ := h
  exact ⟨m, v, h1, fun e he => ⟨by rw [(h2 e he).1, hfg e he], (h2 e he).2⟩⟩

theorem elAt_lt (v : BitVec 1024) (b e : Nat) : elAt v b e < 2 ^ b := Nat.mod_lt _ (by positivity)

theorem predBits_spec {w n : Nat} (P : Nat → Bool) (hb : w * n = 128) {e : Nat} (he : e < n) {b : Nat} (hbw : b < w) :
    (BitVec.ofNat 128 (vecOf w ((upto n).map (fun e => if P e then 2 ^ w - 1 else 0)))).getLsbD (w * e + b) = P e := by
  have hl := vecOf_lt w ((upto n).map (fun e => if P e then 2 ^ w - 1 else 0))
  rw [show ((upto n).map (fun e => if P e then 2 ^ w - 1 else 0)).length = n by simp [upto], hb] at hl
  have lt : w * e + b < 128 := by rw [← hb]; nlinarith [Nat.mul_le_mul_left w (Nat.succ_le_of_lt he)]
  rw [BitVec.getLsbD_ofNat]; simp only [lt, decide_true, Bool.true_and]
  have g := vecOf_getLsbD w ((upto n).map (fun e => if P e then 2 ^ w - 1 else 0)) e
  have : (vecOf w ((upto n).map (fun e => if P e then 2 ^ w - 1 else 0))).testBit (w * e + b) = ((vecOf w ((upto n).map (fun e => if P e then 2 ^ w - 1 else 0)) >>> (w * e)) % 2 ^ w).testBit b := by
    rw [Nat.testBit_mod_two_pow, Nat.testBit_shiftRight]; simp [hbw]
  rw [this, g]; simp only [upto, List.getElem?_map, List.getElem?_range he, Option.map_some, Option.getD_some]
  cases P e
  · simp
  · simp [hbw]

theorem elAt_vsel {w : Nat} (hw : w * (128 / w) = 128) (p : BitVec 128) (x y : BitVec 1024) {e : Nat} (he : e < 128 / w) :
    elAt ((x &&& govMask p w) ||| (y &&& ~~~(govMask p w))) (8 * w) e = if p.getLsbD (w * e) then elAt x (8 * w) e else elAt y (8 * w) e := by
  have hm := elAt_govMask (p := p) hw he
  generalize govMask p w = m at *
  have h8 : 8 * w * (128 / w) = 1024 := by rw [Nat.mul_assoc, hw]
  have hlt : 8 * w * e + 8 * w ≤ 1024 := by rw [← h8]; nlinarith [Nat.mul_le_mul_left (8*w) (Nat.succ_le_of_lt he)]
  apply Nat.eq_of_testBit_eq; intro i
  have key : ∀ v : BitVec 1024, (elAt v (8 * w) e).testBit i = (decide (i < 8 * w) && v.getLsbD (8 * w * e + i)) := by
    intro v; simp only [elAt]; rw [Nat.testBit_mod_two_pow, Nat.testBit_shiftRight]; rfl
  by_cases hi : i < 8 * w
  · have mb : m.getLsbD (8 * w * e + i) = p.getLsbD (w * e) := by
      have := congrArg (fun n => n.testBit i) hm
      simp only [key, hi, decide_true, Bool.true_and] at this
      rw [this]; cases p.getLsbD (w * e) <;> simp [hi]
    rw [key]; simp only [hi, decide_true, Bool.true_and, BitVec.getLsbD_or, BitVec.getLsbD_and, BitVec.getLsbD_not, mb]
    have : 8 * w * e + i < 1024 := by omega
    cases p.getLsbD (w * e) <;> simp [key, hi, this]
  · rw [key]; cases p.getLsbD (w * e) <;> simp [key, hi]

theorem shiftedPart_lt {v b n p k : Nat} (hk : n * b * k = 1024) (hp : p < k) (hv : v < 2 ^ (n * b)) : v <<< (n * b * p) < 2 ^ 1024 := by
  rw [Nat.shiftLeft_eq, ← hk]
  calc v * 2 ^ (n * b * p) < 2 ^ (n * b) * 2 ^ (n * b * p) := Nat.mul_lt_mul_of_pos_right hv (by positivity)
    _ = 2 ^ (n * b * (p + 1)) := by rw [← Nat.pow_add]; congr 1; ring
    _ ≤ _ := Nat.pow_le_pow_right (by norm_num) (Nat.mul_le_mul_left _ hp)

theorem elAt_shiftedPart {v b n p k e : Nat} (hk : n * b * k = 1024) (hp : p < k) (hv : v < 2 ^ (n * b)) :
    elAt (BitVec.ofNat 1024 (v <<< (n * b * p))) b (n * p + e) = (v >>> (b * e)) % 2 ^ b := by
  simp only [elAt, BitVec.toNat_ofNat]; rw [Nat.mod_eq_of_lt (shiftedPart_lt hk hp hv)]
  rw [show b * (n * p + e) = n * b * p + b * e by ring, Nat.shiftRight_add, Nat.shiftLeft_shiftRight]

theorem elAt_outsidePart {v b n p k e : Nat} (hn : 0 < n) (hk : n * b * k = 1024) (hp : p < k) (hv : v < 2 ^ (n * b)) (he : e / n ≠ p) :
    elAt (BitVec.ofNat 1024 (v <<< (n * b * p))) b e = 0 := by
  simp only [elAt, BitVec.toNat_ofNat]; rw [Nat.mod_eq_of_lt (shiftedPart_lt hk hp hv)]
  rcases Nat.lt_or_gt_of_ne he with h | h
  · have h1 : e + 1 ≤ n * p := by have := (Nat.div_lt_iff_lt_mul hn).1 h; rw [Nat.mul_comm] at this; exact this
    have h2 : b * (e + 1) ≤ n * b * p := by calc _ ≤ b * (n * p) := Nat.mul_le_mul_left _ h1
                                              _ = _ := by ring
    obtain ⟨d, hd⟩ := Nat.exists_eq_add_of_le h2
    rw [hd, Nat.shiftLeft_eq, Nat.shiftRight_eq_div_pow, show b * (e+1) + d = b * e + (b + d) by ring, Nat.pow_add, ← Nat.mul_assoc, Nat.mul_comm v, Nat.mul_assoc, Nat.mul_div_cancel_left _ (by positivity), Nat.pow_add]
    rw [show v * (2 ^ b * 2 ^ d) = 2 ^ b * (v * 2 ^ d) by ring]; exact Nat.mul_mod_right _ _
  · have h1 : n * (p + 1) ≤ e := by have := (Nat.le_div_iff_mul_le hn).1 (show p + 1 ≤ e / n from h); rw [Nat.mul_comm]; exact this
    have : v <<< (n * b * p) < 2 ^ (b * e) := by
      rw [Nat.shiftLeft_eq]
      calc v * 2 ^ (n * b * p) < 2 ^ (n * b) * 2 ^ (n * b * p) := Nat.mul_lt_mul_of_pos_right hv (by positivity)
        _ = 2 ^ (b * (n * (p + 1))) := by rw [← Nat.pow_add]; congr 1; ring
        _ ≤ _ := Nat.pow_le_pow_right (by norm_num) (Nat.mul_le_mul_left _ h1)
    rw [Nat.shiftRight_eq_div_pow, Nat.div_eq_of_lt this]; rfl

theorem elAt_ones (n b e : Nat) (he : e < n) : ((2 ^ (n * b) - 1) >>> (b * e)) % 2 ^ b = 2 ^ b - 1 := by
  apply Nat.eq_of_testBit_eq; intro i
  rw [Nat.testBit_mod_two_pow, Nat.testBit_shiftRight, Nat.testBit_two_pow_sub_one, Nat.testBit_two_pow_sub_one]
  by_cases h : i < b
  · have : b * e + i < n * b := by nlinarith [Nat.mul_le_mul_left b (Nat.succ_le_of_lt he)]
    simp [h, this]
  · simp [h]

theorem ones_lt (x : Nat) : 2 ^ x - 1 < 2 ^ x := by have : 0 < 2 ^ x := by positivity
                                                    omega

theorem elAt_partMask_inside {b n p k e : Nat} (hk : n * b * k = 1024) (hp : p < k) (he : e < n) :
    elAt (partMask (n * b) p) b (n * p + e) = 2 ^ b - 1 := by
  simp only [partMask]; rw [elAt_shiftedPart hk hp (ones_lt _), elAt_ones _ _ _ he]

theorem elAt_partMask_outside {b n p k e : Nat} (hn : 0 < n) (hk : n * b * k = 1024) (hp : p < k) (he : e / n ≠ p) :
    elAt (partMask (n * b) p) b e = 0 := elAt_outsidePart hn hk hp (ones_lt _) he

theorem elList_map {α} (v : BitVec 1024) (a : Nat) (g : Nat → α) : (elList v a).map g = (upto (1024 / a)).map (fun e => g (elAt v a e)) := by
  simp [elList, elCount, List.map_map]

theorem vcvt_sizes {a b : Nat} (ab : a = b ∨ a = 2 * b ∨ a = 4 * b ∨ b = 2 * a ∨ b = 4 * a) (ha : a = 4 ∨ a = 8 ∨ a = 16 ∨ a = 32)
    (hb : b = 4 ∨ b = 8 ∨ b = 16 ∨ b = 32) :
    (b < a → 1024 / a * b * (a / b) = 1024 ∧ 1024 / (a / b) = 1024 / a * b) ∧
    (a ≤ b → 1024 / b * (b / a) * a = 1024 ∧ b * (1024 / b) = 1024 ∧ 1024 / b * (b / a) = 1024 / a) := by
  rcases ha with e | e | e | e <;> rcases hb with e' | e' | e' | e' <;> subst e e' <;> first | (exfalso; omega) | (constructor <;> intro <;> simp <;> omega)

theorem cvtEl_spec (src dst mode : Nat) (sat : Bool) (left x : Nat) :
    let num : Machine.Num := if 6 ≤ src then numOfInt (signedOf (typeBits src) x) else decodeT src x
    let y := cvtEl src dst mode sat left x % 2 ^ typeBits dst
    (dst < 6 → y = (roundT dst mode sat num).1 % 2 ^ typeBits dst) ∧
    (6 ≤ dst → ¬(6 ≤ src) → (y : Int) = numToInt (typeBits dst) mode num % (2 ^ typeBits dst : Int)) ∧
    (6 ≤ dst → 6 ≤ src → -(2 ^ (typeBits dst - 1) : Int) ≤ signedOf (typeBits src) x → signedOf (typeBits src) x < 2 ^ (typeBits dst - 1) →
      (y : Int) = signedOf (typeBits src) x % (2 ^ typeBits dst : Int)) := by
  intro num y
  have bp : (0:Int) < 2 ^ typeBits dst := by positivity
  refine ⟨?_, ?_, ?_⟩
  · intro hd
    simp only [y, num, cvtEl, isIntType, decide_eq_true_eq]; rw [if_neg (Nat.not_le.2 hd)]
  · intro hd hs
    simp only [y, num, cvtEl, isIntType, decide_eq_true_eq]; rw [if_pos hd, if_neg hs, if_neg hs]
    push_cast; rw [Int.toNat_of_nonneg (Int.emod_nonneg _ (ne_of_gt bp))]; exact Int.emod_emod_of_dvd _ (dvd_refl _)
  · intro hd hs l1 l2
    simp only [y, num, cvtEl, isIntType, decide_eq_true_eq]; rw [if_pos hd, if_pos hs, if_pos ⟨l1, l2⟩]
    push_cast; rw [Int.toNat_of_nonneg (Int.emod_nonneg _ (ne_of_gt bp))]; exact Int.emod_emod_of_dvd _ (dvd_refl _)

theorem typeBits_dst {d : Nat} (h : 1 ≤ d ∧ d ≤ 4) : typeBits d = 16 ∨ typeBits d = 8 := by
  obtain ⟨h1, h2⟩ := h; interval_cases d <;> simp [typeBits]

theorem partOf_cases {b n p k e : Nat} (hn : 0 < n) (hk : n * b * k = 1024) (hp : p < k) {g : Nat → Nat} (he : e < 1024 / b) :
    (e / n = p → elAt (BitVec.ofNat 1024 (vecOf b ((upto n).map g) <<< (n * b * p))) b e = g (e % n) % 2 ^ b ∧ elAt (partMask (n * b) p) b e = 2 ^ b - 1) ∧
    (e / n ≠ p → elAt (partMask (n * b) p) b e = 0) := by
  have xl : vecOf b ((upto n).map g) < 2 ^ (n * b) := by
    have := vecOf_lt b ((upto n).map g); simpa [upto, Nat.mul_comm] using this
  constructor
  · intro h
    have e1 : e = n * p + e % n := by rw [← h]; exact (Nat.div_add_mod e n).symm
    have lt : e % n < n := Nat.mod_lt _ hn
    constructor
    · rw [e1, elAt_shiftedPart hk hp xl, vecOf_getLsbD]; simp [upto, lt, Nat.mul_add_mod]
    · rw [e1]; exact elAt_partMask_inside hk hp lt
  · intro h; exact elAt_partMask_outside hn hk hp h

theorem leNat_lt_vec : ∀ l : List Byte, leNat l = vecOf 8 (l.map BitVec.toNat)
  | [] => rfl
  | a :: r => by simp only [leNat, List.map_cons, vecOf, leNat_lt_vec r]; have := a.isLt; omega

theorem packPairs_other {t : Nat} (ht : t ≠ 5) : ∀ l : List Nat, packEls t l = l.map (BitVec.ofNat 8)
  | [] => rfl
  | [a] => rfl
  | a :: b :: r => by simp only [packEls, if_neg ht, List.map_cons, packPairs_other ht r]

theorem packPairs_get : ∀ (n : Nat) (l : List Nat), l.length = 2 * n → packEls 5 l = (upto n).map (fun e => BitVec.ofNat 8 (l.getD (2 * e) 0 + 16 * l.getD (2 * e + 1) 0))
  | 0, [], _ => rfl
  | n + 1, [], h => by simp at h
  | n + 1, [a], h => by simp at h; omega
  | n + 1, a :: b :: r, h => by
    simp only [packEls, if_true, packPairs_get n r (by simp at h; omega)]
    simp only [upto, List.range_succ_eq_map, List.map_cons, List.map_map]
    congr 1

theorem matrixOp_runs {s core i ix b} (h : coreSess s core.toNat = some ix) (w : wellFormed i = true) :
    mxOp s core i b = if quadOf core.toNat ∈ (sessGet s ix).engines then b s ix core.toNat else endSess s ix 8 (some core.toNat) 0 := by
  simp only [mxOp, slotOp_runs h w]; rfl

theorem flatMap_getElem {α : Type} (n : Nat) (row : Nat → List α) (hr : ∀ i, (row i).length = n) : ∀ (m i j : Nat), i < m → j < n →
    (((upto m).flatMap row))[n * i + j]? = (row i)[j]? := by
  intro m
  induction m generalizing row with
  | zero => intro i j h; omega
  | succ m ih =>
    intro i j hi hj
    have e : (upto (m+1)).flatMap row = row 0 ++ (upto m).flatMap (fun i => row (i+1)) := by
      simp only [upto, List.range_succ_eq_map, List.flatMap_cons, List.flatMap_map]
    rw [e]
    cases i with
    | zero => rw [List.getElem?_append_left (by rw [hr]; omega)]; simp
    | succ i =>
      rw [List.getElem?_append_right (by rw [hr]; nlinarith), hr]
      rw [show n * (i+1) + j - n = n * i + j by rw [Nat.mul_succ]; omega]
      exact ih (fun i => row (i+1)) (fun i => hr _) i j (by omega) hj

theorem accPut_words (base : Nat) : ∀ (ws : List Word) (o : Nat) (t : Tab Word),
    (∀ e, e < ws.length → tget 0 ((ws.zip ((List.range' o ws.length))).foldl (fun t e => tset 0 t (base + e.2) e.1) t) (base + o + e) = (ws[e]?).getD 0) ∧
    (∀ x, x < base + o ∨ base + o + ws.length ≤ x → tget 0 ((ws.zip ((List.range' o ws.length))).foldl (fun t e => tset 0 t (base + e.2) e.1) t) x = tget 0 t x) := by
  intro ws
  induction ws with
  | nil => intro o t; simp
  | cons a r ih =>
    intro o t
    have := ih (o+1) (tset 0 t (base + o) a)
    simp only [List.length_cons, List.range'_succ, List.zip_cons_cons, List.foldl_cons]
    constructor
    · intro e he
      cases e with
      | zero => rw [this.2 _ (by omega)]; simpa using tget_tset_self 0 a t (base + o)
      | succ e => rw [show base + o + (e+1) = base + (o+1) + e by omega, this.1 e (by omega)]; simp
    · intro x hx
      rw [this.2 x (by omega)]; exact tget_tset_other 0 a t (base + o) x (by omega)

theorem coreGet_corePut_self {s c k} : coreGet (corePut s c k) c = k := tget_tset_self _ _ _ _

theorem coreGet_corePut_other {s c d k} (h : d ≠ c) : coreGet (corePut s c k) d = coreGet s d := tget_tset_other _ _ _ _ _ h

theorem hold_after_bytes (r : Nat) (m : BitVec 128) : ∀ (bs : List Byte) (o : Nat) (t : Tab Byte), ∀ a,
    tget 0 ((bs.zip (List.range' o bs.length)).foldl (fun t e => if m.getLsbD e.2 then tset 0 t (r + e.2) e.1 else t) t) a =
      if r + o ≤ a ∧ a < r + o + bs.length ∧ m.getLsbD (a - r) = true then (bs[a - r - o]?).getD 0 else tget 0 t a := by
  intro bs
  induction bs with
  | nil => intro o t a; rw [if_neg (by simp; intros; omega)]; rfl
  | cons b bs ih =>
    intro o t a
    simp only [List.length_cons, List.range'_succ, List.zip_cons_cons, List.foldl_cons]
    by_cases hm : m.getLsbD o = true
    · simp only [hm, if_true]
      rw [ih (o+1) _ a]
      by_cases ha : a = r + o
      · subst ha; rw [if_neg (by omega), if_pos (by refine ⟨by omega, by omega, by simpa using hm⟩), tget_tset_self 0 b t _]
        simp
      · rw [tget_tset_other 0 b t _ a ha]
        by_cases hc : r + (o + 1) ≤ a ∧ a < r + (o + 1) + bs.length ∧ m.getLsbD (a - r) = true
        · rw [if_pos hc, if_pos ⟨by omega, by omega, hc.2.2⟩]
          rw [show a - r - o = (a - r - (o+1)) + 1 by omega]; rfl
        · rw [if_neg hc, if_neg]; intro z; apply hc; exact ⟨by omega, by omega, z.2.2⟩
    · simp only [hm, Bool.false_eq_true, if_false]
      rw [ih (o+1) _ a]
      by_cases ha : a = r + o
      · subst ha; rw [if_neg (by omega), if_neg]; intro z; apply hm; simpa using z.2.2
      · by_cases hc : r + (o + 1) ≤ a ∧ a < r + (o + 1) + bs.length ∧ m.getLsbD (a - r) = true
        · rw [if_pos hc, if_pos ⟨by omega, by omega, hc.2.2⟩]
          rw [show a - r - o = (a - r - (o+1)) + 1 by omega]; rfl
        · rw [if_neg hc, if_neg]; intro z; apply hc; exact ⟨by omega, by omega, z.2.2⟩

end Sys2Proof.Machine
end

