-- ==== Sys2Proof/Laws/SpecLife.lean ====
section
/-! SUPPORT. Lemmas for the statements: lifecycle, management and trust messages that pass their checks (R22, R64, R78). -/
namespace Sys2Proof.Machine

theorem lifecycle_runs {s t op f r body} (h : receive s op f = .go t r) (ha : flagA r.flags = true) (hh : flagH r.flags = false) (hx : flagX r.flags = false)
    (hc : r.tc = 6) (h0 : 0 < r.length.toNat) (hl : r.length.toNat = f.payload.length) (hs : lcSizeOk r = true) :
    lifecycle s op f body = ackNow (
      if (lcPitch r).1 = 0 then (if op = 0x77 then body t r 0 else lcDeny t r rsBounds (lcPitch r).2)
      else if op ≠ 0x77 ∧ (pGet t (lcPitch r).1).work.isSome then lcDeny t r rsBusy noField
      else if op ≠ 0x77 ∧ !lcAccepts op.toNat (pGet t (lcPitch r).1).life then lcDeny t r rsWrongState noField
      else match (lcReserved r).find? (fun i => byteAt r.payload i ≠ 0) with
        | some i => lcDeny t r rsBounds i
        | none => body t r (lcPitch r).1) r.flow := by
  unfold lifecycle; rw [withRequest_go h]
  have e1 : ¬ ((!flagA r.flags) = true ∨ flagH r.flags = true ∨ flagX r.flags = true ∨ r.tc ≠ 6) := by
    rw [ha, hh, hx]; rintro (a | a | a | a)
    · cases a
    · cases a
    · cases a
    · exact a hc
  have e2 : ¬ (r.length.toNat = 0 ∨ r.length.toNat ≠ f.payload.length ∨ (!lcSizeOk r) = true) := by
    rw [hs]; rintro (a | a | a)
    · omega
    · exact a hl
    · cases a
  simp only [if_neg e1, if_neg e2] <;> rfl

theorem lifecycle_busy {s t op f r body} (h : receive s op f = .go t r) (ha : flagA r.flags = true) (hh : flagH r.flags = false) (hx : flagX r.flags = false)
    (hc : r.tc = 6) (h0 : 0 < r.length.toNat) (hl : r.length.toNat = f.payload.length) (hs : lcSizeOk r = true)
    (ho : op ≠ 0x77) (hn : 0 < (lcPitch r).1) (hw : (pGet t (lcPitch r).1).work ≠ none) :
    lifecycle s op f body = ackNow (lcDeny t r rsBusy noField) r.flow := by
  rw [lifecycle_runs h ha hh hx hc h0 hl hs, if_neg (by omega), if_pos ⟨ho, by cases hq : (pGet t (lcPitch r).1).work <;> simp_all⟩]

theorem lifecycle_wrongState {s t op f r body} (h : receive s op f = .go t r) (ha : flagA r.flags = true) (hh : flagH r.flags = false) (hx : flagX r.flags = false)
    (hc : r.tc = 6) (h0 : 0 < r.length.toNat) (hl : r.length.toNat = f.payload.length) (hs : lcSizeOk r = true)
    (ho : op ≠ 0x77) (hn : 0 < (lcPitch r).1) (hw : (pGet t (lcPitch r).1).work = none) (hl : lcAccepts op.toNat (pGet t (lcPitch r).1).life = false) :
    lifecycle s op f body = ackNow (lcDeny t r rsWrongState noField) r.flow := by
  rw [lifecycle_runs h ha hh hx hc h0 (by assumption) hs, if_neg (by omega), if_neg (by simp [hw]), if_pos ⟨ho, by simp [hl]⟩]

theorem lifecycle_accepted {s t op f r body} (h : receive s op f = .go t r) (ha : flagA r.flags = true) (hh : flagH r.flags = false) (hx : flagX r.flags = false)
    (hc : r.tc = 6) (h0 : 0 < r.length.toNat) (hl : r.length.toNat = f.payload.length) (hs : lcSizeOk r = true)
    (hn : 0 < (lcPitch r).1) (hw : (pGet t (lcPitch r).1).work = none) (hl : lcAccepts op.toNat (pGet t (lcPitch r).1).life = true)
    (hz : ∀ i ∈ lcReserved r, byteAt r.payload i = 0) :
    lifecycle s op f body = ackNow (body t r (lcPitch r).1) r.flow := by
  rw [lifecycle_runs h ha hh hx hc h0 (by assumption) hs, if_neg (by omega), if_neg (by simp [hw]), if_neg (by simp [hl])]
  have : (lcReserved r).find? (fun i => byteAt r.payload i ≠ 0) = none := by simpa using hz
  rw [this]

theorem lcReserved_sizes {r : Req} {op : Byte} (h : r.op = op) : lcReserved r =
  (if op.toNat = 0x74 then [2, 3] else if op.toNat = 0x76 then [1] else if op.toNat = 0x71 ∨ op.toNat = 0x73 ∨ op.toNat = 0x77 then [1, 2, 3] else []) := by
  rw [← h]; rfl

theorem mgmtFind_nowTo (s : State) (x : Nat) (k : BitVec 32) : mgmtFind (nowTo s x) k = mgmtFind s k := rfl

theorem trust_runs {s t op f r len body} (h0 : receive s op f = .go t r) (h1 : flagMisuse t r = false) (h2 : permitted t r = true) (h6 : pitchCheck t r = none)
   (h3 : r.length.toNat = len) (h4 : r.payload.length = len) (ho : opKnown op = true) :
   trust s op f len body = ackNow (body t r) r.flow := by
  have e := receive_anyOpcode h0
  unfold trust; rw [withRequest_go h0, checks_go (by rw [e]; exact ho) h1 h2 (by simp [h3, h4]) rfl h6]

end Sys2Proof.Machine
end

