-- ==== Sys2Proof/Laws/SpecLink.lean ====
section
/-! SUPPORT. Lemmas for the statements: KLR frames that pass their checks (R361). -/
namespace Sys2Proof.Machine

theorem klrCheck_runs {s : State} {typ : Nat} {rx : KlrRx} {k : State → State} (h1 : (klrGet s rx.link.val).state = .up ∨ (klrGet s rx.link.val).state = .hello)
   (h2 : 64 ≤ rx.bytes) (h3 : rx.bytes ≤ 9216) (h4 : crc32c (klrHdrBytes rx.hdr) = rx.hdr.hcrc) (h5 : rx.hdr.ver = 1) (h6 : rx.hdr.typ.toNat = typ) (h7 : typ ≤ 3) :
   klrCheck s typ rx k = k s := by
  unfold klrCheck; dsimp only
  rw [if_neg (by rcases h1 with h | h <;> rw [h] <;> decide), if_neg (by omega), if_neg (by omega), if_neg, if_neg (by simpa using h6)]
  rintro (a | a | a)
  · exact a h4
  · exact a h5
  · omega

theorem klrBody_runs {s : State} {typ n : Nat} {rx : KlrRx} {k : State → State} (h1 : (klrGet s rx.link.val).state = .up ∨ (klrGet s rx.link.val).state = .hello)
   (h2 : 64 ≤ rx.bytes) (h3 : rx.bytes ≤ 9216) (h4 : crc32c (klrHdrBytes rx.hdr) = rx.hdr.hcrc) (h5 : rx.hdr.ver = 1) (h6 : rx.hdr.typ.toNat = typ) (h7 : typ ≤ 3)
   (h8 : n + 4 ≤ rx.body.length) (h9 : (crc32c (rx.body.take n)).toNat = beAt rx.body n 4) :
   klrBody s typ n rx k = k s := by
  unfold klrBody; rw [klrCheck_runs h1 h2 h3 h4 h5 h6 h7]; rw [if_neg]
  rintro (a | a)
  · omega
  · exact a h9

theorem klr_notServing {s : State} {typ : Nat} {rx : KlrRx} {k : State → State} (h : (klrGet s rx.link.val).state = .off ∨ (klrGet s rx.link.val).state = .down ∨ (klrGet s rx.link.val).state = .plain) :
   klrCheck s typ rx k = s := by unfold klrCheck; dsimp only; rw [if_pos h]

end Sys2Proof.Machine
end

