-- ==== Sys2Proof/Laws/SpecPlatform.lean ====
section
/-! SUPPORT. Lemmas for the statements: flies, units and boot sources. -/
namespace Sys2Proof.Machine

theorem aget_map_some {κ α : Type} [DecidableEq κ] (g : κ × α → κ × α) (hg : ∀ e, (g e).1 = e.1) (m : AMap κ α) (a : κ) :
    aget (m.map g) a = (aget m a).map (fun v => (g (a, v)).2) := by
  induction m with
  | nil => rfl
  | cons e t ih =>
    obtain ⟨k, v⟩ := e
    have h : g (k, v) = (k, (g (k, v)).2) := Prod.ext (hg _) rfl
    rw [List.map_cons, h]; simp only [aget]; split
    · rename_i hk; subst hk; rfl
    · exact ih

theorem domain_of_unit {a u : Nat} (h : unitOk a u = true) (hd : agentDomain a = 1) (hb : ¬ agentBlock a = 1) : False := by
  have : u ∈ agentUnits a := by simpa [unitOk] using h
  unfold agentUnits at this; dsimp only at this
  rw [hd] at this
  split at this
  · cases this
  · simp [hb] at this

theorem asBoot_open {s src s'} (h1 : scopeOf s src = none) (h2 : srcOpen s src = true) : asBoot s src s' = s' := by simp [asBoot, h1, h2]

theorem boot_drawBytes (n : Nat) (s : State) : (drawBytes n s).2.boot = s.boot := by
  induction n generalizing s with
  | zero => rfl
  | succ n ih => unfold drawBytes; dsimp only; rw [ih]; rfl

end Sys2Proof.Machine
end

