-- ==== Sys2Proof/Laws/SpecTraffic.lean ====
section
/-! SUPPORT. Lemmas for the statements: refills of buckets, and the choice of a link's next frame (R378, R385). -/
namespace Sys2Proof.Machine

theorem foldl_each {σ κ α : Type} [DecidableEq κ] (get : σ → κ → α) (P : σ → Prop) (up : σ → κ → σ) (new : κ → α → α)
    (hp : ∀ s k, P s → P (up s k))
    (self : ∀ s k, P s → get (up s k) k = new k (get s k)) (other : ∀ s k j, P s → j ≠ k → get (up s k) j = get s j)
    (l : List κ) (hl : l.Nodup) (s : σ) (hs : P s) (k : κ) :
    get (l.foldl up s) k = if k ∈ l then new k (get s k) else get s k := by
  induction l generalizing s with
  | nil => simp
  | cons a l ih =>
    obtain ⟨ha, hl'⟩ := List.nodup_cons.1 hl
    rw [List.foldl_cons, ih hl' _ (hp s a hs)]
    by_cases hk : k = a
    · subst hk; rw [if_neg ha, if_pos (List.mem_cons_self ..), self s k hs]
    · rw [other s a k hs hk]; simp [hk]

theorem foldl_keep {σ α β : Type} (f : σ → β) (up : σ → α → σ) (h : ∀ s a, f (up s a) = f s) (l : List α) (s : σ) : f (l.foldl up s) = f s := by
  induction l generalizing s with
  | nil => rfl
  | cons a l ih => rw [List.foldl_cons, ih, h]

/-- what refills never touch -/
def RefillKeeps (s : State) : List Nat × Tab PitchSt × Tab Word × Tab GateList × AMap (Nat × Nat × Nat) Queue × Dmc := ([], s.pitches, s.csr, s.tmg.lists, s.tmg.queues, s.dmc)

theorem refillKeeps_put (s n c b) : RefillKeeps (bucketPut s n c b) = RefillKeeps s := rfl

theorem pRate_refillKeeps {s t : State} (h : RefillKeeps s = RefillKeeps t) (n c) : pRate s n c = pRate t n c := by
  simp only [RefillKeeps, Prod.mk.injEq] at h; unfold pRate pGet; rw [h.2.1]

theorem regField_refillKeeps {s t : State} (h : RefillKeeps s = RefillKeeps t) (a o l n) : regField s a o l n = regField t a o l n := by
  simp only [RefillKeeps, Prod.mk.injEq] at h; unfold regField regGet; rw [h.2.2.1]

theorem burst_refillKeeps {s t : State} (h : RefillKeeps s = RefillKeeps t) (c) : burstOf s c = burstOf t c := by
  unfold burstOf; rw [regField_refillKeeps h]

theorem refillKeeps_periodic (s e p) : RefillKeeps (periodicCd10 s e p) = RefillKeeps s := by unfold periodicCd10 cd10To elapse cd10Put RefillKeeps; rfl

theorem shapers_periodic (s e p) : (periodicCd10 s e p).tmg.shapers = s.tmg.shapers := by unfold periodicCd10 cd10To elapse cd10Put; rfl

theorem policers_periodic (s e p) : (periodicCd10 s e p).tmg.policers = s.tmg.policers := by unfold periodicCd10 cd10To elapse cd10Put; rfl

theorem life_periodic (s e p n) : (pGet (periodicCd10 s e p) n).life = (pGet s n).life := by unfold periodicCd10 cd10To elapse cd10Put pGet; rfl

theorem bestHead_spec (lt : Head → Head → Bool) (hs : List Head) : ∀ b h, hs.foldl (fun b h => match b with
    | none => some h
    | some x => if lt h x then some h else some x) b = some h → b = some h ∨ h ∈ hs := by
  induction hs with
  | nil => intro b h e; exact .inl e
  | cons a hs ih =>
    intro b h e
    rw [List.foldl_cons] at e
    rcases ih _ _ e with e' | e'
    · cases b with
      | none => right; simp at e'; rw [e']; exact List.mem_cons_self ..
      | some x =>
        simp at e'; split at e'
        · right; cases e'; exact List.mem_cons_self ..
        · exact .inl e'
    · exact .inr (List.mem_cons_of_mem _ e')

theorem bestHead_mem {lt hs h} (e : bestHead lt hs = some h) : h ∈ hs := by
  rcases bestHead_spec lt hs none h e with a | a
  · cases a
  · exact a

theorem bestHead_none {lt hs} (e : bestHead lt hs = none) : hs = [] := by
  cases hs with
  | nil => rfl
  | cons a t =>
    exfalso; unfold bestHead at e; rw [List.foldl_cons] at e
    have : ∀ (t : List Head) (x : Head), t.foldl (fun b h => match b with
      | none => some h
      | some x => if lt h x then some h else some x) (some x) ≠ none := by
      intro t; induction t with
      | nil => intro x; simp
      | cons a t ih => intro x; rw [List.foldl_cons]; dsimp only; split <;> exact ih _
    exact this t a e

/-- the winner is no worse in a key -/
theorem bestHead_le (key : Head → Nat) (lt : Head → Head → Bool) (hlt : ∀ a b, lt a b = true → key a ≤ key b) (hnl : ∀ a b, lt a b = false → key b ≤ key a)
    (hs : List Head) : ∀ b h, hs.foldl (fun b h => match b with
    | none => some h
    | some x => if lt h x then some h else some x) b = some h → (∀ x, b = some x → key h ≤ key x) ∧ ∀ x ∈ hs, key h ≤ key x := by
  induction hs with
  | nil => intro b h e; exact ⟨fun x hx => by cases e.symm.trans hx; exact le_refl _, by simp⟩
  | cons a hs ih =>
    intro b h e
    rw [List.foldl_cons] at e
    obtain ⟨h1, h2⟩ := ih _ _ e
    cases b with
    | none =>
      refine ⟨by simp, ?_⟩
      intro x hx; rcases List.mem_cons.1 hx with rfl | hx
      · exact h1 _ rfl
      · exact h2 x hx
    | some y =>
      dsimp only at h1
      by_cases hl : lt a y = true
      · rw [if_pos hl] at h1
        refine ⟨fun x hx => by cases hx; exact le_trans (h1 a rfl) (hlt a _ hl), ?_⟩
        intro x hx; rcases List.mem_cons.1 hx with rfl | hx
        · exact h1 _ rfl
        · exact h2 x hx
      · rw [if_neg hl] at h1
        have hl' : lt a y = false := by simpa using hl
        refine ⟨fun x hx => by cases hx; exact h1 _ rfl, ?_⟩
        intro x hx; rcases List.mem_cons.1 hx with rfl | hx
        · exact le_trans (h1 y rfl) (hnl _ y hl')
        · exact h2 x hx

end Sys2Proof.Machine
end

