-- ==== Sys2Proof/Laws/SpecValues.lean ====
section
/-! SUPPORT. Lemmas for the statements: bit fields, routing distance and check values (R405, R475). -/
namespace Sys2Proof.Machine

theorem setBits_one {w : Nat} (x : BitVec w) (p v k : Nat) (hv : v < 2) (hk : k < w) : (setBits x p 1 v).getLsbD k = if k = p then decide (v = 1) else x.getLsbD k := by
  unfold setBits
  rw [BitVec.getLsbD_ofNat, decide_eq_true hk, Bool.true_and]
  have e : (x.toNat >>> (p + 1)) <<< (p + 1) + ((v % 2 ^ 1) <<< p) + x.toNat % 2 ^ p = 2 ^ p * (2 * (x.toNat >>> (p + 1)) + v) + x.toNat % 2 ^ p := by
    rw [Nat.shiftLeft_eq, Nat.shiftLeft_eq, Nat.pow_succ 2 p, show v % 2 ^ 1 = v from Nat.mod_eq_of_lt hv]; ring
  rw [e, Nat.testBit_two_pow_mul_add _ (Nat.mod_lt _ (Nat.two_pow_pos p))]
  by_cases h1 : k < p
  · rw [if_pos h1, if_neg (by omega), Nat.testBit_mod_two_pow, decide_eq_true h1, Bool.true_and]; rfl
  · rw [if_neg h1]
    obtain ⟨d, rfl⟩ : ∃ d, k = p + d := ⟨k - p, by omega⟩
    rw [Nat.add_sub_cancel_left]
    cases d with
    | zero => rw [if_pos (Nat.add_zero p), Nat.testBit_zero]; rw [decide_eq_decide]; omega
    | succ d =>
      rw [if_neg (by omega), Nat.testBit_succ, show (2 * (x.toNat >>> (p + 1)) + v) / 2 = x.toNat >>> (p + 1) by omega, Nat.testBit_shiftRight]
      show _ = x.toNat.testBit _; congr 1; omega

theorem lset_getElem {α : Type} (l : List α) : ∀ (i j : Nat) (v : α), (lset l i v)[j]? = if j = i ∧ i < l.length then some v else l[j]? := by
  induction l with
  | nil => intro i j v; simp [lset]
  | cons a l ih =>
    intro i j v
    cases i with
    | zero => cases j <;> simp [lset]
    | succ i => cases j with
      | zero => simp [lset]
      | succ j => simp only [lset, List.getElem?_cons_succ, ih]; simp

theorem all_upto_iff (n : Nat) (f : Nat → Bool) : (upto n).all f = true ↔ ∀ k, k < n → f k = true := by simp [upto]

theorem nearer_iff (n d dir : Nat) (hn : n < 48) (hdir : dir < 4) :
    (match neighbour n dir with | some m => decide (meshDist m d < meshDist n d) | none => false) = true ↔
    ∃ m, (m < 48 ∧ ((dir = 0 ∧ ((m % 8 : Nat) : Int) = ((n % 8 : Nat) : Int) + 1 ∧ ((m / 8 : Nat) : Int) = (n / 8 : Nat)) ∨ (dir = 1 ∧ ((m % 8 : Nat) : Int) = ((n % 8 : Nat) : Int) - 1 ∧ ((m / 8 : Nat) : Int) = (n / 8 : Nat)) ∨
      (dir = 2 ∧ ((m % 8 : Nat) : Int) = (n % 8 : Nat) ∧ ((m / 8 : Nat) : Int) = ((n / 8 : Nat) : Int) + 1) ∨ (dir = 3 ∧ ((m % 8 : Nat) : Int) = (n % 8 : Nat) ∧ ((m / 8 : Nat) : Int) = ((n / 8 : Nat) : Int) - 1))) ∧
      ((((m % 8 : Nat) : Int) - (d % 8 : Nat)).natAbs + (((m / 8 : Nat) : Int) - (d / 8 : Nat)).natAbs < (((n % 8 : Nat) : Int) - (d % 8 : Nat)).natAbs + (((n / 8 : Nat) : Int) - (d / 8 : Nat)).natAbs) := by
  have hdist : ∀ a, meshDist a d = (((a % 8 : Nat) : Int) - (d % 8 : Nat)).natAbs + (((a / 8 : Nat) : Int) - (d / 8 : Nat)).natAbs := by
    intro a; unfold meshDist rx ry; omega
  have key : ∀ m, neighbour n dir = some m ↔ (m < 48 ∧ ((dir = 0 ∧ ((m % 8 : Nat) : Int) = ((n % 8 : Nat) : Int) + 1 ∧ ((m / 8 : Nat) : Int) = (n / 8 : Nat)) ∨ (dir = 1 ∧ ((m % 8 : Nat) : Int) = ((n % 8 : Nat) : Int) - 1 ∧ ((m / 8 : Nat) : Int) = (n / 8 : Nat)) ∨
      (dir = 2 ∧ ((m % 8 : Nat) : Int) = (n % 8 : Nat) ∧ ((m / 8 : Nat) : Int) = ((n / 8 : Nat) : Int) + 1) ∨ (dir = 3 ∧ ((m % 8 : Nat) : Int) = (n % 8 : Nat) ∧ ((m / 8 : Nat) : Int) = ((n / 8 : Nat) : Int) - 1))) := by
    intro m; unfold neighbour rx ry
    rcases (show dir = 0 ∨ dir = 1 ∨ dir = 2 ∨ dir = 3 by omega) with rfl | rfl | rfl | rfl
    · simp; omega
    · simp; omega
    · simp; omega
    · simp; omega
  constructor
  · intro h
    cases hm : neighbour n dir with
    | none => rw [hm] at h; cases h
    | some m => rw [hm] at h; refine ⟨m, (key m).1 hm, ?_⟩; rw [← hdist, ← hdist]; simpa using h
  · rintro ⟨m, h1, h2⟩
    rw [(key m).2 h1]; rw [← hdist, ← hdist] at h2; simpa using h2

theorem broadcast_addr_div (a i o : Nat) (h : o < 65536) : ((a - 63 + i) * 65536 + o) / 65536 = a - 63 + i := by omega

theorem broadcast_addr_mod (a i o : Nat) (h : o < 65536) : ((a - 63 + i) * 65536 + o) % 65536 = o := by omega

theorem rev_getElem (x : BitVec 32) (i : Nat) : x.reverse.getLsbD i = (decide (i < 32) && x.getLsbD (31 - i)) := by
  rw [BitVec.getLsbD_reverse, BitVec.getMsbD]

theorem reverse_xor (x y : BitVec 32) : (x ^^^ y).reverse = x.reverse ^^^ y.reverse := by
  apply BitVec.eq_of_getLsbD_eq; intro i hi
  rw [BitVec.getLsbD_xor, rev_getElem, rev_getElem, rev_getElem, BitVec.getLsbD_xor]; cases decide (i < 32) <;> rfl

theorem reverse_ushiftRight (x : BitVec 32) : (x >>> 1).reverse = x.reverse <<< 1 := by
  apply BitVec.eq_of_getLsbD_eq; intro i hi
  rw [BitVec.getLsbD_shiftLeft, rev_getElem, rev_getElem, BitVec.getLsbD_ushiftRight, decide_eq_true hi]
  by_cases h : i < 1
  · have : i = 0 := by omega
    subst this; simp
  · rw [decide_eq_false h, decide_eq_true (show i - 1 < 32 by omega), show 1 + (31 - i) = 31 - (i - 1) by omega]; rfl

theorem crc_reversed_bit (p c : BitVec 32) : (crcBit p c).reverse = if c.reverse.msb = true then (c.reverse <<< 1) ^^^ p.reverse else c.reverse <<< 1 := by
  have hm : c.reverse.msb = c.getLsbD 0 := by rw [BitVec.msb_reverse]
  unfold crcBit; rw [hm]
  by_cases h : c.getLsbD 0 = true
  · rw [if_pos h, if_pos h, reverse_xor, reverse_ushiftRight]
  · rw [if_neg h, if_neg h, reverse_ushiftRight]

theorem crc_reversed_bits (p : BitVec 32) (n : Nat) : ∀ c : BitVec 32, ((List.range n).foldl (fun a _ => crcBit p a) c).reverse =
    (List.range n).foldl (fun (a : BitVec 32) (_ : Nat) => if a.msb = true then (a <<< 1) ^^^ p.reverse else a <<< 1) c.reverse := by
  induction n with
  | zero => intro c; rfl
  | succ n ih => intro c; rw [List.range_succ, List.foldl_append, List.foldl_append, ← ih]; exact crc_reversed_bit _ _

theorem crc_reversed_byte (b : Byte) : (b.zeroExtend 32).reverse = b.reverse.zeroExtend 32 <<< 24 := by
  apply BitVec.eq_of_getLsbD_eq; intro i hi
  rw [BitVec.getLsbD_shiftLeft, rev_getElem]
  rw [decide_eq_true hi]
  simp only [BitVec.zeroExtend, BitVec.getLsbD_setWidth, BitVec.getLsbD_reverse, BitVec.getMsbD]
  by_cases h : i < 24
  · rw [decide_eq_true h, BitVec.getLsbD_of_ge b (31 - i) (by omega)]; simp
  · rw [decide_eq_false h, show 8 - 1 - (i - 24) = 31 - i by omega, decide_eq_true (show i - 24 < 8 by omega), decide_eq_true (show i - 24 < 32 by omega), decide_eq_true (show 31 - i < 32 by omega)]; rfl

theorem crc_reversed_feed (p : BitVec 32) : ∀ (bs : List Byte) (c : BitVec 32), (bs.foldl (crcFeed p) c).reverse =
    bs.foldl (fun (c : BitVec 32) (b : Byte) => (List.range 8).foldl (fun (a : BitVec 32) (_ : Nat) => if a.msb = true then (a <<< 1) ^^^ p.reverse else a <<< 1) (c ^^^ (b.reverse.zeroExtend 32 <<< 24))) c.reverse := by
  intro bs
  induction bs with
  | nil => intro c; rfl
  | cons b bs ih =>
    intro c; rw [List.foldl_cons, List.foldl_cons, ih]; congr 1
    unfold crcFeed; rw [crc_reversed_bits, reverse_xor, crc_reversed_byte]

theorem reverse_reverse32 (x : BitVec 32) : x.reverse.reverse = x := by
  apply BitVec.eq_of_getLsbD_eq; intro i hi
  have h1 : 31 - i < 32 := by omega
  have h2 : 31 - (31 - i) = i := by omega
  rw [rev_getElem, rev_getElem, h2, decide_eq_true hi, decide_eq_true h1, Bool.true_and, Bool.true_and]

end Sys2Proof.Machine
end

