-- ==== Sys2Proof/Laws/State.lean ====
section
/-! SUPPORT. What each named update of the state changes, field by field, and that it changes nothing else: one lemma a field, true by
definition, so that no proof unfolds an update. -/
namespace Sys2Proof.Machine

/-! ## tptMod -/
@[simp] theorem tptMod_pending (s : State) (f : Tpt → Tpt) : (tptMod s f).pending = s.pending := rfl
@[simp] theorem tptMod_now (s : State) (f : Tpt → Tpt) : (tptMod s f).now = s.now := rfl
@[simp] theorem tptMod_cd10Sec (s : State) (f : Tpt → Tpt) : (tptMod s f).cd10Sec = s.cd10Sec := rfl
@[simp] theorem tptMod_cd10Ns (s : State) (f : Tpt → Tpt) : (tptMod s f).cd10Ns = s.cd10Ns := rfl
@[simp] theorem tptMod_cd10Frac (s : State) (f : Tpt → Tpt) : (tptMod s f).cd10Frac = s.cd10Frac := rfl
@[simp] theorem tptMod_ticks (s : State) (f : Tpt → Tpt) : (tptMod s f).ticks = s.ticks := rfl
@[simp] theorem tptMod_freeCtr (s : State) (f : Tpt → Tpt) : (tptMod s f).freeCtr = s.freeCtr := rfl
@[simp] theorem tptMod_wire (s : State) (f : Tpt → Tpt) : (tptMod s f).wire = s.wire := rfl
@[simp] theorem tptMod_units (s : State) (f : Tpt → Tpt) : (tptMod s f).units = s.units := rfl
@[simp] theorem tptMod_cnt (s : State) (f : Tpt → Tpt) : (tptMod s f).cnt = s.cnt := rfl
@[simp] theorem tptMod_cntPitch (s : State) (f : Tpt → Tpt) : (tptMod s f).cntPitch = s.cntPitch := rfl
@[simp] theorem tptMod_csr (s : State) (f : Tpt → Tpt) : (tptMod s f).csr = s.csr := rfl
@[simp] theorem tptMod_sel (s : State) (f : Tpt → Tpt) : (tptMod s f).sel = s.sel := rfl
@[simp] theorem tptMod_cntCap (s : State) (f : Tpt → Tpt) : (tptMod s f).cntCap = s.cntCap := rfl
@[simp] theorem tptMod_pitches (s : State) (f : Tpt → Tpt) : (tptMod s f).pitches = s.pitches := rfl
@[simp] theorem tptMod_templates (s : State) (f : Tpt → Tpt) : (tptMod s f).templates = s.templates := rfl
@[simp] theorem tptMod_sweeping (s : State) (f : Tpt → Tpt) : (tptMod s f).sweeping = s.sweeping := rfl
@[simp] theorem tptMod_tpt (s : State) (f : Tpt → Tpt) : (tptMod s f).tpt = f s.tpt := rfl
@[simp] theorem tptMod_act (s : State) (f : Tpt → Tpt) : (tptMod s f).act = s.act := rfl
@[simp] theorem tptMod_tmg (s : State) (f : Tpt → Tpt) : (tptMod s f).tmg = s.tmg := rfl
@[simp] theorem tptMod_prt (s : State) (f : Tpt → Tpt) : (tptMod s f).prt = s.prt := rfl
@[simp] theorem tptMod_klr (s : State) (f : Tpt → Tpt) : (tptMod s f).klr = s.klr := rfl
@[simp] theorem tptMod_ptp (s : State) (f : Tpt → Tpt) : (tptMod s f).ptp = s.ptp := rfl
@[simp] theorem tptMod_dmc (s : State) (f : Tpt → Tpt) : (tptMod s f).dmc = s.dmc := rfl
@[simp] theorem tptMod_fum (s : State) (f : Tpt → Tpt) : (tptMod s f).fum = s.fum := rfl
@[simp] theorem tptMod_swn (s : State) (f : Tpt → Tpt) : (tptMod s f).swn = s.swn := rfl
@[simp] theorem tptMod_clx (s : State) (f : Tpt → Tpt) : (tptMod s f).clx = s.clx := rfl
@[simp] theorem tptMod_grd (s : State) (f : Tpt → Tpt) : (tptMod s f).grd = s.grd := rfl
@[simp] theorem tptMod_img (s : State) (f : Tpt → Tpt) : (tptMod s f).img = s.img := rfl
@[simp] theorem tptMod_mir (s : State) (f : Tpt → Tpt) : (tptMod s f).mir = s.mir := rfl
@[simp] theorem tptMod_flt (s : State) (f : Tpt → Tpt) : (tptMod s f).flt = s.flt := rfl
@[simp] theorem tptMod_svc (s : State) (f : Tpt → Tpt) : (tptMod s f).svc = s.svc := rfl
@[simp] theorem tptMod_cvus (s : State) (f : Tpt → Tpt) : (tptMod s f).cvus = s.cvus := rfl
@[simp] theorem tptMod_dbg (s : State) (f : Tpt → Tpt) : (tptMod s f).dbg = s.dbg := rfl
@[simp] theorem tptMod_fab (s : State) (f : Tpt → Tpt) : (tptMod s f).fab = s.fab := rfl
@[simp] theorem tptMod_boot (s : State) (f : Tpt → Tpt) : (tptMod s f).boot = s.boot := rfl
@[simp] theorem tptMod_brd (s : State) (f : Tpt → Tpt) : (tptMod s f).brd = s.brd := rfl
@[simp] theorem tptMod_crg (s : State) (f : Tpt → Tpt) : (tptMod s f).crg = s.crg := rfl

/-! ## actMod -/
@[simp] theorem actMod_pending (s : State) (f : Act → Act) : (actMod s f).pending = s.pending := rfl
@[simp] theorem actMod_now (s : State) (f : Act → Act) : (actMod s f).now = s.now := rfl
@[simp] theorem actMod_cd10Sec (s : State) (f : Act → Act) : (actMod s f).cd10Sec = s.cd10Sec := rfl
@[simp] theorem actMod_cd10Ns (s : State) (f : Act → Act) : (actMod s f).cd10Ns = s.cd10Ns := rfl
@[simp] theorem actMod_cd10Frac (s : State) (f : Act → Act) : (actMod s f).cd10Frac = s.cd10Frac := rfl
@[simp] theorem actMod_ticks (s : State) (f : Act → Act) : (actMod s f).ticks = s.ticks := rfl
@[simp] theorem actMod_freeCtr (s : State) (f : Act → Act) : (actMod s f).freeCtr = s.freeCtr := rfl
@[simp] theorem actMod_wire (s : State) (f : Act → Act) : (actMod s f).wire = s.wire := rfl
@[simp] theorem actMod_units (s : State) (f : Act → Act) : (actMod s f).units = s.units := rfl
@[simp] theorem actMod_cnt (s : State) (f : Act → Act) : (actMod s f).cnt = s.cnt := rfl
@[simp] theorem actMod_cntPitch (s : State) (f : Act → Act) : (actMod s f).cntPitch = s.cntPitch := rfl
@[simp] theorem actMod_csr (s : State) (f : Act → Act) : (actMod s f).csr = s.csr := rfl
@[simp] theorem actMod_sel (s : State) (f : Act → Act) : (actMod s f).sel = s.sel := rfl
@[simp] theorem actMod_cntCap (s : State) (f : Act → Act) : (actMod s f).cntCap = s.cntCap := rfl
@[simp] theorem actMod_pitches (s : State) (f : Act → Act) : (actMod s f).pitches = s.pitches := rfl
@[simp] theorem actMod_templates (s : State) (f : Act → Act) : (actMod s f).templates = s.templates := rfl
@[simp] theorem actMod_sweeping (s : State) (f : Act → Act) : (actMod s f).sweeping = s.sweeping := rfl
@[simp] theorem actMod_tpt (s : State) (f : Act → Act) : (actMod s f).tpt = s.tpt := rfl
@[simp] theorem actMod_act (s : State) (f : Act → Act) : (actMod s f).act = f s.act := rfl
@[simp] theorem actMod_tmg (s : State) (f : Act → Act) : (actMod s f).tmg = s.tmg := rfl
@[simp] theorem actMod_prt (s : State) (f : Act → Act) : (actMod s f).prt = s.prt := rfl
@[simp] theorem actMod_klr (s : State) (f : Act → Act) : (actMod s f).klr = s.klr := rfl
@[simp] theorem actMod_ptp (s : State) (f : Act → Act) : (actMod s f).ptp = s.ptp := rfl
@[simp] theorem actMod_dmc (s : State) (f : Act → Act) : (actMod s f).dmc = s.dmc := rfl
@[simp] theorem actMod_fum (s : State) (f : Act → Act) : (actMod s f).fum = s.fum := rfl
@[simp] theorem actMod_swn (s : State) (f : Act → Act) : (actMod s f).swn = s.swn := rfl
@[simp] theorem actMod_clx (s : State) (f : Act → Act) : (actMod s f).clx = s.clx := rfl
@[simp] theorem actMod_grd (s : State) (f : Act → Act) : (actMod s f).grd = s.grd := rfl
@[simp] theorem actMod_img (s : State) (f : Act → Act) : (actMod s f).img = s.img := rfl
@[simp] theorem actMod_mir (s : State) (f : Act → Act) : (actMod s f).mir = s.mir := rfl
@[simp] theorem actMod_flt (s : State) (f : Act → Act) : (actMod s f).flt = s.flt := rfl
@[simp] theorem actMod_svc (s : State) (f : Act → Act) : (actMod s f).svc = s.svc := rfl
@[simp] theorem actMod_cvus (s : State) (f : Act → Act) : (actMod s f).cvus = s.cvus := rfl
@[simp] theorem actMod_dbg (s : State) (f : Act → Act) : (actMod s f).dbg = s.dbg := rfl
@[simp] theorem actMod_fab (s : State) (f : Act → Act) : (actMod s f).fab = s.fab := rfl
@[simp] theorem actMod_boot (s : State) (f : Act → Act) : (actMod s f).boot = s.boot := rfl
@[simp] theorem actMod_brd (s : State) (f : Act → Act) : (actMod s f).brd = s.brd := rfl
@[simp] theorem actMod_crg (s : State) (f : Act → Act) : (actMod s f).crg = s.crg := rfl

/-! ## tmgMod -/
@[simp] theorem tmgMod_pending (s : State) (f : Tmg → Tmg) : (tmgMod s f).pending = s.pending := rfl
@[simp] theorem tmgMod_now (s : State) (f : Tmg → Tmg) : (tmgMod s f).now = s.now := rfl
@[simp] theorem tmgMod_cd10Sec (s : State) (f : Tmg → Tmg) : (tmgMod s f).cd10Sec = s.cd10Sec := rfl
@[simp] theorem tmgMod_cd10Ns (s : State) (f : Tmg → Tmg) : (tmgMod s f).cd10Ns = s.cd10Ns := rfl
@[simp] theorem tmgMod_cd10Frac (s : State) (f : Tmg → Tmg) : (tmgMod s f).cd10Frac = s.cd10Frac := rfl
@[simp] theorem tmgMod_ticks (s : State) (f : Tmg → Tmg) : (tmgMod s f).ticks = s.ticks := rfl
@[simp] theorem tmgMod_freeCtr (s : State) (f : Tmg → Tmg) : (tmgMod s f).freeCtr = s.freeCtr := rfl
@[simp] theorem tmgMod_wire (s : State) (f : Tmg → Tmg) : (tmgMod s f).wire = s.wire := rfl
@[simp] theorem tmgMod_units (s : State) (f : Tmg → Tmg) : (tmgMod s f).units = s.units := rfl
@[simp] theorem tmgMod_cnt (s : State) (f : Tmg → Tmg) : (tmgMod s f).cnt = s.cnt := rfl
@[simp] theorem tmgMod_cntPitch (s : State) (f : Tmg → Tmg) : (tmgMod s f).cntPitch = s.cntPitch := rfl
@[simp] theorem tmgMod_csr (s : State) (f : Tmg → Tmg) : (tmgMod s f).csr = s.csr := rfl
@[simp] theorem tmgMod_sel (s : State) (f : Tmg → Tmg) : (tmgMod s f).sel = s.sel := rfl
@[simp] theorem tmgMod_cntCap (s : State) (f : Tmg → Tmg) : (tmgMod s f).cntCap = s.cntCap := rfl
@[simp] theorem tmgMod_pitches (s : State) (f : Tmg → Tmg) : (tmgMod s f).pitches = s.pitches := rfl
@[simp] theorem tmgMod_templates (s : State) (f : Tmg → Tmg) : (tmgMod s f).templates = s.templates := rfl
@[simp] theorem tmgMod_sweeping (s : State) (f : Tmg → Tmg) : (tmgMod s f).sweeping = s.sweeping := rfl
@[simp] theorem tmgMod_tpt (s : State) (f : Tmg → Tmg) : (tmgMod s f).tpt = s.tpt := rfl
@[simp] theorem tmgMod_act (s : State) (f : Tmg → Tmg) : (tmgMod s f).act = s.act := rfl
@[simp] theorem tmgMod_tmg (s : State) (f : Tmg → Tmg) : (tmgMod s f).tmg = f s.tmg := rfl
@[simp] theorem tmgMod_prt (s : State) (f : Tmg → Tmg) : (tmgMod s f).prt = s.prt := rfl
@[simp] theorem tmgMod_klr (s : State) (f : Tmg → Tmg) : (tmgMod s f).klr = s.klr := rfl
@[simp] theorem tmgMod_ptp (s : State) (f : Tmg → Tmg) : (tmgMod s f).ptp = s.ptp := rfl
@[simp] theorem tmgMod_dmc (s : State) (f : Tmg → Tmg) : (tmgMod s f).dmc = s.dmc := rfl
@[simp] theorem tmgMod_fum (s : State) (f : Tmg → Tmg) : (tmgMod s f).fum = s.fum := rfl
@[simp] theorem tmgMod_swn (s : State) (f : Tmg → Tmg) : (tmgMod s f).swn = s.swn := rfl
@[simp] theorem tmgMod_clx (s : State) (f : Tmg → Tmg) : (tmgMod s f).clx = s.clx := rfl
@[simp] theorem tmgMod_grd (s : State) (f : Tmg → Tmg) : (tmgMod s f).grd = s.grd := rfl
@[simp] theorem tmgMod_img (s : State) (f : Tmg → Tmg) : (tmgMod s f).img = s.img := rfl
@[simp] theorem tmgMod_mir (s : State) (f : Tmg → Tmg) : (tmgMod s f).mir = s.mir := rfl
@[simp] theorem tmgMod_flt (s : State) (f : Tmg → Tmg) : (tmgMod s f).flt = s.flt := rfl
@[simp] theorem tmgMod_svc (s : State) (f : Tmg → Tmg) : (tmgMod s f).svc = s.svc := rfl
@[simp] theorem tmgMod_cvus (s : State) (f : Tmg → Tmg) : (tmgMod s f).cvus = s.cvus := rfl
@[simp] theorem tmgMod_dbg (s : State) (f : Tmg → Tmg) : (tmgMod s f).dbg = s.dbg := rfl
@[simp] theorem tmgMod_fab (s : State) (f : Tmg → Tmg) : (tmgMod s f).fab = s.fab := rfl
@[simp] theorem tmgMod_boot (s : State) (f : Tmg → Tmg) : (tmgMod s f).boot = s.boot := rfl
@[simp] theorem tmgMod_brd (s : State) (f : Tmg → Tmg) : (tmgMod s f).brd = s.brd := rfl
@[simp] theorem tmgMod_crg (s : State) (f : Tmg → Tmg) : (tmgMod s f).crg = s.crg := rfl

/-! ## dmcMod -/
@[simp] theorem dmcMod_pending (s : State) (f : Dmc → Dmc) : (dmcMod s f).pending = s.pending := rfl
@[simp] theorem dmcMod_now (s : State) (f : Dmc → Dmc) : (dmcMod s f).now = s.now := rfl
@[simp] theorem dmcMod_cd10Sec (s : State) (f : Dmc → Dmc) : (dmcMod s f).cd10Sec = s.cd10Sec := rfl
@[simp] theorem dmcMod_cd10Ns (s : State) (f : Dmc → Dmc) : (dmcMod s f).cd10Ns = s.cd10Ns := rfl
@[simp] theorem dmcMod_cd10Frac (s : State) (f : Dmc → Dmc) : (dmcMod s f).cd10Frac = s.cd10Frac := rfl
@[simp] theorem dmcMod_ticks (s : State) (f : Dmc → Dmc) : (dmcMod s f).ticks = s.ticks := rfl
@[simp] theorem dmcMod_freeCtr (s : State) (f : Dmc → Dmc) : (dmcMod s f).freeCtr = s.freeCtr := rfl
@[simp] theorem dmcMod_wire (s : State) (f : Dmc → Dmc) : (dmcMod s f).wire = s.wire := rfl
@[simp] theorem dmcMod_units (s : State) (f : Dmc → Dmc) : (dmcMod s f).units = s.units := rfl
@[simp] theorem dmcMod_cnt (s : State) (f : Dmc → Dmc) : (dmcMod s f).cnt = s.cnt := rfl
@[simp] theorem dmcMod_cntPitch (s : State) (f : Dmc → Dmc) : (dmcMod s f).cntPitch = s.cntPitch := rfl
@[simp] theorem dmcMod_csr (s : State) (f : Dmc → Dmc) : (dmcMod s f).csr = s.csr := rfl
@[simp] theorem dmcMod_sel (s : State) (f : Dmc → Dmc) : (dmcMod s f).sel = s.sel := rfl
@[simp] theorem dmcMod_cntCap (s : State) (f : Dmc → Dmc) : (dmcMod s f).cntCap = s.cntCap := rfl
@[simp] theorem dmcMod_pitches (s : State) (f : Dmc → Dmc) : (dmcMod s f).pitches = s.pitches := rfl
@[simp] theorem dmcMod_templates (s : State) (f : Dmc → Dmc) : (dmcMod s f).templates = s.templates := rfl
@[simp] theorem dmcMod_sweeping (s : State) (f : Dmc → Dmc) : (dmcMod s f).sweeping = s.sweeping := rfl
@[simp] theorem dmcMod_tpt (s : State) (f : Dmc → Dmc) : (dmcMod s f).tpt = s.tpt := rfl
@[simp] theorem dmcMod_act (s : State) (f : Dmc → Dmc) : (dmcMod s f).act = s.act := rfl
@[simp] theorem dmcMod_tmg (s : State) (f : Dmc → Dmc) : (dmcMod s f).tmg = s.tmg := rfl
@[simp] theorem dmcMod_prt (s : State) (f : Dmc → Dmc) : (dmcMod s f).prt = s.prt := rfl
@[simp] theorem dmcMod_klr (s : State) (f : Dmc → Dmc) : (dmcMod s f).klr = s.klr := rfl
@[simp] theorem dmcMod_ptp (s : State) (f : Dmc → Dmc) : (dmcMod s f).ptp = s.ptp := rfl
@[simp] theorem dmcMod_dmc (s : State) (f : Dmc → Dmc) : (dmcMod s f).dmc = f s.dmc := rfl
@[simp] theorem dmcMod_fum (s : State) (f : Dmc → Dmc) : (dmcMod s f).fum = s.fum := rfl
@[simp] theorem dmcMod_swn (s : State) (f : Dmc → Dmc) : (dmcMod s f).swn = s.swn := rfl
@[simp] theorem dmcMod_clx (s : State) (f : Dmc → Dmc) : (dmcMod s f).clx = s.clx := rfl
@[simp] theorem dmcMod_grd (s : State) (f : Dmc → Dmc) : (dmcMod s f).grd = s.grd := rfl
@[simp] theorem dmcMod_img (s : State) (f : Dmc → Dmc) : (dmcMod s f).img = s.img := rfl
@[simp] theorem dmcMod_mir (s : State) (f : Dmc → Dmc) : (dmcMod s f).mir = s.mir := rfl
@[simp] theorem dmcMod_flt (s : State) (f : Dmc → Dmc) : (dmcMod s f).flt = s.flt := rfl
@[simp] theorem dmcMod_svc (s : State) (f : Dmc → Dmc) : (dmcMod s f).svc = s.svc := rfl
@[simp] theorem dmcMod_cvus (s : State) (f : Dmc → Dmc) : (dmcMod s f).cvus = s.cvus := rfl
@[simp] theorem dmcMod_dbg (s : State) (f : Dmc → Dmc) : (dmcMod s f).dbg = s.dbg := rfl
@[simp] theorem dmcMod_fab (s : State) (f : Dmc → Dmc) : (dmcMod s f).fab = s.fab := rfl
@[simp] theorem dmcMod_boot (s : State) (f : Dmc → Dmc) : (dmcMod s f).boot = s.boot := rfl
@[simp] theorem dmcMod_brd (s : State) (f : Dmc → Dmc) : (dmcMod s f).brd = s.brd := rfl
@[simp] theorem dmcMod_crg (s : State) (f : Dmc → Dmc) : (dmcMod s f).crg = s.crg := rfl

/-! ## fumMod -/
@[simp] theorem fumMod_pending (s : State) (f : Fum → Fum) : (fumMod s f).pending = s.pending := rfl
@[simp] theorem fumMod_now (s : State) (f : Fum → Fum) : (fumMod s f).now = s.now := rfl
@[simp] theorem fumMod_cd10Sec (s : State) (f : Fum → Fum) : (fumMod s f).cd10Sec = s.cd10Sec := rfl
@[simp] theorem fumMod_cd10Ns (s : State) (f : Fum → Fum) : (fumMod s f).cd10Ns = s.cd10Ns := rfl
@[simp] theorem fumMod_cd10Frac (s : State) (f : Fum → Fum) : (fumMod s f).cd10Frac = s.cd10Frac := rfl
@[simp] theorem fumMod_ticks (s : State) (f : Fum → Fum) : (fumMod s f).ticks = s.ticks := rfl
@[simp] theorem fumMod_freeCtr (s : State) (f : Fum → Fum) : (fumMod s f).freeCtr = s.freeCtr := rfl
@[simp] theorem fumMod_wire (s : State) (f : Fum → Fum) : (fumMod s f).wire = s.wire := rfl
@[simp] theorem fumMod_units (s : State) (f : Fum → Fum) : (fumMod s f).units = s.units := rfl
@[simp] theorem fumMod_cnt (s : State) (f : Fum → Fum) : (fumMod s f).cnt = s.cnt := rfl
@[simp] theorem fumMod_cntPitch (s : State) (f : Fum → Fum) : (fumMod s f).cntPitch = s.cntPitch := rfl
@[simp] theorem fumMod_csr (s : State) (f : Fum → Fum) : (fumMod s f).csr = s.csr := rfl
@[simp] theorem fumMod_sel (s : State) (f : Fum → Fum) : (fumMod s f).sel = s.sel := rfl
@[simp] theorem fumMod_cntCap (s : State) (f : Fum → Fum) : (fumMod s f).cntCap = s.cntCap := rfl
@[simp] theorem fumMod_pitches (s : State) (f : Fum → Fum) : (fumMod s f).pitches = s.pitches := rfl
@[simp] theorem fumMod_templates (s : State) (f : Fum → Fum) : (fumMod s f).templates = s.templates := rfl
@[simp] theorem fumMod_sweeping (s : State) (f : Fum → Fum) : (fumMod s f).sweeping = s.sweeping := rfl
@[simp] theorem fumMod_tpt (s : State) (f : Fum → Fum) : (fumMod s f).tpt = s.tpt := rfl
@[simp] theorem fumMod_act (s : State) (f : Fum → Fum) : (fumMod s f).act = s.act := rfl
@[simp] theorem fumMod_tmg (s : State) (f : Fum → Fum) : (fumMod s f).tmg = s.tmg := rfl
@[simp] theorem fumMod_prt (s : State) (f : Fum → Fum) : (fumMod s f).prt = s.prt := rfl
@[simp] theorem fumMod_klr (s : State) (f : Fum → Fum) : (fumMod s f).klr = s.klr := rfl
@[simp] theorem fumMod_ptp (s : State) (f : Fum → Fum) : (fumMod s f).ptp = s.ptp := rfl
@[simp] theorem fumMod_dmc (s : State) (f : Fum → Fum) : (fumMod s f).dmc = s.dmc := rfl
@[simp] theorem fumMod_fum (s : State) (f : Fum → Fum) : (fumMod s f).fum = f s.fum := rfl
@[simp] theorem fumMod_swn (s : State) (f : Fum → Fum) : (fumMod s f).swn = s.swn := rfl
@[simp] theorem fumMod_clx (s : State) (f : Fum → Fum) : (fumMod s f).clx = s.clx := rfl
@[simp] theorem fumMod_grd (s : State) (f : Fum → Fum) : (fumMod s f).grd = s.grd := rfl
@[simp] theorem fumMod_img (s : State) (f : Fum → Fum) : (fumMod s f).img = s.img := rfl
@[simp] theorem fumMod_mir (s : State) (f : Fum → Fum) : (fumMod s f).mir = s.mir := rfl
@[simp] theorem fumMod_flt (s : State) (f : Fum → Fum) : (fumMod s f).flt = s.flt := rfl
@[simp] theorem fumMod_svc (s : State) (f : Fum → Fum) : (fumMod s f).svc = s.svc := rfl
@[simp] theorem fumMod_cvus (s : State) (f : Fum → Fum) : (fumMod s f).cvus = s.cvus := rfl
@[simp] theorem fumMod_dbg (s : State) (f : Fum → Fum) : (fumMod s f).dbg = s.dbg := rfl
@[simp] theorem fumMod_fab (s : State) (f : Fum → Fum) : (fumMod s f).fab = s.fab := rfl
@[simp] theorem fumMod_boot (s : State) (f : Fum → Fum) : (fumMod s f).boot = s.boot := rfl
@[simp] theorem fumMod_brd (s : State) (f : Fum → Fum) : (fumMod s f).brd = s.brd := rfl
@[simp] theorem fumMod_crg (s : State) (f : Fum → Fum) : (fumMod s f).crg = s.crg := rfl

/-! ## mirMod -/
@[simp] theorem mirMod_pending (s : State) (f : Mir → Mir) : (mirMod s f).pending = s.pending := rfl
@[simp] theorem mirMod_now (s : State) (f : Mir → Mir) : (mirMod s f).now = s.now := rfl
@[simp] theorem mirMod_cd10Sec (s : State) (f : Mir → Mir) : (mirMod s f).cd10Sec = s.cd10Sec := rfl
@[simp] theorem mirMod_cd10Ns (s : State) (f : Mir → Mir) : (mirMod s f).cd10Ns = s.cd10Ns := rfl
@[simp] theorem mirMod_cd10Frac (s : State) (f : Mir → Mir) : (mirMod s f).cd10Frac = s.cd10Frac := rfl
@[simp] theorem mirMod_ticks (s : State) (f : Mir → Mir) : (mirMod s f).ticks = s.ticks := rfl
@[simp] theorem mirMod_freeCtr (s : State) (f : Mir → Mir) : (mirMod s f).freeCtr = s.freeCtr := rfl
@[simp] theorem mirMod_wire (s : State) (f : Mir → Mir) : (mirMod s f).wire = s.wire := rfl
@[simp] theorem mirMod_units (s : State) (f : Mir → Mir) : (mirMod s f).units = s.units := rfl
@[simp] theorem mirMod_cnt (s : State) (f : Mir → Mir) : (mirMod s f).cnt = s.cnt := rfl
@[simp] theorem mirMod_cntPitch (s : State) (f : Mir → Mir) : (mirMod s f).cntPitch = s.cntPitch := rfl
@[simp] theorem mirMod_csr (s : State) (f : Mir → Mir) : (mirMod s f).csr = s.csr := rfl
@[simp] theorem mirMod_sel (s : State) (f : Mir → Mir) : (mirMod s f).sel = s.sel := rfl
@[simp] theorem mirMod_cntCap (s : State) (f : Mir → Mir) : (mirMod s f).cntCap = s.cntCap := rfl
@[simp] theorem mirMod_pitches (s : State) (f : Mir → Mir) : (mirMod s f).pitches = s.pitches := rfl
@[simp] theorem mirMod_templates (s : State) (f : Mir → Mir) : (mirMod s f).templates = s.templates := rfl
@[simp] theorem mirMod_sweeping (s : State) (f : Mir → Mir) : (mirMod s f).sweeping = s.sweeping := rfl
@[simp] theorem mirMod_tpt (s : State) (f : Mir → Mir) : (mirMod s f).tpt = s.tpt := rfl
@[simp] theorem mirMod_act (s : State) (f : Mir → Mir) : (mirMod s f).act = s.act := rfl
@[simp] theorem mirMod_tmg (s : State) (f : Mir → Mir) : (mirMod s f).tmg = s.tmg := rfl
@[simp] theorem mirMod_prt (s : State) (f : Mir → Mir) : (mirMod s f).prt = s.prt := rfl
@[simp] theorem mirMod_klr (s : State) (f : Mir → Mir) : (mirMod s f).klr = s.klr := rfl
@[simp] theorem mirMod_ptp (s : State) (f : Mir → Mir) : (mirMod s f).ptp = s.ptp := rfl
@[simp] theorem mirMod_dmc (s : State) (f : Mir → Mir) : (mirMod s f).dmc = s.dmc := rfl
@[simp] theorem mirMod_fum (s : State) (f : Mir → Mir) : (mirMod s f).fum = s.fum := rfl
@[simp] theorem mirMod_swn (s : State) (f : Mir → Mir) : (mirMod s f).swn = s.swn := rfl
@[simp] theorem mirMod_clx (s : State) (f : Mir → Mir) : (mirMod s f).clx = s.clx := rfl
@[simp] theorem mirMod_grd (s : State) (f : Mir → Mir) : (mirMod s f).grd = s.grd := rfl
@[simp] theorem mirMod_img (s : State) (f : Mir → Mir) : (mirMod s f).img = s.img := rfl
@[simp] theorem mirMod_mir (s : State) (f : Mir → Mir) : (mirMod s f).mir = f s.mir := rfl
@[simp] theorem mirMod_flt (s : State) (f : Mir → Mir) : (mirMod s f).flt = s.flt := rfl
@[simp] theorem mirMod_svc (s : State) (f : Mir → Mir) : (mirMod s f).svc = s.svc := rfl
@[simp] theorem mirMod_cvus (s : State) (f : Mir → Mir) : (mirMod s f).cvus = s.cvus := rfl
@[simp] theorem mirMod_dbg (s : State) (f : Mir → Mir) : (mirMod s f).dbg = s.dbg := rfl
@[simp] theorem mirMod_fab (s : State) (f : Mir → Mir) : (mirMod s f).fab = s.fab := rfl
@[simp] theorem mirMod_boot (s : State) (f : Mir → Mir) : (mirMod s f).boot = s.boot := rfl
@[simp] theorem mirMod_brd (s : State) (f : Mir → Mir) : (mirMod s f).brd = s.brd := rfl
@[simp] theorem mirMod_crg (s : State) (f : Mir → Mir) : (mirMod s f).crg = s.crg := rfl

/-! ## fltMod -/
@[simp] theorem fltMod_pending (s : State) (f : Flt → Flt) : (fltMod s f).pending = s.pending := rfl
@[simp] theorem fltMod_now (s : State) (f : Flt → Flt) : (fltMod s f).now = s.now := rfl
@[simp] theorem fltMod_cd10Sec (s : State) (f : Flt → Flt) : (fltMod s f).cd10Sec = s.cd10Sec := rfl
@[simp] theorem fltMod_cd10Ns (s : State) (f : Flt → Flt) : (fltMod s f).cd10Ns = s.cd10Ns := rfl
@[simp] theorem fltMod_cd10Frac (s : State) (f : Flt → Flt) : (fltMod s f).cd10Frac = s.cd10Frac := rfl
@[simp] theorem fltMod_ticks (s : State) (f : Flt → Flt) : (fltMod s f).ticks = s.ticks := rfl
@[simp] theorem fltMod_freeCtr (s : State) (f : Flt → Flt) : (fltMod s f).freeCtr = s.freeCtr := rfl
@[simp] theorem fltMod_wire (s : State) (f : Flt → Flt) : (fltMod s f).wire = s.wire := rfl
@[simp] theorem fltMod_units (s : State) (f : Flt → Flt) : (fltMod s f).units = s.units := rfl
@[simp] theorem fltMod_cnt (s : State) (f : Flt → Flt) : (fltMod s f).cnt = s.cnt := rfl
@[simp] theorem fltMod_cntPitch (s : State) (f : Flt → Flt) : (fltMod s f).cntPitch = s.cntPitch := rfl
@[simp] theorem fltMod_csr (s : State) (f : Flt → Flt) : (fltMod s f).csr = s.csr := rfl
@[simp] theorem fltMod_sel (s : State) (f : Flt → Flt) : (fltMod s f).sel = s.sel := rfl
@[simp] theorem fltMod_cntCap (s : State) (f : Flt → Flt) : (fltMod s f).cntCap = s.cntCap := rfl
@[simp] theorem fltMod_pitches (s : State) (f : Flt → Flt) : (fltMod s f).pitches = s.pitches := rfl
@[simp] theorem fltMod_templates (s : State) (f : Flt → Flt) : (fltMod s f).templates = s.templates := rfl
@[simp] theorem fltMod_sweeping (s : State) (f : Flt → Flt) : (fltMod s f).sweeping = s.sweeping := rfl
@[simp] theorem fltMod_tpt (s : State) (f : Flt → Flt) : (fltMod s f).tpt = s.tpt := rfl
@[simp] theorem fltMod_act (s : State) (f : Flt → Flt) : (fltMod s f).act = s.act := rfl
@[simp] theorem fltMod_tmg (s : State) (f : Flt → Flt) : (fltMod s f).tmg = s.tmg := rfl
@[simp] theorem fltMod_prt (s : State) (f : Flt → Flt) : (fltMod s f).prt = s.prt := rfl
@[simp] theorem fltMod_klr (s : State) (f : Flt → Flt) : (fltMod s f).klr = s.klr := rfl
@[simp] theorem fltMod_ptp (s : State) (f : Flt → Flt) : (fltMod s f).ptp = s.ptp := rfl
@[simp] theorem fltMod_dmc (s : State) (f : Flt → Flt) : (fltMod s f).dmc = s.dmc := rfl
@[simp] theorem fltMod_fum (s : State) (f : Flt → Flt) : (fltMod s f).fum = s.fum := rfl
@[simp] theorem fltMod_swn (s : State) (f : Flt → Flt) : (fltMod s f).swn = s.swn := rfl
@[simp] theorem fltMod_clx (s : State) (f : Flt → Flt) : (fltMod s f).clx = s.clx := rfl
@[simp] theorem fltMod_grd (s : State) (f : Flt → Flt) : (fltMod s f).grd = s.grd := rfl
@[simp] theorem fltMod_img (s : State) (f : Flt → Flt) : (fltMod s f).img = s.img := rfl
@[simp] theorem fltMod_mir (s : State) (f : Flt → Flt) : (fltMod s f).mir = s.mir := rfl
@[simp] theorem fltMod_flt (s : State) (f : Flt → Flt) : (fltMod s f).flt = f s.flt := rfl
@[simp] theorem fltMod_svc (s : State) (f : Flt → Flt) : (fltMod s f).svc = s.svc := rfl
@[simp] theorem fltMod_cvus (s : State) (f : Flt → Flt) : (fltMod s f).cvus = s.cvus := rfl
@[simp] theorem fltMod_dbg (s : State) (f : Flt → Flt) : (fltMod s f).dbg = s.dbg := rfl
@[simp] theorem fltMod_fab (s : State) (f : Flt → Flt) : (fltMod s f).fab = s.fab := rfl
@[simp] theorem fltMod_boot (s : State) (f : Flt → Flt) : (fltMod s f).boot = s.boot := rfl
@[simp] theorem fltMod_brd (s : State) (f : Flt → Flt) : (fltMod s f).brd = s.brd := rfl
@[simp] theorem fltMod_crg (s : State) (f : Flt → Flt) : (fltMod s f).crg = s.crg := rfl

/-! ## svcMod -/
@[simp] theorem svcMod_pending (s : State) (f : Svc → Svc) : (svcMod s f).pending = s.pending := rfl
@[simp] theorem svcMod_now (s : State) (f : Svc → Svc) : (svcMod s f).now = s.now := rfl
@[simp] theorem svcMod_cd10Sec (s : State) (f : Svc → Svc) : (svcMod s f).cd10Sec = s.cd10Sec := rfl
@[simp] theorem svcMod_cd10Ns (s : State) (f : Svc → Svc) : (svcMod s f).cd10Ns = s.cd10Ns := rfl
@[simp] theorem svcMod_cd10Frac (s : State) (f : Svc → Svc) : (svcMod s f).cd10Frac = s.cd10Frac := rfl
@[simp] theorem svcMod_ticks (s : State) (f : Svc → Svc) : (svcMod s f).ticks = s.ticks := rfl
@[simp] theorem svcMod_freeCtr (s : State) (f : Svc → Svc) : (svcMod s f).freeCtr = s.freeCtr := rfl
@[simp] theorem svcMod_wire (s : State) (f : Svc → Svc) : (svcMod s f).wire = s.wire := rfl
@[simp] theorem svcMod_units (s : State) (f : Svc → Svc) : (svcMod s f).units = s.units := rfl
@[simp] theorem svcMod_cnt (s : State) (f : Svc → Svc) : (svcMod s f).cnt = s.cnt := rfl
@[simp] theorem svcMod_cntPitch (s : State) (f : Svc → Svc) : (svcMod s f).cntPitch = s.cntPitch := rfl
@[simp] theorem svcMod_csr (s : State) (f : Svc → Svc) : (svcMod s f).csr = s.csr := rfl
@[simp] theorem svcMod_sel (s : State) (f : Svc → Svc) : (svcMod s f).sel = s.sel := rfl
@[simp] theorem svcMod_cntCap (s : State) (f : Svc → Svc) : (svcMod s f).cntCap = s.cntCap := rfl
@[simp] theorem svcMod_pitches (s : State) (f : Svc → Svc) : (svcMod s f).pitches = s.pitches := rfl
@[simp] theorem svcMod_templates (s : State) (f : Svc → Svc) : (svcMod s f).templates = s.templates := rfl
@[simp] theorem svcMod_sweeping (s : State) (f : Svc → Svc) : (svcMod s f).sweeping = s.sweeping := rfl
@[simp] theorem svcMod_tpt (s : State) (f : Svc → Svc) : (svcMod s f).tpt = s.tpt := rfl
@[simp] theorem svcMod_act (s : State) (f : Svc → Svc) : (svcMod s f).act = s.act := rfl
@[simp] theorem svcMod_tmg (s : State) (f : Svc → Svc) : (svcMod s f).tmg = s.tmg := rfl
@[simp] theorem svcMod_prt (s : State) (f : Svc → Svc) : (svcMod s f).prt = s.prt := rfl
@[simp] theorem svcMod_klr (s : State) (f : Svc → Svc) : (svcMod s f).klr = s.klr := rfl
@[simp] theorem svcMod_ptp (s : State) (f : Svc → Svc) : (svcMod s f).ptp = s.ptp := rfl
@[simp] theorem svcMod_dmc (s : State) (f : Svc → Svc) : (svcMod s f).dmc = s.dmc := rfl
@[simp] theorem svcMod_fum (s : State) (f : Svc → Svc) : (svcMod s f).fum = s.fum := rfl
@[simp] theorem svcMod_swn (s : State) (f : Svc → Svc) : (svcMod s f).swn = s.swn := rfl
@[simp] theorem svcMod_clx (s : State) (f : Svc → Svc) : (svcMod s f).clx = s.clx := rfl
@[simp] theorem svcMod_grd (s : State) (f : Svc → Svc) : (svcMod s f).grd = s.grd := rfl
@[simp] theorem svcMod_img (s : State) (f : Svc → Svc) : (svcMod s f).img = s.img := rfl
@[simp] theorem svcMod_mir (s : State) (f : Svc → Svc) : (svcMod s f).mir = s.mir := rfl
@[simp] theorem svcMod_flt (s : State) (f : Svc → Svc) : (svcMod s f).flt = s.flt := rfl
@[simp] theorem svcMod_svc (s : State) (f : Svc → Svc) : (svcMod s f).svc = f s.svc := rfl
@[simp] theorem svcMod_cvus (s : State) (f : Svc → Svc) : (svcMod s f).cvus = s.cvus := rfl
@[simp] theorem svcMod_dbg (s : State) (f : Svc → Svc) : (svcMod s f).dbg = s.dbg := rfl
@[simp] theorem svcMod_fab (s : State) (f : Svc → Svc) : (svcMod s f).fab = s.fab := rfl
@[simp] theorem svcMod_boot (s : State) (f : Svc → Svc) : (svcMod s f).boot = s.boot := rfl
@[simp] theorem svcMod_brd (s : State) (f : Svc → Svc) : (svcMod s f).brd = s.brd := rfl
@[simp] theorem svcMod_crg (s : State) (f : Svc → Svc) : (svcMod s f).crg = s.crg := rfl

/-! ## dbgMod -/
@[simp] theorem dbgMod_pending (s : State) (f : Dbg → Dbg) : (dbgMod s f).pending = s.pending := rfl
@[simp] theorem dbgMod_now (s : State) (f : Dbg → Dbg) : (dbgMod s f).now = s.now := rfl
@[simp] theorem dbgMod_cd10Sec (s : State) (f : Dbg → Dbg) : (dbgMod s f).cd10Sec = s.cd10Sec := rfl
@[simp] theorem dbgMod_cd10Ns (s : State) (f : Dbg → Dbg) : (dbgMod s f).cd10Ns = s.cd10Ns := rfl
@[simp] theorem dbgMod_cd10Frac (s : State) (f : Dbg → Dbg) : (dbgMod s f).cd10Frac = s.cd10Frac := rfl
@[simp] theorem dbgMod_ticks (s : State) (f : Dbg → Dbg) : (dbgMod s f).ticks = s.ticks := rfl
@[simp] theorem dbgMod_freeCtr (s : State) (f : Dbg → Dbg) : (dbgMod s f).freeCtr = s.freeCtr := rfl
@[simp] theorem dbgMod_wire (s : State) (f : Dbg → Dbg) : (dbgMod s f).wire = s.wire := rfl
@[simp] theorem dbgMod_units (s : State) (f : Dbg → Dbg) : (dbgMod s f).units = s.units := rfl
@[simp] theorem dbgMod_cnt (s : State) (f : Dbg → Dbg) : (dbgMod s f).cnt = s.cnt := rfl
@[simp] theorem dbgMod_cntPitch (s : State) (f : Dbg → Dbg) : (dbgMod s f).cntPitch = s.cntPitch := rfl
@[simp] theorem dbgMod_csr (s : State) (f : Dbg → Dbg) : (dbgMod s f).csr = s.csr := rfl
@[simp] theorem dbgMod_sel (s : State) (f : Dbg → Dbg) : (dbgMod s f).sel = s.sel := rfl
@[simp] theorem dbgMod_cntCap (s : State) (f : Dbg → Dbg) : (dbgMod s f).cntCap = s.cntCap := rfl
@[simp] theorem dbgMod_pitches (s : State) (f : Dbg → Dbg) : (dbgMod s f).pitches = s.pitches := rfl
@[simp] theorem dbgMod_templates (s : State) (f : Dbg → Dbg) : (dbgMod s f).templates = s.templates := rfl
@[simp] theorem dbgMod_sweeping (s : State) (f : Dbg → Dbg) : (dbgMod s f).sweeping = s.sweeping := rfl
@[simp] theorem dbgMod_tpt (s : State) (f : Dbg → Dbg) : (dbgMod s f).tpt = s.tpt := rfl
@[simp] theorem dbgMod_act (s : State) (f : Dbg → Dbg) : (dbgMod s f).act = s.act := rfl
@[simp] theorem dbgMod_tmg (s : State) (f : Dbg → Dbg) : (dbgMod s f).tmg = s.tmg := rfl
@[simp] theorem dbgMod_prt (s : State) (f : Dbg → Dbg) : (dbgMod s f).prt = s.prt := rfl
@[simp] theorem dbgMod_klr (s : State) (f : Dbg → Dbg) : (dbgMod s f).klr = s.klr := rfl
@[simp] theorem dbgMod_ptp (s : State) (f : Dbg → Dbg) : (dbgMod s f).ptp = s.ptp := rfl
@[simp] theorem dbgMod_dmc (s : State) (f : Dbg → Dbg) : (dbgMod s f).dmc = s.dmc := rfl
@[simp] theorem dbgMod_fum (s : State) (f : Dbg → Dbg) : (dbgMod s f).fum = s.fum := rfl
@[simp] theorem dbgMod_swn (s : State) (f : Dbg → Dbg) : (dbgMod s f).swn = s.swn := rfl
@[simp] theorem dbgMod_clx (s : State) (f : Dbg → Dbg) : (dbgMod s f).clx = s.clx := rfl
@[simp] theorem dbgMod_grd (s : State) (f : Dbg → Dbg) : (dbgMod s f).grd = s.grd := rfl
@[simp] theorem dbgMod_img (s : State) (f : Dbg → Dbg) : (dbgMod s f).img = s.img := rfl
@[simp] theorem dbgMod_mir (s : State) (f : Dbg → Dbg) : (dbgMod s f).mir = s.mir := rfl
@[simp] theorem dbgMod_flt (s : State) (f : Dbg → Dbg) : (dbgMod s f).flt = s.flt := rfl
@[simp] theorem dbgMod_svc (s : State) (f : Dbg → Dbg) : (dbgMod s f).svc = s.svc := rfl
@[simp] theorem dbgMod_cvus (s : State) (f : Dbg → Dbg) : (dbgMod s f).cvus = s.cvus := rfl
@[simp] theorem dbgMod_dbg (s : State) (f : Dbg → Dbg) : (dbgMod s f).dbg = f s.dbg := rfl
@[simp] theorem dbgMod_fab (s : State) (f : Dbg → Dbg) : (dbgMod s f).fab = s.fab := rfl
@[simp] theorem dbgMod_boot (s : State) (f : Dbg → Dbg) : (dbgMod s f).boot = s.boot := rfl
@[simp] theorem dbgMod_brd (s : State) (f : Dbg → Dbg) : (dbgMod s f).brd = s.brd := rfl
@[simp] theorem dbgMod_crg (s : State) (f : Dbg → Dbg) : (dbgMod s f).crg = s.crg := rfl

/-! ## swnMod -/
@[simp] theorem swnMod_pending (s : State) (f : Swn → Swn) : (swnMod s f).pending = s.pending := rfl
@[simp] theorem swnMod_now (s : State) (f : Swn → Swn) : (swnMod s f).now = s.now := rfl
@[simp] theorem swnMod_cd10Sec (s : State) (f : Swn → Swn) : (swnMod s f).cd10Sec = s.cd10Sec := rfl
@[simp] theorem swnMod_cd10Ns (s : State) (f : Swn → Swn) : (swnMod s f).cd10Ns = s.cd10Ns := rfl
@[simp] theorem swnMod_cd10Frac (s : State) (f : Swn → Swn) : (swnMod s f).cd10Frac = s.cd10Frac := rfl
@[simp] theorem swnMod_ticks (s : State) (f : Swn → Swn) : (swnMod s f).ticks = s.ticks := rfl
@[simp] theorem swnMod_freeCtr (s : State) (f : Swn → Swn) : (swnMod s f).freeCtr = s.freeCtr := rfl
@[simp] theorem swnMod_wire (s : State) (f : Swn → Swn) : (swnMod s f).wire = s.wire := rfl
@[simp] theorem swnMod_units (s : State) (f : Swn → Swn) : (swnMod s f).units = s.units := rfl
@[simp] theorem swnMod_cnt (s : State) (f : Swn → Swn) : (swnMod s f).cnt = s.cnt := rfl
@[simp] theorem swnMod_cntPitch (s : State) (f : Swn → Swn) : (swnMod s f).cntPitch = s.cntPitch := rfl
@[simp] theorem swnMod_csr (s : State) (f : Swn → Swn) : (swnMod s f).csr = s.csr := rfl
@[simp] theorem swnMod_sel (s : State) (f : Swn → Swn) : (swnMod s f).sel = s.sel := rfl
@[simp] theorem swnMod_cntCap (s : State) (f : Swn → Swn) : (swnMod s f).cntCap = s.cntCap := rfl
@[simp] theorem swnMod_pitches (s : State) (f : Swn → Swn) : (swnMod s f).pitches = s.pitches := rfl
@[simp] theorem swnMod_templates (s : State) (f : Swn → Swn) : (swnMod s f).templates = s.templates := rfl
@[simp] theorem swnMod_sweeping (s : State) (f : Swn → Swn) : (swnMod s f).sweeping = s.sweeping := rfl
@[simp] theorem swnMod_tpt (s : State) (f : Swn → Swn) : (swnMod s f).tpt = s.tpt := rfl
@[simp] theorem swnMod_act (s : State) (f : Swn → Swn) : (swnMod s f).act = s.act := rfl
@[simp] theorem swnMod_tmg (s : State) (f : Swn → Swn) : (swnMod s f).tmg = s.tmg := rfl
@[simp] theorem swnMod_prt (s : State) (f : Swn → Swn) : (swnMod s f).prt = s.prt := rfl
@[simp] theorem swnMod_klr (s : State) (f : Swn → Swn) : (swnMod s f).klr = s.klr := rfl
@[simp] theorem swnMod_ptp (s : State) (f : Swn → Swn) : (swnMod s f).ptp = s.ptp := rfl
@[simp] theorem swnMod_dmc (s : State) (f : Swn → Swn) : (swnMod s f).dmc = s.dmc := rfl
@[simp] theorem swnMod_fum (s : State) (f : Swn → Swn) : (swnMod s f).fum = s.fum := rfl
@[simp] theorem swnMod_swn (s : State) (f : Swn → Swn) : (swnMod s f).swn = f s.swn := rfl
@[simp] theorem swnMod_clx (s : State) (f : Swn → Swn) : (swnMod s f).clx = s.clx := rfl
@[simp] theorem swnMod_grd (s : State) (f : Swn → Swn) : (swnMod s f).grd = s.grd := rfl
@[simp] theorem swnMod_img (s : State) (f : Swn → Swn) : (swnMod s f).img = s.img := rfl
@[simp] theorem swnMod_mir (s : State) (f : Swn → Swn) : (swnMod s f).mir = s.mir := rfl
@[simp] theorem swnMod_flt (s : State) (f : Swn → Swn) : (swnMod s f).flt = s.flt := rfl
@[simp] theorem swnMod_svc (s : State) (f : Swn → Swn) : (swnMod s f).svc = s.svc := rfl
@[simp] theorem swnMod_cvus (s : State) (f : Swn → Swn) : (swnMod s f).cvus = s.cvus := rfl
@[simp] theorem swnMod_dbg (s : State) (f : Swn → Swn) : (swnMod s f).dbg = s.dbg := rfl
@[simp] theorem swnMod_fab (s : State) (f : Swn → Swn) : (swnMod s f).fab = s.fab := rfl
@[simp] theorem swnMod_boot (s : State) (f : Swn → Swn) : (swnMod s f).boot = s.boot := rfl
@[simp] theorem swnMod_brd (s : State) (f : Swn → Swn) : (swnMod s f).brd = s.brd := rfl
@[simp] theorem swnMod_crg (s : State) (f : Swn → Swn) : (swnMod s f).crg = s.crg := rfl

/-! ## clxMod -/
@[simp] theorem clxMod_pending (s : State) (f : Clx → Clx) : (clxMod s f).pending = s.pending := rfl
@[simp] theorem clxMod_now (s : State) (f : Clx → Clx) : (clxMod s f).now = s.now := rfl
@[simp] theorem clxMod_cd10Sec (s : State) (f : Clx → Clx) : (clxMod s f).cd10Sec = s.cd10Sec := rfl
@[simp] theorem clxMod_cd10Ns (s : State) (f : Clx → Clx) : (clxMod s f).cd10Ns = s.cd10Ns := rfl
@[simp] theorem clxMod_cd10Frac (s : State) (f : Clx → Clx) : (clxMod s f).cd10Frac = s.cd10Frac := rfl
@[simp] theorem clxMod_ticks (s : State) (f : Clx → Clx) : (clxMod s f).ticks = s.ticks := rfl
@[simp] theorem clxMod_freeCtr (s : State) (f : Clx → Clx) : (clxMod s f).freeCtr = s.freeCtr := rfl
@[simp] theorem clxMod_wire (s : State) (f : Clx → Clx) : (clxMod s f).wire = s.wire := rfl
@[simp] theorem clxMod_units (s : State) (f : Clx → Clx) : (clxMod s f).units = s.units := rfl
@[simp] theorem clxMod_cnt (s : State) (f : Clx → Clx) : (clxMod s f).cnt = s.cnt := rfl
@[simp] theorem clxMod_cntPitch (s : State) (f : Clx → Clx) : (clxMod s f).cntPitch = s.cntPitch := rfl
@[simp] theorem clxMod_csr (s : State) (f : Clx → Clx) : (clxMod s f).csr = s.csr := rfl
@[simp] theorem clxMod_sel (s : State) (f : Clx → Clx) : (clxMod s f).sel = s.sel := rfl
@[simp] theorem clxMod_cntCap (s : State) (f : Clx → Clx) : (clxMod s f).cntCap = s.cntCap := rfl
@[simp] theorem clxMod_pitches (s : State) (f : Clx → Clx) : (clxMod s f).pitches = s.pitches := rfl
@[simp] theorem clxMod_templates (s : State) (f : Clx → Clx) : (clxMod s f).templates = s.templates := rfl
@[simp] theorem clxMod_sweeping (s : State) (f : Clx → Clx) : (clxMod s f).sweeping = s.sweeping := rfl
@[simp] theorem clxMod_tpt (s : State) (f : Clx → Clx) : (clxMod s f).tpt = s.tpt := rfl
@[simp] theorem clxMod_act (s : State) (f : Clx → Clx) : (clxMod s f).act = s.act := rfl
@[simp] theorem clxMod_tmg (s : State) (f : Clx → Clx) : (clxMod s f).tmg = s.tmg := rfl
@[simp] theorem clxMod_prt (s : State) (f : Clx → Clx) : (clxMod s f).prt = s.prt := rfl
@[simp] theorem clxMod_klr (s : State) (f : Clx → Clx) : (clxMod s f).klr = s.klr := rfl
@[simp] theorem clxMod_ptp (s : State) (f : Clx → Clx) : (clxMod s f).ptp = s.ptp := rfl
@[simp] theorem clxMod_dmc (s : State) (f : Clx → Clx) : (clxMod s f).dmc = s.dmc := rfl
@[simp] theorem clxMod_fum (s : State) (f : Clx → Clx) : (clxMod s f).fum = s.fum := rfl
@[simp] theorem clxMod_swn (s : State) (f : Clx → Clx) : (clxMod s f).swn = s.swn := rfl
@[simp] theorem clxMod_clx (s : State) (f : Clx → Clx) : (clxMod s f).clx = f s.clx := rfl
@[simp] theorem clxMod_grd (s : State) (f : Clx → Clx) : (clxMod s f).grd = s.grd := rfl
@[simp] theorem clxMod_img (s : State) (f : Clx → Clx) : (clxMod s f).img = s.img := rfl
@[simp] theorem clxMod_mir (s : State) (f : Clx → Clx) : (clxMod s f).mir = s.mir := rfl
@[simp] theorem clxMod_flt (s : State) (f : Clx → Clx) : (clxMod s f).flt = s.flt := rfl
@[simp] theorem clxMod_svc (s : State) (f : Clx → Clx) : (clxMod s f).svc = s.svc := rfl
@[simp] theorem clxMod_cvus (s : State) (f : Clx → Clx) : (clxMod s f).cvus = s.cvus := rfl
@[simp] theorem clxMod_dbg (s : State) (f : Clx → Clx) : (clxMod s f).dbg = s.dbg := rfl
@[simp] theorem clxMod_fab (s : State) (f : Clx → Clx) : (clxMod s f).fab = s.fab := rfl
@[simp] theorem clxMod_boot (s : State) (f : Clx → Clx) : (clxMod s f).boot = s.boot := rfl
@[simp] theorem clxMod_brd (s : State) (f : Clx → Clx) : (clxMod s f).brd = s.brd := rfl
@[simp] theorem clxMod_crg (s : State) (f : Clx → Clx) : (clxMod s f).crg = s.crg := rfl

/-! ## grdMod -/
@[simp] theorem grdMod_pending (s : State) (f : Grd → Grd) : (grdMod s f).pending = s.pending := rfl
@[simp] theorem grdMod_now (s : State) (f : Grd → Grd) : (grdMod s f).now = s.now := rfl
@[simp] theorem grdMod_cd10Sec (s : State) (f : Grd → Grd) : (grdMod s f).cd10Sec = s.cd10Sec := rfl
@[simp] theorem grdMod_cd10Ns (s : State) (f : Grd → Grd) : (grdMod s f).cd10Ns = s.cd10Ns := rfl
@[simp] theorem grdMod_cd10Frac (s : State) (f : Grd → Grd) : (grdMod s f).cd10Frac = s.cd10Frac := rfl
@[simp] theorem grdMod_ticks (s : State) (f : Grd → Grd) : (grdMod s f).ticks = s.ticks := rfl
@[simp] theorem grdMod_freeCtr (s : State) (f : Grd → Grd) : (grdMod s f).freeCtr = s.freeCtr := rfl
@[simp] theorem grdMod_wire (s : State) (f : Grd → Grd) : (grdMod s f).wire = s.wire := rfl
@[simp] theorem grdMod_units (s : State) (f : Grd → Grd) : (grdMod s f).units = s.units := rfl
@[simp] theorem grdMod_cnt (s : State) (f : Grd → Grd) : (grdMod s f).cnt = s.cnt := rfl
@[simp] theorem grdMod_cntPitch (s : State) (f : Grd → Grd) : (grdMod s f).cntPitch = s.cntPitch := rfl
@[simp] theorem grdMod_csr (s : State) (f : Grd → Grd) : (grdMod s f).csr = s.csr := rfl
@[simp] theorem grdMod_sel (s : State) (f : Grd → Grd) : (grdMod s f).sel = s.sel := rfl
@[simp] theorem grdMod_cntCap (s : State) (f : Grd → Grd) : (grdMod s f).cntCap = s.cntCap := rfl
@[simp] theorem grdMod_pitches (s : State) (f : Grd → Grd) : (grdMod s f).pitches = s.pitches := rfl
@[simp] theorem grdMod_templates (s : State) (f : Grd → Grd) : (grdMod s f).templates = s.templates := rfl
@[simp] theorem grdMod_sweeping (s : State) (f : Grd → Grd) : (grdMod s f).sweeping = s.sweeping := rfl
@[simp] theorem grdMod_tpt (s : State) (f : Grd → Grd) : (grdMod s f).tpt = s.tpt := rfl
@[simp] theorem grdMod_act (s : State) (f : Grd → Grd) : (grdMod s f).act = s.act := rfl
@[simp] theorem grdMod_tmg (s : State) (f : Grd → Grd) : (grdMod s f).tmg = s.tmg := rfl
@[simp] theorem grdMod_prt (s : State) (f : Grd → Grd) : (grdMod s f).prt = s.prt := rfl
@[simp] theorem grdMod_klr (s : State) (f : Grd → Grd) : (grdMod s f).klr = s.klr := rfl
@[simp] theorem grdMod_ptp (s : State) (f : Grd → Grd) : (grdMod s f).ptp = s.ptp := rfl
@[simp] theorem grdMod_dmc (s : State) (f : Grd → Grd) : (grdMod s f).dmc = s.dmc := rfl
@[simp] theorem grdMod_fum (s : State) (f : Grd → Grd) : (grdMod s f).fum = s.fum := rfl
@[simp] theorem grdMod_swn (s : State) (f : Grd → Grd) : (grdMod s f).swn = s.swn := rfl
@[simp] theorem grdMod_clx (s : State) (f : Grd → Grd) : (grdMod s f).clx = s.clx := rfl
@[simp] theorem grdMod_grd (s : State) (f : Grd → Grd) : (grdMod s f).grd = f s.grd := rfl
@[simp] theorem grdMod_img (s : State) (f : Grd → Grd) : (grdMod s f).img = s.img := rfl
@[simp] theorem grdMod_mir (s : State) (f : Grd → Grd) : (grdMod s f).mir = s.mir := rfl
@[simp] theorem grdMod_flt (s : State) (f : Grd → Grd) : (grdMod s f).flt = s.flt := rfl
@[simp] theorem grdMod_svc (s : State) (f : Grd → Grd) : (grdMod s f).svc = s.svc := rfl
@[simp] theorem grdMod_cvus (s : State) (f : Grd → Grd) : (grdMod s f).cvus = s.cvus := rfl
@[simp] theorem grdMod_dbg (s : State) (f : Grd → Grd) : (grdMod s f).dbg = s.dbg := rfl
@[simp] theorem grdMod_fab (s : State) (f : Grd → Grd) : (grdMod s f).fab = s.fab := rfl
@[simp] theorem grdMod_boot (s : State) (f : Grd → Grd) : (grdMod s f).boot = s.boot := rfl
@[simp] theorem grdMod_brd (s : State) (f : Grd → Grd) : (grdMod s f).brd = s.brd := rfl
@[simp] theorem grdMod_crg (s : State) (f : Grd → Grd) : (grdMod s f).crg = s.crg := rfl

/-! ## ptpMod -/
@[simp] theorem ptpMod_pending (s : State) (f : Ptp → Ptp) : (ptpMod s f).pending = s.pending := rfl
@[simp] theorem ptpMod_now (s : State) (f : Ptp → Ptp) : (ptpMod s f).now = s.now := rfl
@[simp] theorem ptpMod_cd10Sec (s : State) (f : Ptp → Ptp) : (ptpMod s f).cd10Sec = s.cd10Sec := rfl
@[simp] theorem ptpMod_cd10Ns (s : State) (f : Ptp → Ptp) : (ptpMod s f).cd10Ns = s.cd10Ns := rfl
@[simp] theorem ptpMod_cd10Frac (s : State) (f : Ptp → Ptp) : (ptpMod s f).cd10Frac = s.cd10Frac := rfl
@[simp] theorem ptpMod_ticks (s : State) (f : Ptp → Ptp) : (ptpMod s f).ticks = s.ticks := rfl
@[simp] theorem ptpMod_freeCtr (s : State) (f : Ptp → Ptp) : (ptpMod s f).freeCtr = s.freeCtr := rfl
@[simp] theorem ptpMod_wire (s : State) (f : Ptp → Ptp) : (ptpMod s f).wire = s.wire := rfl
@[simp] theorem ptpMod_units (s : State) (f : Ptp → Ptp) : (ptpMod s f).units = s.units := rfl
@[simp] theorem ptpMod_cnt (s : State) (f : Ptp → Ptp) : (ptpMod s f).cnt = s.cnt := rfl
@[simp] theorem ptpMod_cntPitch (s : State) (f : Ptp → Ptp) : (ptpMod s f).cntPitch = s.cntPitch := rfl
@[simp] theorem ptpMod_csr (s : State) (f : Ptp → Ptp) : (ptpMod s f).csr = s.csr := rfl
@[simp] theorem ptpMod_sel (s : State) (f : Ptp → Ptp) : (ptpMod s f).sel = s.sel := rfl
@[simp] theorem ptpMod_cntCap (s : State) (f : Ptp → Ptp) : (ptpMod s f).cntCap = s.cntCap := rfl
@[simp] theorem ptpMod_pitches (s : State) (f : Ptp → Ptp) : (ptpMod s f).pitches = s.pitches := rfl
@[simp] theorem ptpMod_templates (s : State) (f : Ptp → Ptp) : (ptpMod s f).templates = s.templates := rfl
@[simp] theorem ptpMod_sweeping (s : State) (f : Ptp → Ptp) : (ptpMod s f).sweeping = s.sweeping := rfl
@[simp] theorem ptpMod_tpt (s : State) (f : Ptp → Ptp) : (ptpMod s f).tpt = s.tpt := rfl
@[simp] theorem ptpMod_act (s : State) (f : Ptp → Ptp) : (ptpMod s f).act = s.act := rfl
@[simp] theorem ptpMod_tmg (s : State) (f : Ptp → Ptp) : (ptpMod s f).tmg = s.tmg := rfl
@[simp] theorem ptpMod_prt (s : State) (f : Ptp → Ptp) : (ptpMod s f).prt = s.prt := rfl
@[simp] theorem ptpMod_klr (s : State) (f : Ptp → Ptp) : (ptpMod s f).klr = s.klr := rfl
@[simp] theorem ptpMod_ptp (s : State) (f : Ptp → Ptp) : (ptpMod s f).ptp = f s.ptp := rfl
@[simp] theorem ptpMod_dmc (s : State) (f : Ptp → Ptp) : (ptpMod s f).dmc = s.dmc := rfl
@[simp] theorem ptpMod_fum (s : State) (f : Ptp → Ptp) : (ptpMod s f).fum = s.fum := rfl
@[simp] theorem ptpMod_swn (s : State) (f : Ptp → Ptp) : (ptpMod s f).swn = s.swn := rfl
@[simp] theorem ptpMod_clx (s : State) (f : Ptp → Ptp) : (ptpMod s f).clx = s.clx := rfl
@[simp] theorem ptpMod_grd (s : State) (f : Ptp → Ptp) : (ptpMod s f).grd = s.grd := rfl
@[simp] theorem ptpMod_img (s : State) (f : Ptp → Ptp) : (ptpMod s f).img = s.img := rfl
@[simp] theorem ptpMod_mir (s : State) (f : Ptp → Ptp) : (ptpMod s f).mir = s.mir := rfl
@[simp] theorem ptpMod_flt (s : State) (f : Ptp → Ptp) : (ptpMod s f).flt = s.flt := rfl
@[simp] theorem ptpMod_svc (s : State) (f : Ptp → Ptp) : (ptpMod s f).svc = s.svc := rfl
@[simp] theorem ptpMod_cvus (s : State) (f : Ptp → Ptp) : (ptpMod s f).cvus = s.cvus := rfl
@[simp] theorem ptpMod_dbg (s : State) (f : Ptp → Ptp) : (ptpMod s f).dbg = s.dbg := rfl
@[simp] theorem ptpMod_fab (s : State) (f : Ptp → Ptp) : (ptpMod s f).fab = s.fab := rfl
@[simp] theorem ptpMod_boot (s : State) (f : Ptp → Ptp) : (ptpMod s f).boot = s.boot := rfl
@[simp] theorem ptpMod_brd (s : State) (f : Ptp → Ptp) : (ptpMod s f).brd = s.brd := rfl
@[simp] theorem ptpMod_crg (s : State) (f : Ptp → Ptp) : (ptpMod s f).crg = s.crg := rfl

/-! ## fabMod -/
@[simp] theorem fabMod_pending (s : State) (f : Fab → Fab) : (fabMod s f).pending = s.pending := rfl
@[simp] theorem fabMod_now (s : State) (f : Fab → Fab) : (fabMod s f).now = s.now := rfl
@[simp] theorem fabMod_cd10Sec (s : State) (f : Fab → Fab) : (fabMod s f).cd10Sec = s.cd10Sec := rfl
@[simp] theorem fabMod_cd10Ns (s : State) (f : Fab → Fab) : (fabMod s f).cd10Ns = s.cd10Ns := rfl
@[simp] theorem fabMod_cd10Frac (s : State) (f : Fab → Fab) : (fabMod s f).cd10Frac = s.cd10Frac := rfl
@[simp] theorem fabMod_ticks (s : State) (f : Fab → Fab) : (fabMod s f).ticks = s.ticks := rfl
@[simp] theorem fabMod_freeCtr (s : State) (f : Fab → Fab) : (fabMod s f).freeCtr = s.freeCtr := rfl
@[simp] theorem fabMod_wire (s : State) (f : Fab → Fab) : (fabMod s f).wire = s.wire := rfl
@[simp] theorem fabMod_units (s : State) (f : Fab → Fab) : (fabMod s f).units = s.units := rfl
@[simp] theorem fabMod_cnt (s : State) (f : Fab → Fab) : (fabMod s f).cnt = s.cnt := rfl
@[simp] theorem fabMod_cntPitch (s : State) (f : Fab → Fab) : (fabMod s f).cntPitch = s.cntPitch := rfl
@[simp] theorem fabMod_csr (s : State) (f : Fab → Fab) : (fabMod s f).csr = s.csr := rfl
@[simp] theorem fabMod_sel (s : State) (f : Fab → Fab) : (fabMod s f).sel = s.sel := rfl
@[simp] theorem fabMod_cntCap (s : State) (f : Fab → Fab) : (fabMod s f).cntCap = s.cntCap := rfl
@[simp] theorem fabMod_pitches (s : State) (f : Fab → Fab) : (fabMod s f).pitches = s.pitches := rfl
@[simp] theorem fabMod_templates (s : State) (f : Fab → Fab) : (fabMod s f).templates = s.templates := rfl
@[simp] theorem fabMod_sweeping (s : State) (f : Fab → Fab) : (fabMod s f).sweeping = s.sweeping := rfl
@[simp] theorem fabMod_tpt (s : State) (f : Fab → Fab) : (fabMod s f).tpt = s.tpt := rfl
@[simp] theorem fabMod_act (s : State) (f : Fab → Fab) : (fabMod s f).act = s.act := rfl
@[simp] theorem fabMod_tmg (s : State) (f : Fab → Fab) : (fabMod s f).tmg = s.tmg := rfl
@[simp] theorem fabMod_prt (s : State) (f : Fab → Fab) : (fabMod s f).prt = s.prt := rfl
@[simp] theorem fabMod_klr (s : State) (f : Fab → Fab) : (fabMod s f).klr = s.klr := rfl
@[simp] theorem fabMod_ptp (s : State) (f : Fab → Fab) : (fabMod s f).ptp = s.ptp := rfl
@[simp] theorem fabMod_dmc (s : State) (f : Fab → Fab) : (fabMod s f).dmc = s.dmc := rfl
@[simp] theorem fabMod_fum (s : State) (f : Fab → Fab) : (fabMod s f).fum = s.fum := rfl
@[simp] theorem fabMod_swn (s : State) (f : Fab → Fab) : (fabMod s f).swn = s.swn := rfl
@[simp] theorem fabMod_clx (s : State) (f : Fab → Fab) : (fabMod s f).clx = s.clx := rfl
@[simp] theorem fabMod_grd (s : State) (f : Fab → Fab) : (fabMod s f).grd = s.grd := rfl
@[simp] theorem fabMod_img (s : State) (f : Fab → Fab) : (fabMod s f).img = s.img := rfl
@[simp] theorem fabMod_mir (s : State) (f : Fab → Fab) : (fabMod s f).mir = s.mir := rfl
@[simp] theorem fabMod_flt (s : State) (f : Fab → Fab) : (fabMod s f).flt = s.flt := rfl
@[simp] theorem fabMod_svc (s : State) (f : Fab → Fab) : (fabMod s f).svc = s.svc := rfl
@[simp] theorem fabMod_cvus (s : State) (f : Fab → Fab) : (fabMod s f).cvus = s.cvus := rfl
@[simp] theorem fabMod_dbg (s : State) (f : Fab → Fab) : (fabMod s f).dbg = s.dbg := rfl
@[simp] theorem fabMod_fab (s : State) (f : Fab → Fab) : (fabMod s f).fab = f s.fab := rfl
@[simp] theorem fabMod_boot (s : State) (f : Fab → Fab) : (fabMod s f).boot = s.boot := rfl
@[simp] theorem fabMod_brd (s : State) (f : Fab → Fab) : (fabMod s f).brd = s.brd := rfl
@[simp] theorem fabMod_crg (s : State) (f : Fab → Fab) : (fabMod s f).crg = s.crg := rfl

/-! ## bootMod -/
@[simp] theorem bootMod_pending (s : State) (f : Boot → Boot) : (bootMod s f).pending = s.pending := rfl
@[simp] theorem bootMod_now (s : State) (f : Boot → Boot) : (bootMod s f).now = s.now := rfl
@[simp] theorem bootMod_cd10Sec (s : State) (f : Boot → Boot) : (bootMod s f).cd10Sec = s.cd10Sec := rfl
@[simp] theorem bootMod_cd10Ns (s : State) (f : Boot → Boot) : (bootMod s f).cd10Ns = s.cd10Ns := rfl
@[simp] theorem bootMod_cd10Frac (s : State) (f : Boot → Boot) : (bootMod s f).cd10Frac = s.cd10Frac := rfl
@[simp] theorem bootMod_ticks (s : State) (f : Boot → Boot) : (bootMod s f).ticks = s.ticks := rfl
@[simp] theorem bootMod_freeCtr (s : State) (f : Boot → Boot) : (bootMod s f).freeCtr = s.freeCtr := rfl
@[simp] theorem bootMod_wire (s : State) (f : Boot → Boot) : (bootMod s f).wire = s.wire := rfl
@[simp] theorem bootMod_units (s : State) (f : Boot → Boot) : (bootMod s f).units = s.units := rfl
@[simp] theorem bootMod_cnt (s : State) (f : Boot → Boot) : (bootMod s f).cnt = s.cnt := rfl
@[simp] theorem bootMod_cntPitch (s : State) (f : Boot → Boot) : (bootMod s f).cntPitch = s.cntPitch := rfl
@[simp] theorem bootMod_csr (s : State) (f : Boot → Boot) : (bootMod s f).csr = s.csr := rfl
@[simp] theorem bootMod_sel (s : State) (f : Boot → Boot) : (bootMod s f).sel = s.sel := rfl
@[simp] theorem bootMod_cntCap (s : State) (f : Boot → Boot) : (bootMod s f).cntCap = s.cntCap := rfl
@[simp] theorem bootMod_pitches (s : State) (f : Boot → Boot) : (bootMod s f).pitches = s.pitches := rfl
@[simp] theorem bootMod_templates (s : State) (f : Boot → Boot) : (bootMod s f).templates = s.templates := rfl
@[simp] theorem bootMod_sweeping (s : State) (f : Boot → Boot) : (bootMod s f).sweeping = s.sweeping := rfl
@[simp] theorem bootMod_tpt (s : State) (f : Boot → Boot) : (bootMod s f).tpt = s.tpt := rfl
@[simp] theorem bootMod_act (s : State) (f : Boot → Boot) : (bootMod s f).act = s.act := rfl
@[simp] theorem bootMod_tmg (s : State) (f : Boot → Boot) : (bootMod s f).tmg = s.tmg := rfl
@[simp] theorem bootMod_prt (s : State) (f : Boot → Boot) : (bootMod s f).prt = s.prt := rfl
@[simp] theorem bootMod_klr (s : State) (f : Boot → Boot) : (bootMod s f).klr = s.klr := rfl
@[simp] theorem bootMod_ptp (s : State) (f : Boot → Boot) : (bootMod s f).ptp = s.ptp := rfl
@[simp] theorem bootMod_dmc (s : State) (f : Boot → Boot) : (bootMod s f).dmc = s.dmc := rfl
@[simp] theorem bootMod_fum (s : State) (f : Boot → Boot) : (bootMod s f).fum = s.fum := rfl
@[simp] theorem bootMod_swn (s : State) (f : Boot → Boot) : (bootMod s f).swn = s.swn := rfl
@[simp] theorem bootMod_clx (s : State) (f : Boot → Boot) : (bootMod s f).clx = s.clx := rfl
@[simp] theorem bootMod_grd (s : State) (f : Boot → Boot) : (bootMod s f).grd = s.grd := rfl
@[simp] theorem bootMod_img (s : State) (f : Boot → Boot) : (bootMod s f).img = s.img := rfl
@[simp] theorem bootMod_mir (s : State) (f : Boot → Boot) : (bootMod s f).mir = s.mir := rfl
@[simp] theorem bootMod_flt (s : State) (f : Boot → Boot) : (bootMod s f).flt = s.flt := rfl
@[simp] theorem bootMod_svc (s : State) (f : Boot → Boot) : (bootMod s f).svc = s.svc := rfl
@[simp] theorem bootMod_cvus (s : State) (f : Boot → Boot) : (bootMod s f).cvus = s.cvus := rfl
@[simp] theorem bootMod_dbg (s : State) (f : Boot → Boot) : (bootMod s f).dbg = s.dbg := rfl
@[simp] theorem bootMod_fab (s : State) (f : Boot → Boot) : (bootMod s f).fab = s.fab := rfl
@[simp] theorem bootMod_boot (s : State) (f : Boot → Boot) : (bootMod s f).boot = f s.boot := rfl
@[simp] theorem bootMod_brd (s : State) (f : Boot → Boot) : (bootMod s f).brd = s.brd := rfl
@[simp] theorem bootMod_crg (s : State) (f : Boot → Boot) : (bootMod s f).crg = s.crg := rfl

/-! ## brdMod -/
@[simp] theorem brdMod_pending (s : State) (f : Brd → Brd) : (brdMod s f).pending = s.pending := rfl
@[simp] theorem brdMod_now (s : State) (f : Brd → Brd) : (brdMod s f).now = s.now := rfl
@[simp] theorem brdMod_cd10Sec (s : State) (f : Brd → Brd) : (brdMod s f).cd10Sec = s.cd10Sec := rfl
@[simp] theorem brdMod_cd10Ns (s : State) (f : Brd → Brd) : (brdMod s f).cd10Ns = s.cd10Ns := rfl
@[simp] theorem brdMod_cd10Frac (s : State) (f : Brd → Brd) : (brdMod s f).cd10Frac = s.cd10Frac := rfl
@[simp] theorem brdMod_ticks (s : State) (f : Brd → Brd) : (brdMod s f).ticks = s.ticks := rfl
@[simp] theorem brdMod_freeCtr (s : State) (f : Brd → Brd) : (brdMod s f).freeCtr = s.freeCtr := rfl
@[simp] theorem brdMod_wire (s : State) (f : Brd → Brd) : (brdMod s f).wire = s.wire := rfl
@[simp] theorem brdMod_units (s : State) (f : Brd → Brd) : (brdMod s f).units = s.units := rfl
@[simp] theorem brdMod_cnt (s : State) (f : Brd → Brd) : (brdMod s f).cnt = s.cnt := rfl
@[simp] theorem brdMod_cntPitch (s : State) (f : Brd → Brd) : (brdMod s f).cntPitch = s.cntPitch := rfl
@[simp] theorem brdMod_csr (s : State) (f : Brd → Brd) : (brdMod s f).csr = s.csr := rfl
@[simp] theorem brdMod_sel (s : State) (f : Brd → Brd) : (brdMod s f).sel = s.sel := rfl
@[simp] theorem brdMod_cntCap (s : State) (f : Brd → Brd) : (brdMod s f).cntCap = s.cntCap := rfl
@[simp] theorem brdMod_pitches (s : State) (f : Brd → Brd) : (brdMod s f).pitches = s.pitches := rfl
@[simp] theorem brdMod_templates (s : State) (f : Brd → Brd) : (brdMod s f).templates = s.templates := rfl
@[simp] theorem brdMod_sweeping (s : State) (f : Brd → Brd) : (brdMod s f).sweeping = s.sweeping := rfl
@[simp] theorem brdMod_tpt (s : State) (f : Brd → Brd) : (brdMod s f).tpt = s.tpt := rfl
@[simp] theorem brdMod_act (s : State) (f : Brd → Brd) : (brdMod s f).act = s.act := rfl
@[simp] theorem brdMod_tmg (s : State) (f : Brd → Brd) : (brdMod s f).tmg = s.tmg := rfl
@[simp] theorem brdMod_prt (s : State) (f : Brd → Brd) : (brdMod s f).prt = s.prt := rfl
@[simp] theorem brdMod_klr (s : State) (f : Brd → Brd) : (brdMod s f).klr = s.klr := rfl
@[simp] theorem brdMod_ptp (s : State) (f : Brd → Brd) : (brdMod s f).ptp = s.ptp := rfl
@[simp] theorem brdMod_dmc (s : State) (f : Brd → Brd) : (brdMod s f).dmc = s.dmc := rfl
@[simp] theorem brdMod_fum (s : State) (f : Brd → Brd) : (brdMod s f).fum = s.fum := rfl
@[simp] theorem brdMod_swn (s : State) (f : Brd → Brd) : (brdMod s f).swn = s.swn := rfl
@[simp] theorem brdMod_clx (s : State) (f : Brd → Brd) : (brdMod s f).clx = s.clx := rfl
@[simp] theorem brdMod_grd (s : State) (f : Brd → Brd) : (brdMod s f).grd = s.grd := rfl
@[simp] theorem brdMod_img (s : State) (f : Brd → Brd) : (brdMod s f).img = s.img := rfl
@[simp] theorem brdMod_mir (s : State) (f : Brd → Brd) : (brdMod s f).mir = s.mir := rfl
@[simp] theorem brdMod_flt (s : State) (f : Brd → Brd) : (brdMod s f).flt = s.flt := rfl
@[simp] theorem brdMod_svc (s : State) (f : Brd → Brd) : (brdMod s f).svc = s.svc := rfl
@[simp] theorem brdMod_cvus (s : State) (f : Brd → Brd) : (brdMod s f).cvus = s.cvus := rfl
@[simp] theorem brdMod_dbg (s : State) (f : Brd → Brd) : (brdMod s f).dbg = s.dbg := rfl
@[simp] theorem brdMod_fab (s : State) (f : Brd → Brd) : (brdMod s f).fab = s.fab := rfl
@[simp] theorem brdMod_boot (s : State) (f : Brd → Brd) : (brdMod s f).boot = s.boot := rfl
@[simp] theorem brdMod_brd (s : State) (f : Brd → Brd) : (brdMod s f).brd = f s.brd := rfl
@[simp] theorem brdMod_crg (s : State) (f : Brd → Brd) : (brdMod s f).crg = s.crg := rfl

/-! ## crgMod -/
@[simp] theorem crgMod_pending (s : State) (f : Crg → Crg) : (crgMod s f).pending = s.pending := rfl
@[simp] theorem crgMod_now (s : State) (f : Crg → Crg) : (crgMod s f).now = s.now := rfl
@[simp] theorem crgMod_cd10Sec (s : State) (f : Crg → Crg) : (crgMod s f).cd10Sec = s.cd10Sec := rfl
@[simp] theorem crgMod_cd10Ns (s : State) (f : Crg → Crg) : (crgMod s f).cd10Ns = s.cd10Ns := rfl
@[simp] theorem crgMod_cd10Frac (s : State) (f : Crg → Crg) : (crgMod s f).cd10Frac = s.cd10Frac := rfl
@[simp] theorem crgMod_ticks (s : State) (f : Crg → Crg) : (crgMod s f).ticks = s.ticks := rfl
@[simp] theorem crgMod_freeCtr (s : State) (f : Crg → Crg) : (crgMod s f).freeCtr = s.freeCtr := rfl
@[simp] theorem crgMod_wire (s : State) (f : Crg → Crg) : (crgMod s f).wire = s.wire := rfl
@[simp] theorem crgMod_units (s : State) (f : Crg → Crg) : (crgMod s f).units = s.units := rfl
@[simp] theorem crgMod_cnt (s : State) (f : Crg → Crg) : (crgMod s f).cnt = s.cnt := rfl
@[simp] theorem crgMod_cntPitch (s : State) (f : Crg → Crg) : (crgMod s f).cntPitch = s.cntPitch := rfl
@[simp] theorem crgMod_csr (s : State) (f : Crg → Crg) : (crgMod s f).csr = s.csr := rfl
@[simp] theorem crgMod_sel (s : State) (f : Crg → Crg) : (crgMod s f).sel = s.sel := rfl
@[simp] theorem crgMod_cntCap (s : State) (f : Crg → Crg) : (crgMod s f).cntCap = s.cntCap := rfl
@[simp] theorem crgMod_pitches (s : State) (f : Crg → Crg) : (crgMod s f).pitches = s.pitches := rfl
@[simp] theorem crgMod_templates (s : State) (f : Crg → Crg) : (crgMod s f).templates = s.templates := rfl
@[simp] theorem crgMod_sweeping (s : State) (f : Crg → Crg) : (crgMod s f).sweeping = s.sweeping := rfl
@[simp] theorem crgMod_tpt (s : State) (f : Crg → Crg) : (crgMod s f).tpt = s.tpt := rfl
@[simp] theorem crgMod_act (s : State) (f : Crg → Crg) : (crgMod s f).act = s.act := rfl
@[simp] theorem crgMod_tmg (s : State) (f : Crg → Crg) : (crgMod s f).tmg = s.tmg := rfl
@[simp] theorem crgMod_prt (s : State) (f : Crg → Crg) : (crgMod s f).prt = s.prt := rfl
@[simp] theorem crgMod_klr (s : State) (f : Crg → Crg) : (crgMod s f).klr = s.klr := rfl
@[simp] theorem crgMod_ptp (s : State) (f : Crg → Crg) : (crgMod s f).ptp = s.ptp := rfl
@[simp] theorem crgMod_dmc (s : State) (f : Crg → Crg) : (crgMod s f).dmc = s.dmc := rfl
@[simp] theorem crgMod_fum (s : State) (f : Crg → Crg) : (crgMod s f).fum = s.fum := rfl
@[simp] theorem crgMod_swn (s : State) (f : Crg → Crg) : (crgMod s f).swn = s.swn := rfl
@[simp] theorem crgMod_clx (s : State) (f : Crg → Crg) : (crgMod s f).clx = s.clx := rfl
@[simp] theorem crgMod_grd (s : State) (f : Crg → Crg) : (crgMod s f).grd = s.grd := rfl
@[simp] theorem crgMod_img (s : State) (f : Crg → Crg) : (crgMod s f).img = s.img := rfl
@[simp] theorem crgMod_mir (s : State) (f : Crg → Crg) : (crgMod s f).mir = s.mir := rfl
@[simp] theorem crgMod_flt (s : State) (f : Crg → Crg) : (crgMod s f).flt = s.flt := rfl
@[simp] theorem crgMod_svc (s : State) (f : Crg → Crg) : (crgMod s f).svc = s.svc := rfl
@[simp] theorem crgMod_cvus (s : State) (f : Crg → Crg) : (crgMod s f).cvus = s.cvus := rfl
@[simp] theorem crgMod_dbg (s : State) (f : Crg → Crg) : (crgMod s f).dbg = s.dbg := rfl
@[simp] theorem crgMod_fab (s : State) (f : Crg → Crg) : (crgMod s f).fab = s.fab := rfl
@[simp] theorem crgMod_boot (s : State) (f : Crg → Crg) : (crgMod s f).boot = s.boot := rfl
@[simp] theorem crgMod_brd (s : State) (f : Crg → Crg) : (crgMod s f).brd = s.brd := rfl
@[simp] theorem crgMod_crg (s : State) (f : Crg → Crg) : (crgMod s f).crg = f s.crg := rfl

/-! ## uSet -/
@[simp] theorem uSet_pending (s : State) (k : Nat) (u : UnitSt) : (uSet s k u).pending = s.pending := rfl
@[simp] theorem uSet_now (s : State) (k : Nat) (u : UnitSt) : (uSet s k u).now = s.now := rfl
@[simp] theorem uSet_cd10Sec (s : State) (k : Nat) (u : UnitSt) : (uSet s k u).cd10Sec = s.cd10Sec := rfl
@[simp] theorem uSet_cd10Ns (s : State) (k : Nat) (u : UnitSt) : (uSet s k u).cd10Ns = s.cd10Ns := rfl
@[simp] theorem uSet_cd10Frac (s : State) (k : Nat) (u : UnitSt) : (uSet s k u).cd10Frac = s.cd10Frac := rfl
@[simp] theorem uSet_ticks (s : State) (k : Nat) (u : UnitSt) : (uSet s k u).ticks = s.ticks := rfl
@[simp] theorem uSet_freeCtr (s : State) (k : Nat) (u : UnitSt) : (uSet s k u).freeCtr = s.freeCtr := rfl
@[simp] theorem uSet_wire (s : State) (k : Nat) (u : UnitSt) : (uSet s k u).wire = s.wire := rfl
@[simp] theorem uSet_units (s : State) (k : Nat) (u : UnitSt) : (uSet s k u).units = tset {} s.units k u := rfl
@[simp] theorem uSet_cnt (s : State) (k : Nat) (u : UnitSt) : (uSet s k u).cnt = s.cnt := rfl
@[simp] theorem uSet_cntPitch (s : State) (k : Nat) (u : UnitSt) : (uSet s k u).cntPitch = s.cntPitch := rfl
@[simp] theorem uSet_csr (s : State) (k : Nat) (u : UnitSt) : (uSet s k u).csr = s.csr := rfl
@[simp] theorem uSet_sel (s : State) (k : Nat) (u : UnitSt) : (uSet s k u).sel = s.sel := rfl
@[simp] theorem uSet_cntCap (s : State) (k : Nat) (u : UnitSt) : (uSet s k u).cntCap = s.cntCap := rfl
@[simp] theorem uSet_pitches (s : State) (k : Nat) (u : UnitSt) : (uSet s k u).pitches = s.pitches := rfl
@[simp] theorem uSet_templates (s : State) (k : Nat) (u : UnitSt) : (uSet s k u).templates = s.templates := rfl
@[simp] theorem uSet_sweeping (s : State) (k : Nat) (u : UnitSt) : (uSet s k u).sweeping = s.sweeping := rfl
@[simp] theorem uSet_tpt (s : State) (k : Nat) (u : UnitSt) : (uSet s k u).tpt = s.tpt := rfl
@[simp] theorem uSet_act (s : State) (k : Nat) (u : UnitSt) : (uSet s k u).act = s.act := rfl
@[simp] theorem uSet_tmg (s : State) (k : Nat) (u : UnitSt) : (uSet s k u).tmg = s.tmg := rfl
@[simp] theorem uSet_prt (s : State) (k : Nat) (u : UnitSt) : (uSet s k u).prt = s.prt := rfl
@[simp] theorem uSet_klr (s : State) (k : Nat) (u : UnitSt) : (uSet s k u).klr = s.klr := rfl
@[simp] theorem uSet_ptp (s : State) (k : Nat) (u : UnitSt) : (uSet s k u).ptp = s.ptp := rfl
@[simp] theorem uSet_dmc (s : State) (k : Nat) (u : UnitSt) : (uSet s k u).dmc = s.dmc := rfl
@[simp] theorem uSet_fum (s : State) (k : Nat) (u : UnitSt) : (uSet s k u).fum = s.fum := rfl
@[simp] theorem uSet_swn (s : State) (k : Nat) (u : UnitSt) : (uSet s k u).swn = s.swn := rfl
@[simp] theorem uSet_clx (s : State) (k : Nat) (u : UnitSt) : (uSet s k u).clx = s.clx := rfl
@[simp] theorem uSet_grd (s : State) (k : Nat) (u : UnitSt) : (uSet s k u).grd = s.grd := rfl
@[simp] theorem uSet_img (s : State) (k : Nat) (u : UnitSt) : (uSet s k u).img = s.img := rfl
@[simp] theorem uSet_mir (s : State) (k : Nat) (u : UnitSt) : (uSet s k u).mir = s.mir := rfl
@[simp] theorem uSet_flt (s : State) (k : Nat) (u : UnitSt) : (uSet s k u).flt = s.flt := rfl
@[simp] theorem uSet_svc (s : State) (k : Nat) (u : UnitSt) : (uSet s k u).svc = s.svc := rfl
@[simp] theorem uSet_cvus (s : State) (k : Nat) (u : UnitSt) : (uSet s k u).cvus = s.cvus := rfl
@[simp] theorem uSet_dbg (s : State) (k : Nat) (u : UnitSt) : (uSet s k u).dbg = s.dbg := rfl
@[simp] theorem uSet_fab (s : State) (k : Nat) (u : UnitSt) : (uSet s k u).fab = s.fab := rfl
@[simp] theorem uSet_boot (s : State) (k : Nat) (u : UnitSt) : (uSet s k u).boot = s.boot := rfl
@[simp] theorem uSet_brd (s : State) (k : Nat) (u : UnitSt) : (uSet s k u).brd = s.brd := rfl
@[simp] theorem uSet_crg (s : State) (k : Nat) (u : UnitSt) : (uSet s k u).crg = s.crg := rfl

/-! ## pSet -/
@[simp] theorem pSet_pending (s : State) (n : Nat) (p : PitchSt) : (pSet s n p).pending = s.pending := rfl
@[simp] theorem pSet_now (s : State) (n : Nat) (p : PitchSt) : (pSet s n p).now = s.now := rfl
@[simp] theorem pSet_cd10Sec (s : State) (n : Nat) (p : PitchSt) : (pSet s n p).cd10Sec = s.cd10Sec := rfl
@[simp] theorem pSet_cd10Ns (s : State) (n : Nat) (p : PitchSt) : (pSet s n p).cd10Ns = s.cd10Ns := rfl
@[simp] theorem pSet_cd10Frac (s : State) (n : Nat) (p : PitchSt) : (pSet s n p).cd10Frac = s.cd10Frac := rfl
@[simp] theorem pSet_ticks (s : State) (n : Nat) (p : PitchSt) : (pSet s n p).ticks = s.ticks := rfl
@[simp] theorem pSet_freeCtr (s : State) (n : Nat) (p : PitchSt) : (pSet s n p).freeCtr = s.freeCtr := rfl
@[simp] theorem pSet_wire (s : State) (n : Nat) (p : PitchSt) : (pSet s n p).wire = s.wire := rfl
@[simp] theorem pSet_units (s : State) (n : Nat) (p : PitchSt) : (pSet s n p).units = s.units := rfl
@[simp] theorem pSet_cnt (s : State) (n : Nat) (p : PitchSt) : (pSet s n p).cnt = s.cnt := rfl
@[simp] theorem pSet_cntPitch (s : State) (n : Nat) (p : PitchSt) : (pSet s n p).cntPitch = s.cntPitch := rfl
@[simp] theorem pSet_csr (s : State) (n : Nat) (p : PitchSt) : (pSet s n p).csr = s.csr := rfl
@[simp] theorem pSet_sel (s : State) (n : Nat) (p : PitchSt) : (pSet s n p).sel = s.sel := rfl
@[simp] theorem pSet_cntCap (s : State) (n : Nat) (p : PitchSt) : (pSet s n p).cntCap = s.cntCap := rfl
@[simp] theorem pSet_pitches (s : State) (n : Nat) (p : PitchSt) : (pSet s n p).pitches = tset {} s.pitches n p := rfl
@[simp] theorem pSet_templates (s : State) (n : Nat) (p : PitchSt) : (pSet s n p).templates = s.templates := rfl
@[simp] theorem pSet_sweeping (s : State) (n : Nat) (p : PitchSt) : (pSet s n p).sweeping = s.sweeping := rfl
@[simp] theorem pSet_tpt (s : State) (n : Nat) (p : PitchSt) : (pSet s n p).tpt = s.tpt := rfl
@[simp] theorem pSet_act (s : State) (n : Nat) (p : PitchSt) : (pSet s n p).act = s.act := rfl
@[simp] theorem pSet_tmg (s : State) (n : Nat) (p : PitchSt) : (pSet s n p).tmg = s.tmg := rfl
@[simp] theorem pSet_prt (s : State) (n : Nat) (p : PitchSt) : (pSet s n p).prt = s.prt := rfl
@[simp] theorem pSet_klr (s : State) (n : Nat) (p : PitchSt) : (pSet s n p).klr = s.klr := rfl
@[simp] theorem pSet_ptp (s : State) (n : Nat) (p : PitchSt) : (pSet s n p).ptp = s.ptp := rfl
@[simp] theorem pSet_dmc (s : State) (n : Nat) (p : PitchSt) : (pSet s n p).dmc = s.dmc := rfl
@[simp] theorem pSet_fum (s : State) (n : Nat) (p : PitchSt) : (pSet s n p).fum = s.fum := rfl
@[simp] theorem pSet_swn (s : State) (n : Nat) (p : PitchSt) : (pSet s n p).swn = s.swn := rfl
@[simp] theorem pSet_clx (s : State) (n : Nat) (p : PitchSt) : (pSet s n p).clx = s.clx := rfl
@[simp] theorem pSet_grd (s : State) (n : Nat) (p : PitchSt) : (pSet s n p).grd = s.grd := rfl
@[simp] theorem pSet_img (s : State) (n : Nat) (p : PitchSt) : (pSet s n p).img = s.img := rfl
@[simp] theorem pSet_mir (s : State) (n : Nat) (p : PitchSt) : (pSet s n p).mir = s.mir := rfl
@[simp] theorem pSet_flt (s : State) (n : Nat) (p : PitchSt) : (pSet s n p).flt = s.flt := rfl
@[simp] theorem pSet_svc (s : State) (n : Nat) (p : PitchSt) : (pSet s n p).svc = s.svc := rfl
@[simp] theorem pSet_cvus (s : State) (n : Nat) (p : PitchSt) : (pSet s n p).cvus = s.cvus := rfl
@[simp] theorem pSet_dbg (s : State) (n : Nat) (p : PitchSt) : (pSet s n p).dbg = s.dbg := rfl
@[simp] theorem pSet_fab (s : State) (n : Nat) (p : PitchSt) : (pSet s n p).fab = s.fab := rfl
@[simp] theorem pSet_boot (s : State) (n : Nat) (p : PitchSt) : (pSet s n p).boot = s.boot := rfl
@[simp] theorem pSet_brd (s : State) (n : Nat) (p : PitchSt) : (pSet s n p).brd = s.brd := rfl
@[simp] theorem pSet_crg (s : State) (n : Nat) (p : PitchSt) : (pSet s n p).crg = s.crg := rfl

/-! ## prtPut -/
@[simp] theorem prtPut_pending (s : State) (p : Nat) (x : Prt) : (prtPut s p x).pending = s.pending := rfl
@[simp] theorem prtPut_now (s : State) (p : Nat) (x : Prt) : (prtPut s p x).now = s.now := rfl
@[simp] theorem prtPut_cd10Sec (s : State) (p : Nat) (x : Prt) : (prtPut s p x).cd10Sec = s.cd10Sec := rfl
@[simp] theorem prtPut_cd10Ns (s : State) (p : Nat) (x : Prt) : (prtPut s p x).cd10Ns = s.cd10Ns := rfl
@[simp] theorem prtPut_cd10Frac (s : State) (p : Nat) (x : Prt) : (prtPut s p x).cd10Frac = s.cd10Frac := rfl
@[simp] theorem prtPut_ticks (s : State) (p : Nat) (x : Prt) : (prtPut s p x).ticks = s.ticks := rfl
@[simp] theorem prtPut_freeCtr (s : State) (p : Nat) (x : Prt) : (prtPut s p x).freeCtr = s.freeCtr := rfl
@[simp] theorem prtPut_wire (s : State) (p : Nat) (x : Prt) : (prtPut s p x).wire = s.wire := rfl
@[simp] theorem prtPut_units (s : State) (p : Nat) (x : Prt) : (prtPut s p x).units = s.units := rfl
@[simp] theorem prtPut_cnt (s : State) (p : Nat) (x : Prt) : (prtPut s p x).cnt = s.cnt := rfl
@[simp] theorem prtPut_cntPitch (s : State) (p : Nat) (x : Prt) : (prtPut s p x).cntPitch = s.cntPitch := rfl
@[simp] theorem prtPut_csr (s : State) (p : Nat) (x : Prt) : (prtPut s p x).csr = s.csr := rfl
@[simp] theorem prtPut_sel (s : State) (p : Nat) (x : Prt) : (prtPut s p x).sel = s.sel := rfl
@[simp] theorem prtPut_cntCap (s : State) (p : Nat) (x : Prt) : (prtPut s p x).cntCap = s.cntCap := rfl
@[simp] theorem prtPut_pitches (s : State) (p : Nat) (x : Prt) : (prtPut s p x).pitches = s.pitches := rfl
@[simp] theorem prtPut_templates (s : State) (p : Nat) (x : Prt) : (prtPut s p x).templates = s.templates := rfl
@[simp] theorem prtPut_sweeping (s : State) (p : Nat) (x : Prt) : (prtPut s p x).sweeping = s.sweeping := rfl
@[simp] theorem prtPut_tpt (s : State) (p : Nat) (x : Prt) : (prtPut s p x).tpt = s.tpt := rfl
@[simp] theorem prtPut_act (s : State) (p : Nat) (x : Prt) : (prtPut s p x).act = s.act := rfl
@[simp] theorem prtPut_tmg (s : State) (p : Nat) (x : Prt) : (prtPut s p x).tmg = s.tmg := rfl
@[simp] theorem prtPut_prt (s : State) (p : Nat) (x : Prt) : (prtPut s p x).prt = tset {} s.prt p x := rfl
@[simp] theorem prtPut_klr (s : State) (p : Nat) (x : Prt) : (prtPut s p x).klr = s.klr := rfl
@[simp] theorem prtPut_ptp (s : State) (p : Nat) (x : Prt) : (prtPut s p x).ptp = s.ptp := rfl
@[simp] theorem prtPut_dmc (s : State) (p : Nat) (x : Prt) : (prtPut s p x).dmc = s.dmc := rfl
@[simp] theorem prtPut_fum (s : State) (p : Nat) (x : Prt) : (prtPut s p x).fum = s.fum := rfl
@[simp] theorem prtPut_swn (s : State) (p : Nat) (x : Prt) : (prtPut s p x).swn = s.swn := rfl
@[simp] theorem prtPut_clx (s : State) (p : Nat) (x : Prt) : (prtPut s p x).clx = s.clx := rfl
@[simp] theorem prtPut_grd (s : State) (p : Nat) (x : Prt) : (prtPut s p x).grd = s.grd := rfl
@[simp] theorem prtPut_img (s : State) (p : Nat) (x : Prt) : (prtPut s p x).img = s.img := rfl
@[simp] theorem prtPut_mir (s : State) (p : Nat) (x : Prt) : (prtPut s p x).mir = s.mir := rfl
@[simp] theorem prtPut_flt (s : State) (p : Nat) (x : Prt) : (prtPut s p x).flt = s.flt := rfl
@[simp] theorem prtPut_svc (s : State) (p : Nat) (x : Prt) : (prtPut s p x).svc = s.svc := rfl
@[simp] theorem prtPut_cvus (s : State) (p : Nat) (x : Prt) : (prtPut s p x).cvus = s.cvus := rfl
@[simp] theorem prtPut_dbg (s : State) (p : Nat) (x : Prt) : (prtPut s p x).dbg = s.dbg := rfl
@[simp] theorem prtPut_fab (s : State) (p : Nat) (x : Prt) : (prtPut s p x).fab = s.fab := rfl
@[simp] theorem prtPut_boot (s : State) (p : Nat) (x : Prt) : (prtPut s p x).boot = s.boot := rfl
@[simp] theorem prtPut_brd (s : State) (p : Nat) (x : Prt) : (prtPut s p x).brd = s.brd := rfl
@[simp] theorem prtPut_crg (s : State) (p : Nat) (x : Prt) : (prtPut s p x).crg = s.crg := rfl

/-! ## klrPut -/
@[simp] theorem klrPut_pending (s : State) (l : Nat) (k : Klr) : (klrPut s l k).pending = s.pending := rfl
@[simp] theorem klrPut_now (s : State) (l : Nat) (k : Klr) : (klrPut s l k).now = s.now := rfl
@[simp] theorem klrPut_cd10Sec (s : State) (l : Nat) (k : Klr) : (klrPut s l k).cd10Sec = s.cd10Sec := rfl
@[simp] theorem klrPut_cd10Ns (s : State) (l : Nat) (k : Klr) : (klrPut s l k).cd10Ns = s.cd10Ns := rfl
@[simp] theorem klrPut_cd10Frac (s : State) (l : Nat) (k : Klr) : (klrPut s l k).cd10Frac = s.cd10Frac := rfl
@[simp] theorem klrPut_ticks (s : State) (l : Nat) (k : Klr) : (klrPut s l k).ticks = s.ticks := rfl
@[simp] theorem klrPut_freeCtr (s : State) (l : Nat) (k : Klr) : (klrPut s l k).freeCtr = s.freeCtr := rfl
@[simp] theorem klrPut_wire (s : State) (l : Nat) (k : Klr) : (klrPut s l k).wire = s.wire := rfl
@[simp] theorem klrPut_units (s : State) (l : Nat) (k : Klr) : (klrPut s l k).units = s.units := rfl
@[simp] theorem klrPut_cnt (s : State) (l : Nat) (k : Klr) : (klrPut s l k).cnt = s.cnt := rfl
@[simp] theorem klrPut_cntPitch (s : State) (l : Nat) (k : Klr) : (klrPut s l k).cntPitch = s.cntPitch := rfl
@[simp] theorem klrPut_csr (s : State) (l : Nat) (k : Klr) : (klrPut s l k).csr = s.csr := rfl
@[simp] theorem klrPut_sel (s : State) (l : Nat) (k : Klr) : (klrPut s l k).sel = s.sel := rfl
@[simp] theorem klrPut_cntCap (s : State) (l : Nat) (k : Klr) : (klrPut s l k).cntCap = s.cntCap := rfl
@[simp] theorem klrPut_pitches (s : State) (l : Nat) (k : Klr) : (klrPut s l k).pitches = s.pitches := rfl
@[simp] theorem klrPut_templates (s : State) (l : Nat) (k : Klr) : (klrPut s l k).templates = s.templates := rfl
@[simp] theorem klrPut_sweeping (s : State) (l : Nat) (k : Klr) : (klrPut s l k).sweeping = s.sweeping := rfl
@[simp] theorem klrPut_tpt (s : State) (l : Nat) (k : Klr) : (klrPut s l k).tpt = s.tpt := rfl
@[simp] theorem klrPut_act (s : State) (l : Nat) (k : Klr) : (klrPut s l k).act = s.act := rfl
@[simp] theorem klrPut_tmg (s : State) (l : Nat) (k : Klr) : (klrPut s l k).tmg = s.tmg := rfl
@[simp] theorem klrPut_prt (s : State) (l : Nat) (k : Klr) : (klrPut s l k).prt = s.prt := rfl
@[simp] theorem klrPut_klr (s : State) (l : Nat) (k : Klr) : (klrPut s l k).klr = tset {} s.klr l k := rfl
@[simp] theorem klrPut_ptp (s : State) (l : Nat) (k : Klr) : (klrPut s l k).ptp = s.ptp := rfl
@[simp] theorem klrPut_dmc (s : State) (l : Nat) (k : Klr) : (klrPut s l k).dmc = s.dmc := rfl
@[simp] theorem klrPut_fum (s : State) (l : Nat) (k : Klr) : (klrPut s l k).fum = s.fum := rfl
@[simp] theorem klrPut_swn (s : State) (l : Nat) (k : Klr) : (klrPut s l k).swn = s.swn := rfl
@[simp] theorem klrPut_clx (s : State) (l : Nat) (k : Klr) : (klrPut s l k).clx = s.clx := rfl
@[simp] theorem klrPut_grd (s : State) (l : Nat) (k : Klr) : (klrPut s l k).grd = s.grd := rfl
@[simp] theorem klrPut_img (s : State) (l : Nat) (k : Klr) : (klrPut s l k).img = s.img := rfl
@[simp] theorem klrPut_mir (s : State) (l : Nat) (k : Klr) : (klrPut s l k).mir = s.mir := rfl
@[simp] theorem klrPut_flt (s : State) (l : Nat) (k : Klr) : (klrPut s l k).flt = s.flt := rfl
@[simp] theorem klrPut_svc (s : State) (l : Nat) (k : Klr) : (klrPut s l k).svc = s.svc := rfl
@[simp] theorem klrPut_cvus (s : State) (l : Nat) (k : Klr) : (klrPut s l k).cvus = s.cvus := rfl
@[simp] theorem klrPut_dbg (s : State) (l : Nat) (k : Klr) : (klrPut s l k).dbg = s.dbg := rfl
@[simp] theorem klrPut_fab (s : State) (l : Nat) (k : Klr) : (klrPut s l k).fab = s.fab := rfl
@[simp] theorem klrPut_boot (s : State) (l : Nat) (k : Klr) : (klrPut s l k).boot = s.boot := rfl
@[simp] theorem klrPut_brd (s : State) (l : Nat) (k : Klr) : (klrPut s l k).brd = s.brd := rfl
@[simp] theorem klrPut_crg (s : State) (l : Nat) (k : Klr) : (klrPut s l k).crg = s.crg := rfl

/-! ## putWire -/
@[simp] theorem putWire_pending (s : State) (w : WireItem) : (putWire s w).pending = s.pending := rfl
@[simp] theorem putWire_now (s : State) (w : WireItem) : (putWire s w).now = s.now := rfl
@[simp] theorem putWire_cd10Sec (s : State) (w : WireItem) : (putWire s w).cd10Sec = s.cd10Sec := rfl
@[simp] theorem putWire_cd10Ns (s : State) (w : WireItem) : (putWire s w).cd10Ns = s.cd10Ns := rfl
@[simp] theorem putWire_cd10Frac (s : State) (w : WireItem) : (putWire s w).cd10Frac = s.cd10Frac := rfl
@[simp] theorem putWire_ticks (s : State) (w : WireItem) : (putWire s w).ticks = s.ticks := rfl
@[simp] theorem putWire_freeCtr (s : State) (w : WireItem) : (putWire s w).freeCtr = s.freeCtr := rfl
@[simp] theorem putWire_wire (s : State) (w : WireItem) : (putWire s w).wire = s.wire ++ [w] := rfl
@[simp] theorem putWire_units (s : State) (w : WireItem) : (putWire s w).units = s.units := rfl
@[simp] theorem putWire_cnt (s : State) (w : WireItem) : (putWire s w).cnt = s.cnt := rfl
@[simp] theorem putWire_cntPitch (s : State) (w : WireItem) : (putWire s w).cntPitch = s.cntPitch := rfl
@[simp] theorem putWire_csr (s : State) (w : WireItem) : (putWire s w).csr = s.csr := rfl
@[simp] theorem putWire_sel (s : State) (w : WireItem) : (putWire s w).sel = s.sel := rfl
@[simp] theorem putWire_cntCap (s : State) (w : WireItem) : (putWire s w).cntCap = s.cntCap := rfl
@[simp] theorem putWire_pitches (s : State) (w : WireItem) : (putWire s w).pitches = s.pitches := rfl
@[simp] theorem putWire_templates (s : State) (w : WireItem) : (putWire s w).templates = s.templates := rfl
@[simp] theorem putWire_sweeping (s : State) (w : WireItem) : (putWire s w).sweeping = s.sweeping := rfl
@[simp] theorem putWire_tpt (s : State) (w : WireItem) : (putWire s w).tpt = s.tpt := rfl
@[simp] theorem putWire_act (s : State) (w : WireItem) : (putWire s w).act = s.act := rfl
@[simp] theorem putWire_tmg (s : State) (w : WireItem) : (putWire s w).tmg = s.tmg := rfl
@[simp] theorem putWire_prt (s : State) (w : WireItem) : (putWire s w).prt = s.prt := rfl
@[simp] theorem putWire_klr (s : State) (w : WireItem) : (putWire s w).klr = s.klr := rfl
@[simp] theorem putWire_ptp (s : State) (w : WireItem) : (putWire s w).ptp = s.ptp := rfl
@[simp] theorem putWire_dmc (s : State) (w : WireItem) : (putWire s w).dmc = s.dmc := rfl
@[simp] theorem putWire_fum (s : State) (w : WireItem) : (putWire s w).fum = s.fum := rfl
@[simp] theorem putWire_swn (s : State) (w : WireItem) : (putWire s w).swn = s.swn := rfl
@[simp] theorem putWire_clx (s : State) (w : WireItem) : (putWire s w).clx = s.clx := rfl
@[simp] theorem putWire_grd (s : State) (w : WireItem) : (putWire s w).grd = s.grd := rfl
@[simp] theorem putWire_img (s : State) (w : WireItem) : (putWire s w).img = s.img := rfl
@[simp] theorem putWire_mir (s : State) (w : WireItem) : (putWire s w).mir = s.mir := rfl
@[simp] theorem putWire_flt (s : State) (w : WireItem) : (putWire s w).flt = s.flt := rfl
@[simp] theorem putWire_svc (s : State) (w : WireItem) : (putWire s w).svc = s.svc := rfl
@[simp] theorem putWire_cvus (s : State) (w : WireItem) : (putWire s w).cvus = s.cvus := rfl
@[simp] theorem putWire_dbg (s : State) (w : WireItem) : (putWire s w).dbg = s.dbg := rfl
@[simp] theorem putWire_fab (s : State) (w : WireItem) : (putWire s w).fab = s.fab := rfl
@[simp] theorem putWire_boot (s : State) (w : WireItem) : (putWire s w).boot = s.boot := rfl
@[simp] theorem putWire_brd (s : State) (w : WireItem) : (putWire s w).brd = s.brd := rfl
@[simp] theorem putWire_crg (s : State) (w : WireItem) : (putWire s w).crg = s.crg := rfl

/-! ## uartPut -/
@[simp] theorem uartPut_pending (s : State) (u : Uart) : (uartPut s u).pending = s.pending := rfl
@[simp] theorem uartPut_now (s : State) (u : Uart) : (uartPut s u).now = s.now := rfl
@[simp] theorem uartPut_cd10Sec (s : State) (u : Uart) : (uartPut s u).cd10Sec = s.cd10Sec := rfl
@[simp] theorem uartPut_cd10Ns (s : State) (u : Uart) : (uartPut s u).cd10Ns = s.cd10Ns := rfl
@[simp] theorem uartPut_cd10Frac (s : State) (u : Uart) : (uartPut s u).cd10Frac = s.cd10Frac := rfl
@[simp] theorem uartPut_ticks (s : State) (u : Uart) : (uartPut s u).ticks = s.ticks := rfl
@[simp] theorem uartPut_freeCtr (s : State) (u : Uart) : (uartPut s u).freeCtr = s.freeCtr := rfl
@[simp] theorem uartPut_wire (s : State) (u : Uart) : (uartPut s u).wire = s.wire ++ [.uart u] := rfl
@[simp] theorem uartPut_units (s : State) (u : Uart) : (uartPut s u).units = s.units := rfl
@[simp] theorem uartPut_cnt (s : State) (u : Uart) : (uartPut s u).cnt = s.cnt := rfl
@[simp] theorem uartPut_cntPitch (s : State) (u : Uart) : (uartPut s u).cntPitch = s.cntPitch := rfl
@[simp] theorem uartPut_csr (s : State) (u : Uart) : (uartPut s u).csr = s.csr := rfl
@[simp] theorem uartPut_sel (s : State) (u : Uart) : (uartPut s u).sel = s.sel := rfl
@[simp] theorem uartPut_cntCap (s : State) (u : Uart) : (uartPut s u).cntCap = s.cntCap := rfl
@[simp] theorem uartPut_pitches (s : State) (u : Uart) : (uartPut s u).pitches = s.pitches := rfl
@[simp] theorem uartPut_templates (s : State) (u : Uart) : (uartPut s u).templates = s.templates := rfl
@[simp] theorem uartPut_sweeping (s : State) (u : Uart) : (uartPut s u).sweeping = s.sweeping := rfl
@[simp] theorem uartPut_tpt (s : State) (u : Uart) : (uartPut s u).tpt = s.tpt := rfl
@[simp] theorem uartPut_act (s : State) (u : Uart) : (uartPut s u).act = s.act := rfl
@[simp] theorem uartPut_tmg (s : State) (u : Uart) : (uartPut s u).tmg = s.tmg := rfl
@[simp] theorem uartPut_prt (s : State) (u : Uart) : (uartPut s u).prt = s.prt := rfl
@[simp] theorem uartPut_klr (s : State) (u : Uart) : (uartPut s u).klr = s.klr := rfl
@[simp] theorem uartPut_ptp (s : State) (u : Uart) : (uartPut s u).ptp = s.ptp := rfl
@[simp] theorem uartPut_dmc (s : State) (u : Uart) : (uartPut s u).dmc = s.dmc := rfl
@[simp] theorem uartPut_fum (s : State) (u : Uart) : (uartPut s u).fum = s.fum := rfl
@[simp] theorem uartPut_swn (s : State) (u : Uart) : (uartPut s u).swn = s.swn := rfl
@[simp] theorem uartPut_clx (s : State) (u : Uart) : (uartPut s u).clx = s.clx := rfl
@[simp] theorem uartPut_grd (s : State) (u : Uart) : (uartPut s u).grd = s.grd := rfl
@[simp] theorem uartPut_img (s : State) (u : Uart) : (uartPut s u).img = s.img := rfl
@[simp] theorem uartPut_mir (s : State) (u : Uart) : (uartPut s u).mir = s.mir := rfl
@[simp] theorem uartPut_flt (s : State) (u : Uart) : (uartPut s u).flt = s.flt := rfl
@[simp] theorem uartPut_svc (s : State) (u : Uart) : (uartPut s u).svc = s.svc := rfl
@[simp] theorem uartPut_cvus (s : State) (u : Uart) : (uartPut s u).cvus = s.cvus := rfl
@[simp] theorem uartPut_dbg (s : State) (u : Uart) : (uartPut s u).dbg = s.dbg := rfl
@[simp] theorem uartPut_fab (s : State) (u : Uart) : (uartPut s u).fab = s.fab := rfl
@[simp] theorem uartPut_boot (s : State) (u : Uart) : (uartPut s u).boot = s.boot := rfl
@[simp] theorem uartPut_brd (s : State) (u : Uart) : (uartPut s u).brd = s.brd := rfl
@[simp] theorem uartPut_crg (s : State) (u : Uart) : (uartPut s u).crg = s.crg := rfl

/-! ## draw -/
@[simp] theorem draw_pending (s : State) : (draw s).2.pending = s.pending := rfl
@[simp] theorem draw_now (s : State) : (draw s).2.now = s.now := rfl
@[simp] theorem draw_cd10Sec (s : State) : (draw s).2.cd10Sec = s.cd10Sec := rfl
@[simp] theorem draw_cd10Ns (s : State) : (draw s).2.cd10Ns = s.cd10Ns := rfl
@[simp] theorem draw_cd10Frac (s : State) : (draw s).2.cd10Frac = s.cd10Frac := rfl
@[simp] theorem draw_ticks (s : State) : (draw s).2.ticks = s.ticks := rfl
@[simp] theorem draw_freeCtr (s : State) : (draw s).2.freeCtr = s.freeCtr + 1 := rfl
@[simp] theorem draw_wire (s : State) : (draw s).2.wire = s.wire := rfl
@[simp] theorem draw_units (s : State) : (draw s).2.units = s.units := rfl
@[simp] theorem draw_cnt (s : State) : (draw s).2.cnt = s.cnt := rfl
@[simp] theorem draw_cntPitch (s : State) : (draw s).2.cntPitch = s.cntPitch := rfl
@[simp] theorem draw_csr (s : State) : (draw s).2.csr = s.csr := rfl
@[simp] theorem draw_sel (s : State) : (draw s).2.sel = s.sel := rfl
@[simp] theorem draw_cntCap (s : State) : (draw s).2.cntCap = s.cntCap := rfl
@[simp] theorem draw_pitches (s : State) : (draw s).2.pitches = s.pitches := rfl
@[simp] theorem draw_templates (s : State) : (draw s).2.templates = s.templates := rfl
@[simp] theorem draw_sweeping (s : State) : (draw s).2.sweeping = s.sweeping := rfl
@[simp] theorem draw_tpt (s : State) : (draw s).2.tpt = s.tpt := rfl
@[simp] theorem draw_act (s : State) : (draw s).2.act = s.act := rfl
@[simp] theorem draw_tmg (s : State) : (draw s).2.tmg = s.tmg := rfl
@[simp] theorem draw_prt (s : State) : (draw s).2.prt = s.prt := rfl
@[simp] theorem draw_klr (s : State) : (draw s).2.klr = s.klr := rfl
@[simp] theorem draw_ptp (s : State) : (draw s).2.ptp = s.ptp := rfl
@[simp] theorem draw_dmc (s : State) : (draw s).2.dmc = s.dmc := rfl
@[simp] theorem draw_fum (s : State) : (draw s).2.fum = s.fum := rfl
@[simp] theorem draw_swn (s : State) : (draw s).2.swn = s.swn := rfl
@[simp] theorem draw_clx (s : State) : (draw s).2.clx = s.clx := rfl
@[simp] theorem draw_grd (s : State) : (draw s).2.grd = s.grd := rfl
@[simp] theorem draw_img (s : State) : (draw s).2.img = s.img := rfl
@[simp] theorem draw_mir (s : State) : (draw s).2.mir = s.mir := rfl
@[simp] theorem draw_flt (s : State) : (draw s).2.flt = s.flt := rfl
@[simp] theorem draw_svc (s : State) : (draw s).2.svc = s.svc := rfl
@[simp] theorem draw_cvus (s : State) : (draw s).2.cvus = s.cvus := rfl
@[simp] theorem draw_dbg (s : State) : (draw s).2.dbg = s.dbg := rfl
@[simp] theorem draw_fab (s : State) : (draw s).2.fab = s.fab := rfl
@[simp] theorem draw_boot (s : State) : (draw s).2.boot = s.boot := rfl
@[simp] theorem draw_brd (s : State) : (draw s).2.brd = s.brd := rfl
@[simp] theorem draw_crg (s : State) : (draw s).2.crg = s.crg := rfl

/-! ## memPut -/
@[simp] theorem memPut_pending (s : State) (a : Nat) (bs : List Byte) : (memPut s a bs).pending = s.pending := rfl
@[simp] theorem memPut_now (s : State) (a : Nat) (bs : List Byte) : (memPut s a bs).now = s.now := rfl
@[simp] theorem memPut_cd10Sec (s : State) (a : Nat) (bs : List Byte) : (memPut s a bs).cd10Sec = s.cd10Sec := rfl
@[simp] theorem memPut_cd10Ns (s : State) (a : Nat) (bs : List Byte) : (memPut s a bs).cd10Ns = s.cd10Ns := rfl
@[simp] theorem memPut_cd10Frac (s : State) (a : Nat) (bs : List Byte) : (memPut s a bs).cd10Frac = s.cd10Frac := rfl
@[simp] theorem memPut_ticks (s : State) (a : Nat) (bs : List Byte) : (memPut s a bs).ticks = s.ticks := rfl
@[simp] theorem memPut_freeCtr (s : State) (a : Nat) (bs : List Byte) : (memPut s a bs).freeCtr = s.freeCtr := rfl
@[simp] theorem memPut_wire (s : State) (a : Nat) (bs : List Byte) : (memPut s a bs).wire = s.wire := rfl
@[simp] theorem memPut_units (s : State) (a : Nat) (bs : List Byte) : (memPut s a bs).units = s.units := rfl
@[simp] theorem memPut_cnt (s : State) (a : Nat) (bs : List Byte) : (memPut s a bs).cnt = s.cnt := rfl
@[simp] theorem memPut_cntPitch (s : State) (a : Nat) (bs : List Byte) : (memPut s a bs).cntPitch = s.cntPitch := rfl
@[simp] theorem memPut_csr (s : State) (a : Nat) (bs : List Byte) : (memPut s a bs).csr = s.csr := rfl
@[simp] theorem memPut_sel (s : State) (a : Nat) (bs : List Byte) : (memPut s a bs).sel = s.sel := rfl
@[simp] theorem memPut_cntCap (s : State) (a : Nat) (bs : List Byte) : (memPut s a bs).cntCap = s.cntCap := rfl
@[simp] theorem memPut_pitches (s : State) (a : Nat) (bs : List Byte) : (memPut s a bs).pitches = s.pitches := rfl
@[simp] theorem memPut_templates (s : State) (a : Nat) (bs : List Byte) : (memPut s a bs).templates = s.templates := rfl
@[simp] theorem memPut_sweeping (s : State) (a : Nat) (bs : List Byte) : (memPut s a bs).sweeping = s.sweeping := rfl
@[simp] theorem memPut_tpt (s : State) (a : Nat) (bs : List Byte) : (memPut s a bs).tpt = s.tpt := rfl
@[simp] theorem memPut_act (s : State) (a : Nat) (bs : List Byte) : (memPut s a bs).act = s.act := rfl
@[simp] theorem memPut_tmg (s : State) (a : Nat) (bs : List Byte) : (memPut s a bs).tmg = s.tmg := rfl
@[simp] theorem memPut_prt (s : State) (a : Nat) (bs : List Byte) : (memPut s a bs).prt = s.prt := rfl
@[simp] theorem memPut_klr (s : State) (a : Nat) (bs : List Byte) : (memPut s a bs).klr = s.klr := rfl
@[simp] theorem memPut_ptp (s : State) (a : Nat) (bs : List Byte) : (memPut s a bs).ptp = s.ptp := rfl
@[simp] theorem memPut_fum (s : State) (a : Nat) (bs : List Byte) : (memPut s a bs).fum = s.fum := rfl
@[simp] theorem memPut_swn (s : State) (a : Nat) (bs : List Byte) : (memPut s a bs).swn = s.swn := rfl
@[simp] theorem memPut_clx (s : State) (a : Nat) (bs : List Byte) : (memPut s a bs).clx = s.clx := rfl
@[simp] theorem memPut_grd (s : State) (a : Nat) (bs : List Byte) : (memPut s a bs).grd = s.grd := rfl
@[simp] theorem memPut_img (s : State) (a : Nat) (bs : List Byte) : (memPut s a bs).img = s.img := rfl
@[simp] theorem memPut_mir (s : State) (a : Nat) (bs : List Byte) : (memPut s a bs).mir = s.mir := rfl
@[simp] theorem memPut_flt (s : State) (a : Nat) (bs : List Byte) : (memPut s a bs).flt = s.flt := rfl
@[simp] theorem memPut_svc (s : State) (a : Nat) (bs : List Byte) : (memPut s a bs).svc = s.svc := rfl
@[simp] theorem memPut_cvus (s : State) (a : Nat) (bs : List Byte) : (memPut s a bs).cvus = s.cvus := rfl
@[simp] theorem memPut_dbg (s : State) (a : Nat) (bs : List Byte) : (memPut s a bs).dbg = s.dbg := rfl
@[simp] theorem memPut_fab (s : State) (a : Nat) (bs : List Byte) : (memPut s a bs).fab = s.fab := rfl
@[simp] theorem memPut_boot (s : State) (a : Nat) (bs : List Byte) : (memPut s a bs).boot = s.boot := rfl
@[simp] theorem memPut_brd (s : State) (a : Nat) (bs : List Byte) : (memPut s a bs).brd = s.brd := rfl
@[simp] theorem memPut_crg (s : State) (a : Nat) (bs : List Byte) : (memPut s a bs).crg = s.crg := rfl

/-! ## metaPut -/
@[simp] theorem metaPut_pending (s : State) (a : Nat) (m : LineMeta) : (metaPut s a m).pending = s.pending := rfl
@[simp] theorem metaPut_now (s : State) (a : Nat) (m : LineMeta) : (metaPut s a m).now = s.now := rfl
@[simp] theorem metaPut_cd10Sec (s : State) (a : Nat) (m : LineMeta) : (metaPut s a m).cd10Sec = s.cd10Sec := rfl
@[simp] theorem metaPut_cd10Ns (s : State) (a : Nat) (m : LineMeta) : (metaPut s a m).cd10Ns = s.cd10Ns := rfl
@[simp] theorem metaPut_cd10Frac (s : State) (a : Nat) (m : LineMeta) : (metaPut s a m).cd10Frac = s.cd10Frac := rfl
@[simp] theorem metaPut_ticks (s : State) (a : Nat) (m : LineMeta) : (metaPut s a m).ticks = s.ticks := rfl
@[simp] theorem metaPut_freeCtr (s : State) (a : Nat) (m : LineMeta) : (metaPut s a m).freeCtr = s.freeCtr := rfl
@[simp] theorem metaPut_wire (s : State) (a : Nat) (m : LineMeta) : (metaPut s a m).wire = s.wire := rfl
@[simp] theorem metaPut_units (s : State) (a : Nat) (m : LineMeta) : (metaPut s a m).units = s.units := rfl
@[simp] theorem metaPut_cnt (s : State) (a : Nat) (m : LineMeta) : (metaPut s a m).cnt = s.cnt := rfl
@[simp] theorem metaPut_cntPitch (s : State) (a : Nat) (m : LineMeta) : (metaPut s a m).cntPitch = s.cntPitch := rfl
@[simp] theorem metaPut_csr (s : State) (a : Nat) (m : LineMeta) : (metaPut s a m).csr = s.csr := rfl
@[simp] theorem metaPut_sel (s : State) (a : Nat) (m : LineMeta) : (metaPut s a m).sel = s.sel := rfl
@[simp] theorem metaPut_cntCap (s : State) (a : Nat) (m : LineMeta) : (metaPut s a m).cntCap = s.cntCap := rfl
@[simp] theorem metaPut_pitches (s : State) (a : Nat) (m : LineMeta) : (metaPut s a m).pitches = s.pitches := rfl
@[simp] theorem metaPut_templates (s : State) (a : Nat) (m : LineMeta) : (metaPut s a m).templates = s.templates := rfl
@[simp] theorem metaPut_sweeping (s : State) (a : Nat) (m : LineMeta) : (metaPut s a m).sweeping = s.sweeping := rfl
@[simp] theorem metaPut_tpt (s : State) (a : Nat) (m : LineMeta) : (metaPut s a m).tpt = s.tpt := rfl
@[simp] theorem metaPut_act (s : State) (a : Nat) (m : LineMeta) : (metaPut s a m).act = s.act := rfl
@[simp] theorem metaPut_tmg (s : State) (a : Nat) (m : LineMeta) : (metaPut s a m).tmg = s.tmg := rfl
@[simp] theorem metaPut_prt (s : State) (a : Nat) (m : LineMeta) : (metaPut s a m).prt = s.prt := rfl
@[simp] theorem metaPut_klr (s : State) (a : Nat) (m : LineMeta) : (metaPut s a m).klr = s.klr := rfl
@[simp] theorem metaPut_ptp (s : State) (a : Nat) (m : LineMeta) : (metaPut s a m).ptp = s.ptp := rfl
@[simp] theorem metaPut_fum (s : State) (a : Nat) (m : LineMeta) : (metaPut s a m).fum = s.fum := rfl
@[simp] theorem metaPut_swn (s : State) (a : Nat) (m : LineMeta) : (metaPut s a m).swn = s.swn := rfl
@[simp] theorem metaPut_clx (s : State) (a : Nat) (m : LineMeta) : (metaPut s a m).clx = s.clx := rfl
@[simp] theorem metaPut_grd (s : State) (a : Nat) (m : LineMeta) : (metaPut s a m).grd = s.grd := rfl
@[simp] theorem metaPut_img (s : State) (a : Nat) (m : LineMeta) : (metaPut s a m).img = s.img := rfl
@[simp] theorem metaPut_mir (s : State) (a : Nat) (m : LineMeta) : (metaPut s a m).mir = s.mir := rfl
@[simp] theorem metaPut_flt (s : State) (a : Nat) (m : LineMeta) : (metaPut s a m).flt = s.flt := rfl
@[simp] theorem metaPut_svc (s : State) (a : Nat) (m : LineMeta) : (metaPut s a m).svc = s.svc := rfl
@[simp] theorem metaPut_cvus (s : State) (a : Nat) (m : LineMeta) : (metaPut s a m).cvus = s.cvus := rfl
@[simp] theorem metaPut_dbg (s : State) (a : Nat) (m : LineMeta) : (metaPut s a m).dbg = s.dbg := rfl
@[simp] theorem metaPut_fab (s : State) (a : Nat) (m : LineMeta) : (metaPut s a m).fab = s.fab := rfl
@[simp] theorem metaPut_boot (s : State) (a : Nat) (m : LineMeta) : (metaPut s a m).boot = s.boot := rfl
@[simp] theorem metaPut_brd (s : State) (a : Nat) (m : LineMeta) : (metaPut s a m).brd = s.brd := rfl
@[simp] theorem metaPut_crg (s : State) (a : Nat) (m : LineMeta) : (metaPut s a m).crg = s.crg := rfl

/-! ## granPut -/
@[simp] theorem granPut_pending (s : State) (g : Nat) (e : Granule) : (granPut s g e).pending = s.pending := rfl
@[simp] theorem granPut_now (s : State) (g : Nat) (e : Granule) : (granPut s g e).now = s.now := rfl
@[simp] theorem granPut_cd10Sec (s : State) (g : Nat) (e : Granule) : (granPut s g e).cd10Sec = s.cd10Sec := rfl
@[simp] theorem granPut_cd10Ns (s : State) (g : Nat) (e : Granule) : (granPut s g e).cd10Ns = s.cd10Ns := rfl
@[simp] theorem granPut_cd10Frac (s : State) (g : Nat) (e : Granule) : (granPut s g e).cd10Frac = s.cd10Frac := rfl
@[simp] theorem granPut_ticks (s : State) (g : Nat) (e : Granule) : (granPut s g e).ticks = s.ticks := rfl
@[simp] theorem granPut_freeCtr (s : State) (g : Nat) (e : Granule) : (granPut s g e).freeCtr = s.freeCtr := rfl
@[simp] theorem granPut_wire (s : State) (g : Nat) (e : Granule) : (granPut s g e).wire = s.wire := rfl
@[simp] theorem granPut_units (s : State) (g : Nat) (e : Granule) : (granPut s g e).units = s.units := rfl
@[simp] theorem granPut_cnt (s : State) (g : Nat) (e : Granule) : (granPut s g e).cnt = s.cnt := rfl
@[simp] theorem granPut_cntPitch (s : State) (g : Nat) (e : Granule) : (granPut s g e).cntPitch = s.cntPitch := rfl
@[simp] theorem granPut_csr (s : State) (g : Nat) (e : Granule) : (granPut s g e).csr = s.csr := rfl
@[simp] theorem granPut_sel (s : State) (g : Nat) (e : Granule) : (granPut s g e).sel = s.sel := rfl
@[simp] theorem granPut_cntCap (s : State) (g : Nat) (e : Granule) : (granPut s g e).cntCap = s.cntCap := rfl
@[simp] theorem granPut_pitches (s : State) (g : Nat) (e : Granule) : (granPut s g e).pitches = s.pitches := rfl
@[simp] theorem granPut_templates (s : State) (g : Nat) (e : Granule) : (granPut s g e).templates = s.templates := rfl
@[simp] theorem granPut_sweeping (s : State) (g : Nat) (e : Granule) : (granPut s g e).sweeping = s.sweeping := rfl
@[simp] theorem granPut_tpt (s : State) (g : Nat) (e : Granule) : (granPut s g e).tpt = s.tpt := rfl
@[simp] theorem granPut_act (s : State) (g : Nat) (e : Granule) : (granPut s g e).act = s.act := rfl
@[simp] theorem granPut_tmg (s : State) (g : Nat) (e : Granule) : (granPut s g e).tmg = s.tmg := rfl
@[simp] theorem granPut_prt (s : State) (g : Nat) (e : Granule) : (granPut s g e).prt = s.prt := rfl
@[simp] theorem granPut_klr (s : State) (g : Nat) (e : Granule) : (granPut s g e).klr = s.klr := rfl
@[simp] theorem granPut_ptp (s : State) (g : Nat) (e : Granule) : (granPut s g e).ptp = s.ptp := rfl
@[simp] theorem granPut_fum (s : State) (g : Nat) (e : Granule) : (granPut s g e).fum = s.fum := rfl
@[simp] theorem granPut_swn (s : State) (g : Nat) (e : Granule) : (granPut s g e).swn = s.swn := rfl
@[simp] theorem granPut_clx (s : State) (g : Nat) (e : Granule) : (granPut s g e).clx = s.clx := rfl
@[simp] theorem granPut_grd (s : State) (g : Nat) (e : Granule) : (granPut s g e).grd = s.grd := rfl
@[simp] theorem granPut_img (s : State) (g : Nat) (e : Granule) : (granPut s g e).img = s.img := rfl
@[simp] theorem granPut_mir (s : State) (g : Nat) (e : Granule) : (granPut s g e).mir = s.mir := rfl
@[simp] theorem granPut_flt (s : State) (g : Nat) (e : Granule) : (granPut s g e).flt = s.flt := rfl
@[simp] theorem granPut_svc (s : State) (g : Nat) (e : Granule) : (granPut s g e).svc = s.svc := rfl
@[simp] theorem granPut_cvus (s : State) (g : Nat) (e : Granule) : (granPut s g e).cvus = s.cvus := rfl
@[simp] theorem granPut_dbg (s : State) (g : Nat) (e : Granule) : (granPut s g e).dbg = s.dbg := rfl
@[simp] theorem granPut_fab (s : State) (g : Nat) (e : Granule) : (granPut s g e).fab = s.fab := rfl
@[simp] theorem granPut_boot (s : State) (g : Nat) (e : Granule) : (granPut s g e).boot = s.boot := rfl
@[simp] theorem granPut_brd (s : State) (g : Nat) (e : Granule) : (granPut s g e).brd = s.brd := rfl
@[simp] theorem granPut_crg (s : State) (g : Nat) (e : Granule) : (granPut s g e).crg = s.crg := rfl

/-! ## chMod -/
@[simp] theorem chMod_pending (s : State) (c : Nat) (f : Chan → Chan) : (chMod s c f).pending = s.pending := rfl
@[simp] theorem chMod_now (s : State) (c : Nat) (f : Chan → Chan) : (chMod s c f).now = s.now := rfl
@[simp] theorem chMod_cd10Sec (s : State) (c : Nat) (f : Chan → Chan) : (chMod s c f).cd10Sec = s.cd10Sec := rfl
@[simp] theorem chMod_cd10Ns (s : State) (c : Nat) (f : Chan → Chan) : (chMod s c f).cd10Ns = s.cd10Ns := rfl
@[simp] theorem chMod_cd10Frac (s : State) (c : Nat) (f : Chan → Chan) : (chMod s c f).cd10Frac = s.cd10Frac := rfl
@[simp] theorem chMod_ticks (s : State) (c : Nat) (f : Chan → Chan) : (chMod s c f).ticks = s.ticks := rfl
@[simp] theorem chMod_freeCtr (s : State) (c : Nat) (f : Chan → Chan) : (chMod s c f).freeCtr = s.freeCtr := rfl
@[simp] theorem chMod_wire (s : State) (c : Nat) (f : Chan → Chan) : (chMod s c f).wire = s.wire := rfl
@[simp] theorem chMod_units (s : State) (c : Nat) (f : Chan → Chan) : (chMod s c f).units = s.units := rfl
@[simp] theorem chMod_cnt (s : State) (c : Nat) (f : Chan → Chan) : (chMod s c f).cnt = s.cnt := rfl
@[simp] theorem chMod_cntPitch (s : State) (c : Nat) (f : Chan → Chan) : (chMod s c f).cntPitch = s.cntPitch := rfl
@[simp] theorem chMod_csr (s : State) (c : Nat) (f : Chan → Chan) : (chMod s c f).csr = s.csr := rfl
@[simp] theorem chMod_sel (s : State) (c : Nat) (f : Chan → Chan) : (chMod s c f).sel = s.sel := rfl
@[simp] theorem chMod_cntCap (s : State) (c : Nat) (f : Chan → Chan) : (chMod s c f).cntCap = s.cntCap := rfl
@[simp] theorem chMod_pitches (s : State) (c : Nat) (f : Chan → Chan) : (chMod s c f).pitches = s.pitches := rfl
@[simp] theorem chMod_templates (s : State) (c : Nat) (f : Chan → Chan) : (chMod s c f).templates = s.templates := rfl
@[simp] theorem chMod_sweeping (s : State) (c : Nat) (f : Chan → Chan) : (chMod s c f).sweeping = s.sweeping := rfl
@[simp] theorem chMod_tpt (s : State) (c : Nat) (f : Chan → Chan) : (chMod s c f).tpt = s.tpt := rfl
@[simp] theorem chMod_act (s : State) (c : Nat) (f : Chan → Chan) : (chMod s c f).act = s.act := rfl
@[simp] theorem chMod_tmg (s : State) (c : Nat) (f : Chan → Chan) : (chMod s c f).tmg = s.tmg := rfl
@[simp] theorem chMod_prt (s : State) (c : Nat) (f : Chan → Chan) : (chMod s c f).prt = s.prt := rfl
@[simp] theorem chMod_klr (s : State) (c : Nat) (f : Chan → Chan) : (chMod s c f).klr = s.klr := rfl
@[simp] theorem chMod_ptp (s : State) (c : Nat) (f : Chan → Chan) : (chMod s c f).ptp = s.ptp := rfl
@[simp] theorem chMod_fum (s : State) (c : Nat) (f : Chan → Chan) : (chMod s c f).fum = s.fum := rfl
@[simp] theorem chMod_swn (s : State) (c : Nat) (f : Chan → Chan) : (chMod s c f).swn = s.swn := rfl
@[simp] theorem chMod_clx (s : State) (c : Nat) (f : Chan → Chan) : (chMod s c f).clx = s.clx := rfl
@[simp] theorem chMod_grd (s : State) (c : Nat) (f : Chan → Chan) : (chMod s c f).grd = s.grd := rfl
@[simp] theorem chMod_img (s : State) (c : Nat) (f : Chan → Chan) : (chMod s c f).img = s.img := rfl
@[simp] theorem chMod_mir (s : State) (c : Nat) (f : Chan → Chan) : (chMod s c f).mir = s.mir := rfl
@[simp] theorem chMod_flt (s : State) (c : Nat) (f : Chan → Chan) : (chMod s c f).flt = s.flt := rfl
@[simp] theorem chMod_svc (s : State) (c : Nat) (f : Chan → Chan) : (chMod s c f).svc = s.svc := rfl
@[simp] theorem chMod_cvus (s : State) (c : Nat) (f : Chan → Chan) : (chMod s c f).cvus = s.cvus := rfl
@[simp] theorem chMod_dbg (s : State) (c : Nat) (f : Chan → Chan) : (chMod s c f).dbg = s.dbg := rfl
@[simp] theorem chMod_fab (s : State) (c : Nat) (f : Chan → Chan) : (chMod s c f).fab = s.fab := rfl
@[simp] theorem chMod_boot (s : State) (c : Nat) (f : Chan → Chan) : (chMod s c f).boot = s.boot := rfl
@[simp] theorem chMod_brd (s : State) (c : Nat) (f : Chan → Chan) : (chMod s c f).brd = s.brd := rfl
@[simp] theorem chMod_crg (s : State) (c : Nat) (f : Chan → Chan) : (chMod s c f).crg = s.crg := rfl

/-! ## slotPut -/
@[simp] theorem slotPut_pending (s : State) (k : Nat) (v : KeySlot) : (slotPut s k v).pending = s.pending := rfl
@[simp] theorem slotPut_now (s : State) (k : Nat) (v : KeySlot) : (slotPut s k v).now = s.now := rfl
@[simp] theorem slotPut_cd10Sec (s : State) (k : Nat) (v : KeySlot) : (slotPut s k v).cd10Sec = s.cd10Sec := rfl
@[simp] theorem slotPut_cd10Ns (s : State) (k : Nat) (v : KeySlot) : (slotPut s k v).cd10Ns = s.cd10Ns := rfl
@[simp] theorem slotPut_cd10Frac (s : State) (k : Nat) (v : KeySlot) : (slotPut s k v).cd10Frac = s.cd10Frac := rfl
@[simp] theorem slotPut_ticks (s : State) (k : Nat) (v : KeySlot) : (slotPut s k v).ticks = s.ticks := rfl
@[simp] theorem slotPut_freeCtr (s : State) (k : Nat) (v : KeySlot) : (slotPut s k v).freeCtr = s.freeCtr := rfl
@[simp] theorem slotPut_wire (s : State) (k : Nat) (v : KeySlot) : (slotPut s k v).wire = s.wire := rfl
@[simp] theorem slotPut_units (s : State) (k : Nat) (v : KeySlot) : (slotPut s k v).units = s.units := rfl
@[simp] theorem slotPut_cnt (s : State) (k : Nat) (v : KeySlot) : (slotPut s k v).cnt = s.cnt := rfl
@[simp] theorem slotPut_cntPitch (s : State) (k : Nat) (v : KeySlot) : (slotPut s k v).cntPitch = s.cntPitch := rfl
@[simp] theorem slotPut_csr (s : State) (k : Nat) (v : KeySlot) : (slotPut s k v).csr = s.csr := rfl
@[simp] theorem slotPut_sel (s : State) (k : Nat) (v : KeySlot) : (slotPut s k v).sel = s.sel := rfl
@[simp] theorem slotPut_cntCap (s : State) (k : Nat) (v : KeySlot) : (slotPut s k v).cntCap = s.cntCap := rfl
@[simp] theorem slotPut_pitches (s : State) (k : Nat) (v : KeySlot) : (slotPut s k v).pitches = s.pitches := rfl
@[simp] theorem slotPut_templates (s : State) (k : Nat) (v : KeySlot) : (slotPut s k v).templates = s.templates := rfl
@[simp] theorem slotPut_sweeping (s : State) (k : Nat) (v : KeySlot) : (slotPut s k v).sweeping = s.sweeping := rfl
@[simp] theorem slotPut_tpt (s : State) (k : Nat) (v : KeySlot) : (slotPut s k v).tpt = s.tpt := rfl
@[simp] theorem slotPut_act (s : State) (k : Nat) (v : KeySlot) : (slotPut s k v).act = s.act := rfl
@[simp] theorem slotPut_tmg (s : State) (k : Nat) (v : KeySlot) : (slotPut s k v).tmg = s.tmg := rfl
@[simp] theorem slotPut_prt (s : State) (k : Nat) (v : KeySlot) : (slotPut s k v).prt = s.prt := rfl
@[simp] theorem slotPut_klr (s : State) (k : Nat) (v : KeySlot) : (slotPut s k v).klr = s.klr := rfl
@[simp] theorem slotPut_ptp (s : State) (k : Nat) (v : KeySlot) : (slotPut s k v).ptp = s.ptp := rfl
@[simp] theorem slotPut_dmc (s : State) (k : Nat) (v : KeySlot) : (slotPut s k v).dmc = s.dmc := rfl
@[simp] theorem slotPut_swn (s : State) (k : Nat) (v : KeySlot) : (slotPut s k v).swn = s.swn := rfl
@[simp] theorem slotPut_clx (s : State) (k : Nat) (v : KeySlot) : (slotPut s k v).clx = s.clx := rfl
@[simp] theorem slotPut_grd (s : State) (k : Nat) (v : KeySlot) : (slotPut s k v).grd = s.grd := rfl
@[simp] theorem slotPut_img (s : State) (k : Nat) (v : KeySlot) : (slotPut s k v).img = s.img := rfl
@[simp] theorem slotPut_mir (s : State) (k : Nat) (v : KeySlot) : (slotPut s k v).mir = s.mir := rfl
@[simp] theorem slotPut_flt (s : State) (k : Nat) (v : KeySlot) : (slotPut s k v).flt = s.flt := rfl
@[simp] theorem slotPut_svc (s : State) (k : Nat) (v : KeySlot) : (slotPut s k v).svc = s.svc := rfl
@[simp] theorem slotPut_cvus (s : State) (k : Nat) (v : KeySlot) : (slotPut s k v).cvus = s.cvus := rfl
@[simp] theorem slotPut_dbg (s : State) (k : Nat) (v : KeySlot) : (slotPut s k v).dbg = s.dbg := rfl
@[simp] theorem slotPut_fab (s : State) (k : Nat) (v : KeySlot) : (slotPut s k v).fab = s.fab := rfl
@[simp] theorem slotPut_boot (s : State) (k : Nat) (v : KeySlot) : (slotPut s k v).boot = s.boot := rfl
@[simp] theorem slotPut_brd (s : State) (k : Nat) (v : KeySlot) : (slotPut s k v).brd = s.brd := rfl
@[simp] theorem slotPut_crg (s : State) (k : Nat) (v : KeySlot) : (slotPut s k v).crg = s.crg := rfl

/-! ## dirPut -/
@[simp] theorem dirPut_pending (s : State) (i : Nat) (e : SwEnt) : (dirPut s i e).pending = s.pending := rfl
@[simp] theorem dirPut_now (s : State) (i : Nat) (e : SwEnt) : (dirPut s i e).now = s.now := rfl
@[simp] theorem dirPut_cd10Sec (s : State) (i : Nat) (e : SwEnt) : (dirPut s i e).cd10Sec = s.cd10Sec := rfl
@[simp] theorem dirPut_cd10Ns (s : State) (i : Nat) (e : SwEnt) : (dirPut s i e).cd10Ns = s.cd10Ns := rfl
@[simp] theorem dirPut_cd10Frac (s : State) (i : Nat) (e : SwEnt) : (dirPut s i e).cd10Frac = s.cd10Frac := rfl
@[simp] theorem dirPut_ticks (s : State) (i : Nat) (e : SwEnt) : (dirPut s i e).ticks = s.ticks := rfl
@[simp] theorem dirPut_freeCtr (s : State) (i : Nat) (e : SwEnt) : (dirPut s i e).freeCtr = s.freeCtr := rfl
@[simp] theorem dirPut_wire (s : State) (i : Nat) (e : SwEnt) : (dirPut s i e).wire = s.wire := rfl
@[simp] theorem dirPut_units (s : State) (i : Nat) (e : SwEnt) : (dirPut s i e).units = s.units := rfl
@[simp] theorem dirPut_cnt (s : State) (i : Nat) (e : SwEnt) : (dirPut s i e).cnt = s.cnt := rfl
@[simp] theorem dirPut_cntPitch (s : State) (i : Nat) (e : SwEnt) : (dirPut s i e).cntPitch = s.cntPitch := rfl
@[simp] theorem dirPut_csr (s : State) (i : Nat) (e : SwEnt) : (dirPut s i e).csr = s.csr := rfl
@[simp] theorem dirPut_sel (s : State) (i : Nat) (e : SwEnt) : (dirPut s i e).sel = s.sel := rfl
@[simp] theorem dirPut_cntCap (s : State) (i : Nat) (e : SwEnt) : (dirPut s i e).cntCap = s.cntCap := rfl
@[simp] theorem dirPut_pitches (s : State) (i : Nat) (e : SwEnt) : (dirPut s i e).pitches = s.pitches := rfl
@[simp] theorem dirPut_templates (s : State) (i : Nat) (e : SwEnt) : (dirPut s i e).templates = s.templates := rfl
@[simp] theorem dirPut_sweeping (s : State) (i : Nat) (e : SwEnt) : (dirPut s i e).sweeping = s.sweeping := rfl
@[simp] theorem dirPut_tpt (s : State) (i : Nat) (e : SwEnt) : (dirPut s i e).tpt = s.tpt := rfl
@[simp] theorem dirPut_act (s : State) (i : Nat) (e : SwEnt) : (dirPut s i e).act = s.act := rfl
@[simp] theorem dirPut_tmg (s : State) (i : Nat) (e : SwEnt) : (dirPut s i e).tmg = s.tmg := rfl
@[simp] theorem dirPut_prt (s : State) (i : Nat) (e : SwEnt) : (dirPut s i e).prt = s.prt := rfl
@[simp] theorem dirPut_klr (s : State) (i : Nat) (e : SwEnt) : (dirPut s i e).klr = s.klr := rfl
@[simp] theorem dirPut_ptp (s : State) (i : Nat) (e : SwEnt) : (dirPut s i e).ptp = s.ptp := rfl
@[simp] theorem dirPut_dmc (s : State) (i : Nat) (e : SwEnt) : (dirPut s i e).dmc = s.dmc := rfl
@[simp] theorem dirPut_fum (s : State) (i : Nat) (e : SwEnt) : (dirPut s i e).fum = s.fum := rfl
@[simp] theorem dirPut_clx (s : State) (i : Nat) (e : SwEnt) : (dirPut s i e).clx = s.clx := rfl
@[simp] theorem dirPut_grd (s : State) (i : Nat) (e : SwEnt) : (dirPut s i e).grd = s.grd := rfl
@[simp] theorem dirPut_img (s : State) (i : Nat) (e : SwEnt) : (dirPut s i e).img = s.img := rfl
@[simp] theorem dirPut_mir (s : State) (i : Nat) (e : SwEnt) : (dirPut s i e).mir = s.mir := rfl
@[simp] theorem dirPut_flt (s : State) (i : Nat) (e : SwEnt) : (dirPut s i e).flt = s.flt := rfl
@[simp] theorem dirPut_svc (s : State) (i : Nat) (e : SwEnt) : (dirPut s i e).svc = s.svc := rfl
@[simp] theorem dirPut_cvus (s : State) (i : Nat) (e : SwEnt) : (dirPut s i e).cvus = s.cvus := rfl
@[simp] theorem dirPut_dbg (s : State) (i : Nat) (e : SwEnt) : (dirPut s i e).dbg = s.dbg := rfl
@[simp] theorem dirPut_fab (s : State) (i : Nat) (e : SwEnt) : (dirPut s i e).fab = s.fab := rfl
@[simp] theorem dirPut_boot (s : State) (i : Nat) (e : SwEnt) : (dirPut s i e).boot = s.boot := rfl
@[simp] theorem dirPut_brd (s : State) (i : Nat) (e : SwEnt) : (dirPut s i e).brd = s.brd := rfl
@[simp] theorem dirPut_crg (s : State) (i : Nat) (e : SwEnt) : (dirPut s i e).crg = s.crg := rfl

/-! ## recPut -/
@[simp] theorem recPut_pending (s : State) (i : Nat) (r : CollRec) : (recPut s i r).pending = s.pending := rfl
@[simp] theorem recPut_now (s : State) (i : Nat) (r : CollRec) : (recPut s i r).now = s.now := rfl
@[simp] theorem recPut_cd10Sec (s : State) (i : Nat) (r : CollRec) : (recPut s i r).cd10Sec = s.cd10Sec := rfl
@[simp] theorem recPut_cd10Ns (s : State) (i : Nat) (r : CollRec) : (recPut s i r).cd10Ns = s.cd10Ns := rfl
@[simp] theorem recPut_cd10Frac (s : State) (i : Nat) (r : CollRec) : (recPut s i r).cd10Frac = s.cd10Frac := rfl
@[simp] theorem recPut_ticks (s : State) (i : Nat) (r : CollRec) : (recPut s i r).ticks = s.ticks := rfl
@[simp] theorem recPut_freeCtr (s : State) (i : Nat) (r : CollRec) : (recPut s i r).freeCtr = s.freeCtr := rfl
@[simp] theorem recPut_wire (s : State) (i : Nat) (r : CollRec) : (recPut s i r).wire = s.wire := rfl
@[simp] theorem recPut_units (s : State) (i : Nat) (r : CollRec) : (recPut s i r).units = s.units := rfl
@[simp] theorem recPut_cnt (s : State) (i : Nat) (r : CollRec) : (recPut s i r).cnt = s.cnt := rfl
@[simp] theorem recPut_cntPitch (s : State) (i : Nat) (r : CollRec) : (recPut s i r).cntPitch = s.cntPitch := rfl
@[simp] theorem recPut_csr (s : State) (i : Nat) (r : CollRec) : (recPut s i r).csr = s.csr := rfl
@[simp] theorem recPut_sel (s : State) (i : Nat) (r : CollRec) : (recPut s i r).sel = s.sel := rfl
@[simp] theorem recPut_cntCap (s : State) (i : Nat) (r : CollRec) : (recPut s i r).cntCap = s.cntCap := rfl
@[simp] theorem recPut_pitches (s : State) (i : Nat) (r : CollRec) : (recPut s i r).pitches = s.pitches := rfl
@[simp] theorem recPut_templates (s : State) (i : Nat) (r : CollRec) : (recPut s i r).templates = s.templates := rfl
@[simp] theorem recPut_sweeping (s : State) (i : Nat) (r : CollRec) : (recPut s i r).sweeping = s.sweeping := rfl
@[simp] theorem recPut_tpt (s : State) (i : Nat) (r : CollRec) : (recPut s i r).tpt = s.tpt := rfl
@[simp] theorem recPut_act (s : State) (i : Nat) (r : CollRec) : (recPut s i r).act = s.act := rfl
@[simp] theorem recPut_tmg (s : State) (i : Nat) (r : CollRec) : (recPut s i r).tmg = s.tmg := rfl
@[simp] theorem recPut_prt (s : State) (i : Nat) (r : CollRec) : (recPut s i r).prt = s.prt := rfl
@[simp] theorem recPut_klr (s : State) (i : Nat) (r : CollRec) : (recPut s i r).klr = s.klr := rfl
@[simp] theorem recPut_ptp (s : State) (i : Nat) (r : CollRec) : (recPut s i r).ptp = s.ptp := rfl
@[simp] theorem recPut_dmc (s : State) (i : Nat) (r : CollRec) : (recPut s i r).dmc = s.dmc := rfl
@[simp] theorem recPut_fum (s : State) (i : Nat) (r : CollRec) : (recPut s i r).fum = s.fum := rfl
@[simp] theorem recPut_swn (s : State) (i : Nat) (r : CollRec) : (recPut s i r).swn = s.swn := rfl
@[simp] theorem recPut_grd (s : State) (i : Nat) (r : CollRec) : (recPut s i r).grd = s.grd := rfl
@[simp] theorem recPut_img (s : State) (i : Nat) (r : CollRec) : (recPut s i r).img = s.img := rfl
@[simp] theorem recPut_mir (s : State) (i : Nat) (r : CollRec) : (recPut s i r).mir = s.mir := rfl
@[simp] theorem recPut_flt (s : State) (i : Nat) (r : CollRec) : (recPut s i r).flt = s.flt := rfl
@[simp] theorem recPut_svc (s : State) (i : Nat) (r : CollRec) : (recPut s i r).svc = s.svc := rfl
@[simp] theorem recPut_cvus (s : State) (i : Nat) (r : CollRec) : (recPut s i r).cvus = s.cvus := rfl
@[simp] theorem recPut_dbg (s : State) (i : Nat) (r : CollRec) : (recPut s i r).dbg = s.dbg := rfl
@[simp] theorem recPut_fab (s : State) (i : Nat) (r : CollRec) : (recPut s i r).fab = s.fab := rfl
@[simp] theorem recPut_boot (s : State) (i : Nat) (r : CollRec) : (recPut s i r).boot = s.boot := rfl
@[simp] theorem recPut_brd (s : State) (i : Nat) (r : CollRec) : (recPut s i r).brd = s.brd := rfl
@[simp] theorem recPut_crg (s : State) (i : Nat) (r : CollRec) : (recPut s i r).crg = s.crg := rfl

/-! ## sessPut -/
@[simp] theorem sessPut_pending (s : State) (i : Nat) (k : KSess) : (sessPut s i k).pending = s.pending := rfl
@[simp] theorem sessPut_now (s : State) (i : Nat) (k : KSess) : (sessPut s i k).now = s.now := rfl
@[simp] theorem sessPut_cd10Sec (s : State) (i : Nat) (k : KSess) : (sessPut s i k).cd10Sec = s.cd10Sec := rfl
@[simp] theorem sessPut_cd10Ns (s : State) (i : Nat) (k : KSess) : (sessPut s i k).cd10Ns = s.cd10Ns := rfl
@[simp] theorem sessPut_cd10Frac (s : State) (i : Nat) (k : KSess) : (sessPut s i k).cd10Frac = s.cd10Frac := rfl
@[simp] theorem sessPut_ticks (s : State) (i : Nat) (k : KSess) : (sessPut s i k).ticks = s.ticks := rfl
@[simp] theorem sessPut_freeCtr (s : State) (i : Nat) (k : KSess) : (sessPut s i k).freeCtr = s.freeCtr := rfl
@[simp] theorem sessPut_wire (s : State) (i : Nat) (k : KSess) : (sessPut s i k).wire = s.wire := rfl
@[simp] theorem sessPut_units (s : State) (i : Nat) (k : KSess) : (sessPut s i k).units = s.units := rfl
@[simp] theorem sessPut_cnt (s : State) (i : Nat) (k : KSess) : (sessPut s i k).cnt = s.cnt := rfl
@[simp] theorem sessPut_cntPitch (s : State) (i : Nat) (k : KSess) : (sessPut s i k).cntPitch = s.cntPitch := rfl
@[simp] theorem sessPut_csr (s : State) (i : Nat) (k : KSess) : (sessPut s i k).csr = s.csr := rfl
@[simp] theorem sessPut_sel (s : State) (i : Nat) (k : KSess) : (sessPut s i k).sel = s.sel := rfl
@[simp] theorem sessPut_cntCap (s : State) (i : Nat) (k : KSess) : (sessPut s i k).cntCap = s.cntCap := rfl
@[simp] theorem sessPut_pitches (s : State) (i : Nat) (k : KSess) : (sessPut s i k).pitches = s.pitches := rfl
@[simp] theorem sessPut_templates (s : State) (i : Nat) (k : KSess) : (sessPut s i k).templates = s.templates := rfl
@[simp] theorem sessPut_sweeping (s : State) (i : Nat) (k : KSess) : (sessPut s i k).sweeping = s.sweeping := rfl
@[simp] theorem sessPut_tpt (s : State) (i : Nat) (k : KSess) : (sessPut s i k).tpt = s.tpt := rfl
@[simp] theorem sessPut_act (s : State) (i : Nat) (k : KSess) : (sessPut s i k).act = s.act := rfl
@[simp] theorem sessPut_tmg (s : State) (i : Nat) (k : KSess) : (sessPut s i k).tmg = s.tmg := rfl
@[simp] theorem sessPut_prt (s : State) (i : Nat) (k : KSess) : (sessPut s i k).prt = s.prt := rfl
@[simp] theorem sessPut_klr (s : State) (i : Nat) (k : KSess) : (sessPut s i k).klr = s.klr := rfl
@[simp] theorem sessPut_ptp (s : State) (i : Nat) (k : KSess) : (sessPut s i k).ptp = s.ptp := rfl
@[simp] theorem sessPut_dmc (s : State) (i : Nat) (k : KSess) : (sessPut s i k).dmc = s.dmc := rfl
@[simp] theorem sessPut_fum (s : State) (i : Nat) (k : KSess) : (sessPut s i k).fum = s.fum := rfl
@[simp] theorem sessPut_swn (s : State) (i : Nat) (k : KSess) : (sessPut s i k).swn = s.swn := rfl
@[simp] theorem sessPut_clx (s : State) (i : Nat) (k : KSess) : (sessPut s i k).clx = s.clx := rfl
@[simp] theorem sessPut_img (s : State) (i : Nat) (k : KSess) : (sessPut s i k).img = s.img := rfl
@[simp] theorem sessPut_mir (s : State) (i : Nat) (k : KSess) : (sessPut s i k).mir = s.mir := rfl
@[simp] theorem sessPut_flt (s : State) (i : Nat) (k : KSess) : (sessPut s i k).flt = s.flt := rfl
@[simp] theorem sessPut_svc (s : State) (i : Nat) (k : KSess) : (sessPut s i k).svc = s.svc := rfl
@[simp] theorem sessPut_cvus (s : State) (i : Nat) (k : KSess) : (sessPut s i k).cvus = s.cvus := rfl
@[simp] theorem sessPut_dbg (s : State) (i : Nat) (k : KSess) : (sessPut s i k).dbg = s.dbg := rfl
@[simp] theorem sessPut_fab (s : State) (i : Nat) (k : KSess) : (sessPut s i k).fab = s.fab := rfl
@[simp] theorem sessPut_boot (s : State) (i : Nat) (k : KSess) : (sessPut s i k).boot = s.boot := rfl
@[simp] theorem sessPut_brd (s : State) (i : Nat) (k : KSess) : (sessPut s i k).brd = s.brd := rfl
@[simp] theorem sessPut_crg (s : State) (i : Nat) (k : KSess) : (sessPut s i k).crg = s.crg := rfl

/-! ## corePut -/
@[simp] theorem corePut_pending (s : State) (c : Nat) (k : Core) : (corePut s c k).pending = s.pending := rfl
@[simp] theorem corePut_now (s : State) (c : Nat) (k : Core) : (corePut s c k).now = s.now := rfl
@[simp] theorem corePut_cd10Sec (s : State) (c : Nat) (k : Core) : (corePut s c k).cd10Sec = s.cd10Sec := rfl
@[simp] theorem corePut_cd10Ns (s : State) (c : Nat) (k : Core) : (corePut s c k).cd10Ns = s.cd10Ns := rfl
@[simp] theorem corePut_cd10Frac (s : State) (c : Nat) (k : Core) : (corePut s c k).cd10Frac = s.cd10Frac := rfl
@[simp] theorem corePut_ticks (s : State) (c : Nat) (k : Core) : (corePut s c k).ticks = s.ticks := rfl
@[simp] theorem corePut_freeCtr (s : State) (c : Nat) (k : Core) : (corePut s c k).freeCtr = s.freeCtr := rfl
@[simp] theorem corePut_wire (s : State) (c : Nat) (k : Core) : (corePut s c k).wire = s.wire := rfl
@[simp] theorem corePut_units (s : State) (c : Nat) (k : Core) : (corePut s c k).units = s.units := rfl
@[simp] theorem corePut_cnt (s : State) (c : Nat) (k : Core) : (corePut s c k).cnt = s.cnt := rfl
@[simp] theorem corePut_cntPitch (s : State) (c : Nat) (k : Core) : (corePut s c k).cntPitch = s.cntPitch := rfl
@[simp] theorem corePut_csr (s : State) (c : Nat) (k : Core) : (corePut s c k).csr = s.csr := rfl
@[simp] theorem corePut_sel (s : State) (c : Nat) (k : Core) : (corePut s c k).sel = s.sel := rfl
@[simp] theorem corePut_cntCap (s : State) (c : Nat) (k : Core) : (corePut s c k).cntCap = s.cntCap := rfl
@[simp] theorem corePut_pitches (s : State) (c : Nat) (k : Core) : (corePut s c k).pitches = s.pitches := rfl
@[simp] theorem corePut_templates (s : State) (c : Nat) (k : Core) : (corePut s c k).templates = s.templates := rfl
@[simp] theorem corePut_sweeping (s : State) (c : Nat) (k : Core) : (corePut s c k).sweeping = s.sweeping := rfl
@[simp] theorem corePut_tpt (s : State) (c : Nat) (k : Core) : (corePut s c k).tpt = s.tpt := rfl
@[simp] theorem corePut_act (s : State) (c : Nat) (k : Core) : (corePut s c k).act = s.act := rfl
@[simp] theorem corePut_tmg (s : State) (c : Nat) (k : Core) : (corePut s c k).tmg = s.tmg := rfl
@[simp] theorem corePut_prt (s : State) (c : Nat) (k : Core) : (corePut s c k).prt = s.prt := rfl
@[simp] theorem corePut_klr (s : State) (c : Nat) (k : Core) : (corePut s c k).klr = s.klr := rfl
@[simp] theorem corePut_ptp (s : State) (c : Nat) (k : Core) : (corePut s c k).ptp = s.ptp := rfl
@[simp] theorem corePut_dmc (s : State) (c : Nat) (k : Core) : (corePut s c k).dmc = s.dmc := rfl
@[simp] theorem corePut_fum (s : State) (c : Nat) (k : Core) : (corePut s c k).fum = s.fum := rfl
@[simp] theorem corePut_swn (s : State) (c : Nat) (k : Core) : (corePut s c k).swn = s.swn := rfl
@[simp] theorem corePut_clx (s : State) (c : Nat) (k : Core) : (corePut s c k).clx = s.clx := rfl
@[simp] theorem corePut_img (s : State) (c : Nat) (k : Core) : (corePut s c k).img = s.img := rfl
@[simp] theorem corePut_mir (s : State) (c : Nat) (k : Core) : (corePut s c k).mir = s.mir := rfl
@[simp] theorem corePut_flt (s : State) (c : Nat) (k : Core) : (corePut s c k).flt = s.flt := rfl
@[simp] theorem corePut_svc (s : State) (c : Nat) (k : Core) : (corePut s c k).svc = s.svc := rfl
@[simp] theorem corePut_cvus (s : State) (c : Nat) (k : Core) : (corePut s c k).cvus = s.cvus := rfl
@[simp] theorem corePut_dbg (s : State) (c : Nat) (k : Core) : (corePut s c k).dbg = s.dbg := rfl
@[simp] theorem corePut_fab (s : State) (c : Nat) (k : Core) : (corePut s c k).fab = s.fab := rfl
@[simp] theorem corePut_boot (s : State) (c : Nat) (k : Core) : (corePut s c k).boot = s.boot := rfl
@[simp] theorem corePut_brd (s : State) (c : Nat) (k : Core) : (corePut s c k).brd = s.brd := rfl
@[simp] theorem corePut_crg (s : State) (c : Nat) (k : Core) : (corePut s c k).crg = s.crg := rfl

/-! ## quadPut -/
@[simp] theorem quadPut_pending (s : State) (q : Nat) (k : Quad) : (quadPut s q k).pending = s.pending := rfl
@[simp] theorem quadPut_now (s : State) (q : Nat) (k : Quad) : (quadPut s q k).now = s.now := rfl
@[simp] theorem quadPut_cd10Sec (s : State) (q : Nat) (k : Quad) : (quadPut s q k).cd10Sec = s.cd10Sec := rfl
@[simp] theorem quadPut_cd10Ns (s : State) (q : Nat) (k : Quad) : (quadPut s q k).cd10Ns = s.cd10Ns := rfl
@[simp] theorem quadPut_cd10Frac (s : State) (q : Nat) (k : Quad) : (quadPut s q k).cd10Frac = s.cd10Frac := rfl
@[simp] theorem quadPut_ticks (s : State) (q : Nat) (k : Quad) : (quadPut s q k).ticks = s.ticks := rfl
@[simp] theorem quadPut_freeCtr (s : State) (q : Nat) (k : Quad) : (quadPut s q k).freeCtr = s.freeCtr := rfl
@[simp] theorem quadPut_wire (s : State) (q : Nat) (k : Quad) : (quadPut s q k).wire = s.wire := rfl
@[simp] theorem quadPut_units (s : State) (q : Nat) (k : Quad) : (quadPut s q k).units = s.units := rfl
@[simp] theorem quadPut_cnt (s : State) (q : Nat) (k : Quad) : (quadPut s q k).cnt = s.cnt := rfl
@[simp] theorem quadPut_cntPitch (s : State) (q : Nat) (k : Quad) : (quadPut s q k).cntPitch = s.cntPitch := rfl
@[simp] theorem quadPut_csr (s : State) (q : Nat) (k : Quad) : (quadPut s q k).csr = s.csr := rfl
@[simp] theorem quadPut_sel (s : State) (q : Nat) (k : Quad) : (quadPut s q k).sel = s.sel := rfl
@[simp] theorem quadPut_cntCap (s : State) (q : Nat) (k : Quad) : (quadPut s q k).cntCap = s.cntCap := rfl
@[simp] theorem quadPut_pitches (s : State) (q : Nat) (k : Quad) : (quadPut s q k).pitches = s.pitches := rfl
@[simp] theorem quadPut_templates (s : State) (q : Nat) (k : Quad) : (quadPut s q k).templates = s.templates := rfl
@[simp] theorem quadPut_sweeping (s : State) (q : Nat) (k : Quad) : (quadPut s q k).sweeping = s.sweeping := rfl
@[simp] theorem quadPut_tpt (s : State) (q : Nat) (k : Quad) : (quadPut s q k).tpt = s.tpt := rfl
@[simp] theorem quadPut_act (s : State) (q : Nat) (k : Quad) : (quadPut s q k).act = s.act := rfl
@[simp] theorem quadPut_tmg (s : State) (q : Nat) (k : Quad) : (quadPut s q k).tmg = s.tmg := rfl
@[simp] theorem quadPut_prt (s : State) (q : Nat) (k : Quad) : (quadPut s q k).prt = s.prt := rfl
@[simp] theorem quadPut_klr (s : State) (q : Nat) (k : Quad) : (quadPut s q k).klr = s.klr := rfl
@[simp] theorem quadPut_ptp (s : State) (q : Nat) (k : Quad) : (quadPut s q k).ptp = s.ptp := rfl
@[simp] theorem quadPut_dmc (s : State) (q : Nat) (k : Quad) : (quadPut s q k).dmc = s.dmc := rfl
@[simp] theorem quadPut_fum (s : State) (q : Nat) (k : Quad) : (quadPut s q k).fum = s.fum := rfl
@[simp] theorem quadPut_swn (s : State) (q : Nat) (k : Quad) : (quadPut s q k).swn = s.swn := rfl
@[simp] theorem quadPut_clx (s : State) (q : Nat) (k : Quad) : (quadPut s q k).clx = s.clx := rfl
@[simp] theorem quadPut_img (s : State) (q : Nat) (k : Quad) : (quadPut s q k).img = s.img := rfl
@[simp] theorem quadPut_mir (s : State) (q : Nat) (k : Quad) : (quadPut s q k).mir = s.mir := rfl
@[simp] theorem quadPut_flt (s : State) (q : Nat) (k : Quad) : (quadPut s q k).flt = s.flt := rfl
@[simp] theorem quadPut_svc (s : State) (q : Nat) (k : Quad) : (quadPut s q k).svc = s.svc := rfl
@[simp] theorem quadPut_cvus (s : State) (q : Nat) (k : Quad) : (quadPut s q k).cvus = s.cvus := rfl
@[simp] theorem quadPut_dbg (s : State) (q : Nat) (k : Quad) : (quadPut s q k).dbg = s.dbg := rfl
@[simp] theorem quadPut_fab (s : State) (q : Nat) (k : Quad) : (quadPut s q k).fab = s.fab := rfl
@[simp] theorem quadPut_boot (s : State) (q : Nat) (k : Quad) : (quadPut s q k).boot = s.boot := rfl
@[simp] theorem quadPut_brd (s : State) (q : Nat) (k : Quad) : (quadPut s q k).brd = s.brd := rfl
@[simp] theorem quadPut_crg (s : State) (q : Nat) (k : Quad) : (quadPut s q k).crg = s.crg := rfl

end Sys2Proof.Machine
end

