-- ==== Sys2Proof/Tests/Slice0.lean ====
section
/-! SUPPORT. Decodings of slot words written out from their encodings, the checks of WellFormed, the spec's worked examples, and for every
statement with hypotheses a state and operands that meet them, clause by clause. -/
namespace Sys2Proof.Tests
open Sys2Proof Sys2Proof.Machine

set_option Elab.async false

/-! ## Slot words (R313, R320 to R340), written out field by field from the encodings; the last ones are the spec's own examples -/

theorem test_dec_add : decS 0 (0x01#6 ++ 3#5 ++ 4#5 ++ 5#5 ++ 0#11) = some (.add 0 3 4 5) := by decide
theorem test_dec_mulhu : decS 0 (0x02#6 ++ 3#5 ++ 4#5 ++ 5#5 ++ 2#11) = some (.mulhu 0 3 4 5) := by decide
theorem test_dec_lui : decX 0 (0x08#6 ++ 3#5 ++ 0x1FFFFF#21) = some (.lui 0 3 0x1FFFFF) := by decide
theorem test_dec_bnzd : decS 0 (0x13#6 ++ 7#5 ++ 0#5 ++ 0xFFFE#16) = some (.bnzd 0 7 0xFFFE) := by decide
theorem test_dec_br_reserved : decS 0 (0x10#6 ++ 1#5 ++ 0#5 ++ 0#16) = none := by decide
theorem test_dec_vcmp : decV 0 (0x03#6 ++ 0#2 ++ 5#3 ++ 4#5 ++ 6#5 ++ 2#3 ++ 1#3 ++ 2#5) = some (.vcmpLt 0 5 4 6 2 1) := by decide
theorem test_dec_vst : decV 0 (0x11#6 ++ 9#5 ++ 8#5 ++ 3#3 ++ 0x1FFF#13) = some (.vst 0 9 8 3 0x1FFF) := by decide
theorem test_dec_mxmul : decX 0 (0x28#6 ++ 2#3 ++ 3#3 ++ 1#1 ++ 4#5 ++ 5#5 ++ 6#5 ++ 0#4) = some (.mxMul 0 2 3 true 4 5 6) := by decide
theorem test_dec_accrd : decX 0 (0x29#6 ++ 9#5 ++ 3#3 ++ 7#5 ++ 1#1 ++ 0#12) = some (.accRd 0 9 3 7 true) := by decide
theorem test_dec_gatec : decX 0 (0x39#6 ++ 5#5 ++ 6#5 ++ 0#16) = some (.gateC 0 5 6) := by decide
theorem test_dec_stgin : decX 0 (0x30#6 ++ 28#5 ++ 0#21) = some (.stgIn 0 28) := by decide
theorem test_dec_vld : decV 0 0x40100000 = some (.vld 0 0 16 0 .good) := by decide
theorem test_dec_addi : decS 0 0x12100080 = some (.addi 0 16 16 128) := by decide
theorem test_dec_vmul : decV 0 0x04A2A002 = some (.vmul 0 5 2 20 0 0) := by decide
theorem test_dec_vcvt : decV 0 0x30E60194 = some (.vcvtSr 0 7 6 1 true 1) := by decide
theorem test_dec_send : decX 0 0x81080280 = some (.send 0 8 1 5) := by decide
/-- The bundle of cycle 0 of the spec's listing, from its bytes. -/
theorem test_dec_bundle : decBundle 0 (BitVec.ofNat 128 (leNat [0, 0, 0, 0, 0, 0, 0x10, 0x40, 0, 0, 0x52, 0x40, 0, 0, 0, 0])) =
    some [.nop 0, .vld 0 0 16 0 .good, .vld 0 2 18 0 .good, .nop 0] := by decide
/-- Past the code a bundle halts its core. -/
theorem test_dec_halt : decBundle 0 haltBundle = some [.halt 0, .nop 0, .nop 0, .nop 0] := by decide

/-! ## WellFormed refuses an ill-formed term for each of its checks (R314, R323, R326, R329, R339) -/

theorem test_wf_vadd : wellFormed (.vadd 0 1 2 3 0 3) = false := by decide
theorem test_wf_vsub : wellFormed (.vsub 0 1 2 3 0 4) = false := by decide
theorem test_wf_vmul : wellFormed (.vmul 0 1 2 3 0 5) = false := by decide
theorem test_wf_vfma : wellFormed (.vfma 0 1 2 3 0 3) = false := by decide
theorem test_wf_vfms : wellFormed (.vfms 0 1 2 3 0 3) = false := by decide
theorem test_wf_vmin : wellFormed (.vmin 0 1 2 3 0 3) = false := by decide
theorem test_wf_vmax : wellFormed (.vmax 0 1 2 3 0 3) = false := by decide
theorem test_wf_vabs : wellFormed (.vabs 0 1 2 0 3) = false := by decide
theorem test_wf_vneg : wellFormed (.vneg 0 1 2 0 3) = false := by decide
theorem test_wf_vrsum : wellFormed (.vrsum 0 1 2 0 3) = false := by decide
theorem test_wf_viadd : wellFormed (.viadd 0 1 2 3 0 2) = false := by decide
theorem test_wf_visub : wellFormed (.visub 0 1 2 3 0 6) = false := by decide
theorem test_wf_vand : wellFormed (.vand 0 1 2 3 0 0) = false := by decide
theorem test_wf_vor : wellFormed (.vor 0 1 2 3 0 1) = false := by decide
theorem test_wf_vxor : wellFormed (.vxor 0 1 2 3 0 2) = false := by decide
theorem test_wf_vshl : wellFormed (.vshl 0 1 2 3 0 2) = false := by decide
theorem test_wf_vshr : wellFormed (.vshr 0 1 2 3 0 2) = false := by decide
theorem test_wf_vsra : wellFormed (.vsra 0 1 2 3 0 2) = false := by decide
theorem test_wf_vimin : wellFormed (.vimin 0 1 2 3 0 7) = false := by decide
theorem test_wf_vimax : wellFormed (.vimax 0 1 2 3 0 7) = false := by decide
theorem test_wf_vcmp : ((List.map wellFormed [.vcmpEq 0 1 2 3 0 6, .vcmpNe 0 1 2 3 0 6, .vcmpLt 0 1 2 3 0 6, .vcmpLe 0 1 2 3 0 7]).all (! ·)) = true := by decide
theorem test_wf_vsel : wellFormed (.vsel 0 1 2 3 0 6) = false := by decide
theorem test_wf_vbcast : wellFormed (.vbcast 0 1 2 0 6) = false := by decide
theorem test_wf_vext : wellFormed (.vext 0 1 2 3 6) = false := by decide
/-- VCVT: an undefined type, FP32 to FP32 with PART, to E2M1, a reserved RM, a ratio of 8, SAT without narrowing, RM in widening. -/
theorem test_wf_vcvt : (List.map wellFormed [.vcvt 0 1 2 9 0 0 false 0, .vcvt 0 1 2 0 9 0 false 0, .vcvt 0 1 2 0 0 0 false 1, .vcvt 0 1 2 0 5 0 false 0,
    .vcvt 0 1 2 0 1 5 false 0, .vcvt 0 1 2 5 0 0 false 0, .vcvt 0 1 2 1 0 0 true 0, .vcvt 0 1 2 1 0 1 false 0]).all (! ·) = true := by decide
theorem test_wf_vcvtSr : wellFormed (.vcvtSr 0 1 2 0 false 0) = false ∧ wellFormed (.vcvtSr 0 1 2 5 false 0) = false := by decide
theorem test_wf_vmx : wellFormed (.vmx 0 1 2 2 0 3) = false ∧ wellFormed (.vmx 0 1 2 3 4 3) = false := by decide
theorem test_wf_mxMul : wellFormed (.mxMul 0 0 6 false 0 0 0) = false := by decide
theorem test_wf_stg : wellFormed (.stgIn 0 29) = false ∧ wellFormed (.stgOut 0 31) = false := by decide

/-! ## Grid: witnesses for the hypotheses, and corners -/

/-- A session of core 0 that RUNS and holds its quad's matrix engine, with one route of its core and one of another. -/
def gridSession : KSess :=
  { number := 1, pitch := 1, state := .running, cycles := 7, cores := [0, 1], engines := [0]
    routes := [{ src := 0, hops := [1] }, { src := 1, hops := [] }]
    windows := [{ first := 0, last := 0, r := true, w := true }] }
def gridState (core : Core) : State := { State.reset with grd := { sess := [(0, gridSession)], cores := [(0, core)] } }

theorem test_witness_coreRuns : coreSess (gridState {}) (0#6).toNat = some 0 := by decide
theorem test_witness_types : (0#3).toNat ≤ 2 ∧ (2#3).toNat ≤ 2 ∧ (3#3).toNat ≤ 5 ∧ (5#3).toNat ≤ 5 ∧ 3 ≤ (3#3).toNat := by decide
/-- Branch targets at 0, at 16,383, and one beyond each end. -/
theorem test_witness_branches : ((coreGet (gridState {}) 0).pc : Int) + (0#16).toInt = 0 ∧
    ((coreGet (gridState { pc := 16383 }) 0).pc : Int) + (0#16).toInt = 16383 ∧
    ((coreGet (gridState {}) 0).pc : Int) + (0xFFFF#16).toInt < 0 ∧ 16383 < ((coreGet (gridState { pc := 16383 }) 0).pc : Int) + (1#16).toInt := by decide
/-- The last scalar and the last row of HOLD, and the first beyond; no range of it is pending. -/
theorem test_witness_hold : (sReg (gridState { s := [(1, 0x17FFF8)] }) 0 1 + BitVec.ofInt 64 (0#16).toInt).toNat / 8 * 8 < 0x180000 ∧
    0x180000 ≤ (sReg (gridState { s := [(1, 0x17FFF8)] }) 0 1 + BitVec.ofInt 64 (8#16).toInt).toNat / 8 * 8 ∧
    (sReg (gridState { s := [(1, 0x17FF80)] }) 0 1 + BitVec.ofInt 64 (128 * (0#13).toInt)).toNat / 128 * 128 < 0x180000 ∧
    0x180000 ≤ (sReg (gridState { s := [(1, 0x17FF80)] }) 0 1 + BitVec.ofInt 64 (128 * (1#13).toInt)).toNat / 128 * 128 ∧
    (sessGet (gridState { s := [(1, 0x17FFF8)] }) 0).pend.all (fun p => p.quad ≠ quadOf 0 ∨ p.target ≠ coreIn 0) = true := by decide
/-- Conversions that narrow, keep and widen their elements. -/
theorem test_witness_vcvt : wellFormed (.vcvt 0 1 2 0 3 0 true 3) = true ∧ wellFormed (.vcvt 0 1 2 0 6 0 false 0) = true ∧
    wellFormed (.vcvt 0 1 2 8 6 0 false 3) = true ∧ wellFormed (.vmx 0 1 2 5 7 3) = true ∧ 1 ≤ (1#4).toNat ∧ (4#4).toNat ≤ 4 := by decide
/-- A value that BF16 does not hold: 1 + 2^−8 lies between two of its values, below the unit of the type. -/
theorem test_witness_stochastic : decodeF fp32 0x3F808000 = .fin false 0x808000 (-23) ∧ (-23 : Int) < ulpExp (typeFmt 1) 0x808000 (-23) := by decide
/-- Routes of the core, of another core, and none; a filled receive slot and an empty one. -/
theorem test_witness_net : (sessGet (gridState {}) 0).routes[(0#12).toNat]? = some { src := 0, hops := [1] } ∧
    (sessGet (gridState {}) 0).cores.idxOf 0 = 0 ∧ (sessGet (gridState {}) 0).routes[(1#12).toNat]? = some { src := 1, hops := [] } ∧
    (sessGet (gridState {}) 0).routes[(2#12).toNat]? = none ∧ tfind (coreGet (gridState { rx := [(1, 5)] }) 0).rx (1#2).toNat = some 5 ∧
    tfind (coreGet (gridState { rx := [(1, 5)] }) 0).rx (0#2).toNat = none := by decide

/-- A stage descriptor of one row of 64 bytes from `base`, with `rest` in its last word. -/
def stageRegs (base rest : Nat) : Core := { s := [(4, BitVec.ofNat 64 base), (5, 0x100000040), (6, 64), (7, BitVec.ofNat 64 rest)] }
def stageCmdOf (base : Nat) : StageCmd := { quad := 0, out := false, base := base, rowLen := 64, rows := 1, stride := 64, target := 0, loc := 0, tag := 0 }
/-- Descriptors that are good, outside the session's windows, with a field out of range, and with a reserved bit. -/
theorem test_witness_stage :
    (sReg (gridState (stageRegs 0 0)) 0 4).toNat < 2 ^ 57 ∧ (sReg (gridState (stageRegs 0 0)) 0 5).toNat % 2 ^ 32 = 64 ∧
    stageLocalOk (sessGet (gridState (stageRegs 0 0)) 0) (stageCmdOf 0) = true ∧ stageWindowOk (sessGet (gridState (stageRegs 0 0)) 0) (stageCmdOf 0) = true ∧
    stageLocalOk (sessGet (gridState (stageRegs 0 0)) 0) (stageCmdOf 0x40000000) = true ∧
    stageWindowOk (sessGet (gridState (stageRegs 0 0)) 0) (stageCmdOf 0x40000000) = false ∧
    stageLocalOk (sessGet (gridState (stageRegs 0 0)) 0) (stageCmdOf 32) = false ∧
    ¬((sReg (gridState (stageRegs 0 (2 ^ 32))) 0 7).toNat < 2 ^ 32) := by decide

/-- Session 1 with `n` chunks posted to it by the collective of ID 5, and tag 3 issued twice and completed `n` times. -/
def gateState (n : Nat) (core : Core) : State :=
  let g := gridState core
  { g with clx := { recs := [(0, { pitch := 1, state := .running, posted := n, desc := { id := 5, toKernel := true, ksession := 1 } })] }
           grd := { g.grd with sess := [(0, { sessGet g 0 with issued := [(3, 2)], completed := [(3, n)] })] } }

/-- GATE.T for tag 3 with two of two and with one of two completed; GATE.C for 2 chunks with 2 and with 1 posted, and with a reserved bit. -/
theorem test_witness_gates :
    coreSess (gateState 2 {}) 0 = some 0 ∧
    tget 0 (sessGet (gateState 2 {}) 0).issued 3 ≤ tget 0 (sessGet (gateState 2 {}) 0).completed 3 ∧
    tget 0 (sessGet (gateState 1 {}) 0).completed 3 < tget 0 (sessGet (gateState 1 {}) 0).issued 3 ∧
    recFind (gateState 2 {}) 1 5 = some 0 ∧ (recGet (gateState 2 {}) 0).desc.ksession = (sessGet (gateState 2 {}) 0).number ∧
    (recGet (gateState 2 {}) 0).state ≠ .failed ∧ (2 ≤ (recGet (gateState 2 {}) 0).posted) ∧ ¬(2 ≤ (recGet (gateState 1 {}) 0).posted) ∧
    2 ^ 24 ≤ (sReg (gateState 2 { s := [(1, 0x1000000)] }) 0 1).toNat := by decide
theorem test_witness_gateT_named (t : Nat) (h : t < 16 ∧ (8#16).getLsbD t = true) : t = 3 := by
  obtain ⟨h1, h2⟩ := h; revert h2; revert h1; revert t; decide

/-- The engine of quad 0 with one waiting command, or one that started in cycle `t`. -/
def engineState (start : Option Nat) (result : List Word) (cycles : Nat) : State :=
  let g := gridState {}
  { g with grd := { g.grd with
      sess := [(0, { sessGet g 0 with cycles := cycles })]
      quads := [(0, { mx := [{ a := 0, b := 4096, start := start, result := result, issued := 1 }] })] } }

theorem test_witness_engine : engineSess (engineState none [] 7) (0#4).toNat = some 0 ∧ 0 ∈ (sessGet (engineState none [] 7) 0).engines ∧
    mxHazard (sessGet (engineState none [] 7) 0) 0 { a := 0, b := 4096, issued := 1 } = false ∧
    (quadGet (engineState none [] 7) 0).busyTo ≤ 7 ∧ ((quadGet (engineState none [] 7) 0).mx.map (·.start)) = [none] := by decide
/-- A pending range of the operand buffer under the operands is a hazard. -/
theorem test_witness_hazard : mxHazard { pend := [{ quad := 0, target := 4, loc := 0, len := 64 }] } 0 { a := 0, b := 4096 } = true := by decide
/-- The result is written once its cycles and 40 more have passed, and not in the cycle before. -/
theorem test_witness_mxDone : mxCycles { k := 64, issued := 1 } = mxCycles { k := 64 } ∧
    (sessGet (engineState (some 2) [] (1 + mxCycles { k := 64 } + 40)) 0).cycles < 2 + mxCycles { k := 64 } + 40 ∧
    2 + mxCycles { k := 64 } + 40 ≤ (sessGet (engineState (some 2) [] (2 + mxCycles { k := 64 } + 40)) 0).cycles := by decide
theorem test_witness_mxResult : (List.replicate 4096 (0 : Word)).length = 4096 := List.length_replicate
/-- The core of another session, or of none, runs nothing. -/
theorem test_witness_noEngine : quadOf 2 ∉ (sessGet (gridState {}) 0).engines := by decide

/-! ## Requests: a chip that serves one pitch, and the frames it takes (R52 to R73, R131, R139) -/

/-- Does a frame pass checks 1 to 14, with a test of the request, its pieces and the state its operation runs at? -/
def served (p : Req → List (List Piece) → State → Bool) (s : State) (op : Byte) (f : RxFrame) : Bool :=
  match receive s op f with
  | .done _ => false
  | .go t r =>
    !flagMisuse t r && permitted t r && !isMirror t r && decide (pitchCheck t r = none) && lenOk t r && alignOk t r &&
      (match check14 t r (needsOf t r) with
       | .ok ps _ =>
         let o := obtainLines t r ((ps[0]?).getD []) ((ps[1]?).getD [])
         o.2 && p r ps o.1
       | _ => false)

theorem served_ready {p s op f} (h : served p s op f = true) : ∃ r ps u, Ready s op f r ps u ∧ p r ps u = true := by
  unfold served at h
  split at h
  · cases h
  · rename_i t r e
    split at h
    · rename_i ps sl e14
      simp only [Bool.and_eq_true, Bool.not_eq_true', decide_eq_true_eq] at h
      obtain ⟨⟨⟨⟨⟨⟨h1, h2⟩, h3⟩, h4⟩, h5⟩, h6⟩, h7, h8⟩ := h
      exact ⟨r, ps, _, ⟨t, e, ⟨h1, h2, h3, h4⟩, h5, h6, ⟨sl, e14⟩, Prod.ext rfl h7⟩, h8⟩
    · simp at h

/-- A chip that serves: pitch 1 is UP with context 0100h, endpoint 5 holds it with every group, and slice 0 has the leaf of the pitch's first
GiB, which lies in granule 4 and has the attribute bits of `attrs`. -/
def poolState (attrs : Nat) : State :=
  { State.reset with
    pitches := [(1, { life := .up, template := 3, slots := [(0, 4)], settings := { contexts := [0x100] } })]
    templates := [(3, { held := true, cocoon := true })]
    units := [(uPitch 1, { intent := .up, actual := .up }), (uChan 0, { intent := .up, actual := .up }),
              (uSlice 0, { intent := .up, actual := .up }), (uGroup 0, { intent := .up, actual := .up })]
    tpt := { admitting := true }
    act := { src := [(5, { addr := 7, port := 9 })], mt := [(5, mtWord 0x100 0xFF :: List.replicate 15 0)]
             tlb := [(0, [{ pitch := 1, page := 0, level := 2, entry := mkLeaf 0x100000000 false false false ||| BitVec.ofNat 64 attrs }])] }
    tmg := { policers := [((1, 0), { c := 1000000, p := 1000000 }), ((1, 5), { c := 1000000, p := 1000000 }), ((1, 1), { c := 1000000, p := 1000000 })] } }

/-- A request frame of endpoint 5 with a correct header. -/
def poolFrame (op : Byte) (addr len : Nat) (payload : List Byte) (flags : BitVec 16 := 0x4000) (tc : BitVec 3 := 0) : RxFrame :=
  let h : KppHdr := { flags := flags, context := 0x100, endpoint := 5, tc := tc, flowSeq := 1, address := BitVec.ofNat 64 addr, length := BitVec.ofNat 32 len }
  { encap := { bytes := 200 }, srcAddr := 7, srcPort := 9, hdr := { h with hcrc := crc32c (rxHdrBytes op h) }, payload := payload }

/-- READ of 16 bytes: every line is good. -/
theorem test_read_served : served (fun r ps u => decide (goodPrefix u r.context ((ps[0]?).getD []) 0 = none) && !flagX r.flags)
    (poolState 0) 0x01 (poolFrame 0x01 0x10 16 []) = true := by decide +kernel

/-! ### Checks 1 to 6 -/

def badFrame (g : RxFrame → RxFrame) : RxFrame := g (poolFrame 0x01 0x10 16 [])

/-- Frames at the boundaries of the checks, on a chip that serves: 9,217 bytes, two tags, a wrong check value, version 2, a response
opcode under TYPE 0, an endpoint with no source, another port. -/
theorem test_witness_checks :
    (poolTake (poolState 0) (badFrame id).via (badFrame id).hdr.tc.toNat).tpt.admitting = true ∧
    (badFrame id).encap.udpDst.toNat = kppPort (poolState 0) ∧ 9216 < (badFrame (fun f => { f with encap := { bytes := 9217 } })).encap.bytes ∧
    1 < (badFrame (fun f => { f with encap := { bytes := 9216, vlanTags := 2 } })).encap.vlanTags ∧
    (crc32c (rxHdrBytes 0x01 (badFrame id).hdr) = (badFrame id).hdr.hcrc) ∧ ¬(crc32c (rxHdrBytes 0x02 (badFrame id).hdr) = (badFrame id).hdr.hcrc) ∧
    earlyFail 0x01 (badFrame id) = none ∧ earlyFail 0x81 (poolFrame 0x81 0x10 16 []) = some (.tptType, 0) ∧
    sessBound 0x01 (badFrame id).hdr.flags = false ∧ tfind (poolState 0).act.src 5 = some { addr := 7, port := 9 } ∧
    tfind (poolState 0).act.src 6 = none ∧ (9 : BitVec 16) ≠ 8 := by decide +kernel
theorem test_witness_version : earlyFail 0x01 (let f := badFrame id
    { f with hdr := { f.hdr with version := 2, hcrc := crc32c (rxHdrBytes 0x01 { f.hdr with version := 2 }) } }) = some (.tptVersion, 0) := by decide +kernel
/-- ALIVE behind by 128 is stale, and 128 ahead is not. -/
theorem test_witness_stale :
    let s := { poolState 0 with tpt := { admitting := true, rxAlive := [(.ep 5 0, 128)] } }
    aliveGap s (rxStream 0x01 (badFrame id)) 0 = some 127 ∧ aliveGap s (rxStream 0x01 (badFrame id)) 1 = none ∧
    aget s.tpt.rxAlive (.ep 5 0) = some 128 ∧ (128 : Byte) < 129 ∧ (ctxWord s 5 0x100).isSome = true := by decide +kernel

/-! ### READ, BULK_GET, WRITE and the atomics -/

/-- The state with one line's metadata changed. -/
def withMeta (s : State) (a : Nat) (m : LineMeta) : State := metaPut s a m

theorem test_witness_read : served (fun r ps u => decide (goodPrefix u r.context ((ps[0]?).getD []) 0 = none) && !flagX r.flags)
    (poolState 0) 0x01 (poolFrame 0x01 0x10 16 []) = true := by decide +kernel
/-- The first line is poisoned, and one of another context. -/
theorem test_witness_read_bad : served (fun r ps u => match goodPrefix u r.context ((ps[0]?).getD []) 0 with
      | some (good, _, st, _) => decide (good < segSize u r) && decide (st = stMedia) | none => false)
      (withMeta (poolState 0) 0x100000000 { poison := 1 }) 0x01 (poolFrame 0x01 0 64 []) = true ∧
    served (fun r ps u => match goodPrefix u r.context ((ps[0]?).getD []) 0 with
      | some (good, _, st, _) => decide (good < segSize u r) && decide (st = stDenied) | none => false)
      (withMeta (poolState 0) 0x100000000 {owner := 0}) 0x01 (poolFrame 0x01 0 64 []) = true := by decide +kernel
/-- The pitch has a session key, so that sealed reads run; without one they are refused. -/
def sealedState (k : Option (BitVec 256)) : State := pkPut (poolState 8) 1 { session := k }
theorem test_witness_sealed : served (fun r ps u => flagX r.flags && decide ((pkGet u r.pitch.toNat).session = some 3) &&
      !touchesBadCocoon u r.pitch.toNat ((ps[0]?).getD []) && decide ((pkGet u r.pitch.toNat).sealExec < 2 ^ 56) &&
      decide (goodPrefix u r.context ((ps[0]?).getD []) 0 = none)) (sealedState (some 3)) 0x01 (poolFrame 0x01 0x10 16 [] 0x5000) = true ∧
    served (fun r _ u => flagX r.flags && decide ((pkGet u r.pitch.toNat).session = none)) (sealedState none) 0x01 (poolFrame 0x01 0x10 16 [] 0x5000) = true := by decide +kernel

/-- A bulk descriptor of rows of 64 bytes, 128 apart. -/
def bulkDesc (base : Nat) : List Byte := beBytes 8 base ++ beBytes 4 64 ++ zeros 4 ++ beBytes 8 128
theorem test_witness_bulkGet : served (fun r ps u => let d := readDesc r.payload 0
      decide (goodPrefix u r.context (rowPieces d ((reach u r d.base).getD d.base) ((ps[0]?).getD []) (rowFuel d r.length.toNat) 0 r.length.toNat) 0 = none))
    (poolState 0) 0x20 (poolFrame 0x20 0 128 (bulkDesc 0x40)) = true := by decide +kernel

theorem test_witness_write : served (fun r ps u => decide (firstBad u r.context (pieceLines ((ps[0]?).getD [])) = none))
      (poolState 0) 0x02 (poolFrame 0x02 0x10 4 [1, 2, 3, 4]) = true ∧
    served (fun r ps u => decide (firstBad u r.context (pieceLines ((ps[0]?).getD [])) = some (0x100000000, stDenied, .good)))
      (withMeta (poolState 0) 0x100000000 { owner := 0 }) 0x02 (poolFrame 0x02 0x10 4 [1, 2, 3, 4]) = true ∧
    served (fun r ps u => decide (firstBad u r.context (pieceLines ((ps[0]?).getD [])) = some (0x100000000, stMedia, .media)))
      (withMeta (poolState 0) 0x100000000 { poison := 1 }) 0x02 (poolFrame 0x02 0x10 4 [1, 2, 3, 4]) = true := by decide +kernel
theorem test_witness_writeNotify : served (fun r ps u => decide (firstBad u r.context (pieceLines ((ps[0]?).getD []) ++ pieceLines ((ps[1]?).getD [])) = none))
      (poolState 0) 0x03 (poolFrame 0x03 0x10 4 (beBytes 8 0x80 ++ [1, 2, 3, 4])) = true ∧
    served (fun r ps u => decide (firstBad u r.context (pieceLines ((ps[0]?).getD []) ++ pieceLines ((ps[1]?).getD [])) = some (0x100000080, stDenied, .good)))
      (withMeta (poolState 0) 0x100000080 { owner := 0 }) 0x03 (poolFrame 0x03 0x10 4 (beBytes 8 0x80 ++ [1, 2, 3, 4])) = true := by decide +kernel
/-- Every atomic of 4 bytes (A_CAS with two operands). -/
theorem test_witness_atomics : (List.range 12).all (fun i => served (fun r ps u => decide (firstBad u r.context (pieceLines ((ps[0]?).getD [])) = none))
    (poolState 0) (BitVec.ofNat 8 (0x10 + i)) (poolFrame (BitVec.ofNat 8 (0x10 + i)) 0x10 4 (if i = 2 then zeros 8 else zeros 4))) = true := by decide +kernel

theorem test_witness_lineWrite : 60 % 64 + [1, 2, 3, (4 : Byte)].length ≤ 64 ∧ [1, 2, 3, (4 : Byte)].length = ({ ppa := 60, len := 4 } : Piece).len ∧ (0x100 : BitVec 16) ≠ 0xFFFF := by decide
/-- A line of the pitch's context under its key, and a FREE one: both are good, and the context owns them. -/
def keyedState : State :=
  let s := slotPut (pkPut (poolState 0) 1 { slot := some 5 }) 5 { state := .held, pitch := 1, gen := 2 }
  withMeta s 0x100000000 { owner := 0x100, keySlot := 5, keyGen := 2 }
theorem test_witness_copied : (0x100000040 % 64 = 0) ∧ lineVerdict keyedState 0x100000000 = .good ∧ lineVerdict keyedState 0x100000040 = .good ∧
    ownerOk keyedState 0x100000000 0x100 = true ∧ ownerOk keyedState 0x100000040 0x100 = true := by decide +kernel

/-! ### BULK_PUT, BULK_DATA and BULK_COPY -/

/-- Does a frame pass checks 1 to 8, and 9 to 13 where `all` says so, with a test of the state and the request? -/
def admitted (all : Bool) (p : State → Req → Bool) (s : State) (op : Byte) (f : RxFrame) : Bool :=
  match receive s op f with
  | .done _ => false
  | .go t r => (!all || (!flagMisuse t r && permitted t r && !isMirror t r && decide (pitchCheck t r = none))) && p t r

theorem admitted_go {all p s op f} (h : admitted all p s op f = true) :
    ∃ t r, receive s op f = .go t r ∧ (all = true → Checked t r) ∧ p t r = true := by
  unfold admitted at h
  split at h
  · cases h
  · rename_i t r e
    refine ⟨t, r, e, ?_, (Bool.and_eq_true _ _ ▸ h).2⟩
    intro ha
    subst ha
    simp only [Bool.not_true, Bool.false_or, Bool.and_eq_true, Bool.not_eq_true', decide_eq_true_eq] at h
    exact ⟨h.1.1.1.1, h.1.1.1.2, h.1.1.2, h.1.2⟩

/-- BULK_PUT is translated and opens its transfer. -/
theorem test_witness_bulkPut : admitted true (fun t r =>
      let t := bulkMod t r.flow (fun l => l ++ [{ req := r, last := t.now }])
      lenOk t r && alignOk t r && (match check14 t r (needsOf t r) with
        | .ok ps _ => (obtainLines t r ((ps[0]?).getD []) ((ps[1]?).getD [])).2
        | _ => false)) (poolState 0) 0x21 (poolFrame 0x21 0 128 (zeros 24)) = true := by decide +kernel

/-- A flow with an open BULK_PUT of 128 bytes, translated or not, and one with none. -/
def bulkState (l : List BulkPut) (c : BitVec 24) : State :=
  let s := poolState 0
  { s with tpt := { s.tpt with flows := [(.ep 5 1 0, { c := c, bulk := l })] } }
def openPut (passed : Bool) : BulkPut :=
  { req := { op := 0x21, flow := .ep 5 1 0, flags := 0x4000, context := 0x100, endpoint := 5, pitch := 1, length := 128, payload := zeros 24 }, passed := passed }

theorem test_witness_bulkData :
    admitted true (fun t r => lenOk t r && alignOk t r && decide (bulkFind t r.flow r.tag = some (openPut true)) &&
      decide (syncLines (rowPieces (putDesc t (openPut true).req) (descReach t (openPut true).req (putDesc t (openPut true).req)) (putPages t (openPut true))
        (rowFuel (putDesc t (openPut true).req) r.length.toNat) r.address.toNat r.length.toNat) = []))
      (bulkState [openPut true] 0) 0x23 (poolFrame 0x23 0 64 (zeros 64)) = true ∧
    admitted true (fun t r => lenOk t r && alignOk t r && decide (bulkFind t r.flow r.tag = some (openPut false)))
      (bulkState [openPut false] 0) 0x23 (poolFrame 0x23 0 64 (zeros 64)) = true ∧
    -- no transfer is open: with every number before it received, and with one missing
    admitted true (fun t r => lenOk t r && alignOk t r && decide (bulkFind t r.flow r.tag = none) && decide (((flowGet t r.flow).map (·.c)) = some 0) && decide ((r.seq - 0).toNat = 1))
      (bulkState [] 0) 0x23 (poolFrame 0x23 0 64 (zeros 64)) = true ∧
    admitted true (fun t r => lenOk t r && alignOk t r && decide (bulkFind t r.flow r.tag = none) &&
        (match flowGet t r.flow with | some fl => decide ((r.seq - fl.c).toNat = 2) && decide (fl.c + 1 ∉ fl.bits) | none => false))
      (bulkState [] 0xFFFFFF) 0x23 (poolFrame 0x23 0 64 (zeros 64)) = true := by decide +kernel
theorem test_witness_bulkIdle : bulkFind (bulkState [openPut true] 0) (.ep 5 1 0) 0 = some (openPut true) ∧ (openPut true).passed = true ∧
    bulkFind (bulkState [openPut false] 0) (.ep 5 1 0) 0 = some (openPut false) ∧ (openPut false).passed = false := by decide +kernel

/-- BULK_COPY: all lines good; a line of another owner; a poisoned line. -/
def copyResult (r : Req) (ps : List (List Piece)) (u : State) : Nat × Option (Nat × LineVerdict) :=
  let len := r.length.toNat
  let d := readDesc r.payload 0
  let e := readDesc r.payload 24
  let base (x : Desc) := (reach u r x.base).getD x.base
  let src := lineList (rowPieces d (base d) ((ps[0]?).getD []) (rowFuel d len) 0 len)
  let dst := lineList (rowPieces e (base e) ((ps[1]?).getD []) (rowFuel e len) 0 len)
  (copyLines u r.pitch.toNat r.context (src.zip dst)).2
def copyFrame : RxFrame :=
  poolFrame 0x22 0 64 (beBytes 8 0 ++ beBytes 4 64 ++ zeros 4 ++ beBytes 8 64 ++ beBytes 8 0x80 ++ beBytes 4 64 ++ zeros 4 ++ beBytes 8 64)
theorem test_witness_bulkCopy : served (fun r ps u => decide (copyResult r ps u = (stOk, none))) (poolState 0) 0x22 copyFrame = true ∧
    served (fun r ps u => decide (copyResult r ps u = (stDenied, some (0x100000000, .good)))) (withMeta (poolState 0) 0x100000000 { owner := 0 }) 0x22 copyFrame = true ∧
    served (fun r ps u => decide (copyResult r ps u = (stMedia, some (0x100000000, .media)))) (withMeta (poolState 0) 0x100000000 { poison := 1 }) 0x22 copyFrame = true := by decide +kernel

/-! ### Handles, unknown opcodes, the sync window -/

theorem test_witness_xlate : served (fun r _ u => pHeld u r.pitch.toNat && (tlbFind u (leadSlice u r.pitch.toNat r.address.toNat) r.pitch.toNat r.address.toNat).isSome)
      (poolState 0) 0x30 (poolFrame 0x30 0x10000 4096 []) = true ∧
    admitted true (fun t r => lenOk t r && !pHeld t r.pitch.toNat) { poolState 0 with templates := [] } 0x30 (poolFrame 0x30 0x10000 4096 []) = true ∧
    admitted true (fun t r => lenOk t r) (poolState 0) 0x32 (poolFrame 0x32 0 8 (zeros 8)) = true ∧
    opKnown 0x0F = false ∧ admitted false (fun _ _ => true) (poolState 0) 0x0F (poolFrame 0x0F 0 8 []) = true := by decide +kernel

/-- A sync page of the pitch, with the directory given. -/
def syncState (dir : Tab SwEnt) : State :=
  let s := poolState 16
  { s with swn := { dir := dir }, act := { s.act with pt := [((1, 3, 0), 1), ((1, 2, 0), mkLeaf 0x100000000 false false true)] } }
def syncReady (t : State) (r : Req) (q : Nat → Bool) : Bool :=
  swLenOk r && decide (r.address.toNat % 64 = 0) && (match check14 t r [{ addr := r.address.toNat, len := 64 }] with
    | .ok p _ => (match pieceLines p.flatten with
      | line :: _ => decide (lineVerdict t line = .good) && ownerOk t line r.context && q line
      | [] => false)
    | _ => false)
def syncFrame (op : Byte) (n : Nat) : RxFrame := poolFrame op 0x40 n (zeros n) 0x4000 5
/-- The three requests: a line no one holds with an entry free, and a BUSY line. -/
theorem test_witness_sync : [(0x40 : Byte), 0x41, 0x42].all (fun op =>
      admitted true (fun t r => syncReady t r (fun line => decide (dirFind t line = none) && decide (txnUsed t < 4096) &&
        decide (dirAlloc t line = .free (dirSet line * 16)))) (syncState []) op (syncFrame op 8) &&
      admitted true (fun t r => syncReady t r (fun line => decide (dirFind t line = some 16) && (dirGet t 16).txn.isSome))
        (syncState [(16, { line := 0x100000040, pva := 0x40, pitch := 1, txn := some {} })]) op (syncFrame op 8)) = true := by decide +kernel
/-- 4,096 transactions in progress, on other lines. -/
def busyDir : Nat → Tab SwEnt
  | 0 => []
  | n + 1 => busyDir n ++ [(n, { line := 64 * (n + 1), txn := some {} })]

theorem test_witness_syncFull : admitted true (fun t r => syncReady t r (fun line => decide (dirFind t line = none) && decide (4096 ≤ txnUsed t)))
    (syncState (List.replicate 4096 (0, { line := 64, txn := some {} }))) 0x40 (syncFrame 0x40 8) = true := by decide +kernel

/-- Notices of endpoint 5 about a line, with a test of the state and the line. -/
def noticed (op : Byte) (n : Nat) (dir : Tab SwEnt) (held : List (Nat × Req)) (p : State → Nat → Bool) : Bool :=
  let s := syncState dir
  admitted true (fun t r => swLenOk r && decide (r.address.toNat % 64 = 0) && decide (r.endpoint = 5) &&
    (match swTarget t r with | .inr line => p t line | .inl _ => false)) { s with swn := { s.swn with held := held } } op (syncFrame op n)
def sharedLine (state : HomeState) (owner : Option Nat) (txn : Option SwTxn) : Tab SwEnt :=
  [(16, { line := 0x100000040, pva := 0x40, pitch := 1, state := state, owner := owner, txn := txn })]
theorem test_witness_notices :
    noticed 0x43 64 [] [] (fun t line => decide (dirFind t line = none)) = true ∧
    noticed 0x43 64 [] [(0, { endpoint := 5 }), (64, { endpoint := 5 })] (fun t _ => decide ((t.swn.held.filter (fun h => h.2.endpoint = 5)).length = 2)) = true ∧
    noticed 0x43 64 (sharedLine .hx (some 5) none) [(0, { endpoint := 5 })] (fun t line => decide (dirFind t line = some 16) &&
      decide ((dirGet t 16).txn = none) && decide ((dirGet t 16).owner = some 5)) = true ∧
    noticed 0x43 64 (sharedLine .hx (some 5) (some { fwd := some 5 })) [] (fun t line => decide (dirFind t line = some 16) &&
      decide ((dirGet t 16).txn = some { fwd := some 5 })) = true ∧
    noticed 0x44 8 (sharedLine .hx (some 5) none) [] (fun t line => decide (dirFind t line = some 16) && decide ((dirGet t 16).state = .hx)) = true ∧
    noticed 0x44 8 (sharedLine .hs none none) [] (fun t line => decide (dirFind t line = some 16) && decide ((dirGet t 16).state ≠ .hx)) = true ∧
    noticed 0x48 8 [] [] (fun t line => decide (dirFind t line = none)) = true ∧
    noticed 0x48 8 (sharedLine .hs none (some { kind := .agent { endpoint := 5 } false, needDone := true })) [] (fun t line => decide (dirFind t line = some 16) &&
      decide ((dirGet t 16).txn = some { kind := .agent { endpoint := 5 } false, needDone := true })) = true := by decide +kernel

/-! ### Answers to the chip's own requests, timers, acknowledgements -/

/-- A request of the chip's own to endpoint 5, of an origin, with its opcode. -/
def ownState (o : Origin) (op : Byte) : State :=
  let s := poolState 0
  { s with tpt := { s.tpt with ctl := [(.ep 5 1 1, { next := 2, reqs := [{ seq := 1, origin := o, frame := { opcode := op, context := 0x100 } }] })] } }
def ownFrame (op : Byte) (typ : BitVec 4) (flags : BitVec 16) (payload : List Byte) : RxFrame :=
  let h : KppHdr := { typ := typ, flags := flags, context := 0x100, endpoint := 5, tc := 1, flowSeq := 1, address := if op = 0x7F then 1 else 0 }
  { encap := { bytes := 200 }, srcAddr := 7, srcPort := 9, hdr := { h with hcrc := crc32c (rxHdrBytes op h) }, payload := payload }
/-- Does a response reach the request of the origin, with a status? -/
def reaches (o : Origin) (op : Byte) (flags : BitVec 16) (st : Nat) : Bool :=
  let f := ownFrame (op + 0x80) 1 flags []
  let g := receiveOther (ownState o op) (op + 0x80) f
  let u0 := noteCtl g.1 (respFlow g.1 f) f.via
  let u := if flagE f.hdr.flags = true ∧ (aget u0.tpt.ctl (respFlow g.1 f)).isSome = true then rateCut u0 (respFlow g.1 f) else u0
  g.2 && decide (bitsOf f.hdr.flags 0 8 = st) && (match answeredReq u (op + 0x80) f (respFlow g.1 f) with
    | some q => decide (q.origin = o)
    | none => false)
/-- Each origin by the opcodes that answer it, with OK, with RETRY and under E. -/
theorem test_witness_answers : [(Origin.xlateInval 5 0x100, (0x31 : Byte)), (.swForward 0, 0x45), (.swInvalidate 0 5, 0x46), (.collFrame 1 1 0, 0x52),
    (.collFrame 1 1 0, 0x53), (.collClose 1 1, 0x54), (.kernelEvent 1, 0x63), (.probe 1, 0x02), (.release 1, 0x02), (.resync 1 0, 0x02),
    (.resync 1 0, 0x21), (.resync 1 0, 0x23), (.mirror 1 0, 0x02), (.mirror 1 0, 0x21), (.mirror 1 0, 0x23)].all (fun x =>
      reaches x.1 x.2 0x4000 stOk && reaches x.1 x.2 (BitVec.ofNat 16 (0x4000 + stRetry)) stRetry && reaches x.1 x.2 0x6000 stOk) = true := by decide +kernel

/-- A port that is in training holds its requests; another does not. -/
def timerState (q : CtlReq) (port : Actual) : State :=
  { State.reset with tpt := { ctl := [(.ep 5 1 1, { egress := some (.link 0), reqs := [{ q with seq := 1 }], lastSignal := 3 })],
                              flows := [(.ep 5 1 1, { ackDue := some 7, missing := [{ seq := 2, since := 1 }], c := 0 })] },
                     units := [(uPort 0, { actual := port })] }
theorem test_witness_timers :
    ctlFind (timerState {} .training) (.ep 5 1 1) 1 = some { seq := 1 } ∧ portHeld (nowTo (timerState {} .training) 0) (.ep 5 1 1) = true ∧
    portHeld (nowTo (timerState {} .up) 0) (.ep 5 1 1) = false ∧ rtxLimit (timerState {} .up) = 8 ∧
    rtxLimit (timerState { count := 8 } .up) ≤ 8 ∧ 7 < rtxLimit (timerState { count := 7 } .up) ∧
    ctlFind (timerState { acked := true } .up) (.ep 5 1 1) 1 = some { seq := 1, acked := true } ∧
    ctlFind (timerState { retrying := true } .up) (.ep 5 1 1) 1 = some { seq := 1, retrying := true } ∧
    ctlFind (timerState {} .up) (.ep 5 1 1) 2 = none ∧
    ((flowGet (timerState {} .up) (.ep 5 1 1)).bind (·.ackDue)) = some 7 ∧ ((flowGet (timerState {} .up) (.ep 5 1 1)).map (·.bits)) = some [] ∧
    ((flowGet (timerState {} .up) (.ep 5 1 1)).bind (nackDueAt (timerState {} .up))).isSome = true ∧
    ((aget (timerState {} .up).tpt.ctl (.ep 5 1 1)).map (·.lastSignal)) = some 3 := by decide +kernel
theorem test_witness_swDone : dirFind (syncState (sharedLine .hs none (some { kind := .agent { endpoint := 5 } false, needDone := true, sentAt := some 4 })))
    ((0x100000040 / 64 : BitVec 38).toNat * 64) = some 16 := by decide +kernel
/-- An ACK with C = 1: of a flow of the chip's, of none, and one behind the last. -/
theorem test_witness_ack :
    (receiveOther (ownState (.probe 1) 0x02) 0x7F (ownFrame 0x7F 2 0x4000 (zeros 8))).2 = true ∧
    (aget (ownState (.probe 1) 0x02).tpt.ctl (.ep 5 (BitVec.ofNat 8 ((1 : BitVec 64).toNat % 256)) 1)).isSome = true ∧
    (aget (poolState 0).tpt.ctl (.ep 5 1 1)) = none ∧ (0x800000 ≤ ((1 : BitVec 24) - 2).toNat) ∧ ((1 : BitVec 24) - 1).toNat < 0x800000 := by decide +kernel

/-- A miss of page 0 that a request waits for, with its page mapped, not mapped and malformed. -/
def missState (pt : AMap (Nat × Nat × Nat) DWord) (restarting : Bool) : State :=
  let s := poolState 0
  { s with act := { s.act with misses := [{ slice := 0, pitch := 1, page := 0, waiting := [{}] }], pt := pt, recalls := [{ endpoint := 5, context := 0x100, pitch := 1, start := 2 }],
                               changes := [{ pitch := 1, base := 0, size := 65536 }] },
           svc := { s.svc with restarting := restarting } }
theorem test_witness_misses :
    ((missState [] false).act.misses.find? (missIs 0 1 0)).isSome = true ∧ (missState [] true).svc.restarting = true ∧
    walk (missState [] false) 1 0 = .unmapped ∧ walk (missState [((1, 3, 0), 3)] false) 1 0 = .malformed ∧
    walk (missState [((1, 3, 0), 1), ((1, 2, 0), mkLeaf 0x100000000 false false false)] false) 1 0 = .leaf 2 (mkLeaf 0x100000000 false false false) ∧
    ((missState [] false).act.recalls.find? (fun x => decide (x.endpoint = 5) && decide (x.context = 0x100))).isSome = true := by decide +kernel

/-! ## Collectives (R247 to R274) -/

/-- An exact collective of ID 5 over two ranks on one chip, delivered to endpoint 5, which contributes both. -/
def openBytes (id : Nat) : List Byte :=
  beBytes 4 id ++ [1, 0, 0, 0] ++ beBytes 4 256 ++ beBytes 2 2 ++ [1, 1, 2] ++ zeros 15 ++ zeros 8 ++ zeros 18 ++ [0] ++ zeros 5 ++
    beBytes 2 0 ++ beBytes 2 2 ++ [1, 0, 1, 0] ++ zeros 32 ++ beBytes 2 5 ++ beBytes 2 5 ++ beBytes 2 5
def collFrameOf (op : Byte) (addr : Nat) (payload : List Byte) : RxFrame := poolFrame op addr payload.length payload 0x4000 4
def collState (recs : Tab CollRec) : State :=
  let s := poolState 0
  { s with clx := { recs := recs }, tmg := { policers := [((1, 4), { c := 1000000, p := 1000000 })] } }
/-- COLL_OPEN: accepted, and refused for its determinism class. -/
theorem test_witness_collOpen :
    admitted true (fun t r => decide (104 ≤ r.payload.length) && decide ((openFlaws r.payload).find? (·.2) = none) &&
      decide (openLen r (readColl r.payload) = none) && (readColl r.payload).exact && decide ((readColl r.payload).destBase % 64 = 0) &&
      decide (openRefusal t r (readColl r.payload) = none)) (collState []) 0x50 (collFrameOf 0x50 0 (openBytes 5)) = true ∧
    admitted true (fun t r => decide (openLen r (readColl r.payload) = none) && decide (openRefusal t r (readColl r.payload) = some (stDclass, 0xFFFFFFFF)))
      { collState [] with clx := { dclass := 1 } } 0x50 (collFrameOf 0x50 0 (openBytes 5)) = true := by decide +kernel

def runningRec (st : CollState) : CollRec := { pitch := 1, context := 0x100, opener := 5, state := st, desc := readColl (openBytes 5), openTo := 1 }
/-- Is the record of ID 5 found for a frame, in a state? -/
def collAsks (op : Byte) (recs : Tab CollRec) (payload : List Byte) (p : State → Req → Bool) : Bool :=
  admitted true (fun t r => collLenOk r && p t r) (collState recs) op (collFrameOf op (5 * 2 ^ 40) payload)
theorem test_witness_collQuery :
    collAsks 0x55 [] (beBytes 4 5) (fun t r => decide (recFind t 1 (beNat (r.payload.take 4) % 2 ^ 24) = none)) = true ∧
    collAsks 0x55 [(0, runningRec .running)] (beBytes 4 5) (fun t r => decide (recFind t 1 (beNat (r.payload.take 4) % 2 ^ 24) = some 0)) = true ∧
    collAsks 0x54 [(0, runningRec .done)] (beBytes 4 5) (fun t r => decide (recFind t 1 (beNat (r.payload.take 4) % 2 ^ 24) = some 0) &&
      decide (beNat (r.payload.take 4) < 2 ^ 31) && decide ((recGet t 0).opener = r.endpoint)) = true ∧
    collAsks 0x54 [(0, runningRec .waiting)] (beBytes 4 5) (fun t _ => decide ((recGet t 0).closes.length < 64)) = true ∧
    collAsks 0x54 [(0, runningRec .running)] (beBytes 4 0x80000005) (fun t r => decide (recFind t 1 (beNat (r.payload.take 4) % 2 ^ 24) = some 0) &&
      decide (2 ^ 31 ≤ beNat (r.payload.take 4)) && !((recGet t 0).desc.neigh.any (fun g => decide (g.endpoint = r.endpoint)))) = true := by decide +kernel
theorem test_witness_collLate : [(0x51 : Byte), 0x52, 0x53].all (fun op =>
    collAsks op [] (zeros 256) (fun t r => decide (recFind t 1 (r.address.toNat / 2 ^ 40) = none)) &&
    collAsks op [(0, runningRec .failed)] (zeros 256) (fun t r => decide (recFind t 1 (r.address.toNat / 2 ^ 40) = some 0))) = true := by decide +kernel

/-- What CollectiveData asks of every frame of data for record 0. -/
def dataFits (t : State) (r : Req) : Bool :=
  let d := (recGet t 0).desc
  let ub := unitBytes d r.op.toNat
  decide (recFind t 1 (r.address.toNat / 2 ^ 40) = some 0) && decide ((recGet t 0).state ≠ .failed) && decide (0 < ub) &&
    decide (r.payload.length % ub = 0) && decide (r.address.toNat % 2 ^ 24 + r.payload.length / ub ≤ unitCount d)
/-- A record with a child chip at position 2 and a parent at 0, by position. -/
def treeRec (position : Nat) : CollRec :=
  let d := readColl (openBytes 5)
  let d1 := { d with ranks := 4, levels := 2, localLevels := 1, fanin := [2, 2], position := position }
  { runningRec .running with desc := { d1 with neigh := [{ position := 1 - position, endpoint := 5, context := 0x100 }] } }
theorem test_witness_collData :
    collAsks 0x51 [(0, runningRec .running)] (zeros 256) (fun t r => dataFits t r && decide (firstRank (recGet t 0).desc = 0) &&
      decide (localRanks (recGet t 0).desc = 2) && decide ((recGet t 0).desc.contrib[0]? = some r.endpoint) &&
      decide ((0, false, 0) ∉ (chunkGet (recGet t 0) 0).seen) && decide (0 < (recGet t 0).openTo) && !(chunkGet (recGet t 0) 0).closed) = true ∧
    unitBytes (treeRec 0).desc 0x52 ≠ 0 ∧ childChips (treeRec 0).desc 0 = [1] ∧ ((neighAt (treeRec 0).desc 1).map (·.endpoint)) = some 5 ∧
    parentOf (treeRec 1).desc 1 = 0 ∧ ((neighAt (treeRec 1).desc 0).map (·.endpoint)) = some 5 ∧ (chunkGet (treeRec 1) 0).resulted = false := by decide +kernel
theorem test_witness_collPartial :
    (let n := unitBytes (treeRec 0).desc 0x52
     admitted true (fun t r => collLenOk r && dataFits t r && decide (1 ∈ childChips (recGet t 0).desc (recGet t 0).desc.position))
       (collState [(0, treeRec 0)]) 0x52 (collFrameOf 0x52 (5 * 2 ^ 40 + 2 ^ 24) (zeros n))) = true ∧
    (let n := unitBytes (treeRec 1).desc 0x53
     admitted true (fun t r => collLenOk r && dataFits t r && decide ((recGet t 0).desc.position ≠ 0))
       (collState [(0, treeRec 1)]) 0x53 (collFrameOf 0x53 (5 * 2 ^ 40) (zeros n))) = true := by decide +kernel
theorem test_witness_exact : -(2 ^ (8 * accBytes 0 - 1)) + 3 < (5 : Int) ∧ (5 : Int) < 2 ^ (8 * accBytes 0 - 1) ∧ [ExAcc.nan, .fin 1].Perm [.fin 1, .nan] :=
  ⟨by decide, by decide, List.Perm.swap _ _ _⟩

/-- Records in the states and with the times that their events ask for. -/
def eventRec (st : CollState) (start : Option Nat) : CollRec := { runningRec st with desc := { (runningRec st).desc with start := start, deadline := some 9, period := 3 } }
theorem test_witness_collEvents :
    recFind (collState [(0, eventRec .waiting (some 4))]) (1 : BitVec 8).toNat (5 : BitVec 24).toNat = some 0 ∧
    tfind (collState [(0, eventRec .waiting (some 4))]).clx.recs 0 = some (eventRec .waiting (some 4)) ∧
    (eventRec .running (some 4)).state = .running ∧ (eventRec .done none).state = .done ∧ (eventRec .running none).desc.start = none := by decide +kernel
/-- A chunk that is done: its result is stored and delivered; it is the last of its record. -/
def doneRec (size : Nat) : CollRec :=
  let r := runningRec .running
  { r with desc := { r.desc with size := size }, chunks := [(0, { sent := true, resulted := true })] }
theorem test_witness_chunk : [256, 1048576].all (fun size =>
    let q := recGet (chunkStep (collState [(0, doneRec size)]) 0 0) 0
    decide (q.state = .running) && !(chunkGet q 0).finished && chunkDone q.desc (chunkGet q 0)) = true ∧
    chunkCount (doneRec 256).desc = 1 ∧ chunkCount (doneRec 1048576).desc ≠ 1 := by decide +kernel

/-! ## Kernel sessions and stage commands (R284 to R305) -/

/-- A kernel object of a 2 by 2 session: one bundle with HALT for each core. -/
def objBytes : List Byte :=
  leBytes 4 0x4B474F31 ++ leBytes 2 1 ++ leBytes 2 0 ++ [2, 2] ++ leBytes 2 0 ++ leBytes 4 384 ++ leBytes 4 320 ++ leBytes 4 0 ++ zeros 232 ++
    (List.range 4).flatMap (fun _ => leBytes 4 320 ++ leBytes 4 16 ++ leBytes 4 320 ++ leBytes 4 0) ++ leBytes 16 haltBundle.toNat ++ zeros 48
/-- A chip with the object as function 0 of its library, four cores UP, and the session given. -/
def launchState (sess : Tab KSess) (queue : List Nat) : State :=
  let s := poolState 0
  { s with
    img := { s.img with lib := [(0, objBytes)] }
    units := s.units ++ [(uQuad 0, { intent := .up, actual := .up }), (uCore 0, { intent := .up, actual := .up }), (uCore 1, { intent := .up, actual := .up }), (uCore 8, { intent := .up, actual := .up }), (uCore 9, { intent := .up, actual := .up })]
    act := { s.act with pt := [((1, 3, 0), 1), ((1, 2, 0), mkLeaf 0x100000000 false false false)] }
    grd := { sess := sess, queue := queue } }
/-- A launch of the object on quad 0, with LFLAGS, an argument address and an object word. -/
def launchFrame (object args lf : Nat) : RxFrame := poolFrame 0x60 0 24 (beBytes 8 object ++ beBytes 8 args ++ beBytes 2 1 ++ beBytes 2 lf ++ zeros 4)
/-- The reads and checks that a launch of the library's object passes, with a test of the state after them, the record, and its place. -/
def launched (p : State → KSess → Nat → Bool) (s : State) (lf : Nat) : Bool :=
  admitted true (fun t r =>
    let object : DWord := 0x8000000000000000
    match masterRange t 1 0 256, launchRect 1 (coreMaskOf lf), objRead t 1 object 256 with
    | .inr aps, some rc, (h0, .inr hd0) =>
      placementOk t 1 1 rc && decide (256 + 16 * (rc.w * rc.h) ≤ objTotal hd0) && (match objRead h0 1 object (256 + 16 * (rc.w * rc.h)) with
        | (h1, .inr hd) => (match masterRead h1 1 (svcClass t 1 false) aps with
          | (a, .inr ab) => (match launchBuild a r hd ab, (upto 256).find? (fun i => (tfind a.grd.sess i).isNone) with
            | .inr k, some ix => p a k ix
            | _, _ => false)
          | _ => false)
        | _ => false)
    | _, _, _ => false) s 0x60 (launchFrame 0x8000000000000000 0 lf)
/-- Four free cores; the cores held by another session and LFLAGS with and without QUEUE. -/
theorem test_witness_launch :
    launched (fun a k _ => coresFree a k) (launchState [] []) 0xF = true ∧
    launched (fun a k _ => !coresFree a k && decide (a.grd.queue.length < 64) && (0x1F).testBit 4) (launchState [(0, { number := 9, state := .running, cores := [0] })] []) 0x1F = true ∧
    launched (fun a k _ => !coresFree a k && !(0xF).testBit 4) (launchState [(0, { number := 9, state := .running, cores := [0] })] []) 0xF = true ∧
    launched (fun a k _ => !coresFree a k && decide (64 ≤ a.grd.queue.length)) (launchState [(0, { number := 9, state := .running, cores := [0] })] (List.range 64)) 0x1F = true := by
  decide +kernel
/-- A reserved LFLAGS bit, and an argument block off its alignment. -/
theorem test_witness_launch_refused : coreMaskOk (coreMaskOf 0xF) = true ∧ ¬(64 < 64) ∧ (32 % 64 ≠ 0) ∧
    admitted true (fun _ r => decide (r.length.toNat = 24) && decide (r.payload.length = 24)) (launchState [] []) 0x60 (launchFrame 0x8000000000000000 32 64) = true := by
  decide +kernel
/-- KERNEL_QUERY and KERNEL_ABORT of a session of the pitch, and of one that does not exist. -/
theorem test_witness_kernelQuery : [(0x61 : Byte), 0x62].all (fun op =>
    admitted true (fun t r => decide (r.length = 4) && decide (sessFind t (beNat (r.payload.take 2)) = some 0) && decide ((sessGet t 0).pitch = r.pitch))
      (launchState [(0, { number := 9, pitch := 1, state := .running })] []) op (poolFrame op 0 4 (beBytes 2 9 ++ [0, 0])) &&
    admitted true (fun t r => decide (sessFind t (beNat (r.payload.take 2)) = none)) (launchState [] []) op (poolFrame op 0 4 (beBytes 2 9 ++ [0, 0]))) = true := by decide +kernel

/-- Session 9 of the library's object, in a state. -/
def eventSess (st : KState) : KSess :=
  { number := 9, pitch := 1, state := st, cores := [0, 1, 8, 9], width := 2, height := 2, object := 0x8000000000000000, req := some {}, deadline := some 7 }
theorem test_witness_kernelEvents :
    sessFind (launchState [(0, eventSess .queued)] [0]) (9 : BitVec 16).toNat = some 0 ∧ 0 ∈ (launchState [(0, eventSess .queued)] [0]).grd.queue ∧
    coresFree (launchState [(0, eventSess .queued)] [0]) (eventSess .queued) = true ∧
    [0].takeWhile (fun x => x ≠ 0) = [] ∧ (eventSess .loading).state ≠ .queued ∧ (eventSess .loading).deadline = some 7 := by decide +kernel
/-- The object loads: it fits its rectangle, its sections and routes hold. -/
theorem test_witness_load :
    let s := launchState [(0, eventSess .loading)] []
    objRead s 1 (eventSess .loading).object 256 = (s, .inr (objBytes.take 256)) ∧
    objRead s 1 (eventSess .loading).object (objTotal (objBytes.take 256)) = (s, .inr objBytes) ∧ allowOk s 1 objBytes = true ∧ objHeadOk s objBytes = true ∧
    leAt objBytes 8 1 = 2 ∧ leAt objBytes 9 1 = 2 ∧ objSectionsOk objBytes (2 * 2) = true ∧ objRoutes objBytes 2 2 = some [] := by decide +kernel
/-- A cocoon that allows nothing, and an object that the library does not have. -/
theorem test_witness_load_fails :
    allowOk (pkPut (launchState [(0, eventSess .loading)] []) 1 { cocoons := [{ state := .ready }] }) 1 objBytes = false ∧
    objRead (launchState [] []) 1 0x8000000000000001 256 = (launchState [] [], .inl stDenied) := by decide +kernel
/-- Every core has halted, with no gate and no stage command left. -/
theorem test_witness_kernelDone :
    let s0 := launchState [(0, { eventSess .running with cores := [0] })] []
    let s := { s0 with grd := { s0.grd with cores := [(0, { halted := some 3 })] } }
    (sessGet (openGates (issueStage s 0) 0) 0).state = .running ∧ (sessGet (openGates (issueStage s 0) 0) 0).cores = [0] ∧
    (coreGet (openGates (issueStage s 0) 0) 0).halted = some 3 ∧ (coreGet (openGates (issueStage s 0) 0) 0).gate = none ∧
    (sessGet (openGates (issueStage s 0) 0) 0).issuing = [] ∧
    ((sessQuads (sessGet (openGates (issueStage s 0) 0) 0)).any (fun q => !(quadGet (openGates (issueStage s 0) 0) q).queue.isEmpty)) = false := by decide +kernel
theorem test_witness_kernelEnd : (eventSess .done).state = .done ∧ (eventSess .failed).cleared = false ∧ { eventSess .done with cleared := true }.cleared = true := by decide

/-- A chip with one stage command of session 9 in quad 0's queue, of a row of 64 bytes at address 0. -/
def stageCmd9 (out : Bool) : StageCmd := { session := 9, ticket := 1, quad := 0, out := out, base := 0, rowLen := 64, rows := 1, stride := 64 }
def stagedState (out : Bool) (attrs : Nat) : State :=
  let s := launchState [(0, eventSess .running)] []
  { s with grd := { s.grd with quads := [(0, { queue := [{ stageCmd9 out with moved := true }, stageCmd9 out] })] }
           act := { s.act with pt := [((1, 3, 0), 1), ((1, 2, 0), mkLeaf 0x100000000 false false false ||| BitVec.ofNat 64 attrs)] } }
def tileOk (s : State) (out : Bool) (p : List Piece → State → Bool) : Bool :=
  match tilePieces s 1 (stageCmd9 out) with
  | .inr ps =>
    let e := syncEnter s (masterReq 1 1 0 1) (syncLines ps) out
    e.2 && !touchesBadCocoon s 1 ps && ps.all (fun x => !entRo x.entry && !entCocoon x.entry) && p ps e.1
  | .inl _ => false
theorem test_witness_stageIn :
    ((quadGet (stagedState false 0) 0).queue.find? (fun c => !c.moved)) = some (stageCmd9 false) ∧ sessFind (stagedState false 0) 9 = some 0 ∧
    tileOk (stagedState false 0) false (fun ps e => match (masterRead e 1 (svcClass (stagedState false 0) 1 false) ps).2 with | .inr _ => true | .inl _ => false) = true ∧
    tileOk (withMeta (stagedState false 0) 0x100000000 { poison := 1 }) false (fun ps e => match (masterRead e 1 0 ps).2 with | .inr _ => false | .inl _ => true) = true := by decide +kernel
theorem test_witness_stageOut :
    tileOk (stagedState true 0) true (fun ps e => decide ((masterWrite e 1 0 0 ps (zeros 64)).2 = none) && !mirrors e 1) = true ∧
    tileOk (withMeta (stagedState true 0) 0x100000000 { poison := 1 }) true (fun ps e => (masterWrite e 1 0 0 ps (zeros 64)).2.isSome) = true := by decide +kernel
/-- A channel that is FENCED, one that is RETIRED, and a mirrored pitch. -/
theorem test_witness_stageWaits :
    tilePieces { stagedState false 0 with units := [(uChan 0, { actual := .fenced }), (uSlice 0, { actual := .up })] } 1 (stageCmd9 false) = .inl stFenced ∧
    tilePieces { stagedState false 0 with units := [(uChan 0, { actual := .retired })] } 1 (stageCmd9 false) = .inl stNotMapped := by decide +kernel
theorem test_witness_stageMirrored : mirrors (mirSet (stagedState true 0) 1 { role := .active, confirmed := true }) 1 = true := by decide +kernel

/-! ## Flies (R416 to R433) -/

/-- A partner whose endpoints start at 16, with its guy lines in the states given. -/
def flyPeer (alive : List Bool) : Peer := { addr := 7, port := 9, localBase := 16, serial := 3, alive := alive, lastBeat := [4, 4], lastAt := [some 100, some 90] }
/-- Pitch 1 mirrored with that partner. -/
def flyState (m : MirPitch) (alive : List Bool) (life : Life) : State :=
  let s := poolState 0
  let p : PitchSt := { life := life, template := 3, slots := [(0, 4)], settings := { contexts := [0x100], flyReq := true } }
  { s with pitches := [(1, p)]
           mir := { peers := [(2, flyPeer alive)], pitch := [(1, { m with peer := 2 })] }
           act := { s.act with src := [(16, { addr := 7, port := 9 })], mt := [(16, mtWord 0x100 0xFF :: List.replicate 15 0)]
                               pt := [((1, 3, 0), 1), ((1, 2, 0), mkLeaf 0x100000000 false false false)] }
           tmg := { policers := [((1, 3), { c := 1000000, p := 1000000 }), ((1, 0), { c := 1000000, p := 1000000 })], privs := [(0, 100000), (8, 100000)] } }
theorem test_witness_mirrorEvents :
    tfind (flyState {} [true, false] .up).mir.peers (2 : BitVec 4).toNat = some (flyPeer [true, false]) ∧ (flyState {} [true, false] .up).tpt.admitting = true ∧
    (flyState {} [true, false] .up).flt.stopped = false ∧ tfind (flyState {} [true, false] .up).mir.peers (3 : BitVec 4).toNat = none ∧
    lineAlive (flyPeer [true, false]) 0 = true ∧ lineAlive (flyPeer [true, false]) 1 = false ∧
    hasFly (flyState { role := .active, confirmed := true } [false, false] .up) 1 = true ∧ hasFly (flyState { role := .active } [false, false] .up) 1 = false ∧
    (pGet (flyState {} [false, false] .up) 1).life = .up ∧ lineAlive (peerGet (flyState {} [false, false] .up) (mirGet (flyState {} [false, false] .up) 1).peer) 0 = false ∧
    (mirGet (flyState { role := .standby, confirmed := true } [false, false] .up) 1).role = .standby ∧
    (mirGet (flyState { probing := true } [false, false] .up) 1).probing = true ∧ resyncOut (flyState { resync := true } [true, true] .up) 1 = false ∧
    resyncOut (let s := flyState { resync := true } [true, true] .up
      { s with tpt := { s.tpt with ctl := [(.ep 16 1 0, { reqs := [{ origin := .resync 1 0 }] })] } }) 1 = true := by decide +kernel
/-- A flow of the standby with a carry-over record, and one of another pitch. -/
theorem test_witness_takeover :
    let s0 := flyState { role := .standby, confirmed := true } [false, false] .up
    let s := { s0 with tpt := { s0.tpt with flows := [(.ep 5 1 0, { carry := some { cm := 3 } }), (.ep 5 2 0, {})] } }
    (mirGet s 1).role = .standby ∧ (mirGet s 1).confirmed = true ∧ (pGet s 1).life = .up ∧ ((flowGet s (.ep 5 (BitVec.ofNat 8 1) 0)).bind (·.carry)) = some { cm := 3 } := by
  decide +kernel

/-- A frame of the partner with a mirror record and bytes after it. -/
def mirrorFrameOf (op : Byte) (tc : BitVec 3) (record data : List Byte) : RxFrame :=
  let h : KppHdr := { context := 0x100, endpoint := 16, tc := tc, flowSeq := 1, length := BitVec.ofNat 32 data.length }
  { encap := { bytes := 200 }, srcAddr := 7, srcPort := 9, hdr := { h with hcrc := crc32c (rxHdrBytes op h) }, payload := record ++ data }
/-- A record of a KIND for a pitch, its generation, the owner, the digest's place and the time of acceptance. -/
def recordOf (kind gen : Byte) (digest : List Byte) (at_ : Nat) : List Byte := [kind, 0, 1, gen] ++ zeros 108 ++ zeros 8 ++ digest ++ beBytes 4 at_
/-- Does a frame of the partner pass its checks as a mirror frame? -/
def mirrored (p : State → Req → Bool) (s : State) (op : Byte) (f : RxFrame) : Bool :=
  match receive s op f with
  | .done _ => false
  | .go t r =>
    let u := if op = 0x21 then bulkMod t r.flow (fun l => l ++ [{ req := r, last := t.now }]) else t
    !flagMisuse u r && permitted u r && lenOk u r && alignOk u r && isMirror u r && p u r
/-- The partner's frame finds pitch 1 paired, but for the digest, which the next theorem gives. -/
def pairs (t : State) (r : Req) : Bool :=
  decide ((byteAt r.payload 2).toNat = r.pitch.toNat) && (pGet t 1).settings.flyReq && decide ((mirGet t 1).peer = ((reqPeer t r).getD (0, {})).1) && decide (r.pitch = 1) &&
    decide ((pGet t 1).settings = { contexts := [0x100], flyReq := true })
def probeFrame (at_ : Nat) : RxFrame := mirrorFrameOf 0x02 3 (recordOf 1 0 (cfgDigest (flyState {} [true, true] .pitching) 1) at_) (zeros 8)
theorem test_witness_digest (at_ : Nat) (s : State) (h : (pGet s 1).settings = { contexts := [0x100], flyReq := true }) :
    ((probeFrame at_).payload.drop 120).take 4 = cfgDigest s 1 := by
  have e : ∀ d : List Byte, d.length = 4 → ((recordOf 1 0 d at_ ++ zeros 8).drop 120).take 4 = d := by
    intro d hd
    simp [recordOf, zeros, hd]
  have l : ∀ t, (cfgDigest t 1).length = 4 := by intro t; simp [cfgDigest, beBytes, leBytes]
  unfold probeFrame mirrorFrameOf
  dsimp only
  rw [e _ (l _)]
  unfold cfgDigest
  rw [h]
  rfl
/-- How far this chip's acceptance lies behind the partner's. -/
def probeAge (t : State) (r : Req) : Nat := ((mirGet t 1).acceptNs + 2 ^ 32 - beNat ((r.payload.drop 124).take 4)) % 2 ^ 32
theorem test_witness_probe :
    [Role.standby, .active].all (fun x => mirrored (fun t r => pairs t r && decide ((mirGet t 1).role = x) && decide ((pGet t 1).life = .pitching))
      (flyState { role := x } [true, true] .pitching) 0x02 (probeFrame 5)) = true ∧
    [(1, fun d => decide (d = 1)), (0, fun d => decide (d = 0)), (2 ^ 31, fun d => decide (d = 2 ^ 31)), (2 ^ 31 - 1, fun d => decide (d = 2 ^ 31 - 1)),
      (2 ^ 31 + 1, fun d => decide (2 ^ 31 < d))].all (fun x => mirrored (fun t r => pairs t r && decide ((mirGet t 1).role = .none_) && x.2 (probeAge t r))
      (flyState { acceptNs := x.1 } [true, true] .pitching) 0x02 (probeFrame 0)) = true ∧
    mirrored (fun t r => pairs t r && decide ((pGet t 1).life = .up) && serving (uAct t (uPitch 1)) && decide ((mirGet t 1).role = .active) && !(mirGet t 1).resync)
      (flyState { role := .active } [true, true] .up) 0x02 (probeFrame 0) = true ∧
    mirrored (fun _ r => decide ((byteAt r.payload 2).toNat ≠ r.pitch.toNat)) (flyState {} [true, true] .pitching) 0x02 (mirrorFrameOf 0x02 3 (1 :: zeros 127) (zeros 8)) = true := by
  decide +kernel
/-- What R423 asks of a frame that acts here. -/
def mayAct (t : State) (r : Req) : Bool :=
  decide ((byteAt r.payload 2).toNat = 1) && decide ((mirGet t 1).role = .standby) && decide ((reqPeer t r).map (·.1) = some (mirGet t 1).peer) &&
    decide (byteAt r.payload 3 = (pGet t 1).generation) && decide ((pGet t 1).life = .up)
theorem test_witness_release :
    mirrored (fun t r => mayAct t r && (mirGet t 1).confirmed && decide (byteAt r.payload 0 = 2)) (flyState { role := .standby, confirmed := true } [true, true] .up) 0x02
      (mirrorFrameOf 0x02 3 (recordOf 2 0 (zeros 4) 0) (zeros 8)) = true ∧
    mirrored (fun t r => !mayAct t r) (flyState { role := .standby, confirmed := true } [true, true] .up) 0x02 (mirrorFrameOf 0x02 3 (recordOf 2 1 (zeros 4) 0) (zeros 8)) = true := by
  decide +kernel
theorem test_witness_mirrorData :
    mirrored (fun t r => mayAct t r && decide ((mirWrite t 1 r.tc (BitVec.ofNat 16 (beNat (((r.payload.take 128).drop 112).take 2))) r.address.toNat (r.payload.drop 128)).2 = stOk))
      (flyState { role := .standby } [true, true] .up) 0x02 (mirrorFrameOf 0x02 3 (recordOf 0 0 (zeros 4) 0) (zeros 64)) = true ∧
    mirrored (fun u r => mirAllowed u r (r.payload.take 128) && decide (((bulkFind u r.flow r.tag).map (·.waiting)).getD [] = []))
      (flyState { role := .standby } [true, true] .up) 0x21 (let f := mirrorFrameOf 0x21 3 (recordOf 0 0 (zeros 4) 0) (zeros 24)
        let h := { f.hdr with length := 64 }
        { f with hdr := { h with hcrc := crc32c (rxHdrBytes 0x21 h) } }) = true ∧
    mirrored (fun u r => !mirAllowed u r (r.payload.take 128))
      (flyState {} [true, true] .up) 0x21 (let f := mirrorFrameOf 0x21 3 (recordOf 0 0 (zeros 4) 0) (zeros 24)
        let h := { f.hdr with length := 64 }
        { f with hdr := { h with hcrc := crc32c (rxHdrBytes 0x21 h) } }) = true := by decide +kernel
/-- BULK_DATA of an open mirror transfer. -/
theorem test_witness_mirrorBulk : mirrored (fun t r => (match bulkFind t r.flow r.tag with | some b => b.passed | none => false))
    (let s := flyState { role := .standby } [true, true] .up
     { s with tpt := { s.tpt with flows := [(.ep 16 1 3, { c := 0, bulk := [{ passed := true, req := { length := 128 } }] })] } }) 0x23 (mirrorFrameOf 0x23 3 [] (zeros 64)) = true := by
  decide +kernel

/-- A heartbeat of the partner, number 5 after 4, and one with the old number. -/
def beatFrame (beat : Nat) : RxFrame :=
  let h : KppHdr := { typ := 2, endpoint := 16, tc := 7, length := 60 }
  { encap := { bytes := 120 }, srcAddr := 7, srcPort := 9, hdr := { h with hcrc := crc32c (rxHdrBytes 0x7E h) }
    payload := beBytes 8 3 ++ beBytes 8 beat ++ zeros 10 ++ [0, 0] ++ zeros 31 ++ [2] }
def beatTaken (beat : Nat) (p : State → Nat → Peer → Bool) : Bool :=
  let f := beatFrame beat
  let g := receiveOther (flyState { role := .standby } [true, true] .up) 0x7E f
  let m := meter g.1 0 7 (viaPort f.via) f.encap.dscp.toNat f.encap.bytes 0
  g.2 && decide (m.2 = some false) && (match partnerOf m.1 f.hdr.endpoint.toNat with
    | some (k, q) => p m.1 k q
    | none => false)
theorem test_witness_heartbeat :
    beatTaken 5 (fun _ _ q => decide ((beatFrame 5).payload.length = 60) && decide (beNat ((beatFrame 5).payload.take 8) = q.serial.toNat) &&
      decide ((q.lastBeat[0]?).getD 0 < beNat (((beatFrame 5).payload.drop 8).take 8))) = true ∧
    beatTaken 4 (fun _ _ q => !decide ((q.lastBeat[0]?).getD 0 < beNat (((beatFrame 4).payload.drop 8).take 8))) = true := by decide +kernel

/-! ## Lifecycle, sessions and trust (R18 to R51, R197 to R213)

The tag of an authenticated message is a value of the free keyed digest: these frames carry the value that the session's key gives. -/

/-- A message of a management session: its body, the session's number 1, counter 1, and its tag. -/
def authFrame (op : Byte) (body : List Byte) : RxFrame :=
  let h : KppHdr := { flags := 0x4800, tc := 6, flowSeq := 1, length := BitVec.ofNat 32 (body.length + 28) }
  { encap := { bytes := 200 }, srcAddr := 7, srcPort := 9, hdr := { h with hcrc := crc32c (rxHdrBytes op h) }
    payload := body ++ (beBytes 4 1 ++ beBytes 8 1 ++ first16 (Config.hmac 5 (tagInput 1 1 (rxHdrBytes op h) body))) }
/-- The chip has that session. -/
def authState (s : State) : State :=
  { s with tpt := { s.tpt with sessions := [{ number := 1, isOpen := true, key := 5, addr := 7, port := 9 }] }
           tmg := { s.tmg with privs := [(0, 100000)] } }

theorem authCheck_authFrame (s : State) (op : Byte) (body : List Byte) (hs : mgmtFind s 1 = some { number := 1, isOpen := true, key := 5, addr := 7, port := 9 }) :
    authCheck s op (authFrame op body) = .good 1 1 := by
  have hl : (authFrame op body).payload.length = body.length + 28 := by simp [authFrame, first16, beBytes, leBytes]
  have ht : (authFrame op body).payload.take ((authFrame op body).payload.length - 28) = body := by rw [hl]; simp [authFrame]
  have hd : (authFrame op body).payload.drop ((authFrame op body).payload.length - 28) =
      beBytes 4 1 ++ beBytes 8 1 ++ first16 (Config.hmac 5 (tagInput 1 1 (rxHdrBytes op { (authFrame op body).hdr with alive := 0 }) body)) := by
    rw [hl]; simp [authFrame, rxHdrBytes]
  have h0 : ∀ l, beAt (beBytes 4 1 ++ beBytes 8 1 ++ l) 0 4 = 1 ∧ beAt (beBytes 4 1 ++ beBytes 8 1 ++ l) 4 8 = 1 := by
    intro l; constructor <;> rfl
  have h1 : ∀ l : List Byte, l.length = 16 → ((beBytes 4 1 ++ beBytes 8 1 ++ l).drop 12).take 16 = l := by
    intro l hl; simp [beBytes, leBytes, List.take_of_length_le (Nat.le_of_eq hl)]
  have h2 : ∀ d, (first16 d).length = 16 := by intro d; simp [first16, beBytes, leBytes]
  unfold authCheck
  dsimp only
  rw [if_neg (by rw [hl]; omega), ht, hd, (h0 _).1, (h0 _).2]
  rw [show BitVec.ofNat 32 1 = (1 : BitVec 32) from rfl, hs]
  dsimp only
  rw [h1 _ (h2 _)]
  simp

/-- Does such a message pass checks 1 to 8 where its tag holds, with a test of the state and the request? -/
def authed (p : State → Req → Bool) (s0 : State) (op : Byte) (body : List Byte) : Bool :=
  let f := authFrame op body
  let s := poolTake s0 f.via f.hdr.tc.toNat
  s.tpt.admitting && decide (f.encap.udpDst.toNat = kppPort s) && decide (earlyFail op f = none) && decide (srcFail s op f = none) && flagA f.hdr.flags &&
    decide (aliveGap s (rxStream op f) f.hdr.alive = some 0) &&
    (let s2 := tptMod s (fun t => { t with rxAlive := aput t.rxAlive (rxStream op f) f.hdr.alive })
     decide (mgmtFind s2 1 = some { number := 1, isOpen := true, key := 5, addr := 7, port := 9 }) &&
      (let s3 := mgmtMod s2 1 (fun m => { m with lastCounter := 1, lastValid := s.now })
       let fl := frameFlow s2 op f
       let m := meter s3 fl.2 f.hdr.tc.toNat (viaPort f.via) f.encap.dscp.toNat f.encap.bytes (if sessBound op f.hdr.flags then 0 else f.hdr.context)
       match m.2 with
       | none => false
       | some y => match enterFlow m.1 { mkReq op f fl.1 fl.2 with sess := some 1, counter := 1, payload := f.payload.take (f.payload.length - 28), yellow := y } with
         | .done _ => false
         | .go t r => p t r))

theorem authed_go {p s op body} (h : authed p s op body = true) : ∃ t r, receive s op (authFrame op body) = .go t r ∧ p t r = true := by
  unfold authed at h
  simp only [Bool.and_eq_true, decide_eq_true_eq] at h
  obtain ⟨⟨⟨⟨⟨⟨h1, h2⟩, h3⟩, h4⟩, h5⟩, h6⟩, h7, h8⟩ := h
  have e := authCheck_authFrame _ op body h7
  unfold receive
  simp only [h1, h2, h3, h4, h6, h5, Bool.not_true, Bool.false_eq_true, if_false, not_true_eq_false, ne_eq, if_true, true_or, e]
  split at h8
  · cases h8
  · rename_i m
    try rw [m]
    try dsimp only
    split at h8
    · cases h8
    · rename_i q
      exact ⟨_, _, q, h8⟩

def lcState (p : PitchSt) : State := authState { poolState 0 with pitches := [(1, p)] }
def lcOk (r : Req) : Bool := flagA r.flags && !flagH r.flags && !flagX r.flags && decide (r.tc = 6) && lcSizeOk r && decide (0 < r.length.toNat)
def lcTaken (p : State → Req → Bool) (x : PitchSt) (op : Byte) (body : List Byte) : Bool :=
  authed (fun t r => lcOk r && decide (r.length.toNat = (authFrame op body).payload.length) && p t r) (lcState x) op body
def lcReady (x : PitchSt) (t : State) (r : Req) : Bool := decide ((lcPitch r).1 = 1) && decide (pGet t 1 = x)
def bareReq : Req := { op := 0x71, seq := 9 }
/-- The messages with a payload of four bytes, of ATTACH and of PITCH_ADJUST: in states that accept them, that do not, and with a message in progress. -/
theorem test_witness_lifecycle :
    [({ life := .up }, (0x71 : Byte)), ({ life := .struck }, 0x71), ({ life := .up }, 0x73), ({ life := .struck }, 0x73), ({ life := .sweeping }, 0x73),
      ({ life := .up }, 0x76), ({ life := .struck }, 0x76), ({ life := .sweeping }, 0x76), ({ life := .empty }, 0x76), ({ life := .pitching }, 0x76),
      ({ life := .up, work := some (.create bareReq 0) }, 0x71), ({ life := .up, work := some (.create bareReq 0) }, 0x73),
      ({ life := .up, work := some (.create bareReq 0) }, 0x76)].all (fun x => lcTaken (lcReady x.1) x.1 x.2 [1, 0, 0, 0]) = true ∧
    [({ life := .up }, (0x74 : Byte), 12), ({ life := .struck }, 0x74, 12), ({ life := .up, work := some (.create bareReq 0) }, 0x74, 12),
      ({ life := .up }, 0x75, 56), ({ life := .struck }, 0x75, 56), ({ life := .sweeping }, 0x75, 56),
      ({ life := .up, work := some (.create bareReq 0) }, 0x75, 56)].all (fun x => lcTaken (lcReady x.1) x.1 x.2.1 (1 :: zeros (x.2.2 - 1))) = true ∧
    lcTaken (fun _ r => decide ((lcPitch r).1 = 0)) {} 0x77 [0, 0, 0, 0] = true ∧ lcTaken (fun _ r => decide ((lcPitch r).1 = 1)) {} 0x77 [1, 0, 0, 0] = true := by
  decide +kernel

/-- A settings record of template 3 for pitch 1 with one granule, one context and reserved bytes. -/
def lcRecord (ctx : Nat) (reserved : Byte) : List Byte :=
  [3, 1, reserved, 0] ++ beBytes 4 1 ++ [1, 0, 0, 0, 0, 0, 0, 0] ++ beBytes 4 100 ++ [0, 1, 0, 0] ++ zeros 20 ++ zeros 64 ++ beBytes 2 ctx ++ zeros 30 ++ zeros 4
/-- Its template, with a FREE granule of group 0 and one that pitch 1 has. -/
def lcRecState (x : PitchSt) : State :=
  let s := lcState x
  { s with templates := [(3, { held := true, groupMask := 1 })]
           dmc := { s.dmc with gran := [(4, { state := .held, pitch := 1 }), (9, { state := .free })] } }
def recTaken (x : PitchSt) (op : Byte) (body : List Byte) (e : Option (Nat × Nat)) : Bool :=
  authed (fun t r => lcOk r && decide (r.length.toNat = (authFrame op body).payload.length) && lcReady x t r &&
    decide (recordRefusal t r 1 (decide (op = 0x72)) = e)) (lcRecState x) op body
theorem test_witness_records :
    recTaken {} 0x70 (lcRecord 0x200 0) none = true ∧ recTaken {} 0x70 (lcRecord 0x200 1) (some (rsBounds, 2)) = true ∧
    recTaken { life := .struck, template := 3, slots := [(0, 4)], settings := { contexts := [0x100] } } 0x72 (lcRecord 0x200 0) none = true ∧
    recTaken { life := .struck, template := 3, slots := [(0, 4)], settings := { contexts := [0x100] } } 0x72 (lcRecord 0 0) (some (rsBounds, 108)) = true ∧
    lcTaken (lcReady { life := .up }) { life := .up } 0x70 (lcRecord 0x200 0) = true ∧
    lcTaken (lcReady { life := .up }) { life := .up } 0x72 (lcRecord 0x200 0) = true ∧
    lcTaken (lcReady { work := some (.create bareReq 0) }) { work := some (.create bareReq 0) } 0x70 (lcRecord 0x200 0) = true ∧
    lcTaken (lcReady { work := some (.create bareReq 0) }) { work := some (.create bareReq 0) } 0x72 (lcRecord 0x200 0) = true := by
  decide +kernel

/-- A live message's payload: the kind of setting and its values at the template's least and most; ATTACH of an endpoint that is new and of one
that is there; DETACH of one that holds a context. -/
def adjustReq (k a b : Nat) : Req := { payload := [1, BitVec.ofNat 8 k, 0, 0] ++ beBytes 4 a ++ beBytes 4 b }
def attachReq (i ctx : Nat) : Req := { payload := [1, 1] ++ beBytes 2 i ++ beBytes 16 7 ++ beBytes 2 9 ++ [0xFF, 1] ++ beBytes 2 ctx ++ zeros 30 }
def liveState : State :=
  let s := lcState { life := .up, template := 3, settings := { contexts := [0x100, 0x101], attachMax := 2 } }
  { s with templates := [(3, { drainMin := 100, drainMax := 200, rates := List.replicate 8 { cMin := 1, cMax := 5, pMin := 1, pMax := 5 } })] }
theorem test_witness_live :
    8 < beAt (adjustReq 9 0 0).payload 1 1 ∧ beAt (adjustReq 8 200 0).payload 1 1 = 8 ∧ (tmplOf liveState (pGet liveState 1)).drainMin ≤ beAt (adjustReq 8 100 0).payload 4 4 ∧
    beAt (adjustReq 8 200 0).payload 4 4 ≤ (tmplOf liveState (pGet liveState 1)).drainMax ∧ ((tmplOf liveState (pGet liveState 1)).rates[7]?).getD ({} : RateBounds) = { cMin := 1, cMax := 5, pMin := 1, pMax := 5 } ∧
    beAt (adjustReq 7 5 5).payload 4 4 = 5 ∧ beAt (adjustReq 7 5 5).payload 8 4 = 5 ∧
    [(6, (0x100 : Nat)), (5, 0x101)].all (fun x =>
      let r := attachReq x.1 x.2
      let c : BitVec 16 := BitVec.ofNat 16 (beAt r.payload 24 2)
      decide (beAt r.payload 2 2 = x.1) && decide (beAt r.payload 23 1 = 1) && (List.range 15).all (fun j => decide (beAt r.payload (26 + 2 * j) 2 = 0)) &&
      decide (partnerOf liveState x.1 = none) && decide (liveState.tpt.trackers = []) && (match tfind liveState.act.src x.1 with
        | some e => decide (e.addr = BitVec.ofNat 128 (beAt r.payload 4 16)) && decide (e.port = BitVec.ofNat 16 (beAt r.payload 20 2))
        | none => true) &&
      decide (c ≠ 0 ∧ c ≠ 0xFFFF ∧ c ∈ (pGet liveState 1).settings.contexts ∧ c ∉ heldContexts liveState x.1) && decide (beAt r.payload 1 1 ≤ 3) &&
      decide (byteAt r.payload 22 ≠ 0) && decide ((heldContexts liveState x.1).length + 1 ≤ 16) &&
      (decide (x.1 ∈ attachedTo liveState 1) || decide ((attachedTo liveState 1).length < (pGet liveState 1).settings.attachMax))) = true ∧
    (0x100 ∈ heldContexts liveState 5 ∧ 0x100 ∈ boundContexts liveState 1) := by decide +kernel

/-- Pitch 1 with a message in progress. -/
def workState (w : Work) (fly draining : Bool) (restarting : Bool := false) : State :=
  let s := lcState { life := .struck, template := 3, draining := draining, work := some w, settings := { contexts := [0x100], flyReq := fly } }
  { s with svc := { s.svc with restarting := restarting } }
theorem test_witness_lifeEvents :
    (workState (.create bareReq 0) true false).svc.restarting = false ∧ (mirGet (workState (.create bareReq 0) true false) 1).role = .none_ ∧
    (pGet (workState (.create bareReq 0) false false) 1).work = some (.create bareReq 0) ∧ (pGet (workState (.create bareReq 0) false false) 1).settings.flyReq = false ∧
    dependsFenced (workState (.repitch bareReq {} [] [] 0) false false) 1 = false ∧
    dependsFenced (let s := workState (.repitch bareReq {} [] [] 0) false false
      { pSet s 1 { pGet s 1 with slots := [(0, 4)] } with units := [(uGroup 0, { actual := .fenced })] }) 1 = true ∧
    [false, true].all (fun fold =>
      let s := workState (.strike bareReq 0 1 0 fold) false true
      let g := (pitchTrackers (syncDeadline (nowTo s 0) 1) 1).foldl (fun a x => ((failAtDeadline a.1 x.req).1, a.2 + b2n (failAtDeadline a.1 x.req).2)) (syncDeadline (nowTo s 0) 1, 0)
      let w := bumpN g.1 .svcDrainFail 0 0 0 g.2
      (pGet s 1).draining && drained s 1 && !(pSet w 1 { pGet w 1 with work := some (.strike bareReq 0 1 (0 + g.2) fold) }).svc.restarting) = true ∧
    (slotGet (slotPut State.reset 7 { state := .destroyed }) (7 : Byte).toNat).state = .destroyed ∧
    (let s := { State.reset with dmc := { State.reset.dmc with gran := [(4, { state := .sweeping })] }, sweeping := [4] }
     (granGet s (4 : BitVec 14).toNat).state = .sweeping ∧ (4 : BitVec 14).toNat ∈ s.sweeping ∧ (4 : BitVec 14).toNat ∉ s.svc.lateGranules ∧ s.svc.restarting = false) ∧
    (workState (.create bareReq 0) false false true).svc.restarting = true := by decide +kernel

/-- A handshake message: OPEN with none and with four sessions open; PROOF of a session in its handshake; CLOSE by the session itself. -/
def sessFrame (body : List Byte) : RxFrame :=
  let h : KppHdr := { flags := 0x4000, tc := 6, flowSeq := 1, length := BitVec.ofNat 32 body.length }
  { encap := { bytes := 700 }, srcAddr := 7, srcPort := 9, hdr := { h with hcrc := crc32c (rxHdrBytes 0x7C h) }, payload := body }
def sessState (l : List MgmtSess) : State :=
  let s := authState (poolState 0)
  { s with tpt := { s.tpt with sessions := l } }
def sessTaken (l : List MgmtSess) (body : List Byte) (p : State → Req → Bool) : Bool :=
  admitted false (fun t r => !flagH r.flags && !flagX r.flags && decide (r.tc = 6) && decide (r.length.toNat = (sessFrame body).payload.length) && p t r) (sessState l) 0x7C (sessFrame body)
theorem test_witness_sessions :
    sessTaken [] [1, 0, 0, 0] (fun t r => decide (byteAt r.payload 0 = 1) && decide (r.payload.length = 4) && decide ((t.tpt.sessions.filter (·.isOpen)).length < 4)) = true ∧
    sessTaken (List.replicate 4 { isOpen := true }) [1, 0, 0, 0] (fun t _ => decide (4 ≤ (t.tpt.sessions.filter (·.isOpen)).length)) = true ∧
    sessTaken [{ number := 3 }] ([2, 0, 0, 0] ++ beBytes 4 3 ++ zeros 512) (fun t r => decide (byteAt r.payload 0 = 2) && decide (r.payload.length = 520) &&
      decide (mgmtFind t (BitVec.ofNat 32 (beAt r.payload 4 4)) = some { number := 3 })) = true ∧
    authed (fun _ r => !flagH r.flags && !flagX r.flags && decide (r.tc = 6) && decide (r.length.toNat = (authFrame 0x7C [3, 0, 0, 0]).payload.length) &&
      decide (byteAt r.payload 0 = 3) && decide (r.payload.length = 4) && decide (r.sess = some 1)) (authState (poolState 0)) 0x7C [3, 0, 0, 0] = true ∧
    mgmtFind (sessState [{ number := 3 }]) 3 = some { number := 3 } := by decide +kernel

/-! ### Trust -/

def trustState (k : PitchKeys) (fum : Fum → Fum) : State :=
  let s := poolState 0
  let u := pkPut { s with tmg := { s.tmg with policers := ((1, 6), { c := 1000000, p := 1000000 }) :: s.tmg.policers }
                          act := { s.act with pt := [((1, 3, 0), 1), ((1, 2, 0), mkLeaf 0x100000000 false false false)] } } 1 k
  { u with fum := fum u.fum }
def trusted (k : PitchKeys) (fum : Fum → Fum) (op : Byte) (len : Nat) (body : List Byte) (p : State → Req → Bool) (walled small : Bool := false) : Bool :=
  let s := trustState k fum
  admitted false (fun t r => !flagMisuse t r && permitted t r && decide (pitchCheck t r = none) && decide (r.length.toNat = len) && decide (r.payload.length = len) && p t r)
    { s with templates := if walled then [(3, {})] else s.templates, act := if small then { s.act with src := [(5, { addr := 7, port := 9, maxSeg := 0 })] } else { s.act with src := [(5, { addr := 7, port := 9, maxSeg := 2 })] } }
    op (poolFrame op 0 len body 0x4000 6)
theorem test_witness_quotes :
    trusted {} id 0x78 64 (zeros 64) (fun t r => smallSegs t r) false true = true ∧
    trusted {} id 0x78 64 (zeros 64) (fun t r => !smallSegs t r && !pCocoon t r.pitch.toNat) true = true ∧
    trusted { eph := some (3, 0) } id 0x78 64 (zeros 64) (fun t r => !smallSegs t r && pCocoon t 1 && decide ((pkGet t 1).eph = some (3, 0))) = true ∧
    trusted {} (fun x => { x with ephPool := [(4, 0)] }) 0x78 64 (zeros 64) (fun t r => !smallSegs t r && pCocoon t 1 && decide ((pkGet t 1).eph = none) &&
      decide (t.fum.ephPool = [(4, 0)])) = true ∧
    trusted {} (fun x => { x with ephPool := [] }) 0x78 64 (zeros 64) (fun t r => !smallSegs t r && pCocoon t 1 && decide ((pkGet t 1).eph = none) && decide (t.fum.ephPool = [])) = true := by
  decide +kernel
/-- Whether the two wrapped keys unwrap is open: every other condition of a delivery holds here. -/
theorem test_witness_delivery :
    trusted { eph := some (3, 0) } id 0x79 1024 (zeros 1024) (fun t r => pCocoon t r.pitch.toNat && decide ((pGet t 1).life = .up) && decide ((pkGet t 1).cocoons = []) &&
      decide ((pkGet t 1).eph = some (3, 0))) = true ∧
    trusted {} id 0x79 1024 (zeros 1024) (fun t r => decide ((pkGet t r.pitch.toNat).eph = none)) = true ∧
    trusted {} id 0x7B 4 (zeros 4) (fun _ _ => true) = true := by decide +kernel
/-- A blob at 20000h with a plaintext of 64 KiB, and its place. -/
def blobState (s : State) : State := metaPut (memPut s (0x100020000 + 16) (beBytes 8 65536)) 0x100020000 { owner := 0x100 }
def loadBody (blob base : Nat) : List Byte := beBytes 8 blob ++ zeros 16 ++ beBytes 8 base ++ zeros 16
def loadTaken (body : List Byte) (p : Sum Nat Nat → State → Req → Bool) : Bool :=
  admitted false (fun t r => !flagMisuse t r && permitted t r && decide (pitchCheck t r = none) && decide (r.length.toNat = 48) && decide (r.payload.length = 48) &&
    p (cocoonCheck t r (readDesc r.payload 0) (readDesc r.payload 24)) t r) (blobState (trustState { content := some 5 } id)) 0x7A (poolFrame 0x7A 0 48 body 0x4000 6)
theorem test_witness_cocoonLoad :
    loadTaken (loadBody 0x20000 0) (fun c t r => decide (c = .inr 65536) && (blobHeader t 1 (readDesc r.payload 0).base).isSome) = true ∧
    loadTaken (loadBody 0x20000 1) (fun c _ _ => decide (c = .inl stAlign)) = true := by decide +kernel
theorem test_witness_signed :
    let q : Quote := { req := { flow := .ep 5 1 6, seq := 2 } }
    let s := trustState {} (fun x => { x with quotes := [q] })
    s.fum.quotes.find? (fun q => decide (q.req.flow = .ep 5 1 6) && decide (q.req.seq = 2)) = some q ∧ trkFind s (.ep 5 1 6) 2 = none ∧
    trkFind { s with tpt := { s.tpt with trackers := [{ req := q.req }] } } (.ep 5 1 6) 2 = some { req := q.req } ∧
    (trustState {} (fun x => { x with ephPool := [] })).fum.ephPool.length < 4 ∧ 4 ≤ (trustState {} (fun x => { x with ephPool := List.replicate 4 (0, 0) })).fum.ephPool.length := by
  decide +kernel
/-- A running load: with its ranges mapped, and not. -/
def loadState (pt : AMap (Nat × Nat × Nat) DWord) : State :=
  let s := trustState { content := some 5, cocoons := [{ base := 0, len := 65536, state := .loading, blob := 0x20000 }] } id
  { s with act := { s.act with pt := pt } }
theorem test_witness_loadDone :
    (pkGet (loadState []) (1 : Byte).toNat).cocoons.find? (fun c => c.state = .loading) = some { base := 0, len := 65536, state := .loading, blob := 0x20000 } ∧
    (pkGet (loadState []) 1).content = some 5 ∧ mapped (loadState []) 1 0x20000 (384 + 65536) = none ∧
    (let s := loadState [((1, 3, 0), 1), ((1, 2, 0), mkLeaf 0x100000000 false false false)]
     (mapped s 1 0 65536).isSome = true ∧ ((mapped s 1 0x20000 (384 + 65536)).map (firstSick s)) = some none ∧
     ((mapped s 1 0x20000 (384 + 65536)).map (fun ps => firstSick (metaPut s 0x100020040 { poison := 1 }) ps)) = some (some (0x100020040, .media))) := by
  decide +kernel

/-! ## Memory channels (R163 to R182) -/

/-- Channel 0 with a read and a buffered line of subchannel A or B, and the metadata of the read's line. -/
def chanState (queue : List DmcReq) (wbuf : List WbLine) (m : LineMeta) : State :=
  let s := withMeta (poolState 0) 0x100000000 m
  { s with dmc := { s.dmc with chans := { queue := queue, wbuf := wbuf } :: s.dmc.chans.drop 1, refreshNext := some 3900 } }
def chanRead : DmcReq := { line := 0x100000000, pitch := 1, arrived := 2 }
/-- The read of channel 0 is the one that goes first, on its subchannel, and its line has a verdict. -/
def readsFirst (m : LineMeta) (v : LineVerdict) : Bool :=
  let s := chanState [chanRead] [] m
  [false, true].any (fun sub => match nextCand s (0 : BitVec 4).toNat (b2n sub) (fun q => !q.write) with
    | none => false
    | some q =>
      let t := inorderLeft (chMod (countAccess (touchBank s 0 chanRead.line) 0 chanRead.cls 1 false) 0 (fun ch => { ch with queue := ch.queue.eraseIdx 0 })) 0
      decide (firstIdx (fun (x : DmcReq) => !x.held && decide (x.line = q.line) && decide (x.arrived = q.arrived)) (chGet s 0).queue 0 = some 0) &&
        decide ((chGet s 0).queue[0]? = some chanRead) && decide (lineVerdict t chanRead.line = v) &&
        decide (nextCand s 0 (1 - b2n sub) (fun q => !q.write) = none))
theorem test_witness_reads : readsFirst {} .good = true ∧ readsFirst { poison := 1 } .media = true ∧
    readsFirst { owner := 0x100, keySlot := 5, keyGen := 3 } .integrity = true := by decide +kernel
theorem test_witness_channelEvents :
    (let s := chanState [] [{ line := 0x100000000, arrived := 2 }] {}
     [false, true].any (fun sub => match nextCand s (0 : BitVec 4).toNat (b2n sub) (fun q => q.write) with
      | none => false
      | some q => decide (firstIdx (fun (x : WbLine) => decide (x.line = q.line) && decide (x.arrived = q.arrived)) (chGet s 0).wbuf 0 = some 0) &&
          decide (nextCand s 0 (1 - b2n sub) (fun q => q.write) = none)) = true) ∧
    (chanState [] [] {}).dmc.refreshNext = some 3900 ∧
    ((chGet (chanState [chanRead] [] {}) 0).queue.filter (fun q => !q.promoted ∧ !q.held)) = [chanRead] ∧
    aget (chGet (chMod (chanState [] [] {}) 0 (fun ch => { ch with banks := [((1, 0, 3), (4, 5))] })) (0 : BitVec 4).toNat).banks (b2n true, (0 : BitVec 4).toNat, (3 : BitVec 5).toNat) = some (4, 5) := by
  decide +kernel
/-- A subchannel with its run of alerts, stopped or not, a retraining timer, and the group's last retraining. -/
def alertState (b : SubCh) (timer : Option Nat) (last : Tab Nat) (a : Actual) : State :=
  let s := chMod (chanState [] [] {}) 0 (fun ch => { ch with subA := b, retrainTimer := timer })
  uSet { s with dmc := { s.dmc with retrains := last } } (uChan 0) { intent := .up, actual := a }
theorem test_witness_alerts :
    (subGet (alertState { consec := 1 } none [] .up) 0 0).consec < 2 ∧ 2 ≤ (subGet (alertState { consec := 2 } none [] .up) 0 0).consec ∧
    (let s := alertState { consec := 2 } none [] .up
     let u := chMod (subMod (bump s .dmcCaAlert 0 0 0) 0 0 (fun b => { b with stopped := true, deferred := b.deferred || true, consec := 0 })) 0
       (fun ch => { ch with banks := ch.banks.filter (fun e => e.1.1 ≠ 0) })
     serving (uAct u (uChan 0)) = true ∧ tfind s.dmc.retrains 0 = none ∧ tfind u.dmc.retrains 0 = none) ∧
    (let s := alertState { consec := 2 } none [(0, 5)] .up
     let u := chMod (subMod (bump s .dmcCaAlert 0 0 0) 0 0 (fun b => { b with stopped := true, deferred := b.deferred || true, consec := 0 })) 0
       (fun ch => { ch with banks := ch.banks.filter (fun e => e.1.1 ≠ 0) })
     serving (uAct u (uChan 0)) = true ∧ tfind u.dmc.retrains 0 = some 5 ∧ u.now < 5 + 600000000000) ∧
    (subGet (alertState { stopped := true } none [] .up) 0 0).stopped = true ∧ (subGet (alertState { stopped := true } none [] .up) 0 0).deferred = false ∧
    (subGet (alertState {} none [] .up) 0 0).stopped = false ∧ (uGet (alertState {} (some 7) [] .training) (uChan 0)).actual = .training ∧
    (chGet (alertState {} (some 7) [] .training) 0).retrainTimer = some 7 ∧ (chGet (alertState {} none [] .training) 0).retrainTimer = none := by decide +kernel

/-! ## Traffic, units and the fabric (R378 to R408, R5 to R11) -/

/-- A chip whose service core 0 runs, with a pitch in a state and a gate list for granule group 0. -/
def mgmtState (g : GateList) (life : Life) : State :=
  { State.reset with
    units := [(uSc 0, { intent := .up, actual := .up })], pitches := [(1, { life := life })]
    tpt := { sessions := [{ number := 1, isOpen := true, scopeOn := true, scopePitch := 1 }] }
    tmg := { lists := [(8, g)] } }
def gateEntry : Word × Word := (0xFF00007D, 0)
def shadowed (t : Nat) : GateList := { shadow := [(0, (125, 0))], len := 1, tNs := t }
theorem test_witness_gateCommit :
    scopeOf (mgmtState {} .up) (.session 1) ≠ none ∧ scopeOf (mgmtState {} .up) (.sc 0) = none ∧ srcOpen (mgmtState {} .up) (.sc 0) = true ∧
    (mgmtState {} .up).boot.step ≠ 15 ∧ commitFails (mgmtState (shadowed 20000) .up) (8 : BitVec 4).toNat (shadowed 20000) = none ∧
    glGet (mgmtState (shadowed 20000) .up) 8 = shadowed 20000 ∧
    commitFails (mgmtState (shadowed 9999) .up) 8 (shadowed 9999) = some 3 ∧ (shadowed 9999).start = none ∧
    commitFails (mgmtState { shadowed 9999 with start := some 0 } .up) 8 { shadowed 9999 with start := some 0 } = some 3 ∧
    (pGet (mgmtState {} .empty) (1 : Byte).toNat).life = .empty ∧ (pGet (mgmtState {} .struck) 1).life = .struck ∧ (pGet (mgmtState {} .up) 1).life = .up := by decide +kernel
/-- A list that runs its only entry of 1,000 ns from 0, one pending for 1,000 or 1,001, and one of two entries. -/
def runningList (n t : Nat) : GateList := { active := List.replicate n gateEntry, start := some 0, pending := some (t, [gateEntry]) }
theorem test_witness_gateEvents :
    (glGet (mgmtState {} .up) (8 : BitVec 4).toNat).pending = none ∧ (glGet (mgmtState {} .up) 8).start = none ∧ gInterval gateEntry = 1000 ∧
    (runningList 1 1000).active[(runningList 1 1000).entry]? = some gateEntry ∧ (runningList 1 1000).entry + 1 = (runningList 1 1000).active.length ∧
    1000 ≤ 0 + gInterval gateEntry ∧ 0 + gInterval gateEntry < 1001 ∧ (runningList 2 1000).entry + 1 ≠ (runningList 2 1000).active.length ∧
    (glGet (mgmtState (runningList 1 1000) .up) 8).pending = some (1000, [gateEntry]) ∧ (glGet (mgmtState (runningList 1 1000) .up) 8).start = some 0 ∧
    (glGet (mgmtState { runningList 1 1000 with start := none } .up) 8).start = none := by decide +kernel
theorem test_witness_refill : (pGet (mgmtState {} .up) 1).life ≠ .empty := by decide +kernel

/-- Link 0 in a state with frames of the classes given, and a replay. -/
def linkState (st : KlrState) (cls : List Nat) (replay : List (BitVec 24)) : State :=
  { State.reset with
    tpt := { admitting := true }
    tmg := { queues := cls.map (fun c => ((0, 1, c), { reqs := [{ tc := BitVec.ofNat 3 c, stamp := c }] })) }
    klr := [(0, { state := st, replay := replay, limit := List.replicate 7 (some 100) })] }
/-- What the link chooses, after counting the heads it holds. -/
def chosen (s : State) : Option Nat := (chooseHead ((s.tmg.queues.filter (fun e => e.1.1 = 0)).foldl noteHeld s) 0).map (·.key.2.2)
theorem test_witness_starts :
    linkOpen (linkState .off [] []) 0 = false ∧ serving (uAct State.reset (uPort 4)) = false ∧ linkOpen (linkState .plain [] []) 0 = true ∧
    (eligibleHeads (linkState .plain [] []) 0).isEmpty = true ∧ (klrGet (linkState .plain [] []) 0).replay = [] ∧
    chosen (linkState .plain [0, 6, 7] []) = some 7 ∧ chosen (linkState .plain [0, 6] []) = some 6 ∧ chosen (linkState .plain [0, 1] []) = some 1 ∧
    chosen (linkState .up [0] []) = some 0 ∧ chosen (linkState .up [0, 7] [3]) = some 7 ∧ chosen (linkState .plain [0] [3]) = some 0 ∧
    (klrGet (linkState .plain [0] [3]) 0).replay ≠ [] ∧ (eligibleHeads (linkState .up [0] [3]) 0).isEmpty = true ∧
    (chooseHead (linkState .plain [0, 6, 7] []) 0).isSome = true ∧ (chooseHead (linkState .plain [0, 1] []) 0).isSome = true := by decide +kernel

/-- Units in the states that writes of their intents, audits and bring-ups find. -/
def unitState (k : Nat) (u : UnitSt) : State :=
  let s := mgmtState {} .up
  { uSet s k u with boot := { s.boot with step := 10 } }
theorem test_witness_units :
    srcOpen (unitState 5 {}) (.sc 0) = true ∧ (unitState 5 {}).boot.step ≠ 15 ∧ agentOk (BitVec.ofNat 16 grdAgent).toNat = true ∧
    unitOk grdAgent (0x1F0 : BitVec 9).toNat = false ∧ keyPitch (unitKey svcAgent 1) ≠ none ∧ (uGet (unitState (uCore 0) { actual := .retired }) (uCore 0)).actual = .retired ∧
    unitOk grdAgent (0 : BitVec 9).toNat = true ∧ unitKey grdAgent 0 = uCore 0 ∧ keyPitch (uCore 0) = none ∧ (uGet (unitState (uCore 0) {}) (uCore 0)).actual = .off ∧
    (uGet (unitState (uCore 0) { actual := .up }) (uCore 0)).actual ≠ .off ∧
    unitAgrees (unitState (uCore 0) {}) (uCore 0) = true ∧ unitAgrees (unitState (uCore 0) { intent := .off, actual := .up }) (uCore 0) = false ∧
    (uGet (unitState (uCore 0) { intent := .off, actual := .up }) (uCore 0)).disagree = false ∧
    (uGet (unitState (uCore 0) { intent := .off, actual := .training, disagree := true }) (uCore 0)).disagree = true := by decide +kernel
theorem test_witness_bringUp :
    uAct (unitState (uCore 0) {}) (uCore 0) ≠ .training ∧
    [(mtxAgent 0, 0x1FF), (grdAgent, 0), (grdAgent, 0x100), (svcAgent, 0x100), (prtAgent 4, 0x1FF), (actAgent 0, 0x1FF)].all (fun x =>
      let a := (BitVec.ofNat 16 x.1).toNat
      let k := unitKey a x.2
      let s := unitState k { intent := .up, actual := .training }
      unitOk a x.2 && decide (uAct s k = .training) && !ownBringUp s a x.2) = true ∧
    quadReduced (let s := uSet (unitState (uCore 0) { actual := .retired }) (uQuad 0) { intent := .up, actual := .training }
      uSet (uMove s (uQuad 0) ((uGet s (uQuad 0)).prior.getD .up)) (uQuad 0) { uGet (uMove s (uQuad 0) ((uGet s (uQuad 0)).prior.getD .up)) (uQuad 0) with prior := none }) 0 = true ∧
    uPort 4 = unitKey (prtAgent 4) 0x1FF := by decide +kernel

/-- A routing table whose bank 1 leads every packet nearer: its entry by its place. -/
def goodEntry (n d : Nat) : BitVec 6 :=
  if d = n then 0x20 else
    BitVec.ofNat 6 (((upto 4).find? (fun dir => match neighbour n dir with
      | some m => decide (meshDist m d < meshDist n d)
      | none => false)).getD 0)
def goodTable : Tab (BitVec 6) := (upto (48 * 2 * 4 * 48)).map (fun i => (i, goodEntry (i / 384) (i % 48)))
theorem test_goodEntry : (upto 48).all (fun n => (upto 48).all (fun d => rtEntryOk n d (goodEntry n d))) = true := by decide +kernel
theorem tget_map {α : Type} (d : α) (f : Nat → α) (i : Nat) : ∀ l : List Nat, i ∈ l → tget d (l.map (fun i => (i, f i))) i = f i
  | [], h => by cases h
  | a :: l, h => by
    by_cases e : a = i
    · simp [tget, e]
    · simp only [List.map_cons, tget, if_neg e]
      exact tget_map d f i l (by cases h with | head => exact absurd rfl e | tail _ h => exact h)
theorem tget_goodTable (i : Nat) (h : i < 48 * 2 * 4 * 48) : tget 0 goodTable i = goodEntry (i / 384) (i % 48) :=
  tget_map 0 (fun i => goodEntry (i / 384) (i % 48)) i _ (List.mem_range.mpr h)
theorem test_bankOk (s : State) (h : s.fab.rt = goodTable) : bankOk s 1 = true := by
  unfold bankOk
  simp only [List.all_eq_true]
  intro n hn p hp d hd
  have a := List.mem_range.mp hn
  have b := List.mem_range.mp hp
  have c := List.mem_range.mp hd
  have e : rtGet s n 1 p d = goodEntry n d := by
    unfold rtGet
    rw [h, tget_goodTable _ (by unfold rtIx; omega)]
    have : rtIx n 1 p d / 384 = n := by unfold rtIx; omega
    have : rtIx n 1 p d % 48 = d := by unfold rtIx; omega
    simp [*]
  rw [e]
  have h := test_goodEntry
  simp only [List.all_eq_true] at h
  exact h n hn d hd
def fabState (f : Fab) : State := { mgmtState {} .up with fab := f, csr := [(regAddr (fabAgent 0) 0x104, 2000)] }
def routed : BitVec 128 := 1
theorem test_witness_fabric :
    (1 : BitVec 1).toNat ≠ b2n (fabState {}).fab.current ∧ (fabState {}).fab.oldDrained = true ∧ (fabState {}).fab.pending = false ∧
    ¬((0 : BitVec 1).toNat ≠ b2n (fabState {}).fab.current ∧ (fabState {}).fab.oldDrained = true ∧ (fabState {}).fab.pending = false) ∧
    (let t := (regGet (fabState {}) (fabAgent 0) 0x104).toNat + (regGet (fabState {}) (fabAgent 0) 0x108).toNat * 2 ^ 32
     fabTime (fabState {}) + 1024 ≤ t) ∧
    (regGet (mgmtState {} .up) (fabAgent 0) 0x104).toNat < fabTime (mgmtState {} .up) + 1024 ∧ bankOk (fabState {}) (1 - b2n (fabState {}).fab.current) = false ∧
    fabSum (fabState { oldDrained := false }) .fabInjE 1 = fabSum (fabState { oldDrained := false }) .fabEjE 1 ∧
    hSrc routed < 48 ∧ hDst routed < 48 ∧ bitsOf routed 0 1 = 1 ∧ bitsOf routed 3 1 = 0 ∧ (fabState {}).fab.flight = [] ∧ (2 : BitVec 2).toNat < 3 := by decide +kernel

/-! ## Ports, lanes and links (R343 to R373) -/

/-- Port 0 in an actual state with its record, its configuration register, and link 0 with its record. -/
def portState (a : Actual) (x : Prt) (cfg : Word) (k : Klr) : State :=
  { State.reset with units := [(uPort 0, { intent := .up, actual := a })], prt := [(0, x)], csr := [(regAddr (prtAgent 0) 0x100, cfg)], klr := [(0, k)] }
def upLink : Klr := { state := .up, limit := List.replicate 7 (some 100) }
theorem test_witness_lanes :
    serving (uAct (bumpN (portState .off {} 0x10 {}) .prtFecSym 0 3 0 5) (uPort (0 : BitVec 2).toNat)) = false ∧
    serving (uAct (bumpN (portState .up {} 0x10 {}) .prtFecSym 0 3 0 5) (uPort 0)) = true ∧ 3 ∉ (prtGet (bumpN (portState .up {} 0x10 {}) .prtFecSym 0 3 0 5) 0).failed ∧
    portSplit (laneFail (bumpN (portState .up {} 0x01 {}) .prtFecSym 0 3 0 5) 0 3 0x30) 0 = true ∧ portSplit (laneFail (bumpN (portState .up {} 0x10 {}) .prtFecSym 0 3 0 5) 0 3 0x30) 0 = false ∧
    (prtGet (bumpN (portState .up { failed := [2] } 0x10 {}) .prtFecSym 0 3 0 5) 0).failed ≠ [] ∧ (prtGet (portState .up { swap := some {} } 0x10 {}) 0).swap ≠ none ∧
    spareUsable (laneFail (bumpN (portState .up {} 0x10 upLink) .prtFecSym 0 3 0 5) 0 3 0x30) 0 = false ∧
    spareUsable (laneFail (bumpN (portState .up { peerLmap := true } 0x10 upLink) .prtFecSym 0 3 0 5) 0 3 0x30) 0 = true ∧
    uAct (portState .training {} 0x10 {}) (uPort 0) = .training ∧ (prtGet (portState .training { absent := true } 0x10 {}) 0).absent = true ∧
    lanesLost (((upto 9).filter (fun i => (1 : BitVec 9).getLsbD i)).foldl (fun w i => laneFail w 0 i 0x31) (nowTo (portState .training {} 0x00 {}) 200000000)) 0 = true ∧
    lanesLost (((upto 9).filter (fun i => (1 : BitVec 9).getLsbD i)).foldl (fun w i => laneFail w 0 i 0x31) (nowTo (portState .training {} 0x10 {}) 200000000)) 0 = false := by
  decide +kernel

/-- A KLR frame on link 0 with a correct header. -/
def klrRx (typ : BitVec 4) (tc : BitVec 3) (seq : BitVec 24) (rq : Bool) (bytes : Nat) (body : List Byte) : KlrRx :=
  let h : KlrHdr := { typ := typ, tc := tc, av := false, rq := rq, seq := seq }
  { bytes := bytes, hdr := { h with hcrc := crc32c (klrHdrBytes h) }, body := body }
def lmapFrame (op epoch lane phys : Byte) : KlrRx :=
  let b := [op, epoch, lane, phys] ++ beBytes 4 0x76543218 ++ zeros 4
  klrRx 3 0 0 false 64 (b ++ beBytes 4 (crc32c b).toNat)
/-- A lane-map frame that passes its checks, with a test of its fields and of the port after the link's fields are taken. -/
def lmapTaken (x : Prt) (cfg : Word) (op epoch phys : Byte) (p : State → LmapSwap → Prt → Bool) : Bool :=
  let s := portState .up x cfg upLink
  let rx := lmapFrame op epoch 0 phys
  let t := klrFields s 0 rx.hdr
  decide ((klrGet s 0).state = .up) && decide (crc32c (klrHdrBytes rx.hdr) = rx.hdr.hcrc) && decide (rx.hdr.ver = 1) && decide (rx.hdr.typ = 3) && decide (16 ≤ rx.body.length) &&
    decide ((crc32c (rx.body.take 12)).toNat = beAt rx.body 12 4) && !portSplit s 0 && decide ((byteAt rx.body 0) = op) && p t (lmapOf s.now rx.body) (prtGet t 0)
def swapOf (asker : Bool) (epoch : Byte) (phys : Nat) : LmapSwap := { asker := asker, epoch := epoch, phys := phys }
theorem test_witness_lmap :
    lmapTaken {} 0x10 1 1 2 (fun t w x => decide (x.swap = none) && decide (x.failed = []) && spareOn t 0 && decide (w.phys < 8)) = true ∧
    lmapTaken {} 0x00 1 1 2 (fun t _ x => decide (x.swap = none) && !spareOn t 0) = true ∧ lmapTaken {} 0x10 1 1 8 (fun _ w _ => decide (7 < w.phys)) = true ∧
    lmapTaken { swap := some (swapOf true 1 2) } 0x10 1 1 2 (fun _ w x => decide (x.swap = some (swapOf true 1 2)) && decide (w.phys = 2) && decide (w.epoch = 1)) = true ∧
    lmapTaken { swap := some (swapOf true 1 2) } 0x10 1 1 3 (fun _ w x => decide (x.swap = some (swapOf true 1 2)) && decide (w.phys = 3)) = true ∧
    [(2 : Byte), 3, 4, 5].all (fun op => lmapTaken { swap := some (swapOf true 1 2) } 0x10 op 1 2 (fun _ w x => decide (x.swap = some (swapOf true 1 2)) && decide (w.phys = 2) && decide (w.epoch = 1)) &&
      lmapTaken {} 0x10 op 1 2 (fun _ _ x => decide (x.swap = none))) = true ∧
    (prtGet (portState .up { swap := some { gotSwitch := true, sentSwitch := true } } 0x10 {}) 0).swap = some { gotSwitch := true, sentSwitch := true } ∧
    (prtGet (portState .up { swap := some { sentDone := true, gotDone := true } } 0x10 {}) 0).swap = some { sentDone := true, gotDone := true } ∧
    (prtGet (portState .up {} 0x10 {}) 0).swap = none := by decide +kernel

/-- A DATA frame of TC1 with a length, in order, ahead and behind; and STATUS with and without RQ. -/
def dataTaken (k : Klr) (seq : BitVec 24) (tc : BitVec 3) (bytes : Nat) (p : State → Klr → Nat → Bool) : Bool :=
  let s := portState .up {} 0x10 k
  let rx := klrRx 0 tc seq false bytes []
  let t := klrFields s 0 rx.hdr
  decide ((klrGet s 0).state = .up) && decide (64 ≤ rx.bytes ∧ rx.bytes ≤ 9216 ∧ crc32c (klrHdrBytes rx.hdr) = rx.hdr.hcrc ∧ rx.hdr.ver = 1) && p t (klrGet t 0) (rx.hdr.seq - (klrGet t 0).rxNext).toNat
def statusFrame (rq : Bool) : KlrRx :=
  let b := zeros 28
  klrRx 1 0 0 rq 64 (b ++ beBytes 4 (crc32c b).toNat)
def statusTaken (k : Klr) (rq : Bool) (p : Klr → Bool) : Bool :=
  let s := portState .up {} 0x10 k
  let rx := statusFrame rq
  let t := klrFields s 0 rx.hdr
  let v := klrMod t 0 (fun k => (List.range 7).foldl (fun k c =>
    if beAt rx.body (4 * c) 4 % 2 = 1 then { k with limit := lset k.limit c (some (BitVec.ofNat 24 (beAt rx.body (4 * c) 4 / 256))) } else k) k)
  decide (64 ≤ rx.bytes ∧ rx.bytes ≤ 9216 ∧ crc32c (klrHdrBytes rx.hdr) = rx.hdr.hcrc ∧ rx.hdr.ver = 1) && decide (32 ≤ rx.body.length) &&
    decide ((crc32c (rx.body.take 28)).toNat = beAt rx.body 28 4) && p (klrGet v 0)
theorem test_witness_retry :
    (klrGet (portState .up {} 0x10 {}) 0).state = .off ∧
    dataTaken upLink 0 1 9216 (fun t k d => decide (d = 0) && decide (unitsOf 9216 ≤ poolReserve t 0 - (k.held[1]?).getD 0 + (k.granted[1]?).getD 0)) = true ∧
    dataTaken upLink 0 7 64 (fun _ _ d => decide (d = 0)) = true ∧
    dataTaken { upLink with held := List.replicate 7 1024 } 0 1 64 (fun t k d => decide (d = 0) && decide (poolReserve t 0 - (k.held[1]?).getD 0 + (k.granted[1]?).getD 0 < unitsOf 64)) = true ∧
    dataTaken upLink 0x7FFFFF 1 64 (fun _ k d => decide (0 < d) && decide (d < 0x800000) && decide (k.rqAt = none)) = true ∧
    dataTaken { upLink with rqAt := some 0 } 1 1 64 (fun _ k d => decide (d = 1) && decide (k.rqAt = some 0) && !decide (0 + replayNs (portState .up {} 0x10 upLink) 0 / 2 ≤ 0)) = true ∧
    dataTaken upLink 0x800000 1 64 (fun _ _ d => decide (0x800000 ≤ d)) = true ∧
    statusTaken upLink false (fun _ => true) = true ∧ statusTaken { upLink with unacked := [{}] } true (fun q => decide (q.unacked ≠ []) && decide (q.replay = [])) = true ∧
    (klrGet (portState .up {} 0x10 { state := .hello }) 0).state = .hello ∧ 4 > (3 : BitVec 4).toNat := by decide +kernel

def timersLink (st : KlrState) (k : Klr) (cfg : Word) (x : Prt) : State :=
  { portState .training x 0x10 { k with state := st } with csr := [(regAddr (klrAgent 0) 0x100, cfg), (regAddr (klrAgent 0) 0x104, 0x02000000), (regAddr (klrAgent 0) 0x110, 5)] }
def helloFrame : KlrRx :=
  let b := beBytes 8 5 ++ beBytes 3 0 ++ [3] ++ zeros 16
  klrRx 2 0 0 false 64 (b ++ beBytes 4 (crc32c b).toNat)
theorem test_witness_linkTimers :
    (klrGet (timersLink .down {} 0 {}) 0).state = .down ∧ uAct (timersLink .down {} 0 {}) (uPort 0) = .training ∧
    klrMode (timersLink .down {} 0 {}) 0 = 0 ∧ klrMode (timersLink .down {} 0x10000 {}) 0 = 1 ∧ klrMode (timersLink .down {} 0x20000 {}) 0 ≠ 1 ∧
    (klrGet (timersLink .hello {} 0 {}) 0).helloRx = false ∧ (prtGet (timersLink .hello {} 0 { fromOff := true }) 0).fromOff = true ∧
    (klrGet (timersLink .up { ackDue := some 3, replayDue := some 4, unacked := [{}], expiries := 1 } 0 {}) 0).ackDue = some 3 ∧
    regField (timersLink .up {} 0 {}) (klrAgent 0) 0x104 24 8 = 2 ∧ 2 ≤ 1 + 1 ∧ 0 + 1 < 2 ∧
    64 ≤ helloFrame.bytes ∧ crc32c (klrHdrBytes helloFrame.hdr) = helloFrame.hdr.hcrc ∧ helloFrame.hdr.ver = 1 ∧ helloFrame.hdr.typ = 2 ∧ 32 ≤ helloFrame.body.length ∧
    (crc32c (helloFrame.body.take 28)).toNat = beAt helloFrame.body 28 4 ∧
    regField (timersLink .down {} 0 {}) (klrAgent 0) 0x110 0 12 ≠ 0 ∧ (portLinks (timersLink .down {} 0 {}) 0).all (fun l => decide ((klrGet (timersLink .down {} 0 {}) l).state = .down)) = true ∧
    uAct (portState .retired {} 0x10 {}) (uPort 0) = .retired := by decide +kernel

/-- A neighbour's request for an address of the chip; recovery; PTP on. -/
def netState (step : Nat) (net : List Byte) (ptp : Ptp) : State :=
  { portState .up {} 0x10 { state := .plain } with
    units := [(uPort 4, { intent := .up, actual := .up })], boot := { step := step }, img := { State.reset.img with net := net }, ptp := ptp, tmg := { privs := [(8, 100000)] } }
theorem linkLocal_fits (m : BitVec 48) : (BitVec.ofNat 128 (linkLocal m)).toNat = linkLocal m := by
  have : m.toNat ^^^ (2 * 2 ^ 40) < 2 ^ 48 := Nat.xor_lt_two_pow m.isLt (by decide)
  simp only [BitVec.toNat_ofNat]
  refine Nat.mod_eq_of_lt ?_
  show 0xFE80 * 2 ^ 112 + ((m.toNat ^^^ (2 * 2 ^ 40)) / 2 ^ 24) * 2 ^ 40 + 0xFFFE * 2 ^ 24 + (m.toNat ^^^ (2 * 2 ^ 40)) % 2 ^ 24 < 2 ^ 128
  omega
/-- In recovery, a solicitation for MP's link-local address. -/
theorem test_witness_recoveryNeighbour : (netState 15 [] {}).boot.step = 15 ∧ (BitVec.ofNat 128 (linkLocal (linkMac 8))).toNat = linkLocal (linkMac 8) :=
  ⟨rfl, linkLocal_fits _⟩
def ptpNet : List Byte := zeros 12 ++ beBytes 16 9 ++ zeros 69 ++ [1] ++ [0, 0, 0, 0, 0, 0]
theorem test_witness_plain :
    (netState 9 ptpNet {}).boot.step ≠ 15 ∧ linkOpen (netState 9 ptpNet {}) 8 = true ∧ serving (uAct (netState 9 ptpNet {}) (uPort 4)) = true ∧
    isOwnAddr (netState 9 ptpNet {}) 0 9 = true ∧ isOwnAddr (netState 9 ptpNet {}) 0 8 = false ∧ linkOpen (netState 9 ptpNet {}) 0 = true ∧ linkOpen (portState .up {} 0 {}) 0 = false ∧
    (meter (portState .up {} 0 {}) 0 7 0 0 (rawLen (byteAt (portState .up {} 0 {}).img.net 101).toNat (.ptp {})) 0).2 = none ∧
    (let r := meter (netState 9 ptpNet { on := true }) 0 7 0 0 (rawLen (byteAt (netState 9 ptpNet {}).img.net 101).toNat (.ptp {})) 0
     r.2 = some false ∧ r.1.ptp.on = true ∧ r.1.svc.restarting = false ∧ ptpLink r.1 0 = true ∧ (0 : BitVec 8) = byteAt r.1.img.net 98) ∧
    (ptpGet (netState 9 ptpNet { on := true, ports := [(0, { state := .master })] }) 0).state = .master ∧
    (ptpGet (netState 9 ptpNet { on := true, ports := [(0, { state := .slave })] }) 0).state = .slave ∧
    ptpP2p (netState 9 ptpNet {}) 0 = false ∧ ptpP2p (netState 9 (zeros 102 ++ [1]) {}) 0 = true := by decide +kernel

/-! ## Start-up, flash and resets (R443 to R459, R505, R512)

Whether an image's hash, key and signature hold is open (free functions): the checks' other conditions are shown. -/

/-- A boot at a step, at a time, with slots fitted and the last reset's kind. -/
def bootState (step now : Nat) (b : Boot → Boot) : State :=
  { State.reset with now := now, boot := b { step := step } }
theorem test_witness_boot :
    (bootState 9 0 (fun b => { b with serving := true })).boot.serving = true ∧ (bootState 1 0 id).boot.serving = false ∧ halted (bootState 1 0 id) = false ∧
    bootLimit 1 < (bootState 1 200000001 id).now ∧ (bootState 1 200000000 id).now ≤ bootLimit 1 ∧
    (signChecks (bootState 2 0 id) false 5).isSome = true ∧ (bootState 3 0 (fun b => { b with lastReset := 3 })).boot.lastReset = 3 ∧ (bootState 3 0 id).boot.lastReset ≠ 3 ∧
    (firstOf [firstFail 1 [(false, 5)], firstFail 6 (digestChecks (bootState 4 0 id) (bootState 4 0 id).img.secs [1, 2, 3, 4, 5, 8]), firstFail 7 (headerChecks (bootState 4 0 id)),
      contentFail (bootState 4 0 id) (configRecords (typedBytes (bootState 4 0 id) (bootState 4 0 id).img.secs 1)) (bootState 4 0 id).img.secs [1, 2, 3, 4, 5, 8]]).isSome = true ∧
    untrained (bootState 6 0 (fun b => { b with slots := 1 })) ≠ [] ∧ untrained (bootState 6 0 id) = [] ∧
    groupSize (bootState 6 0 id) (sysGroupA (bootState 6 0 id)) < sysGranules (bootState 6 0 id) ∧ uAct (bootState 6 0 id) (uGroup (sysGroupA (bootState 6 0 id))) ≠ .retired ∧
    (let s := uSet (uSet (bootState 6 0 id) (uGroup (sysGroupA (bootState 6 0 id))) { actual := .retired }) (uGroup (sysGroupB (bootState 6 0 id))) { actual := .retired }
     uAct s (uGroup (sysGroupA s)) = .retired ∧ uAct s (uGroup (sysGroupB s)) = .retired ∧ untrained s = []) ∧
    (let s0 := bootState 6 0 id
     let s := { s0 with dmc := { s0.dmc with chans := List.replicate 16 { geom := { share := 64 } } } }
     untrained s = [] ∧ ¬(groupSize s (sysGroupA s) < sysGranules s) ∧ ¬(groupSize s (sysGroupB s) < sysGranules s) ∧ uAct s (uGroup (sysGroupA s)) ≠ .retired) ∧
    firstOf [firstFail 1 [(false, 5)], firstFail 6 (digestChecks (bootState 7 0 id) (bootState 7 0 id).img.secs [6, 7]), contentFail (bootState 7 0 id) (bootState 7 0 id).img.config (bootState 7 0 id).img.secs [7]] ≠ none ∧
    firstOf [firstFail 1 [(true, 5)], firstFail 6 (digestChecks (bootState 7 0 id) (bootState 7 0 id).img.secs [6, 7]), contentFail (bootState 7 0 id) (bootState 7 0 id).img.config (bootState 7 0 id).img.secs [7]] = none := by
  decide +kernel
/-- A header that passes: its bytes by their place. -/
def headByte (i : Nat) : Byte := if i = 536 ∨ i = 538 then 1 else 0
def headFlash : Tab Byte := (upto 4096).map (fun i => (i, headByte i))
theorem flash_head (s : State) (h : s.boot.flash = headFlash) : flashBytes s 0 4096 = (upto 4096).map headByte := by
  unfold flashBytes
  refine List.map_congr_left fun i hi => ?_
  unfold flashByte
  rw [h, Nat.zero_add]
  unfold headFlash
  exact tget_map 0xFF headByte i _ hi
theorem test_witness_header (s : State) (h : s.boot.flash = headFlash) (hs : s.img.secs = []) :
    firstOf [firstFail 1 [(true, 5)], firstFail 6 (digestChecks s s.img.secs [1, 2, 3, 4, 5, 8]), firstFail 7 (headerChecks s),
      contentFail s (configRecords (typedBytes s s.img.secs 1)) s.img.secs [1, 2, 3, 4, 5, 8]] = none := by
  rw [hs]
  unfold headerChecks imgHeader
  rw [flash_head s h]
  have g : ∀ i, i < 4096 → byteAt ((upto 4096).map headByte) i = headByte i := by
    intro i hi
    simp [byteAt, upto, List.getElem?_range hi]
  have z : ∀ at_ i n, i + n ≤ 4096 → (∀ k, k < n → headByte (i + k) = 0) → ∀ c ∈ zeroRun ((upto 4096).map headByte) at_ i n, c.1 = true := by
    intro at_ i n hn hz c hc
    obtain ⟨k, hk, rfl⟩ := List.mem_map.mp hc
    have hk := List.mem_range.mp hk
    rw [g _ (by omega), hz k hk]
    rfl
  have e : firstFail 7 ([(decide ((byteAt ((upto 4096).map headByte) 6).toNat ≤ 63), 6), (decide ((byteAt ((upto 4096).map headByte) 8).toNat ≤ 1), 8)] ++
      zeroRun ((upto 4096).map headByte) 0 10 2 ++ sameRun ((upto 4096).map headByte) 0 536 [1, 0, 1, 0] ++ zeroRun ((upto 4096).map headByte) 0 540 3556) = none := by
    have q : ∀ cs : Checks, (∀ c ∈ cs, c.1 = true) → firstFail 7 cs = none := by
      intro cs h
      unfold firstFail
      rw [List.find?_eq_none.mpr (by intro c hc; simp [h c hc])]
      rfl
    refine q _ fun c hc => ?_
    simp only [List.mem_append] at hc
    rcases hc with ((hc | hc) | hc) | hc
    · rw [g 6 (by decide), g 8 (by decide)] at hc
      simp [headByte] at hc
      rcases hc with rfl | rfl <;> rfl
    · exact z 0 10 2 (by decide) (by decide) c hc
    · have : sameRun ((upto 4096).map headByte) 0 536 [1, 0, 1, 0] = [(true, 536), (true, 537), (true, 538), (true, 539)] := by
        show [_, _, _, _] = _
        dsimp only
        rw [g _ (by decide), g _ (by decide), g _ (by decide), g _ (by decide)]
        rfl
      rw [this] at hc
      simp at hc
      rcases hc with rfl | rfl | rfl | rfl <;> rfl
    · exact z 0 540 3556 (by decide) (fun k _ => by unfold headByte; rw [if_neg (by omega)]) c hc
  dsimp only
  rw [e]
  rfl

theorem test_witness_training :
    (bootState 6 0 (fun b => { b with slots := 1 })).boot.step = 6 ∧ (0 : BitVec 4).toNat ∈ untrained (bootState 6 0 (fun b => { b with slots := 1 })) ∧
    slotFitted (bootMod (bootState 6 0 (fun b => { b with slots := 1 })) (fun b => { b with trained := insertNat 0 b.trained })) 0 0 = true ∧
    (5 : Nat) ∉ untrained (bootState 6 0 (fun b => { b with slots := 1 })) ∧ untrained (bootMod (bootState 6 0 (fun b => { b with slots := 1 })) (fun b => { b with trained := insertNat 0 b.trained })) = [1, 2, 3] ∧
    untrained (bootState 6 0 (fun b => { b with slots := 1, trained := [0, 1, 2, 3] })) = [] ∧
    (granGet { bootState 7 0 id with dmc := { State.reset.dmc with gran := [(3, { state := .init })] } } (3 : BitVec 14).toNat).state = .init := by decide +kernel
/-- A flash of at least one byte takes every command; an address at its end ends with ERROR. -/
theorem test_witness_flash :
    scopeOf (mgmtState {} .up) (.sc 0) = none ∧ srcOpen (mgmtState {} .up) (.sc 0) = true ∧ (mgmtState {} .up).boot.flashOp = none ∧
    (bootState 9 0 (fun b => { b with flashOp := some (1, 0) })).boot.flashOp ≠ none ∧ (imageCheck (bootState 9 0 id) false 5).isSome = true := by decide +kernel
theorem test_witness_svn : minSvn State.reset < max Config.fuseSvn 0 + 1 := Nat.lt_succ_self _

/-! ## Service complex, debug and registers (R14, R413, R452, R456, R463 to R485) -/

/-- Service core 0 in an actual state, with the restarts and cache errors before. -/
def svcState (a : Actual) (v : Svc) (stopped : Bool := false) : State :=
  { State.reset with units := [(uSc 0, { intent := .up, actual := a })], svc := v, flt := { State.reset.flt with stopped := stopped } }
theorem test_witness_service :
    uAct (svcState .up {}) (uSc (0 : Fin 4).val) = .up ∧ (svcState .up {}).svc.restarting = false ∧ uAct (svcState .off {}) (uSc 0) ≠ .up ∧
    (svcState .up { restarting := true }).svc.restarting = true ∧ 2 ≤ (recentRestarts (svcState .up { restartTimes := [0, 0] })).length ∧
    (recentRestarts (svcState .up { restartTimes := [0] })).length < 2 ∧
    (((upto 4).filter (fun k => scRuns (svcState .up {}) k)).map (fun k => ((svcState .up {}).svc.kicks[k]?).getD 0 + wdogNs (svcState .up {}))).min?.isSome = true ∧
    (svcState .up {}).flt.stopped = false ∧ tfind (svcState .up {}).svc.cacheErr 0 = none ∧ tfind (svcState .up { cacheErr := [(0, 5)] }).svc.cacheErr 0 = some 5 ∧
    (svcState .up {}).now < 5 + 86400000000000 ∧
    (let s := uSet (uSet (uSet (svcState .up { cacheErr := [(0, 5)] }) (uSc 1) { intent := .retired, actual := .retired }) (uSc 2) { intent := .retired, actual := .retired })
       (uSc 3) { intent := .retired, actual := .retired }
     (chiefAgain (retireUnit (svcMod s (fun v => { v with cacheErr := tins v.cacheErr 0 s.now })) (uSc 0) 0x40 0 0)).flt.stopped = true ∧
     (let t := uSet s (uSc 1) { intent := .up, actual := .up }
      (chiefAgain (retireUnit (svcMod t (fun v => { v with cacheErr := tins v.cacheErr 0 t.now })) (uSc 0) 0x40 0 0)).flt.stopped = false)) := by decide +kernel

/-- Debug: the granule at line 0 absent, and there with a good, a spoiled and a forged line. -/
def debugState (m : Option LineMeta) (d : Dbg) : State :=
  let s := mgmtState {} .up
  let t := match m with
    | none => s
    | some x => metaPut { s with dmc := { s.dmc with gran := [(0, { state := .held })] }, units := (uChan 0, { intent := .up, actual := .up }) :: (uSlice 0, { intent := .up, actual := .up }) ::
        (uGroup 0, { intent := .up, actual := .up }) :: s.units } 0 x
  { t with dbg := d }
theorem test_witness_debug :
    (granGet (debugState none {}) (granOf 0)).state = .absent ∧ (granGet (debugState (some {}) {}) (granOf 0)).state ≠ .absent ∧
    (regGet (debugState none {}) dbgAgent 0x200).toNat = 0 ∧
    (debugState none { capturing := [(.sc 0, 3, 4)] }).dbg.capturing.find? (fun e => e.1 = .sc 0) = some (.sc 0, 3, 4) ∧ (debugState none {}).dbg.capturing.find? (fun e => e.1 = .sc 0) = none ∧
    (debugState (some {}) { memState := 1 }).dbg.memState = 1 ∧
    [({ : LineMeta }, LineVerdict.good), ({ poison := 1 }, .media), ({ owner := 0x100, keySlot := 5, keyGen := 3 }, .integrity)].all (fun x =>
      let s := debugState (some x.1) { memState := 1 }
      decide (unitsVerdict s [{ pva := 0, ppa := s.dbg.memAddr, len := 64, entry := 0 }] = none) && decide (lineVerdict s s.dbg.memAddr = x.2)) = true ∧
    (let s := debugState (some {}) { memState := 1 }
     (unitsVerdict { s with units := [] } [{ pva := 0, ppa := 0, len := 64, entry := 0 }]).isSome = true) ∧
    regField (debugState none {}) dbgAgent 0x104 16 16 = 0 ∧ regField { debugState none {} with csr := [(regAddr dbgAgent 0x104, 0x00100000)] } dbgAgent 0x104 16 16 ≠ 0 ∧
    (0x11 : BitVec 8) ∉ [1, 2, 3, 4, 5, (0x10 : BitVec 8)] := by decide +kernel

/-- A stored register of the memory channels and one of the ports, an open session, and its scope. -/
theorem test_witness_registers :
    recovering (mgmtState {} .up) = false ∧ agentDomain (dmcAgent 0) = 2 ∧ dmcAgent 0 ≠ tmgAgent ∧ agentOk (dmcAgent 0) = true ∧ agentInst (dmcAgent 0) ≠ 63 ∧
    selMask (dmcAgent 0) 0x108 = none ∧ (regBits (dmcAgent 0) 0x108).isSome = true ∧
    agentDomain (prtAgent 0) = 1 ∧ agentOk (prtAgent 0) = true ∧ selMask (prtAgent 0) 0x100 = none ∧ (regBits (prtAgent 0) 0x100).isSome = true ∧
    srcOpen (mgmtState {} .up) (.session 1) = true ∧ srcOpen (mgmtState {} .up) (.session 2) = false ∧
    ((0x001 : BitVec 32).getLsbD 0 = true ∧ bitsOf (0x001 : BitVec 32) 8 8 = 0) ∧ ¬((0x101 : BitVec 32).getLsbD 0 = true ∧ bitsOf (0x101 : BitVec 32) 8 8 = 0) := by decide +kernel

/-- MGMT_ACCESS with one entry, with none, and by the port of ROM recovery. -/
def recoveryFrame : RxFrame :=
  let h : KppHdr := { tc := 6, flowSeq := 1, length := 12 }
  { encap := { bytes := 120, udpDst := 50371 }, via := .mp, srcAddr := 7, srcPort := 9, hdr := { h with hcrc := crc32c (rxHdrBytes 0x7D h) }, payload := zeros 12 }
def recoveryState : State := { State.reset with boot := { step := 15 } }
/-- A MGMT_ACCESS without a trailer. -/
def bareAccess : RxFrame :=
  let h : KppHdr := { flags := 0x4000, tc := 6, flowSeq := 0, length := 12 }
  { encap := { bytes := 120 }, srcAddr := 7, srcPort := 9, hdr := { h with hcrc := crc32c (rxHdrBytes 0x7D h) }, payload := zeros 12 }
theorem test_witness_access :
    authed (fun _ r => !flagH r.flags && !flagX r.flags && decide (r.tc = 6) && decide (r.length.toNat = (authFrame 0x7D (zeros 12)).payload.length) &&
      decide (r.sess = some 1) && decide (entryCount r.payload = some 1)) (authState (poolState 0)) 0x7D (zeros 12) = true ∧
    authed (fun _ r => decide (r.length.toNat = (authFrame 0x7D (zeros 11)).payload.length) && decide (r.sess = some 1) && decide (entryCount r.payload = none)) (authState (poolState 0)) 0x7D (zeros 11) = true ∧
    admitted false (fun _ r => decide (r.sess = none) && !flagH r.flags && !flagX r.flags && decide (r.tc = 6) && decide (r.length.toNat = bareAccess.payload.length)) (authState (poolState 0)) 0x7D bareAccess = true ∧
    recovering recoveryState = true ∧ flagA recoveryFrame.hdr.flags = false ∧ earlyFail 0x7D recoveryFrame = none ∧ recoveryFrame.hdr.length.toNat = recoveryFrame.payload.length ∧
    entryCount recoveryFrame.payload = some 1 ∧ (entriesRun .jtag recoveryReach 1 recoveryState recoveryFrame.payload).1.boot.step = recoveryState.boot.step ∧
    (regRead recoveryState .jtag (bootAgent * 65536 + 0x100)).2.isSome = true ∧ (regWrite recoveryState .jtag (bootAgent * 65536 + 0x200) 5).2.isSome = true ∧
    (regRead recoveryState .jtag (bootAgent * 65536 + 0xFFC)).2 = none ∧ jtagClosed State.reset 0 = true ∧ jtagClosed { State.reset with boot := { step := 5 } } 0 = false := by
  decide +kernel

/-! ## Board and clocks (R486 to R504) -/

/-- Feeds A and B with the run of low samples before, at a boot step. -/
def feedState (a b : Bool) (run : Nat) (boot : Boot) : State :=
  { mgmtState {} .up with boot := boot, brd := { State.reset.brd with feedA := { present := a, lowRun := run, okSince := some 5 }, feedB := { present := b, lowRun := run, okSince := some 5 } } }
theorem test_witness_feeds :
    ((0 : Int) < (regField (feedState true true 2 {}) brdAgent 0x100 0 16 : Nat)) ∧ (feedState true false 2 {}).brd.feedA.present = true ∧ (feedState true false 2 {}).brd.feedB.present = false ∧
    booting (feedState true true 2 { step := 9, serving := true }) = false ∧ booting (feedState true true 2 {}) = true ∧ 2 ≤ (feedState true true 2 {}).brd.feedA.lowRun ∧
    (feedState false true 0 {}).brd.feedA.okSince = some 5 ∧ (feedState false true 0 {}).brd.feedA.on = true ∧ scopeOf (feedState true true 0 {}) (.sc 0) = none ∧
    srcOpen (feedState true true 0 {}) (.sc 0) = true ∧ (feedState true true 0 {}).boot.step ≠ 15 := by decide +kernel
theorem test_witness_temperatures :
    regField State.reset brdAgent 0x118 8 8 * 8 < ((List.replicate 32 (0x7FF : BitVec 11))[0]?.getD 0).toNat ∧ (State.reset.brd.dieOver = 0) ∧ State.reset.brd.tripped = false ∧
    (tget {} (brdMod State.reset (fun b => { b with mods := [(3, { present := true, excess := 2 })] })).brd.mods 3).present = true ∧ (tget {} State.reset.brd.mods 3).present = false := by decide +kernel
/-- A grid at 0 units of 100 MHz with a cap of 90 W, over it and hot or not; and one whose cap is off. -/
def capState (p : Int) (die : Nat) (limit : Nat) : State :=
  { State.reset with
    crg := { freq := some 0 }, boot := { step := 9 }, csr := [(regAddr brdAgent 0x110, BitVec.ofNat 32 (limit + 8 * 2 ^ 12 + 20 * 2 ^ 18 + 10 * 2 ^ 24))]
    brd := { State.reset.brd with powers := [(0, p)], die := [die] } }
theorem test_witness_cap :
    (capState 9340 0 90).crg.stepping = false ∧ 5 ≤ (capState 9340 0 90).boot.step ∧ gridFreq (capState 9340 0 90) = 0 ∧
    (0 : Int) < (regField (capState 9340 0 90) brdAgent 0x110 0 12 : Nat) * 10 ∧ ((900 : Int) * (powerSum (capState 9340 0 90)).2 < (powerSum (capState 9340 0 90)).1) ∧
    (capState 9340 0 90).brd.stepAt = none ∧ 0 < regField (capState 9340 0 90) brdAgent 0x110 12 6 ∧ hottest (capState 9340 0 90) ≤ regField State.reset brdAgent 0x118 0 8 * 8 ∧
    regField State.reset brdAgent 0x118 0 8 * 8 < hottest (capState 9340 2000 90) := by decide +kernel
theorem test_witness_clocks :
    (let s := { State.reset with crg := { stepping := true, target := some 3, lock := 6 } }
     s.crg.stepping = true ∧ s.crg.target = some 3 ∧ s.crg.lock.getLsbD (1 : Fin 8).val = true ∧ s.crg.lock.getLsbD (3 : Fin 8).val = false) ∧ State.reset.fum.mr.length = 6 := by decide +kernel
/-- The worked example of R500: 54 V feeds at 8.99 A and 8.30 A give a frame power of 934.0 W, and BRD_POWER reads 247Ch. -/
theorem test_frame_power :
    let cfg (k : Nat) (gain : Nat) : Nat × Word := (regAddr brdAgent (0x300 + 4 * k), BitVec.ofNat 32 gain)
    let s := { State.reset with csr := [cfg 0 60000, cfg 1 60000, cfg 2 2000, cfg 3 2000] }
    let codes : List (BitVec 12) := (List.range 32).map (fun j => if j = 31 then 3413 else if j % 8 = 0 then 3686 else if j % 8 = 4 then 3690 else if j = 1 then 1843 else if j = 2 then 1700 else 0)
    (match exec (.adcFrame codes) s with
     | .next t => decide (t.brd.ain.take 2 = [(53994, 3686), (54052, 3690)]) && decide (brdRead t (.sc 0) 0x10C = some 0x247C)
     | _ => false) = true := by decide +kernel

/-! ## The machine as a whole -/

theorem test_reset_sound : tablesOk State.reset = true ∧ bootLegal State.reset = true ∧ State.reset.pending = [] := by decide +kernel
/-- A chip that serves with its configuration locked, and a command waiting. -/
def servingState : State := { State.reset with boot := { step := 9, serving := true, locked := true }, pending := [.audit] }
theorem test_witness_locked : tablesOk servingState = true ∧ bootLegal servingState = true ∧ servingState.boot.locked = true ∧ servingState.pending = [.audit] := by decide +kernel
theorem test_witness_intents :
    srcOpen (mgmtState {} .up) (.sc 0) = true ∧ agentOk (BitVec.ofNat 16 svcAgent).toNat = true ∧ ((3 : BitVec 4) ≠ 0 ∧ (3 : BitVec 4) ≠ 2 ∧ (3 : BitVec 4) ≠ 5) := by decide +kernel
/-- The broadcast instance of a block with several instances and of one with one, and an entry whose address holds no register. -/
theorem test_witness_broadcast :
    agentInst (dmcAgent 63) = 63 ∧ 1 < blockCount (agentDomain (dmcAgent 63)) (agentBlock (dmcAgent 63)) ∧
    agentInst (svcAgent + 63) = 63 ∧ blockCount (agentDomain (svcAgent + 63)) (agentBlock (svcAgent + 63)) ≤ 1 ∧
    (regRead State.reset .jtag ((svcAgent + 63) * 65536)).2 = none := by decide +kernel
/-- The address of DMC11_AGE_LIMIT in R461's example. -/
theorem test_register_address : regAddr (dmcAgent 11) 0x108 = 0x208B0108 := by decide

end Sys2Proof.Tests
end

section
/-! PROOFS. What a step may do to a sound state, and what stays fixed from the configuration lock on (R450). -/
namespace Sys2Proof.Machine

/-- Nothing that `Moves` speaks of rests on the queue of commands. -/
theorem Moves.of_pending {s t : State} {q : List Instr} (h : Moves { s with pending := q } t) : Moves s t :=
  ⟨h.svn, h.tables, h.legal, h.locked⟩

/-- A step, a command or a tick, keeps a sound state sound. -/
theorem step_moves {s t : State} (hl : bootLegal s = true) (h : step s = .next t) : Moves s t := by
  unfold step at h
  split at h
  · cases h
    exact (tick_orderly (Orderly.refl s)).moves
  · rename_i rest _
    exact Moves.of_pending (q := rest) (exec_moves _ _ t hl h)

/-- Settles O55: every step is a `Moves`, which fixes what the lock has closed. -/
theorem configurationLockHolds : Obligations.ConfigurationLockHolds := by
  unfold Obligations.ConfigurationLockHolds
  intro s t hs hb hl h ht
  exact (step_moves hb h).locked hs hb hl ht

end Sys2Proof.Machine
end

section
/-! PROOFS. The state after reset (R10, R50, R199, R202, R448). -/
namespace Sys2Proof.Machine

theorem tget_single {α : Type} (d v : α) (k a : Nat) : tget d [(k, v)] a = if a = k then v else d := by
  simp only [tget, eq_comm]

theorem pGet_reset (n : Nat) : pGet State.reset n = if n = 0 then { life := .up } else {} :=
  tget_single _ _ 0 n

theorem uGet_reset (k : Nat) : uGet State.reset k = if k = 0 then { intent := .up, actual := .up } else {} :=
  tget_single _ _ 0 k

theorem uPitch_eq (n : Nat) : uPitch n = n := by
  unfold uPitch unitKey svcAgent agentKey
  omega

theorem mrGet_reset (n : Nat) : mrGet State.reset n = 0 := by
  show ((List.replicate 6 (0 : BitVec 512))[n]?).getD 0 = 0
  rw [List.getElem?_replicate]
  split <;> rfl

theorem pitchStateWord_reset (n : Nat) : pitchStateWord State.reset n = if n = 0 then 0x222 else 0 := by
  have ht : ∀ p, tmplOf State.reset p = {} := fun _ => rfl
  have hm : mirGet State.reset n = {} := rfl
  unfold pitchStateWord
  rw [pGet_reset, uPitch_eq, uGet_reset, hm]
  simp only [ht]
  by_cases h : n = 0
  · simp only [if_pos h]
    rfl
  · simp only [if_neg h]
    rfl

theorem slotGet_reset (k : Nat) :
    (slotGet State.reset k).state = if k = 0 ∨ k = 256 then .system else .free := by
  show (tget ({} : KeySlot) [(0, { state := .system }), (256, { state := .system })] k).state = _
  rw [tget, tget_single]
  by_cases h0 : k = 0
  · simp [h0]
  · by_cases h1 : k = 256
    · simp [h1]
    · rw [if_neg (Ne.symm h0), if_neg h1, if_neg (by tauto)]

theorem regGet_reset (a o : Nat) : regGet State.reset a o = regReset (regAddr a o) := by
  unfold regGet
  exact Option.getD_none

/-- Settles O53: each table that reset leaves empty reads its default, and the three entries it lists are PT0's and the
SYSTEM slots'. -/
theorem resetState : Obligations.ResetState := by
  unfold Obligations.ResetState
  refine ⟨rfl, rfl, rfl, rfl, rfl, rfl, fun n _ => pitchStateWord_reset n, slotGet_reset, mrGet_reset, ?_⟩
  exact ⟨fun _ _ _ => rfl, fun _ _ _ _ => rfl, fun _ => rfl, regGet_reset, by decide, by decide, rfl⟩

end Sys2Proof.Machine
end

section
/-! PROOFS. Writes of intents, audits and the end of a bring-up (R5 to R8, R11, R467). -/
namespace Sys2Proof.Machine

/-! ## Writes of AGT_INTENT -/

theorem exec_agtIntentWrite (s : State) (src : MgmtSource) (agent : BitVec 16) (unit : BitVec 9) (value : BitVec 4)
    (ho : srcOpen s src = true) (hb : s.boot.step ≠ 15) :
    exec (.agtIntentWrite src agent unit value) s = .next (intentWrite s src agent.toNat unit.toNat value.toNat) := by
  show Host.Outcome.next (fromSource s src _) = _
  rw [fromSource_open ho hb]

theorem intentWrite_scoped {s : State} {src : MgmtSource} (a u v : Nat) (h : scopeOf s src ≠ none) :
    intentWrite s src a u v = s := by
  unfold intentWrite
  rw [if_pos (Or.inr (Option.isSome_iff_ne_none.2 h))]

section
variable {s : State} {src : MgmtSource} {a : Nat} (ha : agentOk a = true) (hs : scopeOf s src = none)
include ha hs

theorem intentWrite_operator (u v : Nat) : intentWrite s src a u v =
    (intentOf v).elim (intentRefused s a) (fun i =>
      if unitOk a u = false ∨ keyPitch (unitKey a u) ≠ none ∨ (uGet s (unitKey a u)).actual = .retired then intentRefused s a
      else intentSet s (unitKey a u) i) := by
  unfold intentWrite uAct
  simp only [ha, hs, Bool.not_true, Bool.false_eq_true, Option.isSome_none, or_self, if_false, Bool.not_eq_true']
  cases intentOf v <;> rfl

theorem intentWrite_noIntent (u : Nat) {v : Nat} (hv : intentOf v = none) : intentWrite s src a u v = intentRefused s a := by
  rw [intentWrite_operator ha hs, hv, Option.elim_none]

theorem intentWrite_noUnit {u : Nat} (v : Nat)
    (h : unitOk a u = false ∨ keyPitch (unitKey a u) ≠ none ∨ (uGet s (unitKey a u)).actual = .retired) :
    intentWrite s src a u v = intentRefused s a := by
  rw [intentWrite_operator ha hs]
  cases intentOf v with
  | none => rfl
  | some i => exact if_pos h

theorem intentWrite_accepted {u v : Nat} {i : Intent} (hv : intentOf v = some i) (hu : unitOk a u = true)
    (hp : keyPitch (unitKey a u) = none) (hr : (uGet s (unitKey a u)).actual ≠ .retired) :
    intentWrite s src a u v = intentSet s (unitKey a u) i := by
  rw [intentWrite_operator ha hs, hv, Option.elim_some]
  exact if_neg (by simp [hu, hp, hr])

end

theorem intentOf_undefined {v : Nat} (h0 : v ≠ 0) (h2 : v ≠ 2) (h5 : v ≠ 5) : intentOf v = none := by
  unfold intentOf
  rw [if_neg h0, if_neg h2, if_neg h5]

theorem intentSet_up_off {s : State} {k : Nat} (h : (uGet s k).actual = .off) :
    intentSet s k .up = bringUp (uSet s k { uGet s k with intent := .up }) k := if_pos h

theorem intentSet_up_on {s : State} {k : Nat} (h : (uGet s k).actual ≠ .off) :
    intentSet s k .up = uSet s k { uGet s k with intent := .up } := if_neg h

theorem intentSet_off_off {s : State} {k : Nat} (h : (uGet s k).actual = .off) :
    intentSet s k .off = uSet s k { uGet s k with intent := .off } := if_pos h

theorem intentSet_off_on {s : State} {k : Nat} (h : (uGet s k).actual ≠ .off) :
    intentSet s k .off = unitOff (uSet s k { uGet s k with intent := .off }) k := if_neg h

/-- Settles O57: the three encodings are those of `intCode`, and another value is refused, which writes the refused-write
counter of its agent alone. -/
theorem intentValues : Obligations.IntentValues := by
  unfold Obligations.IntentValues
  refine ⟨?_, rfl, rfl, rfl, ?_⟩
  · intro i
    cases i with
    | off => exact Or.inl rfl
    | up => exact Or.inr (Or.inl rfl)
    | retired => exact Or.inr (Or.inr rfl)
  · intro s src agent unit value ho hs hb ha h0 h2 h5
    have hv : intentOf value.toNat = none := by
      apply intentOf_undefined <;> bv_omega
    refine ⟨intentRefused s agent.toNat, ?_, rfl, rfl, tget_tset_self _ _ _ _, fun a h => tget_tset_other _ _ _ _ _ h⟩
    rw [exec_agtIntentWrite s src agent unit value ho hb, intentWrite_noIntent ha hs _ hv]

/-! ## Audits -/

theorem auditUnit_agrees {s : State} {k : Nat} (h : unitAgrees s k = true) :
    auditUnit s k = uSet s k { uGet s k with disagree := false } := if_pos h

theorem auditUnit_disagrees {s : State} {k : Nat} (h : unitAgrees s k = false) : auditUnit s k =
    if (uGet s k).disagree = true ∧ (serving (uGet s k).actual = true ∨ (uGet s k).actual = .training)
    then fenceUnit (uSet s k { uGet s k with disagree := true }) k 0x01 0 0
    else uSet s k { uGet s k with disagree := true } := if_neg (by simp [h])

/-! ## The end of a bring-up -/

/-- A unit whose bring-up has completed: back in the state it was entered from, or UP (R8, R11). -/
def broughtUp (s : State) (k : Nat) : State :=
  let v := uMove s k ((uGet s k).prior.getD .up)
  uSet v k { uGet v k with prior := none }

theorem bringUpDone_idle {s : State} {a u : Nat} (h : uAct s (unitKey a u) ≠ .training) : bringUpDone s a u = s :=
  if_pos (Or.inr h)

theorem bringUpFail_idle {s : State} {a u : Nat} (h : uAct s (unitKey a u) ≠ .training) : bringUpFail s a u = s :=
  if_pos (Or.inr (Or.inl h))

section
variable {s : State} {a u : Nat} (hu : unitOk a u = true) (ht : uAct s (unitKey a u) = .training)
  (ho : ownBringUp s a u = false)
include hu ht ho

/-- A bring-up that no links or retraining end: a quad with retired parts comes back DEGRADED, the service complex chooses
its chief again, and MP sends what it has held. -/
theorem bringUpDone_ends : bringUpDone s a u =
    let w := broughtUp s (unitKey a u)
    let d := if a = grdAgent ∧ 0x100 ≤ u ∧ quadReduced w (u - 0x100) = true then degradeUnit w (unitKey a u) 0 else w
    if a = svcAgent then chiefAgain d else if unitKey a u = uPort 4 then sendHeld d else d := by
  unfold bringUpDone
  simp only [hu, ht, ho, Bool.not_true, Bool.false_eq_true, ne_eq, not_true_eq_false, or_self, if_false]
  rfl

theorem bringUpDone_plain (hg : a ≠ grdAgent) (hv : a ≠ svcAgent) (hp : unitKey a u ≠ uPort 4) :
    bringUpDone s a u = broughtUp s (unitKey a u) := by
  rw [bringUpDone_ends hu ht ho]
  simp only [hg, hv, hp, false_and, if_false]

theorem bringUpDone_service (hv : a = svcAgent) : bringUpDone s a u = chiefAgain (broughtUp s (unitKey a u)) := by
  have hg : a ≠ grdAgent := by rw [hv]; decide
  rw [bringUpDone_ends hu ht ho]
  simp only [hg, false_and, if_false, if_pos hv]

theorem bringUpDone_reducedQuad (hg : a = grdAgent) (h : 0x100 ≤ u) (hp : unitKey a u ≠ uPort 4)
    (hq : quadReduced (broughtUp s (unitKey a u)) (u - 0x100) = true) :
    bringUpDone s a u = degradeUnit (broughtUp s (unitKey a u)) (unitKey a u) 0 := by
  have hv : a ≠ svcAgent := by rw [hg]; decide
  rw [bringUpDone_ends hu ht ho]
  simp only [if_pos (And.intro hg (And.intro h hq)), hv, hp, if_false]

theorem bringUpDone_mp (ha : a = prtAgent 4) (hp : unitKey a u = uPort 4) :
    bringUpDone s a u = sendHeld (broughtUp s (unitKey a u)) := by
  have hv : a ≠ svcAgent := by rw [ha]; decide
  have hg : a ≠ grdAgent := by rw [ha]; decide
  rw [bringUpDone_ends hu ht ho]
  simp only [hg, hv, false_and, if_false, if_pos hp]

/-- Of an agent of domain NET only a port holds units, and a data port's bring-up ends by its links. -/
theorem bringUpFail_fences : bringUpFail s a u =
    fenceUnit (uSet s (unitKey a u) { uGet s (unitKey a u) with prior := none }) (unitKey a u) 0x02 0 0 := by
  have hl : ¬ (agentDomain a = 1 ∧ u = 0x1FF ∧ agentInst a < 4) := by
    rintro ⟨hd, hf, hi⟩
    have hb : agentBlock a = 1 := by_contra (domain_of_unit hu hd)
    simp [ownBringUp, hd, hb, hf, hi] at ho
  unfold bringUpFail
  simp only [hu, ht, ho, hl, Bool.not_true, Bool.false_eq_true, ne_eq, not_true_eq_false, false_and, or_self, if_false]

end

/-- A unit's key names its agent. -/
theorem agent_of_unitKey {a b u v : Nat} (hu : u < 512) (hv : v < 512) (h : unitKey a u = unitKey b v) : a = b := by
  unfold unitKey at h
  omega

/-- Settles O38: each outcome of a write, an audit or the end of a bring-up by its own case. -/
theorem unitIntents : Obligations.UnitIntents := by
  unfold Obligations.UnitIntents
  refine ⟨?_, fun _ => rfl, ?_, ?_⟩
  · intro s src agent unit value ho hb ha
    dsimp only
    rw [exec_agtIntentWrite s src agent unit value ho hb]
    refine ⟨fun hs => by rw [intentWrite_scoped _ _ _ hs], fun hs => ⟨fun h => ?_, fun hu hp hr => ?_⟩⟩
    · rw [intentWrite_noUnit ha hs _ h]
      rfl
    · have accepted : ∀ i, intentOf value.toNat = some i → intentWrite s src agent.toNat unit.toNat value.toNat =
          intentSet s (unitKey agent.toNat unit.toNat) i := fun _ hv => intentWrite_accepted ha hs hv hu hp hr
      refine ⟨?_, ?_, ?_, ?_, ?_⟩
      · rintro rfl h
        rw [accepted .up rfl, intentSet_up_off h]
      · rintro rfl h
        rw [accepted .up rfl, intentSet_up_on h]
      · rintro rfl h
        rw [accepted .off rfl, intentSet_off_off h]
      · rintro rfl h
        rw [accepted .off rfl, intentSet_off_on h]
      · rintro rfl
        rw [accepted .retired rfl]
        rfl
  · intro s k
    refine ⟨auditUnit_agrees, fun h hd => ?_, fun h hd ha => ?_⟩
    · rw [auditUnit_disagrees h, if_neg (by simp [hd])]
    · rw [auditUnit_disagrees h, if_pos ⟨hd, ha⟩]
  · intro s agent unit
    refine ⟨fun h => ⟨congrArg _ (bringUpDone_idle h), congrArg _ (bringUpFail_idle h)⟩, fun hu ht ho => ?_⟩
    refine ⟨fun hg hv hp => congrArg _ (bringUpDone_plain hu ht ho hg hv hp), fun hv => congrArg _ (bringUpDone_service hu ht ho hv),
      fun hp => ?_, fun hg h hq => ?_, congrArg _ (bringUpFail_fences hu ht ho)⟩
    · have ha := agent_of_unitKey unit.isLt (by decide) hp
      exact congrArg _ (bringUpDone_mp hu ht ho ha hp)
    · have hp : unitKey agent.toNat unit.toNat ≠ uPort 4 := by
        intro hp
        have ha := agent_of_unitKey unit.isLt (by decide) hp
        rw [hg] at ha
        exact absurd ha (by decide)
      exact congrArg _ (bringUpDone_reducedQuad hu ht ho hg h hp hq)

end Sys2Proof.Machine
end

section
/-! PROOFS. Accesses of one register, and the messages and the TAP that make them (R14, R79, R456, R463, R465 to R471, R485). -/
namespace Sys2Proof.Machine

/-! ## Stored registers -/

/-- What a stored register reads after a write of one, whatever the table's form. -/
theorem regGet_regSet (s : State) (a o a' o' : Nat) (v : Word) :
    regGet (regSet s a o v) a' o' = if regAddr a' o' = regAddr a o then v else regGet s a' o' := by
  by_cases e : regAddr a' o' = regAddr a o
  · rw [if_pos e]
    unfold regGet regSet
    dsimp only
    rw [e]
    split
    · rename_i hv
      rw [tfind_tdel_self, hv, Option.getD_none]
    · rw [tfind_tins_self, Option.getD_some]
  · rw [if_neg e, regGet_set_other _ _ _ _ _ _ e]

theorem regBits_aligned {agent off : Nat} {p : Nat × Nat} (h : regBits agent off = some p) : off % 4 = 0 := by
  by_contra hm
  unfold regBits at h
  dsimp only at h
  rw [if_pos hm] at h
  cases h

theorem regStore_source {s : State} {src : MgmtSource} {agent off rw rwl : Nat} (v : Word) (hi : src ≠ .image)
    (hr : regBits agent off = some (rw, rwl)) :
    regStore s src agent off v = regSet s (storeAgent agent) off (mergeBits (regGet s (storeAgent agent) off) v rw) := by
  unfold regStore
  rw [hr]
  simp only [hi, false_and, if_false]

/-- The registers of NET, TMG's excepted, and of MEM have no behaviour of their own. -/
theorem blockWrite_stored {s : State} {src : MgmtSource} {agent off : Nat} (v : Word)
    (hd : agentDomain agent = 1 ∨ agentDomain agent = 2) (ht : agent ≠ tmgAgent) :
    blockWrite s src agent off v = regStore s src agent off v := by
  have other : ∀ b, agentDomain b ≠ 1 → agentDomain b ≠ 2 → agent ≠ b := by
    rintro b h1 h2 rfl
    exact hd.elim h1 h2
  have h4 : agentDomain agent ≠ 4 := by omega
  have h5 : agentDomain agent ≠ 5 := by omega
  unfold blockWrite
  simp only [other svcAgent (by decide) (by decide), ht, h4, h5, other fumAgent (by decide) (by decide),
    other brdAgent (by decide) (by decide), other bootAgent (by decide) (by decide),
    other dbgAgent (by decide) (by decide), false_and, if_false]

theorem agentWrite_block {s : State} {src : MgmtSource} {agent off : Nat} (v : Word) (ha : agentOk agent = true)
    (h4 : off % 4 = 0) (hv : agent ≠ svcAgent) (hm : selMask agent off = none) (hs : scopeOf s src = none)
    (ho : 0x100 ≤ off) : agentWrite s src agent off v = blockWrite s src agent off v := by
  have h8 : off ≠ 0x08 := by omega
  unfold agentWrite
  simp only [ha, h4, hv, hm, hs, h8, Nat.not_lt.2 ho, Bool.not_true, Bool.false_eq_true, ne_eq, not_true_eq_false, or_self,
    false_and, Option.isSome_none, if_false]

/-! ## Accesses by address -/

theorem instancesOf_one {agent : Nat} (h : agentInst agent ≠ 63) : instancesOf agent = [agent] := if_neg h

theorem regAddr_div {agent off : Nat} (h : off < 65536) : regAddr agent off / 65536 = agent := by
  unfold regAddr
  omega

theorem regAddr_mod {agent off : Nat} (h : off < 65536) : regAddr agent off % 65536 = off := by
  unfold regAddr
  omega

/-- An address that reaches one agent: a capture of the source ends, then the agent is accessed. -/
theorem regWrite_reached {s : State} {src : MgmtSource} {a g : Nat} (v : Word) (h : instancesOf (a / 65536) = [g]) :
    (regWrite s src a v).1 = agentWrite (captureEnd s src) src g (a % 65536) v := by
  unfold regWrite
  rw [h]
  rfl

theorem regRead_reached {s : State} {src : MgmtSource} {a g : Nat} (h : instancesOf (a / 65536) = [g]) :
    regRead s src a = agentRead (captureEnd s src) src g (a % 65536) := by
  unfold regRead
  rw [h]

theorem regWrite_one {s : State} {src : MgmtSource} {agent off : Nat} (v : Word) (ho : off < 65536)
    (hi : agentInst agent ≠ 63) :
    (regWrite s src (regAddr agent off) v).1 = agentWrite (captureEnd s src) src agent off v := by
  rw [regWrite_reached v (by rw [regAddr_div ho, instancesOf_one hi]), regAddr_mod ho]

theorem regRead_one {s : State} {src : MgmtSource} {agent off : Nat} (ho : off < 65536) (hi : agentInst agent ≠ 63) :
    regRead s src (regAddr agent off) = agentRead (captureEnd s src) src agent off := by
  rw [regRead_reached (by rw [regAddr_div ho, instancesOf_one hi]), regAddr_mod ho]

theorem regAddr_div_mod (a : Nat) : regAddr (a / 65536) (a % 65536) = a := by
  unfold regAddr
  omega

theorem agentWrite_scope (s : State) (n : BitVec 32) (v : Word) :
    agentWrite s (.session n) svcAgent 0x3000 v = scopeWrite s (.session n) v := by
  unfold agentWrite
  rw [if_neg (by decide), if_pos ⟨rfl, rfl⟩]

theorem agentRead_count {s : State} {src : MgmtSource} {agent : Nat} (ha : agentOk agent = true) :
    (agentRead s src agent 0x88).1 = { s with cntCap := aput s.cntCap src (cntSelValue s src agent) } := by
  unfold agentRead
  rw [if_pos ⟨rfl, ha⟩]

/-! ## Accesses of a source -/

theorem sourceOk_closed {s : State} {src : MgmtSource} {a : Nat} {v : Word} (h : srcOpen s src = false) (hi : src ≠ .image) :
    sourceOk s src a v = false := by
  unfold sourceOk
  rw [if_neg hi, h, Bool.false_and]

section
variable {s : State} {src : MgmtSource} {agent off : Nat} (ho : srcOpen s src = true) (hr : recovering s = false)
  (hi : src ≠ .image) (hc : s.dbg.capturing.find? (fun e => e.1 = src) = none) (h63 : agentInst agent ≠ 63)
  (hoff : off < 65536)
include ho hr hi hc h63 hoff

theorem sourceWrite_one (v : Word) : sourceWrite s src (regAddr agent off) v = agentWrite s src agent off v := by
  unfold sourceWrite
  rw [if_pos (sourceOk_open ho hr hi), regWrite_one v hoff h63, captureEnd_stored hc]

theorem sourceRead_one : sourceRead s src (regAddr agent off) = (agentRead s src agent off).1 := by
  unfold sourceRead
  rw [if_pos (sourceOk_open ho hr hi), regRead_one hoff h63, captureEnd_stored hc]

end

/-! ## Entries of a message -/

section
variable {s : State} {src : MgmtSource} {reach : Nat → Bool} {p : List Byte} {u : State} {v : Word}
  (hr : reach (beAt p 4 4) = true)
include hr

theorem entryAccess_read (ho : byteAt p 0 = 1) (h : regRead s src (beAt p 4 4) = (u, some v)) :
    entryAccess s src reach p = (u, beBytes 4 v.toNat ++ zeros 4) := by
  unfold entryAccess
  simp [ho, hr, h]

theorem entryAccess_write (ho : byteAt p 0 = 2)
    (h : regWrite s src (beAt p 4 4) (BitVec.ofNat 32 (beAt p 8 4)) = (u, some v)) :
    entryAccess s src reach p = (u, beBytes 4 v.toNat ++ zeros 4) := by
  unfold entryAccess
  simp [ho, hr, h]

end

theorem entriesRun_succ {src : MgmtSource} {reach : Nat → Bool} {k : Nat} {s u w : State} {p b c : List Byte}
    (h : entryAccess s src reach p = (u, b)) (hb : u.boot.step = s.boot.step)
    (hk : entriesRun src reach k u (p.drop 12) = (w, c)) : entriesRun src reach (k + 1) s p = (w, b ++ c) := by
  rw [entriesRun]
  simp only [h, hb, hk, ne_eq, not_true_eq_false, if_false]

/-- Entries that reset nothing are answered. -/
theorem entriesThen_answers {src : MgmtSource} {reach : Nat → Bool} {k : Nat} {s u : State} {p q : List Byte}
    (go : State → List Byte → State) (h : entriesRun src reach k s p = (u, q)) (hb : u.boot.step = s.boot.step) :
    entriesThen s src reach k p go = go u q := by
  unfold entriesThen
  simp only [h, hb, ne_eq, not_true_eq_false, if_false]

theorem mgmtChecks_pass {s : State} {r : Req} {f : RxFrame} {body : State → State} (hh : flagH r.flags = false)
    (hx : flagX r.flags = false) (hc : r.tc = 6) (hl : r.length.toNat = f.payload.length) :
    mgmtChecks s r f body = body s := by
  unfold mgmtChecks
  simp [hh, hx, hc, hl]

/-! ## JTAG -/

/-- What the MGMT data register shows after an access (R485). -/
def jtagResult (t : State) (addr : BitVec 32) (status : Nat) (v : Word) : State :=
  dbgMod t (fun d => { d with
    jtagIr := 0x10, jtagAddr := addr, jtagData := v, jtagStatus := status,
    jtagDr := BitVec.ofNat 68 (addr.toNat * 4 + v.toNat * 2 ^ 34 + status * 2 ^ 66) })

theorem jtagAccess_none (s : State) {op : Nat} (a : Nat) (v : Word) (h1 : op ≠ 1) (h2 : op ≠ 2) : jtagAccess s op a v =
    dbgMod s (fun d => { d with
      jtagIr := 0x10, jtagDr := BitVec.ofNat 68 (d.jtagAddr.toNat * 4 + d.jtagData.toNat * 2 ^ 34 + d.jtagStatus * 2 ^ 66) }) :=
  if_pos ⟨h1, h2⟩

theorem jtagAccess_closed {s : State} {op : Nat} {addr : BitVec 32} (v : Word) (ho : op = 1 ∨ op = 2)
    (hc : jtagClosed s addr.toNat = true) :
    jtagAccess s op addr.toNat v = jtagResult (draw s).2 addr 3 ((draw s).1.truncate 32) := by
  unfold jtagAccess jtagResult
  rw [if_neg (by omega), if_pos hc, BitVec.ofNat_toNat, BitVec.setWidth_eq]

/-- An access that is open shows what its register gives, or that there is none. -/
theorem jtagAccess_open {s : State} {op : Nat} {addr : BitVec 32} (v : Word) (ho : op = 1 ∨ op = 2)
    (hc : jtagClosed s addr.toNat = false) {u : State} {x : Option Word}
    (h : (if op = 1 then regRead s .jtag addr.toNat else regWrite s .jtag addr.toNat v) = (u, x)) :
    jtagAccess s op addr.toNat v = match x with
      | some x => jtagResult u addr 0 x
      | none => jtagResult (draw u).2 addr 2 ((draw u).1.truncate 32) := by
  unfold jtagAccess jtagResult
  rw [if_neg (by omega), if_neg (by simp [hc])]
  simp only [h, BitVec.ofNat_toNat, BitVec.setWidth_eq]
  cases x <;> rfl

/-! ## The commands -/

/-- R14: a write of a stored register of NET or MEM, by an operator, changes its RW bits alone. -/
theorem registerWrite_stored {s : State} {src : MgmtSource} {agent off : Nat} (v : Word) {rw rwl : Nat}
    (ho : srcOpen s src = true) (hr : recovering s = false) (hs : scopeOf s src = none) (hi : src ≠ .image)
    (hc : s.dbg.capturing.find? (fun e => e.1 = src) = none) (hd : agentDomain agent = 1 ∨ agentDomain agent = 2)
    (ht : agent ≠ tmgAgent) (ha : agentOk agent = true) (h63 : agentInst agent ≠ 63) (hm : selMask agent off = none)
    (hoff : 0x100 ≤ off ∧ off < 65536) (hb : regBits agent off = some (rw, rwl)) :
    sourceWrite s src (regAddr agent off) v =
      regSet s (storeAgent agent) off (mergeBits (regGet s (storeAgent agent) off) v rw) := by
  have hv : agent ≠ svcAgent := by
    rintro rfl
    revert hd
    decide
  rw [sourceWrite_one ho hr hi hc h63 hoff.2, agentWrite_block v ha (regBits_aligned hb) hv hm hs hoff.1,
    blockWrite_stored v hd ht, regStore_source v hi hb]

/-- R466: SVC_MGMT_SCOPE as its session writes it. -/
theorem scopeWrite_source {s : State} {n : BitVec 32} (v : Word) (ho : srcOpen s (.session n) = true)
    (hr : recovering s = false) (hc : s.dbg.capturing.find? (fun e => e.1 = .session n) = none) :
    sourceWrite s (.session n) (regAddr svcAgent 0x3000) v =
      if v.getLsbD 0 = true ∧ bitsOf v 8 8 = 0 then s
      else mgmtMod s n (fun m => { m with scopeOn := v.getLsbD 0, scopePitch := BitVec.ofNat 8 (bitsOf v 8 8) }) := by
  rw [sourceWrite_one ho hr (by simp) hc (by decide) (by decide), agentWrite_scope]
  rfl

section
variable {s t : State} {f : RxFrame} {r : Req} (h : receive s 0x7D f = .go t r) (hh : flagH r.flags = false)
  (hx : flagX r.flags = false) (hc : r.tc = 6) (hl : r.length.toNat = f.payload.length)
include h hh hx hc hl

theorem mgmtAccess_noSession (hn : r.sess = none) : mgmtAccess s f = ackNow (answer t r stDenied []) r.flow := by
  unfold mgmtAccess
  rw [withRequest_go h, mgmtChecks_pass hh hx hc hl, hn]

theorem mgmtAccess_badCount {n : BitVec 32} (hn : r.sess = some n) (hk : entryCount r.payload = none) :
    mgmtAccess s f = ackNow (answer t r stLength []) r.flow := by
  unfold mgmtAccess
  rw [withRequest_go h, mgmtChecks_pass hh hx hc hl, hn, hk]

theorem mgmtAccess_entries {n : BitVec 32} {k : Nat} (hn : r.sess = some n) (hk : entryCount r.payload = some k) :
    mgmtAccess s f = ackNow (entriesThen t (.session n) (fun _ => true) k r.payload (fun s p => answer s r stOk p)) r.flow := by
  unfold mgmtAccess
  rw [withRequest_go h, mgmtChecks_pass hh hx hc hl, hn, hk]

end

/-- R456: a message of ROM recovery whose frame and form are good. -/
theorem recoveryAccess_admitted {s : State} {f : RxFrame} {k : Nat} (hr : recovering s = true) (hv : f.via = .mp)
    (hp : f.encap.udpDst.toNat = 50371) (ha : flagA f.hdr.flags = false) (he : f.hdr.endpoint = 0) (hc : f.hdr.context = 0)
    (ht : f.hdr.tc = 6) (hf : earlyFail 0x7D f = none) (hl : f.hdr.length.toNat = f.payload.length)
    (hk : entryCount f.payload = some k) :
    let r := mkReq 0x7D f (.sess f.srcAddr f.srcPort f.hdr.tc) 0
    recoveryAccess s f = entriesThen s .jtag recoveryReach k f.payload (fun s p =>
      enqueue s 8 { respFrame s r stOk p r.address true with flow := none, release := none }) := by
  unfold recoveryAccess
  simp only [hr, hv, hp, ha, he, hc, ht, hf, hl, hk, Bool.not_true, Bool.false_eq_true, ne_eq, not_true_eq_false, or_self,
    if_false, if_true]

theorem recoveryAccess_elsewhere {s : State} (f : RxFrame) (hr : recovering s = false) : recoveryAccess s f = s := by
  unfold recoveryAccess
  rw [hr]
  rfl

/-- Settles O47: each command is one access of a source, an entry list that answers, or the TAP's access, by the lemmas above. -/
theorem registerAccesses : Obligations.RegisterAccesses := by
  unfold Obligations.RegisterAccesses
  refine ⟨⟨?_, ?_, ?_, ?_⟩, ?_, ?_, ?_, ?_, ?_⟩
  · intro s src addr value rw rwl agent off ho hr hs hi hc hd ht ha h63 hm hoff hb
    refine ⟨_, rfl, ?_⟩
    have e := registerWrite_stored value ho hr hs hi hc hd ht ha h63 hm ⟨hoff, Nat.mod_lt _ (by decide)⟩ hb
    rw [regAddr_div_mod] at e
    rw [e]
    refine ⟨fun a o => ?_, rfl⟩
    rw [regGet_regSet]
    split
    · rename_i e
      unfold regGet
      rw [e]
      rfl
    · rfl
  · intro s src addr value ho hi
    show Host.Outcome.next (sourceWrite s src addr.toNat value) = _
    unfold sourceWrite
    rw [if_neg (by simp [sourceOk_closed ho hi])]
  · intro s n value ho hr hc
    have e := scopeWrite_source value ho hr hc
    exact ⟨fun h => congrArg _ (e.trans (if_pos h)), fun h => congrArg _ (e.trans (if_neg h))⟩
  · intro s src agent ho hi hr ha h63 hc
    exact congrArg _ ((sourceRead_one ho hr hi hc h63 (by decide)).trans (agentRead_count ha))
  · intro s t f r h hh hx hc hl
    refine ⟨fun hn => congrArg _ (mgmtAccess_noSession h hh hx hc hl hn),
      fun n hn hk => congrArg _ (mgmtAccess_badCount h hh hx hc hl hn hk), fun n k u p hn hk hrun hb => ?_⟩
    have e := mgmtAccess_entries h hh hx hc hl hn hk
    rw [entriesThen_answers _ hrun hb] at e
    exact congrArg _ e
  · intro src s p reach k
    exact ⟨fun hr => ⟨fun u v ho h => entryAccess_read hr ho h, fun u v ho h => entryAccess_write hr ho h⟩,
      fun u b w c h hb hk => entriesRun_succ h hb hk⟩
  · intro s f k hr hv hp ha he hc ht hf hl hk r u p hrun hb
    have e := recoveryAccess_admitted hr hv hp ha he hc ht hf hl hk
    dsimp only at e
    rw [entriesThen_answers _ hrun hb] at e
    exact congrArg _ e
  · intro s f hr
    exact congrArg _ (recoveryAccess_elsewhere f hr)
  · intro s op addr data
    refine ⟨fun h1 h2 => ?_, fun ho hc => ?_, fun hc => ⟨fun u v ho h => ?_, fun u v ho h => ?_, fun u ho h => ?_⟩⟩
    · exact congrArg _ (jtagAccess_none s addr.toNat data (by bv_omega) (by bv_omega))
    · exact congrArg _ (jtagAccess_closed data (by bv_omega) hc)
    · subst ho
      exact congrArg _ (jtagAccess_open data (Or.inl rfl) hc h)
    · subst ho
      exact congrArg _ (jtagAccess_open data (Or.inr rfl) hc h)
    · subst ho
      exact congrArg _ (jtagAccess_open data (Or.inl rfl) hc h)

end Sys2Proof.Machine
end

section
/-! PROOFS. The events of a pitch's lifecycle, from the installed creation to the swept granule (R22, R27, R32, R36, R197, R479). -/
namespace Sys2Proof.Machine

theorem pGet_pSet_same (s : State) (n : Nat) (p : PitchSt) : pGet (pSet s n p) n = p := tget_tset_self _ _ _ _

@[simp] theorem pGet_nowTo (s : State) (x n : Nat) : pGet (nowTo s x) n = pGet s n := rfl

/-! ## Creation -/

theorem createDone_installs {s : State} {n : Nat} {r : Req} {at_ : Nat} (hw : (pGet s n).work = some (.create r at_))
    (hf : (pGet s n).settings.flyReq = false ∨ (mirGet s n).role ≠ .none_) : createDone s n =
    answer (moveUnit (setLife (mapPitch (pSet s n { pGet s n with work := none }) n) n .up 0x70) n .up .up) r stOk
      (beBytes 4 (pGet s n).slots.length) := by
  have hfly : ¬ ((pGet s n).settings.flyReq = true ∧ (mirGet s n).role = .none_) := by
    rintro ⟨h1, h2⟩
    rcases hf with h | h
    · rw [h] at h1
      cases h1
    · exact h h2
  unfold createDone
  simp only [hw, if_neg hfly]

theorem createFails_denies {s : State} {n : Nat} {r : Req} {at_ : Nat} (reason : Nat) (hw : (pGet s n).work = some (.create r at_)) :
    createFails s n reason = lcDeny (releaseCreate s n) r reason noField := by
  unfold createFails
  rw [hw]

theorem createTimeout_denies {s : State} {n : Nat} {r : Req} {at_ : Nat} (hw : (pGet s n).work = some (.create r at_))
    (hf : (pGet s n).settings.flyReq = true) (hm : (mirGet s n).role = .none_) : createTimeout s n =
    lcDeny (releaseCreate (nowTo s (at_ + 50000000)) n) r rsFlyRefused noField := by
  unfold createTimeout
  simp only [hw, if_pos (And.intro hf hm)]
  exact createFails_denies _ ((congrArg _ (pGet_nowTo _ _ _)).trans hw)

/-! ## Repitch -/

/-- The mirror role under the new settings: none, the one that stands, or a probe for one (R420). -/
def repitchFly (x : State) (n : Nat) (v : Settings) : State :=
  if v.flyReq = false then mirSet x n {}
  else if (mirGet x n).confirmed = true ∧ (mirGet x n).selfFenced = false then
    bindFly x n (mirGet x n).peer ((v.contexts.head?).getD 0)
  else startProbe x n v

section
variable {s : State} {n : Nat} {r : Req} {v : Settings} {rel gs : List Nat} {at_ : Nat}
  (hw : (pGet s n).work = some (.repitch r v rel gs at_))
include hw

theorem repitchFails_denies : repitchFails s n =
    lcDeny (pSet (freeTaken s gs) n { pGet s n with work := none }) r rsApplyFailed noField := by
  unfold repitchFails
  simp only [hw]

theorem repitchTimeout_denies : repitchTimeout s n =
    lcDeny (pSet (freeTaken (nowTo s (at_ + 2000000)) gs) n { pGet s n with work := none }) r rsApplyFailed noField := by
  unfold repitchTimeout
  simp only [hw]
  rw [repitchFails_denies ((congrArg _ (pGet_nowTo _ _ _)).trans hw), pGet_nowTo]

theorem repitchApplied_denies (hd : dependsFenced s n = true) : repitchApplied s n =
    lcDeny (pSet (freeTaken s gs) n { pGet s n with work := none }) r rsApplyFailed noField := by
  unfold repitchApplied
  simp only [hw, if_pos hd]

theorem repitchApplied_serves (hd : dependsFenced s n = false) :
    let gone := (pGet s n).settings.contexts.filter (fun c => c ∉ v.contexts)
    let u := releaseGranules s n rel
    let q := pGet u n
    let w := pSet u n { q with settings := v, slots := placeGranules q.slots gs, work := none, generation := q.generation + 1,
                               removed := (q.removed ++ gone).filter (fun c => c ∉ v.contexts) }
    let x := fillBuckets (mapCocoons (mapPitch (dropContexts w gone) n) n) n
    repitchApplied s n = answer (repitchFly (moveUnit (setLife (bump0 x .svcRepitch) n .up 0x72) n .up .up) n v)
      r stOk [q.generation + 1, 0, 0, 0] := by
  unfold repitchApplied repitchFly
  simp only [hw, hd, Bool.not_eq_true', Bool.false_eq_true, if_false]

end

/-! ## Strike -/

section
variable {s : State} {n : Nat} {r : Req} {d total failed : Nat} {fold : Bool}
  (hw : (pGet s n).work = some (.strike r d total failed fold))
include hw

theorem strikeEnds_closes (hs : s.svc.restarting = false) :
    let ended := collFree (pSet s n { pGet s n with draining := false, drained := false, work := none }) n
    strikeEnds s n =
      if fold = true then startFold ended r n else answer ended r stOk (beBytes 4 (total - failed) ++ beBytes 4 failed) := by
  unfold strikeEnds
  simp only [hw, hs, Bool.false_eq_true, if_false]

/-- R27 step 4: at t0 + D the operations that still hold trackers fail and are counted, and the strike ends. -/
theorem drainDeadline_ends {u v : State} {k : Nat} (hd : (pGet s n).draining = true) (hu : syncDeadline (nowTo s d) n = u)
    (hk : (pitchTrackers u n).foldl (fun a x => ((failAtDeadline a.1 x.req).1, a.2 + b2n (failAtDeadline a.1 x.req).2)) (u, 0) = (v, k)) :
    let w := bumpN v .svcDrainFail 0 0 0 k
    drainDeadline s n = strikeEnds (pSet w n { pGet w n with work := some (.strike r d total (failed + k) fold) }) n := by
  unfold drainDeadline strikeDeadline
  simp only [pGet_nowTo, hw, hd, hu, hk, Bool.not_true, Bool.false_eq_true, if_true, if_false]

end

theorem drainEnd_ends {s : State} {n : Nat} (hd : (pGet s n).draining = true) (h : drained s n = true) :
    drainEnd s n = strikeEnds s n :=
  if_pos ⟨hd, h⟩

/-! ## Key slots and granules -/

theorem slotRefresh_destroyed {s : State} {k : Nat} (h : (slotGet s k).state = .destroyed) : slotRefresh s k =
    slotPut s k { slotGet s k with
      state := .free, pitch := 0, refreshes := min 0xFFFF ((slotGet s k).refreshes + 1), gen := (slotGet s k).gen + 1 } :=
  if_pos h

theorem sweepDone_returns {s : State} {g : Nat} (hg : (granGet s g).state = .sweeping) (hm : g ∈ s.sweeping)
    (hl : g ∉ s.svc.lateGranules) (hs : s.svc.restarting = false) :
    sweepDone s g = granuleReturned (bumpN (granuleFree s g) .swpLines 0 0 0 0x1000000) g false := by
  unfold sweepDone
  simp only [hg, hm, hl, hs, not_false_eq_true, and_self, if_true, Bool.false_eq_true, if_false]

/-! ## The commands -/

section
variable (s : State) (pitch : BitVec 8)

theorem exec_pitchInstallDone : exec (.pitchInstallDone pitch) s = .next (unlessRestart s (createDone s pitch.toNat)) := rfl

theorem exec_pitchCreateTimeout : exec (.pitchCreateTimeout pitch) s = .next (unlessRestart s (createTimeout s pitch.toNat)) := rfl

theorem exec_pitchInstallFail :
    exec (.pitchInstallFail pitch) s = .next (unlessRestart s (createFails s pitch.toNat rsApplyFailed)) := rfl

theorem exec_repitchApplied : exec (.repitchApplied pitch) s = .next (unlessRestart s (repitchApplied s pitch.toNat)) := rfl

theorem exec_repitchApplyTimeout : exec (.repitchApplyTimeout pitch) s = .next (unlessRestart s (repitchTimeout s pitch.toNat)) := rfl

theorem exec_strikeDrainEnd : exec (.strikeDrainEnd pitch) s = .next (drainEnd s pitch.toNat) := rfl

theorem exec_strikeDrainDeadline : exec (.strikeDrainDeadline pitch) s = .next (settle (drainDeadline s pitch.toNat)) := rfl

end

theorem unlessRestart_serving {s : State} (s' : State) (h : s.svc.restarting = false) : unlessRestart s s' = s' := if_neg (by simp [h])

theorem unlessRestart_restarting {s : State} (s' : State) (h : s.svc.restarting = true) : unlessRestart s s' = s := if_pos h

/-- Settles O31: each event ends the message in progress as the lemmas above say, outside a restart of the service complex. -/
theorem lifecycleEvents : Obligations.LifecycleEvents := by
  unfold Obligations.LifecycleEvents
  refine ⟨fun s pitch hs => ⟨?_, ?_, ?_⟩, ?_, ?_, ?_⟩
  · intro r at_ hw
    rw [exec_pitchInstallDone, exec_pitchCreateTimeout, exec_pitchInstallFail]
    simp only [unlessRestart_serving _ hs]
    exact ⟨fun hf => by rw [createDone_installs hw hf], fun hf hm => by rw [createTimeout_denies hw hf hm],
      by rw [createFails_denies _ hw]⟩
  · intro r v rel gs at_ hw
    rw [exec_repitchApplyTimeout, exec_repitchApplied]
    simp only [unlessRestart_serving _ hs]
    refine ⟨?_, fun hd => ?_, fun hd => ?_⟩
    · rw [repitchTimeout_denies hw]
      rfl
    · rw [repitchApplied_denies hw hd]
      rfl
    · rw [repitchApplied_serves hw hd]
      rfl
  · intro r d total failed fold hw hd
    rw [exec_strikeDrainEnd, exec_strikeDrainDeadline]
    refine ⟨fun h => ?_, fun u v k hu hk hr => ?_⟩
    · rw [drainEnd_ends hd h, strikeEnds_closes hw hs]
    · rw [drainDeadline_ends hw hd hu hk, strikeEnds_closes (congrArg PitchSt.work (pGet_pSet_same _ _ _)) hr]
  · intro s slot h
    exact congrArg Host.Outcome.next (slotRefresh_destroyed h)
  · intro s granule hg hm hl hs
    exact congrArg Host.Outcome.next (sweepDone_returns hg hm hl hs)
  · intro s pitch h
    rw [exec_pitchInstallDone, exec_pitchCreateTimeout, exec_pitchInstallFail, exec_repitchApplyTimeout, exec_repitchApplied]
    simp only [unlessRestart_restarting _ h, and_self]

end Sys2Proof.Machine
end

section
/-! PROOFS. Lifecycle messages: the states that accept each and what it does (R22 to R27, R31, R36, R40 to R42, R50, R521). -/
namespace Sys2Proof.Machine

/-! ## Messages that meet the checks before their own -/

/-- A lifecycle message that meets the checks of R23, R65 and R521: received, authenticated, in TC6, of its size. -/
structure LifecycleMessage (s t : State) (op : Byte) (f : RxFrame) (r : Req) : Prop where
  received : receive s op f = .go t r
  authentic : flagA r.flags = true
  noH : flagH r.flags = false
  noX : flagX r.flags = false
  inTc6 : r.tc = 6
  nonempty : 0 < r.length.toNat
  whole : r.length.toNat = f.payload.length
  size : lcSizeOk r = true

/-- The bytes of a message that must be zero, a settings record's apart. -/
def reservedBytes (op : Byte) : List Nat :=
  if op.toNat = 0x74 then [2, 3] else if op.toNat = 0x76 then [1]
  else if op.toNat = 0x71 ∨ op.toNat = 0x73 ∨ op.toNat = 0x77 then [1, 2, 3] else []

section
variable {s t : State} {op : Byte} {f : RxFrame} {r : Req} (g : LifecycleMessage s t op f r)
include g

theorem LifecycleMessage.reserved : lcReserved r = reservedBytes op := lcReserved_sizes (receive_anyOpcode g.received)

theorem LifecycleMessage.busy (body : State → Req → Nat → State) (ho : op ≠ 0x77) (hn : 0 < (lcPitch r).1)
    (hw : (pGet t (lcPitch r).1).work ≠ none) : lifecycle s op f body = ackNow (lcDeny t r rsBusy noField) r.flow :=
  lifecycle_busy g.received g.authentic g.noH g.noX g.inTc6 g.nonempty g.whole g.size ho hn hw

theorem LifecycleMessage.wrongState (body : State → Req → Nat → State) (hn : 0 < (lcPitch r).1)
    (hw : (pGet t (lcPitch r).1).work = none) (ho : op ≠ 0x77) (hl : ¬ lcAccepts op.toNat (pGet t (lcPitch r).1).life = true) :
    lifecycle s op f body = ackNow (lcDeny t r rsWrongState noField) r.flow :=
  lifecycle_wrongState g.received g.authentic g.noH g.noX g.inTc6 g.nonempty g.whole g.size ho hn hw (Bool.eq_false_of_not_eq_true hl)

theorem LifecycleMessage.accepted (body : State → Req → Nat → State) (hn : 0 < (lcPitch r).1)
    (hw : (pGet t (lcPitch r).1).work = none) (hl : lcAccepts op.toNat (pGet t (lcPitch r).1).life = true)
    (hz : ∀ i ∈ reservedBytes op, byteAt r.payload i = 0) : lifecycle s op f body = ackNow (body t r (lcPitch r).1) r.flow :=
  lifecycle_accepted g.received g.authentic g.noH g.noX g.inTc6 g.nonempty g.whole g.size hn hw hl (g.reserved ▸ hz)

end

/-- PITCH_QUERY runs in any state, PT0's included (R50). -/
theorem LifecycleMessage.query {s t : State} {f : RxFrame} {r : Req} (g : LifecycleMessage s t 0x77 f r)
    (body : State → Req → Nat → State) (hz : ∀ i ∈ [1, 2, 3], byteAt r.payload i = 0) :
    lifecycle s 0x77 f body = ackNow (body t r (lcPitch r).1) r.flow := by
  have hnone : (lcReserved r).find? (fun i => byteAt r.payload i ≠ 0) = none := by
    rw [g.reserved, List.find?_eq_none]
    exact fun i hi hb => of_decide_eq_true hb (hz i hi)
  rw [lifecycle_runs g.received g.authentic g.noH g.noX g.inTc6 g.nonempty g.whole g.size, hnone]
  simp only [ne_eq, not_true_eq_false, false_and, if_false, if_true]
  split
  · rename_i h0
    rw [h0]
  · rfl

/-! ## The states that accept each message (R24) -/

theorem lcAccepts_create (l : Life) : lcAccepts (0x70 : Byte).toNat l = true ↔ l = .empty := by cases l <;> decide

theorem lcAccepts_strike (l : Life) : lcAccepts (0x71 : Byte).toNat l = true ↔ l = .up := by cases l <;> decide

theorem lcAccepts_repitch (l : Life) : lcAccepts (0x72 : Byte).toNat l = true ↔ l = .struck := by cases l <;> decide

theorem lcAccepts_fold (l : Life) : lcAccepts (0x73 : Byte).toNat l = true ↔ l = .up ∨ l = .struck := by cases l <;> decide

theorem lcAccepts_adjust (l : Life) : lcAccepts (0x74 : Byte).toNat l = true ↔ l = .up := by cases l <;> decide

theorem lcAccepts_attach (l : Life) : lcAccepts (0x75 : Byte).toNat l = true ↔ l = .up ∨ l = .struck := by cases l <;> decide

theorem lcAccepts_detach (l : Life) : lcAccepts (0x76 : Byte).toNat l = true ↔ l = .up ∨ l = .struck ∨ l = .sweeping := by cases l <;> decide

/-! ## What each message does -/

section
variable {t : State} {r : Req} {n : Nat}

theorem pitchCreate_accepts (h : recordRefusal t r n false = none) :
    pitchCreate t r n = acceptCreate t r n (readSettings r.payload) := by
  unfold pitchCreate
  rw [h]

theorem pitchCreate_refuses {e : Nat × Nat} (h : recordRefusal t r n false = some e) :
    pitchCreate t r n = lcDeny t r e.1 e.2 := by
  unfold pitchCreate
  rw [h]

theorem pitchRepitch_refuses {e : Nat × Nat} (h : recordRefusal t r n true = some e) : pitchRepitch t r n = lcDeny t r e.1 e.2 := by
  unfold pitchRepitch
  rw [h]

/-- An accepted PITCH_REPITCH holds the granules it adds and waits for the targets (R31). -/
theorem pitchRepitch_accepts (h : recordRefusal t r n true = none) :
    let p := pGet t n
    let v := readSettings r.payload
    let rel := releaseList r.payload
    let gs := if rel.isEmpty then (takeGranules t (tmplOf t p) (v.capacity - p.slots.length)).getD [] else []
    let u := gs.foldl (fun w g => granPut w g { granGet w g with state := .held, pitch := BitVec.ofNat 8 n }) t
    pitchRepitch t r n = markWindow (pSet u n { p with work := some (.repitch r v rel gs t.now) }) r := by
  unfold pitchRepitch
  rw [h]
  rfl

theorem pitchFold_up (h : (pGet t n).life = .up) : pitchFold t r n = startStrike t r n 0x73 true := if_pos h

theorem pitchFold_struck (h : (pGet t n).life = .struck) : pitchFold t r n = startFold t r n := if_neg (by simp [h])

end

/-! ## The commands -/

section
variable (s : State) (f : RxFrame)

theorem exec_pitchCreate : exec (.pitchCreate f) s = .next (lifecycle s 0x70 f pitchCreate) := rfl

theorem exec_pitchStrike :
    exec (.pitchStrike f) s = .next (settle (lifecycle s 0x71 f (fun s r n => startStrike s r n 0x71 false))) := rfl

theorem exec_pitchRepitch : exec (.pitchRepitch f) s = .next (lifecycle s 0x72 f pitchRepitch) := rfl

theorem exec_pitchFold : exec (.pitchFold f) s = .next (settle (lifecycle s 0x73 f pitchFold)) := rfl

theorem exec_pitchAdjust : exec (.pitchAdjust f) s = .next (lifecycle s 0x74 f pitchAdjust) := rfl

theorem exec_attach : exec (.attach f) s = .next (lifecycle s 0x75 f attach) := rfl

theorem exec_detach : exec (.detach f) s = .next (settle (lifecycle s 0x76 f detach)) := rfl

theorem exec_pitchQuery : exec (.pitchQuery f) s = .next (lifecycle s 0x77 f pitchQuery) := rfl

end

/-! ## PITCH_ADJUST (R26) -/

theorem within_of {v lo hi : Nat} (h : lo ≤ v) (h' : v ≤ hi) : within v lo hi = true := by simp [within, h, h']

theorem bucketGet_pSet (s : State) (n : Nat) (p : PitchSt) (m c : Nat) : bucketGet (pSet s n p) m c = bucketGet s m c := rfl

theorem burstOf_pSet (s : State) (n : Nat) (p : PitchSt) (c : Nat) : burstOf (pSet s n p) c = burstOf s c := rfl

/-- Settings with another drain deadline, in their record too. -/
def withDrain (v : Settings) (a : Nat) : Settings := { v with drain := a, digestBytes := putBE v.digestBytes 16 4 a }

/-- Settings with other rates of one class, in their record too. -/
def withRates (v : Settings) (k a b : Nat) : Settings :=
  { v with rates := lset v.rates k (a, b), digestBytes := putBE (putBE v.digestBytes (44 + 8 * k) 4 a) (48 + 8 * k) 4 b }

section
variable {t : State} {r : Req} {n : Nat}

theorem pitchAdjust_notLive (h : 8 < beAt r.payload 1 1) : pitchAdjust t r n = lcDeny t r rsNotLive 1 := if_pos h

theorem pitchAdjust_drain {a : Nat} (hk : beAt r.payload 1 1 = 8) (ha : beAt r.payload 4 4 = a) (hb : beAt r.payload 8 4 = 0)
    (hlo : (tmplOf t (pGet t n)).drainMin ≤ a) (hhi : a ≤ (tmplOf t (pGet t n)).drainMax) :
    pitchAdjust t r n = answer (pSet t n { pGet t n with settings := withDrain (pGet t n).settings a }) r stOk [] := by
  unfold pitchAdjust
  simp only [hk, ha, hb, within_of hlo hhi, Nat.lt_irrefl, Bool.not_true, Bool.false_eq_true, ne_eq, not_true_eq_false,
    if_true, if_false]
  rfl

theorem pitchAdjust_rates {k a b : Nat} {rb : RateBounds} (hk : beAt r.payload 1 1 = k) (ha : beAt r.payload 4 4 = a)
    (hb : beAt r.payload 8 4 = b) (h8 : k < 8) (hrb : ((tmplOf t (pGet t n)).rates[k]?).getD {} = rb)
    (hc : rb.cMin ≤ a ∧ a ≤ rb.cMax) (hp : rb.pMin ≤ b ∧ b ≤ rb.pMax) (hab : a ≤ b) :
    let u := pSet t n { pGet t n with settings := withRates (pGet t n).settings k a b }
    pitchAdjust t r n = answer (if k < 7 then bucketPut u n k
      { c := min (bucketGet t n k).c (bucketDepth a (burstOf t k)), p := min (bucketGet t n k).p (bucketDepth b (burstOf t k)) } else u)
      r stOk [] := by
  have hp8 : ¬ (8 < k) := by omega
  have hk8 : ¬ (k = 8) := by omega
  unfold pitchAdjust
  simp only [hk, ha, hb, hrb, within_of hc.1 hc.2, within_of hp.1 hp.2, hp8, hk8, Nat.not_lt.2 hab, Bool.not_true,
    Bool.false_eq_true, or_self, if_false, bucketGet_pSet, burstOf_pSet]
  rfl

end

/-! ## ATTACH and DETACH (R40 to R42) -/

/-- The contexts that an ATTACH names. -/
abbrev attachCtx (r : Req) (j : Nat) : BitVec 16 := BitVec.ofNat 16 (beAt r.payload (24 + 2 * j) 2)

/-- The source entry that an ATTACH makes. -/
abbrev attachEntry (r : Req) : SrcEntry :=
  { addr := BitVec.ofNat 128 (beAt r.payload 4 16), port := BitVec.ofNat 16 (beAt r.payload 20 2)
    maxSeg := BitVec.ofNat 2 (beAt r.payload 1 1) }

/-- The words of an ATTACH beyond its contexts are zero. -/
theorem attach_noPad {ctx : Nat → BitVec 16} {k : Nat} (h : ∀ j, k ≤ j → j < 16 → ctx j = 0) :
    ((upto 16).filter (fun j => k ≤ j)).find? (fun j => ctx j ≠ 0) = none := by
  rw [List.find?_eq_none]
  intro j hj
  obtain ⟨hj16, hkj⟩ := List.mem_filter.1 hj
  simp [h j (of_decide_eq_true hkj) (List.mem_range.1 hj16)]

/-- Contexts of the pitch that the endpoint does not hold, none named twice, meet the check of each. -/
theorem attach_noBad {ctx : Nat → BitVec 16} {k : Nat} {cur held : List (BitVec 16)}
    (h : ∀ c ∈ (upto k).map ctx, c ≠ 0 ∧ c ≠ 0xFFFF ∧ c ∈ cur ∧ c ∉ held) (hd : ((upto k).map ctx).Nodup) :
    (upto ((upto k).map ctx).length).find? (fun j => ctx j = 0 ∨ ctx j = 0xFFFF ∨ ctx j ∉ cur ∨
      ctx j ∈ ((upto k).map ctx).take j ∨ ctx j ∈ held) = none := by
  rw [List.find?_eq_none]
  intro j hj
  have hjl : j < ((upto k).map ctx).length := List.mem_range.1 hj
  have hget : ((upto k).map ctx)[j] = ctx j := by simp [upto]
  obtain ⟨hz, hf, hcur, hheld⟩ := h (ctx j) (hget ▸ List.getElem_mem hjl)
  have hnew : ctx j ∉ ((upto k).map ctx).take j := by
    intro hm
    obtain ⟨i, hi, e⟩ := List.mem_take_iff_getElem.1 hm
    have hij := (hd.getElem_inj_iff).1 (e.trans hget.symm)
    omega
  intro hbad
  rcases of_decide_eq_true hbad with e | e | e | e | e
  exacts [hz e, hf e, e hcur, hnew e, hheld e]

section
variable {t : State} {r : Req} {n i k : Nat}

/-- An ATTACH to endpoint i, with k contexts, whose fields hold (R41). -/
structure AttachFits (t : State) (r : Req) (n i k : Nat) : Prop where
  endpoint : beAt r.payload 2 2 = i
  count : beAt r.payload 23 1 = k
  inTable : i < 4096
  noPartner : partnerOf t i = none
  positive : 0 < k
  most : k ≤ 16
  pad : ∀ j, k ≤ j → j < 16 → attachCtx r j = 0
  sameSource : ∀ e, tfind t.act.src i = some e → e.addr = (attachEntry r).addr ∧ e.port = (attachEntry r).port
  idle : tfind t.act.src i = none → ∀ x ∈ t.tpt.trackers, ∀ q c v, x.req.flow = .ep q c v → q.toNat ≠ i
  contexts : ∀ c ∈ (upto k).map (attachCtx r), c ≠ 0 ∧ c ≠ 0xFFFF ∧ c ∈ (pGet t n).settings.contexts ∧ c ∉ heldContexts t i
  distinct : ((upto k).map (attachCtx r)).Nodup
  segment : beAt r.payload 1 1 ≤ 3
  groups : byteAt r.payload 22 ≠ 0
  room : (heldContexts t i).length + k ≤ 16
  attached : i ∈ attachedTo t n ∨ (attachedTo t n).length < (pGet t n).settings.attachMax

theorem attach_fills (a : AttachFits t r n i k) : attach t r n =
    answer (actMod (mtPut t i (fillWords (mtGet t i) ((upto k).map (attachCtx r)) (byteAt r.payload 22)))
      (fun x => { x with src := tins x.src i (attachEntry r) })) r stOk [] := by
  unfold attach
  simp only [a.endpoint, a.count]
  refine (if_neg ?_).trans ((if_neg (not_or.2 ⟨a.positive.ne', Nat.not_lt.2 a.most⟩)).trans ?_)
  · rintro (h | h | h)
    · exact absurd a.inTable (Nat.not_lt.2 h)
    · simp [a.noPartner] at h
    · split at h
      · rename_i e he
        obtain ⟨haddr, hport⟩ := a.sameSource e he
        simp [haddr, hport] at h
      · rename_i he
        obtain ⟨x, hx, hflow⟩ := List.any_eq_true.1 h
        split at hflow
        · rename_i q c v hq
          exact a.idle he x hx q c v hq (of_decide_eq_true hflow)
        · cases hflow
  · rw [attach_noPad a.pad, Nat.min_eq_left a.most, attach_noBad a.contexts a.distinct]
    simp only [Nat.not_lt.2 a.segment, a.groups, Nat.not_lt.2 a.room, if_false]
    exact if_neg fun ⟨hi, hl⟩ => a.attached.elim hi (Nat.not_lt.2 hl)

theorem detach_frees (hi : beAt r.payload 2 2 = i) (hi' : i < 4096) (hp : partnerOf t i = none)
    (hc : ∃ c ∈ heldContexts t i, c ∈ boundContexts t n) :
    let u := hDropWhere t (fun h => decide (h.endpoint.toNat = i) && decide (h.pitch.toNat = n))
    detach t r n = answer (collLostEndpoint (syncDetach (detachOne u i n) i n) i n) r stOk [] := by
  have hany : (heldContexts t i).any (fun c => decide (c ∈ boundContexts t n)) = true := by simpa using hc
  unfold detach
  simp only [hi, hp, hany, Nat.not_le.2 hi', Option.isSome_none, Bool.not_true, Bool.false_eq_true, or_self, if_false]

end

/-- Settles O30: a message passes, is busy or meets a wrong state by the lemmas of `LifecycleMessage`, and each message that
passes runs its own lemma. -/
theorem lifecycleRequests : Obligations.LifecycleRequests := by
  unfold Obligations.LifecycleRequests
  refine ⟨?_, ?_⟩
  · intro s t op f r h ha hh hx hc h0 hl hs
    have g : LifecycleMessage s t op f r := ⟨h, ha, hh, hx, hc, h0, hl, hs⟩
    refine ⟨?_, fun hn hw => ?_, fun hn hw => ?_⟩
    · rintro rfl hz
      rw [exec_pitchQuery, g.query _ hz]
    · exact ⟨by rintro rfl; rw [exec_pitchCreate, g.busy _ (by decide) hn hw],
        by rintro rfl; rw [exec_pitchStrike, g.busy _ (by decide) hn hw],
        by rintro rfl; rw [exec_pitchRepitch, g.busy _ (by decide) hn hw],
        by rintro rfl; rw [exec_pitchFold, g.busy _ (by decide) hn hw],
        by rintro rfl; rw [exec_pitchAdjust, g.busy _ (by decide) hn hw],
        by rintro rfl; rw [exec_attach, g.busy _ (by decide) hn hw],
        by rintro rfl; rw [exec_detach, g.busy _ (by decide) hn hw]⟩
    · refine ⟨?_, ?_, ?_, ?_, ?_, ?_, ?_, ?_, ?_, ?_, ?_, ?_, ?_, ?_, ?_, ?_, ?_⟩
      · rintro rfl hl
        rw [exec_pitchCreate, g.wrongState _ hn hw (by decide) (mt (lcAccepts_create _).1 hl)]
      · rintro rfl hl hr
        rw [exec_pitchCreate, g.accepted _ hn hw ((lcAccepts_create _).2 hl) (List.forall_mem_nil _),
          pitchCreate_accepts hr]
      · rintro e rfl hl hr
        rw [exec_pitchCreate, g.accepted _ hn hw ((lcAccepts_create _).2 hl) (List.forall_mem_nil _),
          pitchCreate_refuses hr]
      · rintro rfl hl hz
        rw [exec_pitchStrike, g.accepted _ hn hw ((lcAccepts_strike _).2 hl) hz]
      · rintro rfl hl
        rw [exec_pitchStrike, g.wrongState _ hn hw (by decide) (mt (lcAccepts_strike _).1 hl)]
      · rintro rfl hl hr
        rw [exec_pitchRepitch, g.accepted _ hn hw ((lcAccepts_repitch _).2 hl) (List.forall_mem_nil _),
          pitchRepitch_accepts hr]
      · rintro e rfl hl hr
        rw [exec_pitchRepitch, g.accepted _ hn hw ((lcAccepts_repitch _).2 hl) (List.forall_mem_nil _),
          pitchRepitch_refuses hr]
      · rintro rfl hl
        rw [exec_pitchRepitch, g.wrongState _ hn hw (by decide) (mt (lcAccepts_repitch _).1 hl)]
      · rintro rfl hl hz
        rw [exec_pitchFold, g.accepted _ hn hw ((lcAccepts_fold _).2 (Or.inl hl)) hz, pitchFold_up hl]
      · rintro rfl hl hz
        rw [exec_pitchFold, g.accepted _ hn hw ((lcAccepts_fold _).2 (Or.inr hl)) hz, pitchFold_struck hl]
      · rintro rfl hu hl
        rw [exec_pitchFold, g.wrongState _ hn hw (by decide) (mt (lcAccepts_fold _).1 (not_or.2 ⟨hu, hl⟩))]
      · rintro rfl hl hz
        rw [exec_pitchAdjust, g.accepted _ hn hw ((lcAccepts_adjust _).2 hl) hz]
      · rintro rfl hl
        rw [exec_pitchAdjust, g.wrongState _ hn hw (by decide) (mt (lcAccepts_adjust _).1 hl)]
      · rintro rfl hl
        rw [exec_attach, g.accepted _ hn hw ((lcAccepts_attach _).2 hl) (List.forall_mem_nil _)]
      · rintro rfl hu hl
        rw [exec_attach, g.wrongState _ hn hw (by decide) (mt (lcAccepts_attach _).1 (not_or.2 ⟨hu, hl⟩))]
      · rintro rfl hl hz
        rw [exec_detach, g.accepted _ hn hw ((lcAccepts_detach _).2 hl) (List.forall_mem_singleton.2 hz)]
      · rintro rfl hl
        rw [exec_detach, g.wrongState _ hn hw (by decide) (mt (lcAccepts_detach _).1 (by rcases hl with e | e <;> simp [e]))]
  · intro t r n
    refine ⟨pitchAdjust_notLive, fun hk hlo hhi hb => ⟨_, pitchAdjust_drain hk rfl hb hlo hhi, rfl, rfl⟩, ?_, ?_, ?_⟩
    · intro rb hk hrb hc hc' hp hp' hab
      exact ⟨_, _, pitchAdjust_rates rfl rfl rfl hk hrb.symm ⟨hc, hc'⟩ ⟨hp, hp'⟩ hab, rfl, rfl,
        fun h7 => if_neg (not_lt_of_ge h7.ge), fun h7 => if_pos h7⟩
    · intro hi hp h0 h16 hpad hsrc hidle hctx hdup hseg hgrp hroom hmax
      exact attach_fills ⟨rfl, rfl, hi, hp, h0, h16, hpad, hsrc, hidle, hctx, hdup, hseg, hgrp, hroom, hmax⟩
    · exact detach_frees rfl

end Sys2Proof.Machine
end

section
/-! PROOFS. Management sessions: OPEN, PROOF, CLOSE and their end (R43, R44, R64, R78). -/
namespace Sys2Proof.Machine

section
variable {t : State} {r : Req}

theorem mgmtOpen_opens (hl : r.payload.length = 4) (ho : openSessions t < 4) :
    let c := draw (draw (draw t).2).2
    let used := t.tpt.sessions.map (·.number)
    let m : MgmtSess := { number := freshNumber used used.length (c.1.truncate 32), nonce := (draw t).1, key := (draw (draw t).2).1,
                          lastValid := t.now, addr := r.srcAddr, port := r.srcPort }
    mgmtOpen t r = answer (tptMod c.2 (fun x => { x with sessions := x.sessions ++ [m] })) r stOk
      (beBytes 64 m.nonce.toNat ++ beBytes 4 m.number.toNat ++
        beBytes 512 (Config.rsaWrap t.img.operatorKey (beBytes 64 m.key.toNat)).toNat) := by
  unfold mgmtOpen
  rw [if_neg (not_not.2 hl), if_neg (Nat.not_le.2 ho)]
  rfl

theorem mgmtOpen_denied (hl : r.payload.length = 4) (ho : 4 ≤ openSessions t) : mgmtOpen t r = answer t r stDenied [] := by
  unfold mgmtOpen
  rw [if_neg (not_not.2 hl), if_pos ho]

section
variable {number : BitVec 32} {m : MgmtSess} (hl : r.payload.length = 520) (hk : BitVec.ofNat 32 (beAt r.payload 4 4) = number)
  (hm : mgmtFind t number = some m)
include hl hk hm

theorem mgmtProof_opens (hc : m.isOpen = false) (ho : openSessions t < 4)
    (hv : Config.rsaVerify t.img.operatorKey (beBytes 64 m.nonce.toNat ++ beBytes 4 number.toNat) (r.payload.drop 8) = true) :
    mgmtProof t r = answer (mgmtMod t number (fun m => { m with isOpen := true, lastCounter := 0, respCounter := 1, lastValid := t.now }))
      r stOk [] := by
  unfold mgmtProof
  rw [if_neg (not_not.2 hl)]
  simp only [hk, hm, hc, ho, hv, Bool.not_false, decide_true, Bool.and_self, if_true]

theorem mgmtProof_denied
    (hv : Config.rsaVerify t.img.operatorKey (beBytes 64 m.nonce.toNat ++ beBytes 4 number.toNat) (r.payload.drop 8) = false) :
    mgmtProof t r = answer t r stDenied [] := by
  unfold mgmtProof
  rw [if_neg (not_not.2 hl)]
  simp only [hk, hm, hv, Bool.and_false, Bool.false_eq_true, if_false]

end

theorem mgmtCloseMsg_closes {k : BitVec 32} (hl : r.payload.length = 4) (hs : r.sess = some k) :
    mgmtCloseMsg t r = mgmtClose (answer t r stOk []) k := by
  unfold mgmtCloseMsg
  rw [if_neg (not_not.2 hl), hs]

end

/-- The flows of a session are those of its address and port. -/
def sessionFlow (m : MgmtSess) : FlowId → Bool
  | .sess a p _ => decide (a = m.addr) && decide (p = m.port)
  | .ep _ _ _ => false

theorem mgmtClose_drops {s : State} {number : BitVec 32} {m : MgmtSess} (h : mgmtFind s number = some m) : mgmtClose s number =
    dropFlows (tptMod s (fun x => { x with sessions := x.sessions.filter (fun y => y.number ≠ number) })) (sessionFlow m) := by
  unfold mgmtClose
  rw [h]
  rfl

theorem mgmtExpire_closes {s : State} {number : BitVec 32} {m : MgmtSess} (h : mgmtFind s number = some m) :
    mgmtExpire s number = mgmtClose (nowTo s (m.lastValid + 600000000000)) number := by
  unfold mgmtExpire
  rw [h]

/-! ## MGMT_SESSION by its sub-operation -/

section
variable {s t : State} {f : RxFrame} {r : Req} (h : receive s 0x7C f = .go t r) (hh : flagH r.flags = false)
  (hx : flagX r.flags = false) (hc : r.tc = 6) (hl : r.length.toNat = f.payload.length)
include h hh hx hc hl

theorem mgmtSession_open (hk : byteAt r.payload 0 = 1) : mgmtSession s f = ackNow (mgmtOpen t r) r.flow := by
  unfold mgmtSession
  rw [withRequest_go h, mgmtChecks_pass hh hx hc hl]
  simp only [hk, if_true]

theorem mgmtSession_proof (hk : byteAt r.payload 0 = 2) : mgmtSession s f = ackNow (mgmtProof t r) r.flow := by
  unfold mgmtSession
  rw [withRequest_go h, mgmtChecks_pass hh hx hc hl, hk]
  rfl

theorem mgmtSession_close (hk : byteAt r.payload 0 = 3) : mgmtSession s f = ackNow (mgmtCloseMsg t r) r.flow := by
  unfold mgmtSession
  rw [withRequest_go h, mgmtChecks_pass hh hx hc hl, hk]
  rfl

end

/-! ## The commands -/

theorem exec_mgmtSessionOpen (s : State) (f : RxFrame) : exec (.mgmtSessionOpen f) s = .next (mgmtSession s f) := rfl

theorem exec_mgmtSessionProof (s : State) (f : RxFrame) : exec (.mgmtSessionProof f) s = .next (mgmtSession s f) := rfl

theorem exec_mgmtSessionClose (s : State) (f : RxFrame) : exec (.mgmtSessionClose f) s = .next (mgmtSession s f) := rfl

theorem exec_mgmtSessionExpire (s : State) (number : BitVec 32) :
    exec (.mgmtSessionExpire number) s = .next (mgmtExpire s number) := rfl

/-- Settles O32: each sub-operation of MGMT_SESSION runs its own lemma, and an expiry closes as CLOSE does. -/
theorem managementSessions : Obligations.ManagementSessions := by
  unfold Obligations.ManagementSessions
  refine ⟨fun s t f r h hh hx hc hl => ⟨fun hk h4 ho => ?_, fun hk h4 ho => ?_, fun m hk h520 hm hi ho => ?_, fun k hk h4 hs => ?_⟩,
    fun s number m hm => ?_⟩
  · rw [exec_mgmtSessionOpen, mgmtSession_open h hh hx hc hl hk, mgmtOpen_opens h4 ho]
  · rw [exec_mgmtSessionOpen, mgmtSession_open h hh hx hc hl hk, mgmtOpen_denied h4 ho]
  · rw [exec_mgmtSessionProof, mgmtSession_proof h hh hx hc hl hk]
    exact ⟨fun hv => by rw [mgmtProof_opens h520 rfl hm hi ho hv], fun hv => by rw [mgmtProof_denied h520 rfl hm hv]⟩
  · rw [exec_mgmtSessionClose, mgmtSession_close h hh hx hc hl hk, mgmtCloseMsg_closes h4 hs]
  · rw [exec_mgmtSessionExpire, mgmtExpire_closes hm, mgmtClose_drops ((mgmtFind_nowTo _ _ _).trans hm)]
    rfl

end Sys2Proof.Machine
end

section
/-! PROOFS. Requests of the pool protocol that pass their checks: what each runs at check 14 (R63, R138, R237). -/
namespace Sys2Proof.Machine

section
variable {t u : State} {r : Req} {ps : List (List Piece)} {sl : Nat} (h : check14 t r (needsOf t r) = .ok ps sl)
  (ho : obtainLines t r ((ps[0]?).getD []) ((ps[1]?).getD []) = (u, true))
include h ho

theorem memExec_read (e : r.op = 0x01) : memExec t r = releaseLines (streamOut u r r.address.toNat ((ps[0]?).getD [])) r := by
  rw [memExec_go h ho (by rw [e]; decide), e]
  rfl

theorem memExec_write (e : r.op = 0x02) : memExec t r = releaseLines (runWrite u r ((ps[0]?).getD [])) r := by
  rw [memExec_go h ho (by rw [e]; decide), e]
  rfl

theorem memExec_writeNotify (e : r.op = 0x03) :
    memExec t r = releaseLines (runNotify u r ((ps[0]?).getD []) ((ps[1]?).getD [])) r := by
  rw [memExec_go h ho (by rw [e]; decide), e]
  rfl

theorem memExec_bulkGet (e : r.op = 0x20) : memExec t r = releaseLines (streamOut u r 0 (rowPieces (readDesc r.payload 0)
    (descReach u r (readDesc r.payload 0)) ((ps[0]?).getD []) (rowFuel (readDesc r.payload 0) r.length.toNat) 0 r.length.toNat)) r := by
  rw [memExec_go h ho (by rw [e]; decide), e]
  rfl

theorem memExec_bulkPut (e : r.op = 0x21) : memExec t r = releaseLines (runPut u r ((ps[0]?).getD [])) r := by
  rw [memExec_go h ho (by rw [e]; decide), e]
  rfl

theorem memExec_bulkCopy (e : r.op = 0x22) :
    memExec t r = releaseLines (runCopy u r ((ps[0]?).getD []) ((ps[1]?).getD [])) r := by
  rw [memExec_go h ho (by rw [e]; decide), e]
  rfl

end

/-- A request whose execution from check 14 leaves `x` and frees its lines is operated at `x`. -/
theorem memRequest_operated {s u x : State} {op : Byte} {f : RxFrame} {r : Req} {ps : List (List Piece)} (h : Ready s op f r ps u)
    (hk : opKnown op = true) (h21 : op ≠ 0x21) (h23 : op ≠ 0x23) (h32 : op ≠ 0x32)
    (hx : ∀ {t sl}, check14 t r (needsOf t r) = .ok ps sl → obtainLines t r ((ps[0]?).getD []) ((ps[1]?).getD []) = (u, true) →
      r.op = op → memExec t r = releaseLines x r) :
    Host.Outcome.next (φ := Fault) (ρ := Refusal) (settle (memRequest s op f)) = operated x r := by
  obtain ⟨t, sl, e, hm, -, h14, hl⟩ := ready_mem h hk h21 h23 h32
  rw [hm, hx h14 hl e]
  rfl

section
variable {s u : State} {f : RxFrame} {r : Req} {ps : List (List Piece)}

theorem exec_read_ready (h : Ready s 0x01 f r ps u) :
    exec (.read f) s = operated (streamOut u r r.address.toNat ((ps[0]?).getD [])) r :=
  memRequest_operated h (by decide) (by decide) (by decide) (by decide) memExec_read

theorem exec_bulkGet_ready (h : Ready s 0x20 f r ps u) :
    exec (.bulkGet f) s = operated (streamOut u r 0 (rowPieces (readDesc r.payload 0) (descReach u r (readDesc r.payload 0))
      ((ps[0]?).getD []) (rowFuel (readDesc r.payload 0) r.length.toNat) 0 r.length.toNat)) r :=
  memRequest_operated h (by decide) (by decide) (by decide) (by decide) memExec_bulkGet

theorem exec_write_ready (h : Ready s 0x02 f r ps u) : exec (.write f) s = operated (runWrite u r ((ps[0]?).getD [])) r := by
  obtain ⟨t, sl, e, -, hw, h14, hl⟩ := ready_mem h (by decide) (by decide) (by decide) (by decide)
  exact congrArg Host.Outcome.next (hw.trans (by rw [memExec_write h14 hl e]))

theorem exec_writeNotify_ready (h : Ready s 0x03 f r ps u) :
    exec (.writeNotify f) s = operated (runNotify u r ((ps[0]?).getD []) ((ps[1]?).getD [])) r :=
  memRequest_operated h (by decide) (by decide) (by decide) (by decide) memExec_writeNotify

theorem exec_bulkCopy_ready (h : Ready s 0x22 f r ps u) :
    exec (.bulkCopy f) s = operated (runCopy u r ((ps[0]?).getD []) ((ps[1]?).getD [])) r :=
  memRequest_operated h (by decide) (by decide) (by decide) (by decide) memExec_bulkCopy

end

end Sys2Proof.Machine
end

section
/-! PROOFS. READ and BULK_GET: the segments of their answers (R81, R82, R214). -/
namespace Sys2Proof.Machine

section
variable {u : State} {r : Req} {a : Nat} {p : List Piece}

theorem streamOut_plain (hx : flagX r.flags = false) (hg : goodPrefix u r.context p 0 = none) :
    streamOut u r a p = sendSegs ((piecesBytes u p).length / segSize u r + 1) (queueReads (markWindow u r) r (pieceLines p)) r
      (segSize u r) a (piecesBytes u p) (p.map (fun x => (x.ppa, x.len))) [] := by
  unfold streamOut
  simp only [hx, hg, Bool.false_eq_true, false_and, if_false]

/-- A line that fails in the first segment: no data goes out, its status alone (R82). -/
theorem streamOut_fails {good line st : Nat} {v : LineVerdict} (hx : flagX r.flags = false)
    (hg : goodPrefix u r.context p 0 = some (good, line, st, v)) (hlt : good < segSize u r) :
    streamOut u r a p = respondAt (if st = stDenied then
        bump (markWindow u r) .actDeniedOwner (chanOf (markWindow u r) line) 0 r.pitch.toNat
      else badLine (markWindow u r) line r.pitch.toNat v) r st [] (BitVec.ofNat 64 a) := by
  unfold streamOut
  simp only [hx, hg, Nat.div_eq_of_lt hlt, Bool.false_eq_true, false_and, if_false, Nat.zero_mul, Nat.zero_div, Nat.add_zero]
  rfl

theorem streamOut_sealed {key : BitVec 256} (hx : flagX r.flags = true) (hk : (pkGet u r.pitch.toNat).session = some key)
    (hb : touchesBadCocoon u r.pitch.toNat p = false) (he : (pkGet u r.pitch.toNat).sealExec < 2 ^ 56)
    (hg : goodPrefix u r.context p 0 = none) :
    let n := r.pitch.toNat
    let k := pkGet u n
    let data := sealData key n k.sealExec (piecesBytes u p)
    streamOut u r a p = sendSegs (data.length / segSize u r + 1)
      (queueReads (bump (pkPut (markWindow u r) n { k with sealExec := k.sealExec + 1 }) .tptSealedExec 0 0 n) r (pieceLines p)) r
      (segSize u r) a data (p.map (fun x => (x.ppa, x.len))) ((sealBlock n k.sealExec 0).take 12 ++ zeros 4) := by
  unfold streamOut
  simp only [hx, hk, hb, hg, Nat.not_le.2 he, Option.isNone_some, Bool.false_eq_true, or_self, and_false, if_false, if_true]

theorem streamOut_refused (hx : flagX r.flags = true)
    (h : (pkGet u r.pitch.toNat).session = none ∨ touchesBadCocoon u r.pitch.toNat p = true) :
    streamOut u r a p = answer (bump u .actSealed 0 0 r.pitch.toNat) r stSealed [] := by
  unfold streamOut
  refine if_pos ⟨hx, h.elim (fun hk => Or.inl ?_) (fun hb => Or.inr (Or.inl hb))⟩
  rw [hk]
  rfl

end

/-- Settles O13: READ and BULK_GET both run `streamOut`, which has one lemma for each way an answer can go. -/
theorem readsAnswered : Obligations.ReadsAnswered := by
  unfold Obligations.ReadsAnswered
  intro s op f r ps u h p0 d n seg streams
  have answers : ∀ c a p, exec c s = operated (streamOut u r a p) r → streams c a p := by
    intro c a p hc
    refine ⟨fun hx hg => ?_, fun good line st v hx hg hlt => ?_, fun key hx hk hb he hg => ?_, fun hx hr => ?_⟩
    · rw [hc, streamOut_plain hx hg]
    · rw [hc, streamOut_fails hx hg hlt]
    · rw [hc, streamOut_sealed hx hk hb he hg]
    · rw [hc, streamOut_refused hx hr]
  exact ⟨fun e => answers _ _ _ (exec_read_ready (e ▸ h)), fun e => answers _ _ _ (exec_bulkGet_ready (e ▸ h))⟩

end Sys2Proof.Machine
end

section
/-! PROOFS. The atomics: the new value of the target and the old one in the answer (R55, R69, R70). -/
namespace Sys2Proof.Machine

theorem isAtomic_of_isIntAtomic {op : Byte} (h : isIntAtomic op = true) : isAtomic op = true := by
  simp only [isIntAtomic, isAtomic, decide_eq_true_eq] at *
  omega

/-- Every atomic runs `runAtomic` where its operation runs. -/
theorem atomic_operated {s u : State} {op : Byte} {f : RxFrame} {r : Req} {ps : List (List Piece)} (h : Ready s op f r ps u)
    (ia : isAtomic op = true) :
    Host.Outcome.next (φ := Fault) (ρ := Refusal) (settle (memRequest s op f)) = operated (runAtomic u r ((ps[0]?).getD [])) r := by
  have hop : 0x10 ≤ op.toNat ∧ op.toNat ≤ 0x1B := of_decide_eq_true ia
  have hk : opKnown op = true := decide_eq_true (Or.inr (Or.inl hop))
  have hne : ∀ {b : Byte}, isAtomic b = false → op ≠ b := fun hb e => by rw [← e, ia] at hb; cases hb
  exact (atomic_answers h hk (hne (by decide)) (hne (by decide)) (hne (by decide)) ia (by omega) (by omega) (by omega)
    (hne (by decide))).2

section
variable {s u : State} {op : Byte} {c : Instr} {f : RxFrame} {r : Req} {ps : List (List Piece)} (h : Ready s op f r ps u)
  (hc : exec c s = .next (settle (memRequest s op f))) (hb : firstBad u r.context (pieceLines ((ps[0]?).getD [])) = none)
include h hc hb

/-- An integer atomic stores the value that `atomInt` gives for the old one, little-endian, and answers the old one. -/
theorem exec_intAtomic_ready (hi : isIntAtomic op = true) {x : Nat}
    (hx : atomInt op r.length.toNat (leNat (piecesBytes u ((ps[0]?).getD [])))
      (beAt r.payload (if op = 0x12 then r.length.toNat else 0) r.length.toNat) (beAt r.payload 0 r.length.toNat) = x) :
    let p := (ps[0]?).getD []
    exec c s = operated (completeWrite (queueWrites (writePieces u r.pitch.toNat r.context p (leBytes r.length.toNat x)) r (pieceLines p))
      r [((reach u r r.address.toNat).getD r.address.toNat, r.length.toNat)] (beBytes r.length.toNat (leNat (piecesBytes u p)))) r := by
  intro p
  obtain ⟨t, h0, hs⟩ := h
  rw [hc, atomic_operated ⟨t, h0, hs⟩ (isAtomic_of_isIntAtomic hi), atomic_integer (receive_anyOpcode h0) hb hi x hx]

/-- A floating-point atomic adds element by element. -/
theorem exec_floatAtomic_ready (ia : isAtomic op = true) (hi : isIntAtomic op = false) {k : Nat} (hk : atomElem op = k)
    {g : Nat → Nat → Nat} (hg : ∀ a b, (if k = 4 then addF32 a b else addBf16 a b) = g a b) :
    let p := (ps[0]?).getD []
    let old := piecesBytes u p
    exec c s = operated (completeWrite (queueWrites (writePieces u r.pitch.toNat r.context p
      ((upto (old.length / k)).zip (upto (r.payload.length / k)) |>.flatMap (fun i =>
        leBytes k (g (leNat ((old.drop (k * i.1)).take k)) (beNat ((r.payload.drop (k * i.2)).take k)))))) r (pieceLines p))
      r [((reach u r r.address.toNat).getD r.address.toNat, r.length.toNat)]
      ((upto (old.length / k)).flatMap (fun i => ((old.drop (k * i)).take k).reverse))) r := by
  intro p old
  obtain ⟨t, h0, hs⟩ := h
  rw [hc, atomic_operated ⟨t, h0, hs⟩ ia, atomic_float (receive_anyOpcode h0) hb hi k hk g hg]

end

/-- Settles O15: each integer atomic is `runAtomic` with its value of `atomInt`, each sum with its addition of elements. -/
theorem atomicResults : Obligations.AtomicResults := by
  unfold Obligations.AtomicResults
  intro s op f r ps u h hb p len w old m v stores swaps sums
  have swap : ∀ {o : Byte} {c : Instr} {x : Nat}, isIntAtomic o = true → exec c s = .next (settle (memRequest s o f)) →
      atomInt o len m (beAt r.payload (if o = 0x12 then len else 0) len) v = x → op = o → swaps c x :=
    fun hi hc hx e => exec_intAtomic_ready (e ▸ h) hc hb hi hx
  refine ⟨swap (by decide) rfl rfl, swap (by decide) rfl rfl, swap (by decide) rfl rfl, swap (by decide) rfl rfl,
    swap (by decide) rfl rfl, swap (by decide) rfl rfl, swap (by decide) rfl rfl, swap (by decide) rfl rfl,
    swap (by decide) rfl rfl, swap (by decide) rfl rfl, fun e => ?_, fun e => ?_⟩
  · exact exec_floatAtomic_ready (k := 4) (g := addF fp32) (e ▸ h) rfl hb (by decide) (by decide) rfl fun a b => if_pos rfl
  · exact exec_floatAtomic_ready (k := 2) (g := addF bf16) (e ▸ h) rfl hb (by decide) (by decide) rfl fun a b => if_neg (by decide)

end Sys2Proof.Machine
end

section
/-! PROOFS. WRITE and WRITE_NOTIFY: owner tags first, then the data and the notify word (R68, R131, R165). -/
namespace Sys2Proof.Machine

section
variable {u : State} {r : Req}

theorem refuseWrite_denied (l : Nat) (v : LineVerdict) : refuseWrite u r (l, stDenied, v) =
    answer (bump u .actDeniedOwner (chanOf u l) 0 r.pitch.toNat) r stDenied [] := by
  unfold refuseWrite
  simp only [if_true]

theorem refuseWrite_bad {st : Nat} (hst : st ≠ stDenied) (l : Nat) (v : LineVerdict) :
    refuseWrite u r (l, st, v) = answer (badLine u l r.pitch.toNat v) r st [] := by
  unfold refuseWrite
  simp only [hst, if_false]

theorem runWrite_stores {p : List Piece} (hb : firstBad u r.context (pieceLines p) = none) :
    runWrite u r p = completeWrite (queueWrites (writePieces u r.pitch.toNat r.context p r.payload) r (pieceLines p)) r
      [((reach u r r.address.toNat).getD r.address.toNat, r.length.toNat)] [] := by
  unfold runWrite
  simp only [hb]
  rfl

theorem runWrite_refuses {p : List Piece} {b : Nat × Nat × LineVerdict} (hb : firstBad u r.context (pieceLines p) = some b) :
    runWrite u r p = refuseWrite u r b := by
  unfold runWrite
  simp only [hb]

theorem runNotify_stores {p q : List Piece} (hb : firstBad u r.context (pieceLines p ++ pieceLines q) = none) :
    let n := r.pitch.toNat
    let w := writePieces u n r.context p (r.payload.drop 8)
    let v := (leNat (piecesBytes w q) + 1) % 2 ^ 64
    runNotify u r p q = completeWrite (queueWrites (writePieces w n r.context q (leBytes 8 v)) r (pieceLines p ++ pieceLines q)) r
      [((reach u r r.address.toNat).getD r.address.toNat, r.length.toNat), (beAt r.payload 0 8, 8)] (beBytes 8 v) := by
  unfold runNotify
  simp only [hb]
  rfl

theorem runNotify_refuses {p q : List Piece} {b : Nat × Nat × LineVerdict}
    (hb : firstBad u r.context (pieceLines p ++ pieceLines q) = some b) : runNotify u r p q = refuseWrite u r b := by
  unfold runNotify
  simp only [hb]

end

/-- Settles O14: a write either finds every line good and stores, or is refused for its first bad line. -/
theorem writesStore : Obligations.WritesStore := by
  unfold Obligations.WritesStore
  intro s op f r ps u h p0 p1 n range
  refine ⟨?_, ?_, ?_⟩
  · rintro rfl
    rw [exec_write_ready h]
    refine ⟨fun hb => ?_, fun l v hb => ?_, fun l st v hb hst => ?_⟩
    · rw [runWrite_stores hb]
    · rw [runWrite_refuses hb, refuseWrite_denied]
    · rw [runWrite_refuses hb, refuseWrite_bad hst]
  · rintro rfl hb
    exact (exec_writeNotify_ready h).trans (by rw [runNotify_stores hb])
  · rintro rfl l v hb
    rw [exec_writeNotify_ready h, runNotify_refuses hb, refuseWrite_denied]

end Sys2Proof.Machine
end

section
/-! PROOFS. BULK_PUT with its data, its end by silence, and BULK_COPY (R71, R72, R131). -/
namespace Sys2Proof.Machine

/-! ## BULK_PUT -/

/-- The state at which check 9 meets a BULK_PUT: its transfer is open (R72). -/
abbrev putOpened (t : State) (r : Req) : State := bulkMod t r.flow (fun l => l ++ [{ req := r, last := t.now }])

theorem kppWrite_bulkPut {s t : State} {f : RxFrame} {r : Req} (h0 : receive s 0x21 f = .go t r) (hc : Checked (putOpened t r) r)
    (hl : lenOk (putOpened t r) r = true) (ha : alignOk (putOpened t r) r = true) :
    kppWrite s 0x21 f = settle (ackNow (memExec (putOpened t r) r) r.flow) := by
  obtain ⟨hmis, hperm, hmir, hpitch⟩ := hc
  unfold kppWrite
  rw [withRequest_go h0]
  simp only [if_true]
  rw [checks_go (by rw [receive_anyOpcode h0]; decide) hmis hperm hl ha hpitch, hmir]
  rfl

theorem exec_bulkPut_served {s t u : State} {f : RxFrame} {r : Req} {ps : List (List Piece)} (h0 : receive s 0x21 f = .go t r)
    (h : Served (putOpened t r) r ps u) : exec (.bulkPut f) s = operated (runPut u r ((ps[0]?).getD [])) r := by
  obtain ⟨hc, hl, ha, ⟨sl, h14⟩, ho⟩ := h
  exact congrArg Host.Outcome.next
    ((kppWrite_bulkPut h0 hc hl ha).trans (by rw [memExec_bulkPut h14 ho (receive_anyOpcode h0)]))

/-! ## BULK_DATA -/

section
variable {t : State} {r : Req}

/-- Checks 9 to 13 let a BULK_DATA of good length and alignment through, whether or not its transfer is open (R83). -/
theorem checks_bulkData (ho : r.op = 0x23) (hc : Checked t r) (body : State → State) :
    checks t r true true body = body t := by
  obtain ⟨hmis, hperm, -, hpitch⟩ := hc
  exact checks_go (by rw [ho]; decide) hmis hperm rfl rfl hpitch

theorem exec_bulkData_checked {s : State} {f : RxFrame} (h0 : receive s 0x23 f = .go t r) (hc : Checked t r) (hl : lenOk t r = true)
    (ha : alignOk t r = true) : exec (.bulkData f) s = .next (settle (ackNow (bulkData t r) r.flow)) := by
  refine congrArg (fun x => Host.Outcome.next (settle x)) ((withRequest_go h0).trans ?_)
  have hne : ¬ ((0x23 : Byte) = 0x21) := by decide
  simp only [hne, if_false, hl, ha, checks_bulkData (receive_anyOpcode h0) hc, hc.2.2.1, Bool.false_eq_true, if_true]

/-- A number between the flow's point and the request's has not come (R72, R93). -/
def numberMissing (fl : FlowSt) (q : BitVec 24) : Prop :=
  1 ≤ (q - fl.c).toNat ∧ (q - fl.c).toNat ≤ 0x10000 ∧ ∃ i < (q - fl.c).toNat - 1, fl.c + BitVec.ofNat 24 (i + 1) ∉ fl.bits

theorem numberMissing_iff (fl : FlowSt) (q : BitVec 24) : numberMissing fl q ↔ 1 ≤ seqDist fl.c q ∧ seqDist fl.c q ≤ 0x10000 ∧
    (upto (seqDist fl.c q - 1)).any (fun i => fl.c + BitVec.ofNat 24 (i + 1) ∉ fl.bits) = true := by
  simp [numberMissing, seqDist, upto]

theorem bulkData_orphan {fl : FlowSt} (hb : bulkFind t r.flow r.tag = none) (hf : flowGet t r.flow = some fl) :
    (numberMissing fl r.seq → bulkData t r = answer t r stRetry []) ∧
    (¬ numberMissing fl r.seq → bulkData t r = answer t r stLength []) := by
  rw [numberMissing_iff]
  unfold bulkData
  simp only [hb, hf]
  exact ⟨fun h => if_pos h, fun h => if_neg h⟩

theorem bulkData_waits {b : BulkPut} (hb : bulkFind t r.flow r.tag = some b) (hp : b.passed = false) : bulkData t r =
    bulkMod t r.flow (fun l => l.map (fun x => if x.req.seq = b.req.seq then { x with waiting := x.waiting ++ [r] } else x)) := by
  unfold bulkData
  simp only [hb, hp, Bool.false_eq_true, if_false]

/-- Data for lines of which none is on a sync page is written at once. -/
theorem bulkData_writes {b : BulkPut} (hb : bulkFind t r.flow r.tag = some b) (hp : b.passed = true)
    (hs : syncLines (rowPieces (putDesc t b.req) (descReach t b.req (putDesc t b.req)) (putPages t b)
      (rowFuel (putDesc t b.req) r.length.toNat) r.address.toNat r.length.toNat) = []) :
    bulkData t r = releaseLines (bulkWrite t b r (putPages t b)) r := by
  unfold bulkData
  simp only [hb, hp, hs, if_true]
  rfl

end

/-! ## BULK_IDLE -/

section
variable {s : State} {flow : FlowId} {tag : BitVec 32} {b : BulkPut} (hb : bulkFind s flow tag = some b)
include hb

theorem bulkIdle_ends (hp : b.passed = true) : bulkIdle s flow tag = bulkEnd (nowTo s (b.last + bulkIdleNs s)) b stTimeout [] := by
  unfold bulkIdle
  simp only [hb, hp, if_true]

theorem bulkIdle_untranslated (hp : b.passed = false) : bulkIdle s flow tag = s := by
  unfold bulkIdle
  simp only [hb, hp, Bool.false_eq_true, if_false]

end

theorem bulkIdle_noTransfer {s : State} {flow : FlowId} {tag : BitVec 32} (hb : bulkFind s flow tag = none) :
    bulkIdle s flow tag = s := by
  unfold bulkIdle
  rw [hb]

theorem exec_bulkIdleTimeout (s : State) (flow : FlowId) (tag : BitVec 32) :
    exec (.bulkIdleTimeout flow tag) s = .next (settle (bulkIdle s flow tag)) := rfl

/-! ## BULK_COPY -/

section
variable (u : State) (r : Req) (p q : List Piece)

/-- The lines that a BULK_COPY reads, in order. -/
def copySource : List Nat :=
  let d := readDesc r.payload 0
  lineList (rowPieces d (descReach u r d) p (rowFuel d r.length.toNat) 0 r.length.toNat)

/-- The lines that it writes. -/
def copyTarget : List Nat :=
  let e := readDesc r.payload 24
  lineList (rowPieces e (descReach u r e) q (rowFuel e r.length.toNat) 0 r.length.toNat)

variable {u r p q} {w : State} {st : Nat} {bad : Option (Nat × LineVerdict)}
  (hw : copyLines u r.pitch.toNat r.context ((copySource u r p).zip (copyTarget u r q)) = (w, st, bad))
include hw

theorem runCopy_copies (hst : st = stOk) :
    let e := readDesc r.payload 24
    runCopy u r p q = completeWrite (queueWrites (queueReads w r (copySource u r p)) r (copyTarget u r q)) r
      (descRanges (descReach u r e) e 0 r.length.toNat) [] := by
  unfold copySource copyTarget at *
  unfold runCopy
  simp only [hw, hst, if_true]

theorem runCopy_refuses (hst : st ≠ stOk) {l : Nat} {v : LineVerdict} (hbad : bad = some (l, v)) :
    runCopy u r p q = refuseWrite w r (l, st, v) := by
  unfold copySource copyTarget at *
  unfold runCopy
  simp only [hw, hst, hbad, if_false]

end

/-- Settles O17: each command of a transfer by its own lemma, BULK_COPY by how its copy of lines ends. -/
theorem bulkTransfers : Obligations.BulkTransfers := by
  unfold Obligations.BulkTransfers
  refine ⟨⟨?_, ?_, ?_⟩, ?_⟩
  · intro s t u f r ps h0 h
    exact exec_bulkPut_served h0 h
  · intro s t f r h0 hc hl ha done dst
    rw [exec_bulkData_checked h0 hc hl ha]
    refine ⟨fun fl hb hf => ?_, fun b hb hp => ?_, fun b hb hp hs => ?_⟩
    · obtain ⟨hmissing, hnone⟩ := bulkData_orphan hb hf
      exact ⟨fun g => by rw [hmissing g], fun g => by rw [hnone g]⟩
    · rw [bulkData_waits hb hp]
    · rw [bulkData_writes hb hp hs]
      rfl
  · intro s flow tag
    rw [exec_bulkIdleTimeout]
    refine ⟨fun b hb hp => by rw [bulkIdle_ends hb hp], fun hn => ?_⟩
    cases hb : bulkFind s flow tag with
    | none => rw [bulkIdle_noTransfer hb]
    | some b => rw [bulkIdle_untranslated hb (hn b hb)]
  · intro s f r ps u w st bad h len d e base src dst hw
    rw [exec_bulkCopy_ready h]
    refine ⟨fun hst => ?_, fun l v hst hbad => ?_, fun l v hok hst hbad => ?_⟩
    · rw [runCopy_copies hw hst]
      rfl
    · subst hst
      rw [runCopy_refuses hw (by decide) hbad, refuseWrite_denied]
    · rw [runCopy_refuses hw hok hbad, refuseWrite_bad hst]

end Sys2Proof.Machine
end

section
/-! PROOFS. Handles, unknown opcodes, misses, changes of page tables and recalls (R67, R73, R133 to R144, R479). -/
namespace Sys2Proof.Machine

/-! ## XLATE (R73, R140) -/

/-- Lines of sync pages that an XLATE names are not obtained: it touches none of them (R237). -/
theorem obtainLines_xlate {t : State} {r : Req} (e : r.op = 0x30) (p q : List Piece) : obtainLines t r p q = (t, true) := by
  unfold obtainLines
  rw [e]
  rfl

/-- The slice of check 14 for one range without a handle is the lead slice of its first byte (R136). -/
theorem check14_leadSlice {t : State} {r : Req} {a len sl : Nat} {w : Bool} {ps : List (List Piece)}
    (h : check14 t r [{ addr := a, len := len, write := w }] = .ok ps sl) : sl = leadSlice t r.pitch.toNat a := by
  unfold check14 at h
  cases hg : slotGran t r.pitch.toNat a with
  | none => simp [needBase, hg] at h
  | some g =>
    simp only [needBase, hg, List.map_cons, List.map_nil, List.find?_cons, List.find?_nil, List.head?_cons, Bool.false_eq_true,
      if_false] at h
    split at h
    · cases h
    · split at h
      · cases h
      · repeat' (split at h; · cases h)
        injection h with _ hs
        exact hs.symm

theorem memExec_xlate {t : State} {r : Req} {ps : List (List Piece)} {sl : Nat} {x : TlbEnt} (e : r.op = 0x30)
    (hh : pHeld t r.pitch.toNat = true) (h : check14 t r (needsOf t r) = .ok ps sl)
    (hx : tlbFind t sl r.pitch.toNat r.address.toNat = some x) :
    memExec t r = releaseLines (issueHandle t r sl r.address.toNat x) r := by
  unfold memExec
  simp only [h, obtainLines_xlate e, hh, hx, e]
  rfl

theorem memExec_xlateDenied {t : State} {r : Req} (e : r.op = 0x30) (hh : pHeld t r.pitch.toNat = false) :
    memExec t r = answer (bump t .actDeniedSlot 0 0 r.pitch.toNat) r stDenied [] := by
  unfold memExec
  rw [e, hh]
  rfl

theorem needsOf_xlate {t : State} {r : Req} (e : r.op = 0x30) : needsOf t r = [{ addr := r.address.toNat, len := 1 }] := by
  unfold needsOf
  rw [e]
  rfl

theorem alignOk_handles {t : State} {r : Req} (e : r.op = 0x30 ∨ r.op = 0x32) : alignOk t r = true := by
  unfold alignOk
  rcases e with e | e <;> rw [e] <;> rfl

/-- An XLATE of a HELD pitch issues a handle for the leaf that its lead slice holds. -/
theorem exec_xlate_ready {s u : State} {f : RxFrame} {r : Req} {ps : List (List Piece)} {x : TlbEnt} (h : Ready s 0x30 f r ps u)
    (hh : pHeld u r.pitch.toNat = true)
    (hx : tlbFind u (leadSlice u r.pitch.toNat r.address.toNat) r.pitch.toNat r.address.toNat = some x) :
    exec (.xlate f) s = operated (issueHandle u r (leadSlice u r.pitch.toNat r.address.toNat) r.address.toNat x) r := by
  refine memRequest_operated h (by decide) (by decide) (by decide) (by decide) fun {t sl} h14 ho e => ?_
  obtain rfl : t = u := congrArg Prod.fst ((obtainLines_xlate e _ _).symm.trans ho)
  obtain rfl : sl = leadSlice t r.pitch.toNat r.address.toNat := check14_leadSlice (needsOf_xlate e ▸ h14)
  exact memExec_xlate e hh h14 hx

section
variable {s t : State} {f : RxFrame} {r : Req}

theorem exec_xlate_notHeld (h0 : receive s 0x30 f = .go t r) (hc : Checked t r) (hl : lenOk t r = true)
    (hh : pHeld t r.pitch.toNat = false) : exec (.xlate f) s =
      .next (settle (ackNow (answer (bump t .actDeniedSlot 0 0 r.pitch.toNat) r stDenied []) r.flow)) := by
  have e := receive_anyOpcode h0
  refine congrArg (fun x => Host.Outcome.next (settle x))
    ((memRequest_go h0 hc hl (alignOk_handles (Or.inl e)) (by decide) (by decide) (by decide) (by decide)).trans ?_)
  rw [memExec_xlateDenied e hh]

/-! ## XLATE_RELEASE (R141) and opcodes that the controller does not take (R67) -/

theorem releasedHandles (bs : List Byte) :
    (elems 8 bs).map beNat = (upto (bs.length / 8)).map (fun i => beNat ((bs.drop (8 * i)).take 8)) := by
  simp [elems, Nat.mul_comm]

theorem xlateRelease_frees : xlateRelease t r = answer ((upto (r.payload.length / 8)).foldl (fun w i =>
    match handleFind w (beNat ((r.payload.drop (8 * i)).take 8)) r.endpoint r.context with
    | some e => hFree w e.1
    | none => w) t) r stOk [] := by
  unfold xlateRelease
  rw [releasedHandles]
  exact congrArg (fun w => answer w r stOk []) List.foldl_map

theorem exec_xlateRelease_checked (h0 : receive s 0x32 f = .go t r) (hc : Checked t r) (hl : lenOk t r = true) :
    exec (.xlateRelease f) s = .next (settle (ackNow (xlateRelease t r) r.flow)) := by
  obtain ⟨hmis, hperm, -, hpitch⟩ := hc
  have e := receive_anyOpcode h0
  refine congrArg (fun x => Host.Outcome.next (settle x)) ((withRequest_go h0).trans ?_)
  have h21 : ¬ ((0x32 : Byte) = 0x21) := by decide
  have h23 : ¬ ((0x32 : Byte) = 0x23) := by decide
  simp only [h21, h23, if_false, if_true]
  rw [checks_go (by rw [e]; decide) hmis hperm hl (alignOk_handles (Or.inr e)) hpitch]

theorem exec_reservedOpcode {op : BitVec 8} (hk : opKnown op = false) (h0 : receive s op f = .go t r) :
    exec (.reservedOpcodeRequest op f) s = .next (ackNow (answer t r stUnsupported []) r.flow) := by
  refine congrArg Host.Outcome.next ((if_neg ?_).trans (withRequest_go h0))
  rw [hk]
  exact Bool.false_ne_true

end

/-! ## Misses (R133, R134, R138, R478) -/

/-- The requests that wait for a miss end with NOT_MAPPED, each counted. -/
def missEnds (m : Miss) (slice n : Nat) (w : State) : State :=
  m.waiting.foldl (fun w r => bump (endWaiting w r stNotMapped) .actNotMapped slice 0 n) w

section
variable {s : State} {slice n page : Nat} {m : Miss} (h : s.act.misses.find? (missIs slice n page) = some m)
include h

theorem missServed_restarting (hr : s.svc.restarting = true) : missServed s slice n page = s := by
  unfold missServed
  simp only [h, hr, if_true]

theorem missServed_leaf (hr : s.svc.restarting = false) {level : Nat} {e : DWord}
    (hw : walk s n (page * 65536) = .leaf level e) : missServed s slice n page =
      m.waiting.foldl (fun w r => if stillMisses w r then w else rerun w r) (tlbInsert (missDrop s slice n page) slice
        { pitch := BitVec.ofNat 8 n, level := level, page := page * 65536 / pageSize level, entry := e }) := by
  unfold missServed
  simp only [h, hr, hw, Bool.false_eq_true, if_false]
  rfl

theorem missServed_unmapped (hr : s.svc.restarting = false) (hw : walk s n (page * 65536) = .unmapped) :
    missServed s slice n page = missEnds m slice n (missDrop s slice n page) := by
  unfold missServed
  simp only [h, hr, hw, Bool.false_eq_true, if_false]
  rfl

theorem missServed_malformed (hr : s.svc.restarting = false) (hw : walk s n (page * 65536) = .malformed) :
    let t := missDrop s slice n page
    missServed s slice n page = missEnds m slice n (faultRec t
      { agent := actAgent slice, cause := 0x19, cls := clsFailed, state := actCode (uAct t (uSlice slice)), pitch := some n,
        status := stNotMapped, unit := some (uSlice slice) }) := by
  unfold missServed
  simp only [h, hr, hw, Bool.false_eq_true, if_false]
  rfl

theorem missTimeout_ends : missTimeout s slice n page = m.waiting.foldl (fun w r => endWaiting w r stRetry)
    (faultRec (bump (missDrop (nowTo s (m.sent + 20000)) slice n page) .actMissTimeout slice 0 0)
      { agent := svcAgent, cause := 0x1A, cls := clsFailed, pitch := some n, status := stRetry }) := by
  unfold missTimeout
  rw [h]
  rfl

end

/-! ## Recalls (R142, R479) -/

section
variable {s : State} {ep : BitVec 12} {ctx : BitVec 16} {r : Recall}
  (h : s.act.recalls.find? (fun x => decide (x.endpoint = ep) && decide (x.context = ctx)) = some r)
include h

theorem recallDeadline_revokes (hr : s.svc.restarting = false) :
    recallDeadline s ep ctx = revokeAll (nowTo s (r.start + recallDeadlineNs s)) ep ctx := by
  unfold recallDeadline
  simp only [h, hr, Bool.false_eq_true, if_false]

theorem recallDeadline_waits (hr : s.svc.restarting = true) : recallDeadline s ep ctx =
    svcMod (nowTo s (r.start + recallDeadlineNs s)) (fun v => { v with lateRecalls := v.lateRecalls ++ [(ep, ctx)] }) := by
  unfold recallDeadline
  simp only [h, hr, if_true]

end

/-! ## The commands of firmware and of timers -/

section
variable (s : State)

theorem exec_missServiceDone (slice : BitVec 4) (pitch : BitVec 8) (page : BitVec 27) :
    exec (.missServiceDone slice pitch page) s = .next (settle (missServed s slice.toNat pitch.toNat page.toNat)) := rfl

theorem exec_missTimeout (slice : BitVec 4) (pitch : BitVec 8) (page : BitVec 27) :
    exec (.missTimeout slice pitch page) s = .next (missTimeout s slice.toNat pitch.toNat page.toNat) := rfl

theorem exec_pageTableChangeDone (pitch : BitVec 8) :
    exec (.pageTableChangeDone pitch) s = .next (settle (changesDone s pitch.toNat)) := rfl

theorem exec_recallDeadline (ep : BitVec 12) (ctx : BitVec 16) :
    exec (.recallDeadline ep ctx) s = .next (settle (recallDeadline s ep ctx)) := rfl

end

/-- Settles O18: the requests by `exec_xlate_ready` and the lemmas beside it, a miss by what the walk of its page finds, a recall
by whether the service complex restarts. -/
theorem translation : Obligations.Translation := by
  unfold Obligations.Translation
  refine ⟨⟨?_, ?_, ?_, ?_⟩, ?_, ?_, ?_⟩
  · intro s f r ps u h hh n a slice e x hx
    exact exec_xlate_ready h hh hx
  · exact fun s t f r h0 hc hl hh => exec_xlate_notHeld h0 hc hl hh
  · intro s t f r h0 hc hl
    exact (exec_xlateRelease_checked h0 hc hl).trans
      (congrArg (fun w => Host.Outcome.next (settle (ackNow w r.flow))) xlateRelease_frees)
  · exact fun s t op f r hk h0 => exec_reservedOpcode hk h0
  · intro s slice pitch page m h t ends
    rw [exec_missServiceDone, exec_missTimeout]
    refine ⟨fun hr => ?_, fun level e hr hw => ?_, fun hr hw => ?_, fun hr hw => ?_, ?_⟩
    · rw [missServed_restarting h hr]
    · rw [missServed_leaf h hr hw, BitVec.ofNat_toNat, BitVec.setWidth_eq]
    · rw [missServed_unmapped h hr hw]
      rfl
    · rw [missServed_malformed h hr hw]
      rfl
    · rw [missTimeout_ends h]
  · intro s pitch
    rw [exec_pageTableChangeDone]
    rfl
  · intro s ep ctx r h t
    rw [exec_recallDeadline]
    exact ⟨fun hr => by rw [recallDeadline_revokes h hr], fun hr => by rw [recallDeadline_waits h hr]⟩

end Sys2Proof.Machine
end

section
/-! PROOFS. The transport's timers, and ACK and NACK blocks received (R102 to R105, R108, R109, R115, R242). -/
namespace Sys2Proof.Machine

/-! ## A request's timer (R108, R109) -/

/-- The timer of a request that stays unanswered doubles up to RTO_MAX and starts again, with its expiry counted. -/
def timerDoubled (s : State) (id : FlowId) (seq : BitVec 24) (q : CtlReq) : State :=
  let longer := min (rtoMaxNs s) (2 * q.timer)
  ctlMod (nowTo s q.due) id seq
    (fun x => { x with timer := longer, count := x.count + 1, due := (nowTo s q.due).now + longer })

theorem requestTimeout_unknown {s : State} {id : FlowId} {seq : BitVec 24} (h : ctlFind s id seq = none) :
    requestTimeout s id seq = s := by
  unfold requestTimeout
  rw [h]

section
variable {s : State} {id : FlowId} {seq : BitVec 24} {q : CtlReq} (h : ctlFind s id seq = some q)
include h

/-- What an expiry does to a request whose timer runs, by the port's state, the count and what was heard of the request. -/
theorem requestTimeout_runs (hc : ¬ (q.retrying = true ∧ (q.frame.opcode = 0x52 ∨ q.frame.opcode = 0x53))) :
    requestTimeout s id seq =
      if portHeld (nowTo s q.due) id = true then
        ctlMod (nowTo s q.due) id seq (fun x => { x with due := (nowTo s q.due).now + x.timer })
      else if rtxLimit s ≤ q.count then ctlFail (nowTo s q.due) id q
      else if q.acked = true ∨ q.retrying = true then timerDoubled s id seq q
      else resend (timerDoubled s id seq q) id q := by
  unfold requestTimeout
  have hr : ¬ (q.retrying = true ∧ isCollReq q = true) := by
    unfold isCollReq
    rwa [decide_eq_true_iff]
  simp only [h, if_neg hr]
  rfl

theorem retryResend_retrying (hr : q.retrying = true) : retryResend s id seq =
    resend (ctlMod (nowTo s q.resendAt) id seq (fun x => { x with resendAt := (nowTo s q.resendAt).now + rtoInitNs s })) id q := by
  unfold retryResend
  simp only [h, hr, Bool.not_true, Bool.false_eq_true, if_false]

end

theorem retryResend_idle {s : State} {id : FlowId} {seq : BitVec 24}
    (h : ∀ q, ctlFind s id seq = some q → q.retrying = false) : retryResend s id seq = s := by
  unfold retryResend
  cases hf : ctlFind s id seq with
  | none => rfl
  | some q => simp only [h q hf, Bool.not_false, if_true]

/-! ## ACK_DELAY, NACK_DELAY, the rate and DONE_LIMIT (R104, R115, R242) -/

/-- An ACK of a flow with nothing received above C has no blocks, and C for its top. -/
theorem ackDelayExpire_noBits {s : State} {id : FlowId} {fl : FlowSt} {x : Nat} (h : flowGet s id = some fl)
    (hd : fl.ackDue = some x) (hb : fl.bits = []) : ackDelayExpire s id =
      sendFrame (bump (flowPut (nowTo s x) id { fl with fresh := 0, ackDue := none, ce := 0 }) .tptAckTx 0 0 (flowPitch id)) id
        (ackFrame (nowTo s x) id fl.c ([0, 0] ++ beBytes 2 (min 0xFFFF fl.ce) ++ beBytes 4 fl.c.toNat)) := by
  have hn : flowGet (nowTo s x) id = some fl := h
  have hr : received fl = [] := by
    unfold received
    rw [hb]
    rfl
  unfold ackDelayExpire sendAck
  rw [h, Option.bind_some, hd]
  simp only [hn, hr]
  rfl

theorem nackDelayExpire_due {s : State} {id : FlowId} {fl : FlowSt} {x : Nat} (h : flowGet s id = some fl)
    (hd : nackDueAt s fl = some x) : nackDelayExpire s id = sendNack (nowTo s x) id := by
  unfold nackDelayExpire
  rw [h, Option.bind_some, hd]

theorem rateRaise_known {s : State} {id : FlowId} {c : CtlFlow} (h : aget s.tpt.ctl id = some c) :
    rateRaise s id = ctlPut (nowTo s (c.lastSignal + 50000)) id { c with
      rate := min (flowCeiling (nowTo s (c.lastSignal + 50000)) id) (c.rate + 1000)
      lastSignal := (nowTo s (c.lastSignal + 50000)).now } := by
  unfold rateRaise
  rw [h]

theorem swDoneTimeout_invalidates {s : State} {line ix x : Nat} {t : SwTxn} {r : Req} {own : Bool}
    (h : dirFind s line = some ix) (ht : (dirGet s ix).txn = some t) (hk : t.kind = .agent r own) (hn : t.needDone = true)
    (hs : t.sentAt = some x) : swDoneTimeout s line =
      sendInval (dirPut (nowTo s (x + regField s swnAgent 0x100 0 16 * 1000)) ix { dirGet s ix with
        txn := some { t with needDone := false, dropped := true, inval := r.endpoint.toNat :: t.inval } }) ix r.endpoint.toNat := by
  unfold swDoneTimeout
  simp only [h, ht, hk, hn, hs]

/-! ## A TRANSPORT_ACK received (R102, R103, R105, R115) -/

/-- The flow of the controller's own requests that an ACK or NACK reports on. -/
def ackFlow (f : RxFrame) : FlowId :=
  if f.hdr.address.getLsbD 8 then .sess f.srcAddr f.srcPort f.hdr.tc
  else .ep f.hdr.endpoint (BitVec.ofNat 8 (f.hdr.address.toNat % 256)) f.hdr.tc

/-- An ACK or NACK that passes its checks is counted. -/
def ackCounted (t : State) (f : RxFrame) : State :=
  bump t (if byteAt f.payload 0 = 1 then .tptNackRx else .tptAckRx) 0 0 (flowPitch (ackFlow f))

theorem ackCounted_decide (t : State) (f : RxFrame) : ackCounted t f =
    bump t (if decide (byteAt f.payload 0 = 1) = true then .tptNackRx else .tptAckRx) 0 0 (flowPitch (ackFlow f)) := by
  simp only [decide_eq_true_iff]
  rfl

/-- An ACK or NACK that is not behind fixes the cumulative number and the way back, and cuts the rate if it counts CE marks. -/
def ackNoted (u : State) (f : RxFrame) (c : CtlFlow) : State :=
  let v := noteCtl (ctlPut u (ackFlow f) { c with lastCum := some f.hdr.flowSeq }) (ackFlow f) f.via
  if beNat ((f.payload.drop 2).take 2) = 0 then v else rateCut v (ackFlow f)

/-- The requests of a flow that an ACK or NACK acknowledges. -/
def ackGot (f : RxFrame) (c : CtlFlow) : List CtlReq :=
  c.reqs.filter (fun q => ackCovers (decide (byteAt f.payload 0 = 1)) f.hdr.flowSeq
    (BitVec.ofNat 24 (beNat ((f.payload.drop 4).take 4))) (ackBlocks f.payload) q.seq && !q.acked)

/-- The requests of a flow that a NACK lists as missing. -/
def ackLost (f : RxFrame) (c : CtlFlow) : List CtlReq :=
  if decide (byteAt f.payload 0 = 1) = true then c.reqs.filter (fun q => inBlocks (ackBlocks f.payload) q.seq) else []

/-- A request that a NACK lists is sent again with its timer restarted, if it is still held. -/
def nackResend (id : FlowId) (s : State) (q : CtlReq) : State :=
  match ctlFind s id q.seq with
  | some r => resend (ctlMod s id q.seq (fun z => { z with due := s.now + z.timer })) id r
  | none => s

/-- The cumulative number lies behind the last one of the flow. -/
def ackBehind (f : RxFrame) (c : CtlFlow) : Bool :=
  c.lastCum.any (fun last => decide (0x800000 ≤ (f.hdr.flowSeq - last).toNat))

/-- What an ACK or NACK that is not behind does to its flow, once counted. -/
def ackApplied (u : State) (f : RxFrame) (c : CtlFlow) : State :=
  settle (sendHeld ((ackLost f c).foldl (nackResend (ackFlow f))
    ((ackGot f c).foldl (fun y q => ctlAcked y (ackFlow f) q) (ackNoted u f c))))

theorem transportAck_passed {s t : State} {f : RxFrame} (h : receiveOther s 0x7F f = (t, true)) : transportAck s f =
    (aget (ackCounted t f).tpt.ctl (ackFlow f)).elim (ackCounted t f)
      (fun c => if ackBehind f c = true then ackCounted t f else ackApplied (ackCounted t f) f c) := by
  rw [ackCounted_decide]
  unfold transportAck ackBehind ackApplied ackNoted ackFlow bitOf bitsOf beAt
  simp only [h, Bool.not_true, Bool.false_eq_true, if_false, Nat.shiftRight_zero, Nat.reducePow, ite_not]
  split
  next hc => rw [hc, Option.elim_none]
  next c hc =>
    rw [hc, Option.elim_some]
    cases c.lastCum <;> rfl

theorem transportAck_unknown {s t : State} {f : RxFrame} (h : receiveOther s 0x7F f = (t, true))
    (hc : aget (ackCounted t f).tpt.ctl (ackFlow f) = none) : transportAck s f = ackCounted t f := by
  rw [transportAck_passed h, hc, Option.elim_none]

section
variable {s t : State} {f : RxFrame} (h : receiveOther s 0x7F f = (t, true))
  {c : CtlFlow} (hc : aget (ackCounted t f).tpt.ctl (ackFlow f) = some c)
include h hc

theorem transportAck_behind {last : BitVec 24} (hl : c.lastCum = some last)
    (hb : 0x800000 ≤ (f.hdr.flowSeq - last).toNat) : transportAck s f = ackCounted t f := by
  have behind : ackBehind f c = true := by
    unfold ackBehind
    rw [hl, Option.any_some, decide_eq_true_iff]
    exact hb
  rw [transportAck_passed h, hc, Option.elim_some, if_pos behind]

theorem transportAck_applied (hl : ∀ last, c.lastCum = some last → (f.hdr.flowSeq - last).toNat < 0x800000) :
    transportAck s f = ackApplied (ackCounted t f) f c := by
  have ahead : ¬ ackBehind f c = true := by
    unfold ackBehind
    rw [Option.any_eq_true]
    rintro ⟨last, hc, hb⟩
    exact absurd (hl last hc) (Nat.not_lt.2 (of_decide_eq_true hb))
  rw [transportAck_passed h, hc, Option.elim_some, if_neg ahead]

end

/-! ## The commands -/

section
variable (s : State) (id : FlowId) (seq : BitVec 24)

theorem exec_requestTimeoutRetransmit :
    exec (.requestTimeoutRetransmit id seq) s = .next (settle (requestTimeout s id seq)) := rfl

theorem exec_retryResend : exec (.retryResend id seq) s = .next (retryResend s id seq) := rfl

theorem exec_ackDelayExpire : exec (.ackDelayExpire id) s = .next (ackDelayExpire s id) := rfl

theorem exec_nackDelayExpire : exec (.nackDelayExpire id) s = .next (nackDelayExpire s id) := rfl

theorem exec_flowRateRaise : exec (.flowRateRaise id) s = .next (rateRaise s id) := rfl

theorem exec_swDoneTimeout (line : BitVec 38) :
    exec (.swDoneTimeout line) s = .next (settle (swDoneTimeout s (line.toNat * 64))) := rfl

theorem exec_transportAck (f : RxFrame) : exec (.transportAck f) s = .next (transportAck s f) := rfl

end

/-- Settles O21: an expiry by what `requestTimeout_runs` finds of its request, every other timer by its own lemma, an ACK or NACK by
how its cumulative number stands to the last one. -/
theorem transportTimersAndAcks : Obligations.TransportTimersAndAcks := by
  unfold Obligations.TransportTimersAndAcks
  refine ⟨fun s id seq => ⟨?_, ?_, ?_, ?_, ?_, ?_, ?_, ?_⟩, fun s t f c h => ⟨?_, ?_, ?_⟩⟩
  · intro q hq hc x longer again gone
    rw [exec_requestTimeoutRetransmit, requestTimeout_runs hq hc]
    refine ⟨fun hp => by rw [if_pos hp], fun hp hl => ?_, fun hp hl ha => ?_, fun hp hl ha hr => ?_⟩
    · rw [if_neg (ne_true_of_eq_false hp), if_pos hl]
      rfl
    · rw [if_neg (ne_true_of_eq_false hp), if_neg (Nat.not_le.2 hl), if_pos ha]
      rfl
    · rw [if_neg (ne_true_of_eq_false hp), if_neg (Nat.not_le.2 hl), if_neg (by simp [ha, hr])]
      rfl
  · exact fun hn => by rw [exec_requestTimeoutRetransmit, requestTimeout_unknown hn]
  · exact fun q hq hr => by rw [exec_retryResend, retryResend_retrying hq hr]
  · exact fun hr => by rw [exec_retryResend, retryResend_idle hr]
  · intro fl x hf hd hb t u
    rw [exec_ackDelayExpire, ackDelayExpire_noBits hf hd hb]
    rfl
  · exact fun fl x hf hd => by rw [exec_nackDelayExpire, nackDelayExpire_due hf hd]
  · exact fun c hc => by rw [exec_flowRateRaise, rateRaise_known hc]
  · intro line ix e x r own at_ hf he ht hk hn hs
    subst he
    rw [exec_swDoneTimeout, swDoneTimeout_invalidates hf ht hk hn hs]
  · intro hc
    rw [exec_transportAck, transportAck_unknown h hc]
    rfl
  · intro hc last hl hb
    rw [exec_transportAck, transportAck_behind h hc hl hb]
    rfl
  · intro hc hl v w x
    rw [exec_transportAck, transportAck_applied h hc hl]
    rfl

end Sys2Proof.Machine
end

section
/-! PROOFS. What fencing and taking over change in a mirrored pitch (R119, R428, R429). -/
namespace Sys2Proof.Machine

/-! ## Self-fence (R428) -/

theorem serving_iff (a : Actual) : serving a = true ↔ a = .up ∨ a = .degraded := decide_eq_true_iff

/-- The pitch after it lost its fly: what waited for the fly no longer waits, and a pitch that served is FENCED. -/
def flyGivenUp (s : State) (n : Nat) (byLines : Bool) : State :=
  let a := mirForget (mirSet s n { mirGet s n with selfFenced := true, byLines := byLines, waits := [] }) n
  if uAct a (uPitch n) = .up ∨ uAct a (uPitch n) = .degraded then uMove a (uPitch n) .fenced else a

theorem selfFence_fly {s : State} {n : Nat} (byLines : Bool) (h : hasFly s n = true) : selfFence s n byLines =
    sendRelease (((mirGet s n).waits.filterMap (·.req)).foldl (fun w r => respond w r stFenced [])
      (bump (mirFault (flyGivenUp s n byLines) n 0x61 clsFencing) .mirSelfFence 0 0 n)) n := by
  unfold selfFence flyGivenUp
  rw [if_pos h, List.foldl_filterMap, ← if_congr (serving_iff _) rfl rfl]
  refine congrArg (sendRelease · n) (List.foldl_ext _ _ _ fun x w _ => ?_)
  cases w.req <;> rfl

/-! ## Takeover (R429, R119) -/

/-- A flow of a pitch goes on from the C of its carry-over record, with no number above it and the record open. -/
def carriedOver (f : FlowSt) (c : Carry) : FlowSt :=
  { f with c := c.cm, bits := [], missing := [], carry := some { c with openRec := true, arrived := [] } }

/-- What a takeover makes of a flow: only a flow of the pitch that has a carry-over record changes. -/
def flowTaken (n : Nat) (e : FlowId × FlowSt) : FlowId × FlowSt :=
  match e.1, e.2.carry with
  | .ep _ p _, some c => if p.toNat = n then (e.1, carriedOver e.2 c) else e
  | _, _ => e

theorem flowTaken_fst (n : Nat) (e : FlowId × FlowSt) : (flowTaken n e).1 = e.1 := by
  unfold flowTaken
  split
  · split <;> rfl
  · rfl

theorem flowTaken_own {n : Nat} {p : BitVec 8} {f : FlowSt} {c : Carry} (i : BitVec 12) (tc : BitVec 3) (hp : p.toNat = n)
    (hc : f.carry = some c) : (flowTaken n (.ep i p tc, f)).2 = carriedOver f c := by
  unfold flowTaken
  simp only [hc, if_pos hp]

theorem flowTaken_other {n : Nat} {p : BitVec 8} (i : BitVec 12) (tc : BitVec 3) (f : FlowSt) (hp : p.toNat ≠ n) :
    flowTaken n (.ep i p tc, f) = (.ep i p tc, f) := by
  unfold flowTaken
  cases f.carry with
  | none => rfl
  | some c => exact if_neg hp

/-- The standby as the active without a fly, its flows carried over. -/
def takenOver (s : State) (n : Nat) : State :=
  mirSet (tptMod s (fun t => { t with flows := t.flows.map (flowTaken n) })) n
    { mirGet s n with role := .active, confirmed := false, zeros := 0 }

theorem takeover_standby {s : State} {n : Nat} (hr : (mirGet s n).role = .standby) (hc : (mirGet s n).confirmed = true)
    (hl : (pGet s n).life = .up) : takeover s n =
      bump (mirFault (uMove (takenOver s n) (uPitch n) .degraded) n 0x62 clsDegrading) .mirTakeover 0 0 n := by
  unfold takeover
  rw [if_pos ⟨hr, hc, hl⟩]
  rfl

theorem mirGet_mirSet_self (s : State) (n : Nat) (m : MirPitch) : mirGet (mirSet s n m) n = m := tget_tset_self _ _ _ _

theorem mirGet_mirSet_other (s : State) {n k : Nat} (m : MirPitch) (h : k ≠ n) : mirGet (mirSet s n m) k = mirGet s k :=
  tget_tset_other _ _ _ _ _ h

theorem flowGet_takenOver (s : State) (n : Nat) (id : FlowId) :
    flowGet (takenOver s n) id = (flowGet s id).map (fun f => (flowTaken n (id, f)).2) :=
  aget_map_some (flowTaken n) (flowTaken_fst n) s.tpt.flows id

/-- Settles O28: the fence by `selfFence_fly`; the takeover with `takenOver`, whose flows are those of `flowTaken`. -/
theorem fenceAndTakeover : Obligations.FenceAndTakeover := by
  unfold Obligations.FenceAndTakeover
  refine ⟨fun s n byLines h => ?_, fun s n hr hc hl => ⟨takenOver s n, takeover_standby hr hc hl, ?_, ?_, ?_, ?_⟩⟩
  · exact selfFence_fly byLines h
  · exact mirGet_mirSet_self _ _ _
  · exact fun k hk => mirGet_mirSet_other _ _ hk
  · intro i tc f c hf hn hcar
    have own : (BitVec.ofNat 8 n).toNat = n := by
      rw [BitVec.toNat_ofNat]
      omega
    rw [flowGet_takenOver, hf, Option.map_some, flowTaken_own i tc own hcar]
    rfl
  · intro i p tc hp
    rw [flowGet_takenOver]
    simp only [flowTaken_other i tc _ hp, Option.map_id']

end Sys2Proof.Machine
end

section
/-! PROOFS. What writing and copying bytes does to lines (R131, R164, R165). -/
namespace Sys2Proof.Machine

/-! ## Bytes of a range -/

theorem memBytes_eq_ofFn (s : State) (a n : Nat) : memBytes s a n = List.ofFn fun i : Fin n => memByte s (a + i) := by
  induction n generalizing a with
  | zero => rfl
  | succ n ih =>
    rw [memBytes, ih, List.ofFn_succ]
    congr 2
    funext i
    rw [Fin.val_succ, Nat.add_right_comm, Nat.add_assoc]

/-- A range reads back as the bytes that stand at its addresses. -/
theorem memBytes_eq_of_memByte {s : State} {a : Nat} {bs : List Byte} (h : ∀ i, (hi : i < bs.length) → memByte s (a + i) = bs[i]) :
    memBytes s a bs.length = bs := by
  rw [memBytes_eq_ofFn]
  exact (congrArg List.ofFn (funext fun i : Fin bs.length => h i i.isLt)).trans List.ofFn_getElem

@[simp] theorem linePlain_length (s : State) (a : Nat) : (linePlain s a).length = 64 := by
  unfold linePlain
  split
  · exact List.length_replicate
  · rw [memBytes_eq_ofFn, List.length_ofFn]

/-! ## One line -/

section
variable {s : State} {n ppa : Nat} {ctx : BitVec 16} {bs : List Byte}

theorem memByte_lineWrite_inside (hl : ppa % 64 + bs.length ≤ 64) {i : Nat} (h : i < bs.length) :
    memByte (lineWrite s n ctx ppa bs) (ppa + i) = bs[i] := by
  rw [memByte_lineWrite _ _ _ _ _ _ hl, dif_pos ⟨Nat.le_add_right _ _, Nat.add_lt_add_left h _⟩]
  simp only [Nat.add_sub_cancel_left]

theorem memByte_lineWrite_outside (hl : ppa % 64 + bs.length ≤ 64) {a : Nat} (h : a < ppa ∨ ppa + bs.length ≤ a) :
    memByte (lineWrite s n ctx ppa bs) a = if a / 64 = ppa / 64 ∧ (metaGet s ppa).owner = 0xFFFF then 0 else memByte s a := by
  rw [memByte_lineWrite _ _ _ _ _ _ hl, dif_neg (by omega)]

theorem memByte_lineWrite_otherLine (hl : ppa % 64 + bs.length ≤ 64) {a : Nat} (h : a / 64 ≠ ppa / 64) :
    memByte (lineWrite s n ctx ppa bs) a = memByte s a := by
  rw [memByte_lineWrite_outside hl (by omega), if_neg fun e => h e.1]

theorem metaGet_lineWrite_self : metaGet (lineWrite s n ctx ppa bs) ppa =
    { owner := ctx, keySlot := (pitchKey s n).1, keyGen := (pitchKey s n).2 } := by
  rw [metaGet_lineWrite, if_pos rfl]

theorem metaGet_lineWrite_otherLine {a : Nat} (h : a / 64 ≠ ppa / 64) :
    metaGet (lineWrite s n ctx ppa bs) a = metaGet s a := by
  rw [metaGet_lineWrite, if_neg h]

theorem linePlain_lineWrite : linePlain (lineWrite s n ctx ppa bs) ppa =
    if ctx = 0xFFFF then zeros 64 else memBytes (lineWrite s n ctx ppa bs) (ppa / 64 * 64) 64 := by
  rw [linePlain, metaGet_lineWrite_self]

/-- A whole line that a context writes reads back. -/
theorem linePlain_lineWrite_whole (hctx : ctx ≠ 0xFFFF) (ha : ppa % 64 = 0) (hl : bs.length = 64) :
    linePlain (lineWrite s n ctx ppa bs) ppa = bs := by
  rw [linePlain_lineWrite, if_neg hctx, Nat.div_mul_cancel (Nat.dvd_of_mod_eq_zero ha), ← hl]
  exact memBytes_eq_of_memByte fun i hi => memByte_lineWrite_inside (by omega) hi

end

/-! ## The lines of a piece -/

section
variable {s : State} {n : Nat} {ctx : BitVec 16} {p : Piece} {bs : List Byte}

theorem writePieces_singleton (hl : bs.length = p.len) :
    writePieces s n ctx [p] bs = writePiece (p.len / 64 + 2) s n ctx p.ppa bs := by
  rw [writePieces, writePieces, ← hl, List.take_length]

/-- The lines of a piece are those from its first byte's to its last byte's. -/
theorem lines_of_mem_linesOf {ppa len a : Nat} (h : a / 64 ∈ (linesOf ppa len).map (· / 64)) :
    0 < len ∧ ppa / 64 ≤ a / 64 ∧ a / 64 < (ppa + len + 63) / 64 := by
  unfold linesOf at h
  split at h
  · cases h
  · simp only [upto, List.map_map, List.mem_map, List.mem_range, Function.comp_apply, Nat.mul_div_cancel _ (by decide : 0 < 64)] at h
    obtain ⟨i, hi, e⟩ := h
    omega

/-- `writePiece_eff` at the fuel that `writePieces` gives a piece. -/
theorem writePieces_singleton_effect (hl : bs.length = p.len) (hctx : ctx ≠ 0xFFFF) :
    let t := writePieces s n ctx [p] bs
    pieceBytes t p = bs ∧
    (∀ a, a / 64 < p.ppa / 64 ∨ (p.ppa + p.len + 63) / 64 ≤ a / 64 → memByte t a = memByte s a ∧ metaGet t a = metaGet s a) ∧
    (∀ a, a / 64 ∈ (linesOf p.ppa p.len).map (· / 64) → (metaGet t a).owner = ctx) := by
  intro t
  obtain ⟨inside, outside, owned, -⟩ := writePiece_eff (p.len / 64 + 2) s n ctx p.ppa bs (by omega)
  rw [← writePieces_singleton hl] at inside outside owned
  refine ⟨pieceBytes_written hl inside fun a h1 h2 hb => ?_, fun a h => outside a (hl ▸ h), fun a h => ?_⟩
  · rw [owned a h1 h2 hb]
    exact hctx
  · obtain ⟨hpos, h1, h2⟩ := lines_of_mem_linesOf h
    exact owned a h1 (hl ▸ h2) (List.ne_nil_of_length_pos (hl ▸ hpos))

end

/-! ## One line of a copy -/

theorem firstBad_singleton_none {s : State} {ctx : BitVec 16} {l : Nat} (hv : lineVerdict s l = .good) (ho : ownerOk s l ctx = true) :
    firstBad s ctx [l] = none := by
  simp only [firstBad, hv, ho, if_true]

theorem copyLines_singleton {s : State} {ctx : BitVec 16} {n a b : Nat} (ha : firstBad s ctx [a] = none) (hb : firstBad s ctx [b] = none) :
    copyLines s n ctx [(a, b)] = (lineWrite s n ctx b (linePlain s a), stOk, none) := by
  simp only [copyLines, ha, hb]

/-- Settles O16: a line's write by its address, a piece's by `writePiece_eff`, and a copied line is a write of a whole line. -/
theorem lineWriteEffect : Obligations.LineWriteEffect := by
  unfold Obligations.LineWriteEffect
  refine ⟨fun s n ctx ppa bs hl => ?_, fun s n ctx p bs hl hctx => writePieces_singleton_effect hl hctx,
    fun s n ctx a b hb hctx hva hvb hoa hob => ?_⟩
  · exact ⟨fun i h => memByte_lineWrite_inside hl h, fun a h => memByte_lineWrite_outside hl h, metaGet_lineWrite_self,
      fun a h => metaGet_lineWrite_otherLine h, linePlain_lineWrite⟩
  · have hl : b % 64 + (linePlain s a).length ≤ 64 := by rw [hb, linePlain_length]
    exact ⟨_, copyLines_singleton (firstBad_singleton_none hva hoa) (firstBad_singleton_none hvb hob),
      linePlain_lineWrite_whole hctx hb (linePlain_length s a),
      fun x hx => ⟨memByte_lineWrite_otherLine hl hx, metaGet_lineWrite_otherLine hx⟩⟩

end Sys2Proof.Machine
end

section
/-! PROOFS. Requests and notices of the sync window at the line's home (R131, R229, R230, R234 to R236). -/
namespace Sys2Proof.Machine

/-! ## Requests of caching agents (R229, R230) -/

section
variable {t : State} {r : Req} {line : Nat}

/-- A request for ownership or for a shared copy goes on to the line's owner tag once it is translated. -/
theorem syncExec_agent {p : List (List Piece)} {slice : Nat} {rest : List Nat} (hop : r.op ≠ 0x43 ∧ r.op ≠ 0x44 ∧ r.op ≠ 0x48)
    (h14 : check14 t r [{ addr := r.address.toNat, len := 64 }] = .ok p slice) (hl : pieceLines p.flatten = line :: rest) :
    syncExec t r = swAgent t r line := by
  obtain ⟨h43, h44, h48⟩ := hop
  unfold syncExec
  simp only [h43, h44, h48, or_self, if_false, h14, hl]

/-- On a good line whose tag admits the context, the request is ordered or waits; a BUSY line's tag is not looked at. -/
theorem swAgent_good (hv : lineVerdict t line = .good)
    (ho : (((dirFind t line).map (dirGet t)).getD {}).txn = none → ownerOk t line r.context = true) :
    swAgent t r line = agentRequest t r line r.address.toNat (decide (r.op ≠ 0x40)) := by
  have hno : ¬ ((((dirFind t line).map (dirGet t)).getD {}).txn.isNone = true ∧ (!ownerOk t line r.context) = true) := by
    rintro ⟨hn, hbad⟩
    rw [ho (Option.isNone_iff_eq_none.1 hn)] at hbad
    cases hbad
  unfold swAgent
  simp only [hno, if_false, hv]

section
variable {pva : Nat} {own : Bool}

theorem agentRequest_busy {ix : Nat} {x : SwTxn} (hf : dirFind t line = some ix) (hx : (dirGet t ix).txn = some x) :
    agentRequest t r line pva own = dirWait t ix r := by
  unfold agentRequest
  simp only [hf, hx, Option.isSome_some, if_true]

theorem agentRequest_absent (hf : dirFind t line = none) :
    agentRequest t r line pva own = withEntry t r line pva (fun s ix => orderAgent s ix r own) := by
  unfold agentRequest
  simp only [hf]

theorem withEntry_new {go : State → Nat → State} {ix : Nat} (hf : dirFind t line = none) (hu : txnUsed t < 4096)
    (ha : dirAlloc t line = .free ix) : withEntry t r line pva go = go (dirNew t ix line pva r.pitch.toNat) ix := by
  unfold withEntry
  simp only [Nat.not_le.2 hu, if_false, hf, ha]

theorem withEntry_full {go : State → Nat → State} (hu : 4096 ≤ txnUsed t) :
    withEntry t r line pva go = answer (bump t .swnRetry 0 0 r.pitch.toNat) r stRetry [] := by
  unfold withEntry
  exact if_pos hu

end

end

/-! ## Write-backs (R234, R235) -/

section
variable {t : State} {r : Req} {line ix : Nat}

/-- The home holds fewer write-backs of the sender than its limit of two (R234). -/
def HoldsFew (t : State) (r : Req) : Prop := (t.swn.held.filter (fun h => h.2.endpoint = r.endpoint)).length < 2

theorem writeBack_over (h : ¬ HoldsFew t r) : writeBack t r line = bump t .swnWbOver 0 0 r.pitch.toNat := by
  unfold writeBack
  exact if_pos (Nat.not_lt.1 h)

theorem writeBack_absent (h : HoldsFew t r) (hf : dirFind t line = none) :
    writeBack t r line = bump (answerWb t r 1) .swnWbUnexpected 0 0 r.pitch.toNat := by
  unfold writeBack
  simp only [Nat.not_le.2 h, if_false, hf]

theorem writeBack_owner (h : HoldsFew t r) (hf : dirFind t line = some ix) (hx : (dirGet t ix).txn = none)
    (ho : (dirGet t ix).owner = some r.endpoint.toNat) : writeBack t r line = ownerGone (acceptWb t r ix) ix := by
  unfold writeBack
  simp only [Nat.not_le.2 h, if_false, hf, hx, ho, if_true]

theorem writeBack_held {x : SwTxn} (h : HoldsFew t r) (hf : dirFind t line = some ix) (hx : (dirGet t ix).txn = some x)
    (hi : r.endpoint.toNat ∉ x.inval) (hw : r.endpoint.toNat ∉ x.wbs) (hfwd : x.fwd = some r.endpoint.toNat) :
    writeBack t r line = markWindow (swnMod t (fun w => { w with held := w.held ++ [(line, r)] })) r := by
  unfold writeBack
  simp only [Nat.not_le.2 h, if_false, hf, hx, hi, hw, or_self, hfwd, if_true]

/-! ## Evictions and completions (R230, R236) -/

theorem swEvict_absent (hf : dirFind t line = none) : swEvict t r line = answer t r stOk (zeros 8) := by
  unfold swEvict
  simp only [hf]

theorem swEvict_present (hf : dirFind t line = some ix) : swEvict t r line =
    if (dirGet t ix).state = .hx ∧ (dirGet t ix).owner = some r.endpoint.toNat then ownerGone (answer t r stOk (zeros 8)) ix
    else answer t r stOk (zeros 8) := by
  unfold swEvict
  simp only [hf]

theorem swDone_absent (hf : dirFind t line = none) : swDone t r line = answer t r stOk (zeros 8) := by
  unfold swDone
  simp only [hf]

theorem swDone_requester {x : SwTxn} {q : Req} {own : Bool} (hf : dirFind t line = some ix) (hx : (dirGet t ix).txn = some x)
    (hk : x.kind = .agent q own) (hq : q.endpoint = r.endpoint) (hn : x.needDone = true) : swDone t r line =
      txnStep (dirPut (answer t r stOk (zeros 8)) ix { dirGet t ix with txn := some { x with needDone := false } }) ix := by
  unfold swDone
  simp only [hf, hx, hk, hq, hn, and_self, if_true]

/-! ## A notice by its opcode -/

section
variable (hl : swTarget t r = .inr line)
include hl

theorem syncExec_writeback (e : r.op = 0x43) : syncExec t r = writeBack t r line := by
  unfold syncExec
  simp only [e, hl, true_or, if_true]

theorem syncExec_evict (e : r.op = 0x44) : syncExec t r = swEvict t r line := by
  unfold syncExec
  simp only [e, hl, true_or, or_true, if_true]
  rfl

theorem syncExec_done (e : r.op = 0x48) : syncExec t r = swDone t r line := by
  unfold syncExec
  simp only [e, hl, or_true, if_true]
  rfl

end

end

/-! ## The commands -/

section
variable {s t : State} {op : Byte} {f : RxFrame} {r : Req} (h0 : receive s op f = .go t r) (hc : Checked t r)
  (hl : swLenOk r = true) (ha : r.address.toNat % 64 = 0)
include h0 hc hl ha

/-- A message of the sync window that passes its checks leaves what its execution leaves, its sender's flow acknowledged. -/
theorem exec_sync_next {c : Instr} {w : State} (hx : exec c s = .next (syncRequest s op f)) (ho : opKnown op = true)
    (hw : syncExec t r = w) : exec c s = .next (settle (ackNow w r.flow)) := by
  rw [hx, syncRequest_runs h0 hc hl ha ho, hw]

end

/-- Settles O19: each request and notice is `syncExec` once its checks pass, and each clause one case of its function. -/
theorem syncWindow : Obligations.SyncWindow := by
  unfold Obligations.SyncWindow
  refine ⟨?_, ?_⟩
  · intro s t op f r p slice line rest h0 hc hl ha h14 hlines hv ho n done serves
    have e := receive_anyOpcode h0
    have serve : ∀ {o : Byte} {c : Instr} {count : Cnt} {own : Bool}, exec c s = .next (syncRequest s o f) → opKnown o = true →
        (o ≠ 0x43 ∧ o ≠ 0x44 ∧ o ≠ 0x48) → decide (o ≠ 0x40) = own →
        (if o = 0x40 then Cnt.swnReqShared else if o = 0x41 then .swnReqOwn else .swnReqUpgrade) = count → op = o → serves c count own := by
      rintro o c count own hx hk hop hown hcnt rfl
      have runs : ∀ {w : State}, ((((dirFind t line).map (dirGet t)).getD {}).txn = none → ownerOk t line r.context = true) →
          agentRequest t r line r.address.toNat own = w → exec c s = done w := fun hown' hw =>
        exec_sync_next h0 hc hl ha hx hk (by rw [syncExec_agent (e ▸ hop) h14 hlines, swAgent_good hv hown', e, hown, hw])
      refine ⟨fun ix x hf hx => ?_, fun ix hf hu hfree => ?_, fun hf hu => ?_⟩
      · refine runs (fun hn => ?_) (agentRequest_busy hf hx)
        rw [hf, Option.map_some, Option.getD_some, hx] at hn
        cases hn
      · exact runs (fun _ => ho hf) (((agentRequest_absent hf).trans (withEntry_new hf hu hfree)).trans
          (order_homeIdle t r ix line count own (e ▸ hcnt)))
      · exact runs (fun _ => ho hf) ((agentRequest_absent hf).trans (withEntry_full hu))
    exact ⟨serve rfl (by decide) (by decide) (by decide) rfl, serve rfl (by decide) (by decide) (by decide) rfl,
      serve rfl (by decide) (by decide) (by decide) rfl⟩
  · intro s t op f r line h0 hc hl ha htgt n a done few
    have e := receive_anyOpcode h0
    refine ⟨?_, ?_, ?_⟩
    · rintro rfl
      have runs : ∀ {w : State}, writeBack t r line = w → exec (.swWriteback f) s = done w := fun hw =>
        exec_sync_next h0 hc hl ha rfl (by decide) ((syncExec_writeback htgt e).trans hw)
      exact ⟨fun h => runs (writeBack_over h), fun h hf => runs (writeBack_absent h hf),
        fun ix h hf hx hown => runs (writeBack_owner h hf hx hown),
        fun ix x h hf hx hi hw hfwd => runs (writeBack_held h hf hx hi hw hfwd)⟩
    · rintro rfl b
      have runs : ∀ {w : State}, swEvict t r line = w → exec (.swEvict f) s = done w := fun hw =>
        exec_sync_next h0 hc hl ha rfl (by decide) ((syncExec_evict htgt e).trans hw)
      exact ⟨fun hf => runs (swEvict_absent hf),
        fun ix hf hst hown => runs ((swEvict_present hf).trans (if_pos ⟨hst, hown⟩)),
        fun ix hf hno => runs ((swEvict_present hf).trans (if_neg fun h => hno.elim (· h.1) (· h.2)))⟩
    · rintro rfl b
      have runs : ∀ {w : State}, swDone t r line = w → exec (.swDone f) s = done w := fun hw =>
        exec_sync_next h0 hc hl ha rfl (by decide) ((syncExec_done htgt e).trans hw)
      exact ⟨fun hf => runs (swDone_absent hf), fun ix x q own hf hx hk hq hn => runs (swDone_requester hf hx hk hq hn)⟩

end Sys2Proof.Machine
end

section
/-! PROOFS. Stage commands: the ways in which one moves its tile, fails its session or waits (R136, R295, R296, R305). -/
namespace Sys2Proof.Machine

section
variable {s : State} {quad ix : Nat} {c : StageCmd} (hc : (quadGet s quad).queue.find? (fun c => !c.moved) = some c)
  (hs : sessFind s c.session = some ix)
include hc hs

/-! ## A tile without pieces -/

theorem stageRun_waits {st : Nat} (ht : tilePieces s (sessGet s ix).pitch.toNat c = .inl st) (hst : st = stFenced ∨ st = stRetry) :
    stageRun s quad = s := by
  unfold stageRun
  simp only [hc, hs, ht]
  exact if_pos hst

theorem stageRun_tileFails {st : Nat} (ht : tilePieces s (sessGet s ix).pitch.toNat c = .inl st) (hf : st ≠ stFenced) (hr : st ≠ stRetry) :
    stageRun s quad = endSess s ix 7 none st := by
  unfold stageRun
  simp only [hc, hs, ht]
  exact if_neg (not_or.2 ⟨hf, hr⟩)

/-! ## Stage-in -/

section
variable {ps : List Piece} {e u : State} (ht : tilePieces s (sessGet s ix).pitch.toNat c = .inr ps) (hout : c.out = false)
  (hb : touchesBadCocoon s (sessGet s ix).pitch.toNat ps = false)
  (he : syncEnter s (masterReq (sessGet s ix).pitch.toNat 1 quad c.ticket) (syncLines ps) false = (e, true))
include ht hout hb he

theorem stageRun_stageIn {bs : List Byte}
    (hm : masterRead e (sessGet s ix).pitch.toNat (svcClass s (sessGet s ix).pitch.toNat false) ps = (u, .inr bs)) :
    stageRun s quad =
      stageComplete (targetPut (releaseLines u (masterReq (sessGet s ix).pitch.toNat 1 quad c.ticket)) c bs) ix c := by
  unfold stageRun
  simp only [hc, hs, ht, hout, hb, he, hm, Bool.false_eq_true, Bool.not_true, and_false, false_and, if_false]

theorem stageRun_stageInFails {st : Nat}
    (hm : masterRead e (sessGet s ix).pitch.toNat (svcClass s (sessGet s ix).pitch.toNat false) ps = (u, .inl st)) :
    stageRun s quad = endSess (releaseLines u (masterReq (sessGet s ix).pitch.toNat 1 quad c.ticket)) ix 7 none st := by
  unfold stageRun
  simp only [hc, hs, ht, hout, hb, he, hm, Bool.false_eq_true, Bool.not_true, and_false, false_and, if_false]

end

/-! ## Stage-out -/

section
variable {ps : List Piece} {e u : State} (ht : tilePieces s (sessGet s ix).pitch.toNat c = .inr ps) (hout : c.out = true)
  (hp : ∀ p ∈ ps, entRo p.entry = false ∧ entCocoon p.entry = false)
  (he : syncEnter s (masterReq (sessGet s ix).pitch.toNat 1 quad c.ticket) (syncLines ps) true = (e, true))
include ht hout hp he

/-- A stage-out whose lines may be written comes to its write. -/
theorem stageRun_stageOut {res : Option Nat}
    (hm : masterWrite e (sessGet s ix).pitch.toNat (svcClass s (sessGet s ix).pitch.toNat false) (sessGet s ix).context ps
      (targetBytes s c (c.rows * c.rowLen)) = (u, res)) :
    let n := (sessGet s ix).pitch.toNat
    let v := releaseLines u (masterReq n 1 quad c.ticket)
    stageRun s quad = match res with
      | some st => endSess v ix 7 none st
      | none =>
        if mirrors v n then
          mirrorOp (quadPut v quad { quadGet v quad with
            queue := (quadGet v quad).queue.map (fun x => if x.ticket = c.ticket then { x with moved := true } else x) })
            n (sessGet s ix).context ((upto c.rows).map (fun i => (c.base + i * c.stride, c.rowLen)))
            { stage := some ((sessGet s ix).number, c.ticket) }
        else stageComplete v ix c := by
  intro n v
  have hany : ps.any (fun p => entRo p.entry || entCocoon p.entry) = false :=
    List.any_eq_false.2 fun p h => by simp only [hp p h, Bool.or_self, Bool.false_eq_true, not_false_eq_true]
  unfold stageRun
  simp only [hc, hs, ht, hout, hany, he, hm, Bool.false_eq_true, Bool.not_true, and_false, false_and, if_false, if_true]
  cases res <;> rfl

end

end

/-- Settles O26: `stageRun` at its first command that has not moved, by the tile's pieces, the direction and the access's end;
a unit that does not serve leaves it at the front (log 27). -/
theorem stageCommands : Obligations.StageCommands := by
  unfold Obligations.StageCommands
  intro s quad c ix hc hs k n cls own ends
  have run : ∀ {t : State}, stageRun s quad.toNat = t → exec (.stageCommandDone quad) s = ends t := fun h => h ▸ rfl
  refine ⟨fun st ht hst => run (stageRun_waits hc hs ht hst), fun st ht hf hr => run (stageRun_tileFails hc hs ht hf hr),
    fun ps e ht hout hb he => ⟨fun u bs hm => run (stageRun_stageIn hc hs ht hout hb he hm),
      fun u st hm => run (stageRun_stageInFails hc hs ht hout hb he hm)⟩,
    fun ps e ht hout hp he => ⟨fun u hm hmir => run ?_, fun u hm hmir => run ?_, fun u st hm => run ?_⟩⟩
  · exact (stageRun_stageOut hc hs ht hout hp he hm).trans (if_neg (by rw [hmir]; decide))
  · exact (stageRun_stageOut hc hs ht hout hp he hm).trans (if_pos hmir)
  · exact stageRun_stageOut hc hs ht hout hp he hm

end Sys2Proof.Machine
end

section
/-! PROOFS. The read that goes first in a subchannel: its read-outs and its ends (R163, R167, R175, R178 to R180). -/
namespace Sys2Proof.Machine

/-! ## Read-outs of a line (R178, R179) -/

section
variable {c : Nat} {sticky : Option ReadOut} {fuel : Nat} {s : State} {outs : List ReadOut} {p t : Nat} {again : Bool}

theorem readOuts_good (h : sticky.getD (outs.headD .good) = .good) : readOuts c sticky (fuel + 1) s outs p t again =
    if again = true then (bump s .mceReread c 0 0, .transient) else (s, .served) := by
  simp only [readOuts, h]

theorem readOuts_parity (h : sticky.getD (outs.headD .good) = .parity) : readOuts c sticky (fuel + 1) s outs p t again =
    if p = 0 then (bump s .mceParity c 0 0, .media) else readOuts c sticky fuel (bump s .mceParity c 0 0) outs.tail (p - 1) t true := by
  simp only [readOuts, h]

theorem readOuts_tag (h : sticky.getD (outs.headD .good) = .tag) : readOuts c sticky (fuel + 1) s outs p t again =
    if t = 0 then (bump s .mceTagFail c 0 0, .integrity) else readOuts c sticky fuel (bump s .mceTagFail c 0 0) outs.tail p (t - 1) true := by
  simp only [readOuts, h]

end

section
variable {c : Nat} {sticky : Option ReadOut} {s : State} {outs : List ReadOut}

/-- Parity fails once and the re-read is good. -/
theorem readOuts_parityOnce (h0 : sticky.getD (outs.headD .good) = .parity) (h1 : sticky.getD (outs.tail.headD .good) = .good) :
    readOuts c sticky 6 s outs 3 1 false = (bump (bump s .mceParity c 0 0) .mceReread c 0 0, .transient) :=
  calc readOuts c sticky 6 s outs 3 1 false
      = readOuts c sticky 5 (bump s .mceParity c 0 0) outs.tail 2 1 true := readOuts_parity h0
    _ = (bump (bump s .mceParity c 0 0) .mceReread c 0 0, .transient) := readOuts_good h1

/-- The tag fails once and the re-read is good. -/
theorem readOuts_tagOnce (h0 : sticky.getD (outs.headD .good) = .tag) (h1 : sticky.getD (outs.tail.headD .good) = .good) :
    readOuts c sticky 6 s outs 3 1 false = (bump (bump s .mceTagFail c 0 0) .mceReread c 0 0, .transient) :=
  calc readOuts c sticky 6 s outs 3 1 false
      = readOuts c sticky 5 (bump s .mceTagFail c 0 0) outs.tail 3 0 true := readOuts_tag h0
    _ = (bump (bump s .mceTagFail c 0 0) .mceReread c 0 0, .transient) := readOuts_good h1

/-- Parity fails at the read-out and at all three re-reads. -/
theorem readOuts_media (h : ∀ j < 4, sticky.getD ((List.tail^[j] outs).headD .good) = .parity) :
    let parity (u : State) : State := bump u .mceParity c 0 0
    readOuts c sticky 6 s outs 3 1 false = (parity (parity (parity (parity s))), .media) := by
  intro parity
  calc readOuts c sticky 6 s outs 3 1 false
      = readOuts c sticky 5 (parity s) outs.tail 2 1 true := readOuts_parity (h 0 (by decide))
    _ = readOuts c sticky 4 (parity (parity s)) outs.tail.tail 1 1 true := readOuts_parity (h 1 (by decide))
    _ = readOuts c sticky 3 (parity (parity (parity s))) outs.tail.tail.tail 0 1 true := readOuts_parity (h 2 (by decide))
    _ = (parity (parity (parity (parity s))), .media) := readOuts_parity (h 3 (by decide))

/-- The tag fails at the read-out and at its one re-read. -/
theorem readOuts_integrity (h : ∀ j < 2, sticky.getD ((List.tail^[j] outs).headD .good) = .tag) :
    let tag (u : State) : State := bump u .mceTagFail c 0 0
    readOuts c sticky 6 s outs 3 1 false = (tag (tag s), .integrity) := by
  intro tag
  calc readOuts c sticky 6 s outs 3 1 false
      = readOuts c sticky 5 (tag s) outs.tail 3 0 true := readOuts_tag (h 0 (by decide))
    _ = (tag (tag s), .integrity) := readOuts_tag (h 1 (by decide))

end

/-! ## The read as a whole -/

/-- What every read-out of a line shows where the line is bad as stored. -/
def storedFault : LineVerdict → Option ReadOut
  | .good => none
  | .media => some .parity
  | .integrity => some .tag

/-- The state in which a read that issued is read out: its bank touched, counted, out of the queue. -/
def readIssued (s : State) (c i : Nat) (e : DmcReq) : State :=
  inorderLeft (chMod (countAccess (touchBank s c e.line) c e.cls e.pitch.toNat false) c (fun ch =>
    { ch with queue := ch.queue.eraseIdx i })) c

/-- A read that failed is counted, the unsent response that it decides is cut, and the write that it checks for is dropped. -/
def readLost (u : State) (c : Nat) (e : DmcReq) (cnt : Cnt) (status : Nat) : State :=
  dropWrite (cutForLine (bump u cnt c 0 e.pitch.toNat) e.line status e.who) c e.line e.check

/-- What the end of the read-outs makes of the access. -/
def readEnded (c : Nat) (e : DmcReq) (u : State) : ReadEnd → State
  | .served => u
  | .transient => u
  | .media => retirePage (readLost u c e .mceMedia stMedia) e.line (if (metaGet u e.line).poison = 0 then 0 else 2)
  | .integrity => retirePage (readLost u c e .mceIntegrity stIntegrity) e.line 1

theorem lineReadDone_noneEligible {s : State} {c sub : Nat} (bad : Bool) (outs : List ReadOut)
    (h : nextCand s c sub (fun q => !q.write) = none) : lineReadDone s c sub bad outs = s := by
  unfold lineReadDone
  rw [h]

section
variable {s : State} {c sub i : Nat} {q : Cand} {e : DmcReq} (hq : nextCand s c sub (fun q => !q.write) = some q)
  (hi : firstIdx (fun (x : DmcReq) => !x.held && decide (x.line = q.line) && decide (x.arrived = q.arrived)) (chGet s c).queue 0 = some i)
  (he : (chGet s c).queue[i]? = some e)
include hq hi he

theorem lineReadDone_reads {outs : List ReadOut} {w : State} {r : ReadEnd}
    (h : readOuts c (storedFault (lineVerdict (readIssued s c i e) e.line)) 6 (readIssued s c i e) outs 3 1 false = (w, r)) :
    lineReadDone s c sub false outs = admitAll (readEnded c e w r) c := by
  have hend : lineReadDone s c sub false outs = admitAll (readEnded c e
      (readOuts c (storedFault (lineVerdict (readIssued s c i e) e.line)) 6 (readIssued s c i e) outs 3 1 false).1
      (readOuts c (storedFault (lineVerdict (readIssued s c i e) e.line)) 6 (readIssued s c i e) outs 3 1 false).2) c := by
    unfold lineReadDone
    simp only [hq, hi, he, Option.getD_some, Bool.false_eq_true, if_false]
    rfl
  rw [hend, h]

/-- The queue entry fails its parity twice: a fault record, and the access ends MEDIA unread (R180). -/
theorem lineReadDone_badEntry (outs : List ReadOut) : lineReadDone s c sub true outs =
    admitAll (readLost (faultRec (readIssued s c i e) {
      agent := dmcAgent c, cause := 0x11, cls := clsFailed, state := actCode (uAct (readIssued s c i e) (uChan c)),
      pitch := some e.pitch.toNat, status := stMedia, lo := lineLo e.line, hi := lineHi e.line, unit := some (uChan c) })
      c e .mceMedia stMedia) c := by
  unfold lineReadDone
  simp only [hq, hi, he, Option.getD_some, if_true]
  rfl

end

/-- Settles O34: the read's end is that of its read-outs, which a line bad as stored fails each time and a good line as often as
the list of read-outs says. -/
theorem channelReads : Obligations.ChannelReads := by
  unfold Obligations.ChannelReads
  intro s chan sub bad outs c
  refine ⟨fun h => congrArg _ (lineReadDone_noneEligible bad outs h), ?_⟩
  intro q i e hq hi he n t out parity tag lost spoiled forged
  have reads : ∀ {v : LineVerdict} {w : State} (r : ReadEnd), bad = false → lineVerdict t e.line = v →
      readOuts c (storedFault v) 6 t outs 3 1 false = (w, r) → exec (.lineReadDone chan sub bad outs) s = out (readEnded c e w r) := by
    rintro v w r rfl rfl h
    exact congrArg _ (lineReadDone_reads hq hi he h)
  refine ⟨fun hb hv => ⟨?_, ?_, ?_, ?_, ?_⟩, fun hb hv => ?_, fun hb hv => ?_, ?_⟩
  · rintro rfl
    exact reads .served hb hv (readOuts_good rfl)
  · rintro rfl
    exact reads .transient hb hv (readOuts_parityOnce rfl rfl)
  · rintro rfl
    exact reads .transient hb hv (readOuts_tagOnce rfl rfl)
  · rintro rfl
    exact reads .media hb hv (readOuts_media (by decide))
  · rintro rfl
    exact reads .integrity hb hv (readOuts_integrity (by decide))
  · exact reads .media hb hv (readOuts_media fun _ _ => rfl)
  · exact reads .integrity hb hv (readOuts_integrity fun _ _ => rfl)
  · rintro rfl
    exact congrArg _ (lineReadDone_badEntry hq hi he outs)

end Sys2Proof.Machine
end

section
/-! PROOFS. The other events of a channel: writes to the DRAM, refresh, promotion, idle banks (R165, R167, R171, R173, R174, R180);
alerts and retraining (R181, R182). -/
namespace Sys2Proof.Machine

/-! ## A line leaves the write buffer (R165, R180) -/

/-- The state once a buffered line has issued: its bank touched, counted, out of the buffer. -/
def writeIssued (s : State) (c i : Nat) (q : Cand) : State :=
  inorderLeft (chMod (countAccess (touchBank s c q.line) c q.cls q.pitch.toNat true) c (fun ch =>
    { ch with wbuf := ch.wbuf.eraseIdx i, drainWrites := ch.drainWrites && decide (16 < (ch.wbuf.eraseIdx i).length) })) c

/-- The words of a line whose buffer parity failed twice are poisoned. -/
def poisonWords (s : State) (line : Nat) (bad : BitVec 16) : State :=
  metaPut s line { metaGet s line with poison := (metaGet s line).poison ||| bad }

theorem writeIssue_noneEligible {s : State} {c sub : Nat} (bad : BitVec 16) (h : nextCand s c sub (fun q => q.write) = none) :
    writeIssue s c sub bad = s := by
  unfold writeIssue
  rw [h]

section
variable {s : State} {c sub i : Nat} {q : Cand} (hq : nextCand s c sub (fun q => q.write) = some q)
  (hi : firstIdx (fun (x : WbLine) => decide (x.line = q.line) && decide (x.arrived = q.arrived)) (chGet s c).wbuf 0 = some i)
include hq hi

theorem writeIssue_clean : writeIssue s c sub 0 = writeIssued s c i q := by
  unfold writeIssue
  simp only [hq, hi, if_true]
  rfl

theorem writeIssue_bad {bad : BitVec 16} (hb : bad ≠ 0) : writeIssue s c sub bad =
    let u := poisonWords (writeIssued s c i q) q.line bad
    faultRec u { agent := dmcAgent c, cause := 0x14, cls := clsFailed, state := actCode (uAct u (uChan c)), pitch := some q.pitch.toNat,
                 lo := lineLo q.line, hi := lineHi q.line, unit := some (uChan c) } := by
  unfold writeIssue
  simp only [hq, hi, hb, if_false]
  rfl

end

/-! ## Promotion (R167) -/

/-- The accesses of a channel that are not promoted yet and not held at the slice, each with its time of arrival. -/
def waitingAccesses (ch : Chan) : List (Nat × Nat) :=
  (ch.queue.filter (fun q => !q.promoted ∧ !q.held)).map (fun q => (q.arrived, q.line)) ++
    (ch.wbuf.filter (fun w => !w.promoted)).map (fun w => (w.arrived, w.line))

/-- The earlier of two accesses, the first of them on a tie. -/
def earlierAccess (b : Option (Nat × Nat)) (e : Nat × Nat) : Option (Nat × Nat) :=
  match b with
  | none => some e
  | some x => if e.1 < x.1 then some e else some x

def oldestWaiting (ch : Chan) : Option (Nat × Nat) := (waitingAccesses ch).foldl earlierAccess none

/-- Is an access promoted with the oldest, `e`: itself, or ahead of it in its in-order bank? -/
def promotedWith (s : State) (c : Nat) (e : Nat × Nat) (arrived line : Nat) : Bool :=
  (decide (arrived = e.1) && decide (line = e.2)) ||
    (decide ((bankRow s e.2).1 ∈ (chGet s c).inorder) && decide ((bankRow s line).1 = (bankRow s e.2).1) && decide (arrived ≤ e.1))

/-- The state once the oldest access has waited for DMC_AGE_LIMIT. -/
def promoteOldest (s : State) (c : Nat) (e : Nat × Nat) : State :=
  bumpN (chMod (nowTo s (e.1 + regField s (dmcAgent 0) 0x108 0 8 * 100)) c (fun ch => { ch with
      queue := ch.queue.map (fun q => if promotedWith s c e q.arrived q.line && !q.held then { q with promoted := true } else q)
      wbuf := ch.wbuf.map (fun w => if promotedWith s c e w.arrived w.line then { w with promoted := true } else w) }))
    .dmcPromote c 0 0 ((waitingAccesses (chGet s c)).filter (fun x => promotedWith s c e x.1 x.2)).length

theorem agePromote_noneWaits {s : State} {c : Nat} (h : oldestWaiting (chGet s c) = none) : agePromote s c = s := by
  unfold agePromote
  dsimp only
  split
  next => rfl
  next e he => cases he.symm.trans h

theorem agePromote_promotes {s : State} {c : Nat} {e : Nat × Nat} (h : oldestWaiting (chGet s c) = some e) :
    agePromote s c = promoteOldest s c e := by
  unfold agePromote
  dsimp only
  split
  next hn => cases hn.symm.trans h
  next e' he =>
    obtain rfl : e' = e := Option.some.inj (he.symm.trans h)
    rfl

/-! ## Idle banks and refresh (R171, R173, R174) -/

theorem pageIdle_closed {s : State} {c : Nat} {b : Nat × Nat × Nat} (h : aget (chGet s c).banks b = none) : pageIdle s c b = s := by
  unfold pageIdle
  rw [h]

theorem pageIdle_open {s : State} {c : Nat} {b : Nat × Nat × Nat} {e : Nat × Nat} (h : aget (chGet s c).banks b = some e) :
    pageIdle s c b =
      chMod (nowTo s (e.2 + regField s (dmcAgent 0) 0x10C 0 8 * 10)) c (fun ch => { ch with banks := adel ch.banks b }) := by
  unfold pageIdle
  rw [h]

/-- The refresh of one channel: its banks are closed and it counts, unless it is RETIRED. -/
def refreshChannel (s : State) (c : Nat) : State :=
  if uAct s (uChan c) = .retired then s else bump (chMod s c (fun ch => { ch with banks := [] })) .dmcRefresh c 0 0

/-- Have the modules been cool for a second? -/
def modulesCool (s : State) (now : Nat) : Bool :=
  match s.dmc.coolSince with
  | some x => decide (x + 1000000000 ≤ now)
  | none => false

/-- Does the hot interval hold from this instant on (R174): asked for, or kept until the modules have been cool? -/
def refreshHot (s : State) (now : Nat) : Bool :=
  s.dmc.hotNext || (s.dmc.hot && !modulesCool s now)

theorem refreshInstant_refreshes {s : State} {at_ : Nat} (h : s.dmc.refreshNext = some at_) :
    refreshInstant s = dmcMod ((List.range 16).foldl refreshChannel (nowTo s at_)) (fun d => { d with
      hot := refreshHot s (nowTo s at_).now, hotNext := false,
      refreshNext := some (at_ + (if refreshHot s (nowTo s at_).now = true then 1950 else 3900)) }) := by
  unfold refreshInstant
  rw [h]
  rfl

/-! ## Alerts (R181) -/

@[simp] theorem chGet_nowTo (s : State) (x c : Nat) : chGet (nowTo s x) c = chGet s c := rfl
@[simp] theorem uGet_nowTo (s : State) (x k : Nat) : uGet (nowTo s x) k = uGet s k := rfl

/-- An alerted subchannel is stopped and its banks are closed; at the third alert in a row its commands wait for a retraining. -/
def alerted (s : State) (c sub : Nat) (third : Bool) : State :=
  chMod (subMod (bump s .dmcCaAlert c 0 0) c sub (fun b => { b with
      stopped := true, deferred := b.deferred || third, consec := if third then 0 else b.consec + 1 })) c
    (fun ch => { ch with banks := ch.banks.filter (fun e => e.1.1 ≠ sub) })

section
variable {s : State} {c sub : Nat}

theorem caAlert_first (h : (subGet s c sub).consec < 2) : caAlert s c sub = alerted s c sub false := by
  unfold caAlert
  simp only [Nat.not_le.2 h, decide_false, Bool.false_eq_true, if_false]
  rfl

theorem caAlert_third (h : 2 ≤ (subGet s c sub).consec) : caAlert s c sub = retrainStart (alerted s c sub true) c := by
  unfold caAlert
  simp only [h, decide_true, if_true]
  rfl

theorem caReplayDone_replays (h : (subGet s c sub).stopped = true) (hd : (subGet s c sub).deferred = false) :
    caReplayDone s c sub = bump (subMod s c sub (fun b => { b with stopped := false, since := 0 })) .dmcCaReplay c 0 0 := by
  unfold caReplayDone
  exact if_pos ⟨h, by rw [hd]; rfl⟩

theorem caReplayDone_running (h : (subGet s c sub).stopped = false) : caReplayDone s c sub = s := by
  unfold caReplayDone
  exact if_neg (by simp [h])

theorem caConsecReset_running (h : (subGet s c sub).stopped = false) :
    caConsecReset s c sub = subMod s c sub (fun b => { b with consec := 0, since := 64 }) := by
  unfold caConsecReset
  exact if_neg (by simp [h])

end

/-! ## Retraining (R182) -/

/-- The channel is TRAINING for up to 20 ms and remembers the state that it left. -/
def training (s : State) (c : Nat) : State :=
  bump (dmcMod (chMod (uMove (uSet s (uChan c) { uGet s (uChan c) with prior := some (uAct s (uChan c)) }) (uChan c) .training) c
    (fun ch => { ch with retrainTimer := some (s.now + 20000000) })) (fun d => { d with retrains := tins d.retrains (c / 4) s.now }))
    .dmcRetrain c 0 0

/-- Commands that a subchannel deferred are replayed. -/
def replayDeferred (s : State) (c sub : Nat) : State :=
  if (subGet s c sub).deferred = true then
    bump (subMod s c sub (fun b => { b with stopped := false, deferred := false, since := 0 })) .dmcCaReplay c 0 0
  else s

/-- The channel's retraining is over, however it ended. -/
def retrainOver (s : State) (c : Nat) : State := chMod s c (fun ch => { ch with retrainTimer := none })

section
variable {s : State} {c : Nat}

theorem retrainStart_trains (hs : serving (uAct s (uChan c)) = true) (h : tfind s.dmc.retrains (c / 4) = none) :
    retrainStart s c = training s c := by
  unfold retrainStart
  simp only [hs, h, Bool.not_true, Bool.false_eq_true, if_false]
  rfl

/-- A second retraining of the group within 10 minutes of the last retires it. -/
theorem retrainStart_recent {t : Nat} (hs : serving (uAct s (uChan c)) = true) (h : tfind s.dmc.retrains (c / 4) = some t)
    (ht : s.now < t + 600000000000) : retrainStart s c = retireGroup s (c / 4) 0x16 0 0 := by
  unfold retrainStart
  simp only [hs, h, ht, Bool.not_true, Bool.false_eq_true, if_false, decide_true, if_true]

theorem retrainDone_idle {ok : Bool} (h : (chGet s c).retrainTimer = none) : retrainDone s c ok = s := by
  unfold retrainDone
  exact if_pos (Or.inr h)

theorem retrainTimeout_idle (h : (chGet s c).retrainTimer = none) : retrainTimeout s c = s := by
  unfold retrainTimeout
  rw [h]

section
variable {t : Nat} (ha : (uGet s (uChan c)).actual = .training) (ht : (chGet s c).retrainTimer = some t)
include ha ht

theorem retrainDone_fails : retrainDone s c false = retireGroup (retrainOver s c) (c / 4) 0x16 0 0 := by
  unfold retrainDone
  simp only [ha, ht, ne_eq, not_true_eq_false, reduceCtorEq, or_self, if_false, Bool.not_false, if_true]
  rfl

theorem retrainDone_succeeds : retrainDone s c true =
    let u := uMove (retrainOver s c) (uChan c) ((uGet s (uChan c)).prior.getD .up)
    replayDeferred (replayDeferred (uSet u (uChan c) { uGet u (uChan c) with prior := none }) c 0) c 1 := by
  unfold retrainDone
  simp only [ha, ht, ne_eq, not_true_eq_false, reduceCtorEq, or_self, if_false, Bool.not_true, Bool.false_eq_true]
  rfl

theorem retrainTimeout_retires : retrainTimeout s c = retireGroup (retrainOver (nowTo s t) c) (c / 4) 0x16 0 0 := by
  unfold retrainTimeout
  rw [ht]
  exact retrainDone_fails (t := t) (by rw [uGet_nowTo, ha]) (by rw [chGet_nowTo, ht])

end

end

/-- Settles O35, an event at a time: each clause is the case of its function that the hypotheses select. -/
theorem channelEvents : Obligations.ChannelEvents := by
  unfold Obligations.ChannelEvents
  refine ⟨⟨?_, fun s chan sub bad h => congrArg _ (writeIssue_noneEligible bad h), ?_, ?_, ?_⟩, ?_⟩
  · intro s chan sub bad q i c hq hi n left t poisoned
    refine ⟨?_, fun hb => congrArg _ (writeIssue_bad hq hi hb)⟩
    rintro rfl
    exact congrArg _ (writeIssue_clean hq hi)
  · intro s at_ h t cool hot
    have hhot : refreshHot s t.now = hot := rfl
    show Host.Outcome.next (refreshInstant s) = _
    rw [refreshInstant_refreshes h, hhot]
    rfl
  · intro s chan c ch waiting earlier
    exact ⟨fun h => congrArg _ (agePromote_noneWaits (congrArg (List.foldl earlierAccess none) h)),
      fun e he => congrArg _ (agePromote_promotes he)⟩
  · intro s chan sub rank bank b
    exact ⟨fun e h => congrArg _ (pageIdle_open h), fun h => congrArg _ (pageIdle_closed h)⟩
  · intro s chan sub c g k x b stopped trains untimed
    refine ⟨fun h => congrArg _ (caAlert_first h), fun h hs => ⟨fun _ hr => ?_, fun t hr ht => ?_⟩,
      fun h hd => congrArg _ (caReplayDone_replays h hd),
      fun h => ⟨congrArg _ (caReplayDone_running h), congrArg _ (caConsecReset_running h)⟩, ?_,
      fun h => ⟨congrArg _ (retrainDone_idle h), congrArg _ (retrainTimeout_idle h)⟩⟩
    · exact congrArg _ ((caAlert_third h).trans (retrainStart_trains hs hr))
    · exact congrArg _ ((caAlert_third h).trans (retrainStart_recent hs hr ht))
    · intro t ha ht u again
      exact ⟨congrArg _ (retrainDone_succeeds ha ht), congrArg _ (retrainDone_fails ha ht), congrArg _ (retrainTimeout_retires ha ht)⟩

end Sys2Proof.Machine
end

section
/-! PROOFS. KERNEL_LAUNCH and the messages about a kernel session (R284, R290, R291, R293), and the events of one (R213, R284, R291,
R292, R294, R305). -/
namespace Sys2Proof.Machine

/-! ## KERNEL_LAUNCH: the orders up to the pitch's state (R290) -/

/-- The object word of a launch. -/
abbrev launchObject (r : Req) : DWord := BitVec.ofNat 64 (beAt r.payload 0 8)

/-- The address of a launch's argument block. -/
abbrev launchArgs (r : Req) : Nat := beAt r.payload 8 8

/-- QUAD_MASK and LFLAGS of a launch. -/
abbrev launchQuads (r : Req) : Nat := beAt r.payload 16 2
abbrev launchFlags (r : Req) : Nat := beAt r.payload 18 2

/-- Order 1: LFLAGS, CORE_MASK and the library form hold. -/
def LaunchFlagsFit (r : Req) : Prop :=
  launchFlags r < 64 ∧ coreMaskOk (coreMaskOf (launchFlags r)) = true ∧
    ((launchObject r).getLsbD 63 = true → (launchObject r).toNat / 2 ^ 16 % 2 ^ 47 = 0)

/-- Order 3: an object in memory and the argument block lie on lines. -/
def LaunchAligned (r : Req) : Prop :=
  ((launchObject r).getLsbD 63 = false → (launchObject r).toNat % 64 = 0) ∧ launchArgs r % 64 = 0

theorem launchFlagsOk_iff (r : Req) : launchFlagsOk r.payload = true ↔ LaunchFlagsFit r := by
  have hlib : bitsOf (launchObject r) 16 47 = (launchObject r).toNat / 2 ^ 16 % 2 ^ 47 :=
    congrArg (· % 2 ^ 47) (Nat.shiftRight_eq_div_pow _ _)
  unfold launchFlagsOk LaunchFlagsFit bitOf
  simp only [hlib, Bool.and_eq_true, Bool.or_eq_true, Bool.not_eq_true', decide_eq_true_eq, and_assoc, imp_iff_not_or,
    Bool.not_eq_true]

/-- Order 3 as the controller judges it, from bits [56:0] of the object word. -/
abbrev LaunchMisaligned (r : Req) : Prop :=
  (!bitOf (launchObject r) 63 && decide (bitsOf (launchObject r) 0 57 % 64 ≠ 0)) = true ∨ launchArgs r % 64 ≠ 0

theorem launchMisaligned_iff (r : Req) : LaunchMisaligned r ↔ ¬ LaunchAligned r := by
  have hlow : bitsOf (launchObject r) 0 57 % 64 = (launchObject r).toNat % 64 := Nat.mod_mod_of_dvd _ (by decide)
  unfold LaunchMisaligned LaunchAligned bitOf
  rw [hlow]
  cases (launchObject r).getLsbD 63 <;> simp [imp_iff_not_or]

/-- A KERNEL_LAUNCH of 24 bytes that meets the checks of R63 but for those of R290. -/
structure LaunchRequest (s t : State) (f : RxFrame) (r : Req) : Prop where
  received : receive s 0x60 f = .go t r
  flagsFit : flagMisuse t r = false
  allowed : permitted t r = true
  length : r.length.toNat = 24
  whole : r.payload.length = 24
  serving : pitchCheck t r = none

section
variable {s t : State} {f : RxFrame} {r : Req} (g : LaunchRequest s t f r)
include g

theorem LaunchRequest.badFlags (hf : ¬ LaunchFlagsFit r) :
    kernelLaunch s 0x60 f = ackNow (launchRefuse t r stUnsupported []) r.flow := by
  have hbad : launchFlagsOk r.payload = false := Bool.eq_false_of_not_eq_true (mt (launchFlagsOk_iff r).1 hf)
  unfold kernelLaunch
  rw [withRequest_go g.received]
  simp only [g.whole, hbad, Bool.not_false, and_self, or_true, if_true]

section
variable (hf : LaunchFlagsFit r)
include hf

/-- A launch whose flags fit comes to its alignment, and then to order 5 on a pitch that serves. -/
theorem LaunchRequest.flagged : kernelLaunch s 0x60 f =
    ackNow (if LaunchMisaligned r then launchRefuse t r stAlign [] else launchExec t r) r.flow := by
  have hgood : launchFlagsOk r.payload = true := (launchFlagsOk_iff r).2 hf
  unfold kernelLaunch LaunchMisaligned
  rw [withRequest_go g.received]
  simp only [g.flagsFit, g.allowed, g.length, g.whole, g.serving, hgood, Bool.not_true, Bool.false_eq_true, and_false, or_self,
    ne_eq, not_true_eq_false, if_false]

theorem LaunchRequest.misaligned (ha : ¬ LaunchAligned r) :
    kernelLaunch s 0x60 f = ackNow (launchRefuse t r stAlign []) r.flow := by
  rw [g.flagged hf, if_pos (by rwa [launchMisaligned_iff])]

theorem LaunchRequest.runs (ha : LaunchAligned r) : kernelLaunch s 0x60 f = ackNow (launchExec t r) r.flow := by
  rw [g.flagged hf, if_neg (by rwa [launchMisaligned_iff, not_not])]

end

end

/-! ## KERNEL_LAUNCH: placement, reads and the record (R284, R290, R291) -/

/-- A launch on the cores `rc` whose object and argument block are mapped, whose cores it may hold, and whose reads end well: of
the object's head `hd` at state `h`, then of the argument block `ab` at state `a`. -/
structure LaunchReads (t : State) (r : Req) (rc : Rect) (h a : State) (hd ab : List Byte) : Prop where
  mapped : bitOf (launchObject r) 63 = true ∨ ∃ ps, masterRange t r.pitch.toNat (bitsOf (launchObject r) 0 57) 256 = .inr ps
  rect : launchRect (launchQuads r) (coreMaskOf (launchFlags r)) = some rc
  placed : placementOk t r.pitch.toNat (launchQuads r) rc = true
  object : ∃ h0 hd0, objRead t r.pitch.toNat (launchObject r) 256 = (h0, .inr hd0) ∧ 256 + 16 * (rc.w * rc.h) ≤ objTotal hd0 ∧
    objRead h0 r.pitch.toNat (launchObject r) (256 + 16 * (rc.w * rc.h)) = (h, .inr hd)
  args : ∃ aps, masterRange t r.pitch.toNat (launchArgs r) 256 = .inr aps ∧
    masterRead h r.pitch.toNat (svcClass t r.pitch.toNat false) aps = (a, .inr ab)

/-- A launch is recorded in slot `ix` with the next session number, and waits. -/
def launchRecorded (a : State) (r : Req) (k : KSess) (ix : Nat) : State :=
  let num := nextNumber a 65536 a.grd.next
  markWindow (grdMod (sessPut a ix { k with number := num.toNat, slot := ix, state := .queued })
    (fun g => { g with next := num + 1 })) r

/-- What becomes of a launch with a record: LOADING on free cores, in the queue where it may wait, refused otherwise. -/
theorem LaunchReads.recorded {t h a : State} {r : Req} {rc : Rect} {hd ab : List Byte} (b : LaunchReads t r rc h a hd ab) {k : KSess}
    (hk : launchBuild a r hd ab = .inr k) {ix : Nat} (hix : (upto 256).find? (fun i => (tfind a.grd.sess i).isNone) = some ix) :
    launchExec t r =
      if coresFree a k = false ∧ ((launchFlags r).testBit 4 = false ∨ 64 ≤ a.grd.queue.length) then
        launchRefuse (bump a .grdQueueFull 0 0 r.pitch.toNat) r stRetry []
      else if coresFree a k = true then enterLoading (launchRecorded a r k ix) ix
      else grdMod (launchRecorded a r k ix) (fun g => { g with queue := g.queue ++ [ix] }) := by
  obtain ⟨hmap, hrc, hplace, ⟨h0, hd0, hr0, htotal, hr1⟩, aps, haps, hab⟩ := b
  unfold launchObject launchArgs launchQuads launchFlags at *
  unfold launchExec
  rcases hmap with hmap | ⟨ps, hmap⟩ <;>
    simp only [hmap, ite_self, haps, hrc, hplace, hr0, htotal, hr1, hab, hk, hix, Bool.not_true, Bool.false_eq_true, Bool.not_eq_true',
      if_true, if_false] <;> rfl

/-! ## KERNEL_QUERY and KERNEL_ABORT (R293) -/

/-- The session that a message names, if it is the pitch's. -/
def namedSession (t : State) (r : Req) : Option Nat :=
  (sessFind t (beAt r.payload 0 2)).filter (fun ix => decide ((sessGet t ix).pitch = r.pitch) && decide (beAt r.payload 0 2 ≠ 0))

theorem namedSession_own {t : State} {r : Req} {ix : Nat} (h : sessFind t (beAt r.payload 0 2) = some ix)
    (hp : (sessGet t ix).pitch = r.pitch) (h0 : beAt r.payload 0 2 ≠ 0) : namedSession t r = some ix := by
  unfold namedSession
  rw [h]
  exact if_pos (by simp only [hp, h0, decide_true, ne_eq, not_false_eq_true, Bool.and_self])

theorem namedSession_none {t : State} {r : Req} (h : ∀ ix, sessFind t (beAt r.payload 0 2) = some ix → (sessGet t ix).pitch ≠ r.pitch) :
    namedSession t r = none := by
  unfold namedSession
  cases hs : sessFind t (beAt r.payload 0 2) with
  | none => rfl
  | some ix => exact if_neg (by simp only [h ix hs, decide_false, Bool.false_and, Bool.false_eq_true, not_false_eq_true])

/-- What KERNEL_QUERY tells: STATE and CYCLES, or NONE and 0. -/
def sessionReport (t : State) (r : Req) : List Byte :=
  match namedSession t r with
  | some ix => beBytes 4 (kStateWord (sessGet t ix)) ++ beBytes 8 (sessGet t ix).cycles
  | none => zeros 12

/-- What KERNEL_ABORT leaves. -/
def sessionAborted (t : State) (r : Req) : State :=
  match namedSession t r with
  | some ix => endSess t ix 3 none 0
  | none => t

theorem kernelMsg_runs {s t : State} {op : Byte} {f : RxFrame} {r : Req} (h0 : receive s op f = .go t r) (hc : Checked t r)
    (ho : opKnown op = true) (hl : r.length = 4) (hw : r.payload.length = 4) : kernelMsg s op f =
      ackNow (if op = 0x61 then answer t r stOk (sessionReport t r) else answer (sessionAborted t r) r stOk []) r.flow := by
  obtain ⟨hmis, hperm, -, hpitch⟩ := hc
  unfold kernelMsg
  rw [withRequest_go h0, checks_go (by rw [receive_anyOpcode h0, ho]) hmis hperm (by rw [hl, hw]; rfl) rfl hpitch]
  unfold sessionReport sessionAborted namedSession
  dsimp only
  cases (sessFind t (beAt r.payload 0 2)).filter _ <;> rfl

section
variable {s t : State} {f : RxFrame} {r : Req}

theorem exec_kernelQuery (h0 : receive s 0x61 f = .go t r) (hc : Checked t r) (hl : r.length = 4) (hw : r.payload.length = 4) :
    exec (.kernelQuery f) s = .next (ackNow (answer t r stOk (sessionReport t r)) r.flow) :=
  congrArg Host.Outcome.next (kernelMsg_runs h0 hc (by decide) hl hw)

theorem exec_kernelAbort (h0 : receive s 0x62 f = .go t r) (hc : Checked t r) (hl : r.length = 4) (hw : r.payload.length = 4) :
    exec (.kernelAbort f) s = .next (ackNow (answer (sessionAborted t r) r stOk []) r.flow) :=
  congrArg Host.Outcome.next (kernelMsg_runs h0 hc (by decide) hl hw)

end

/-! ## The events of a session (R213, R284, R291, R292, R294, R305) -/

theorem onSess_runs {s : State} {number : BitVec 16} {ix : Nat} (h : sessFind s number.toNat = some ix) (h0 : number ≠ 0)
    (g : State → Nat → State) : onSess s number g = g s ix := by
  unfold onSess
  rw [h]
  exact if_neg h0

section
variable {s : State} {ix : Nat}

theorem dequeue_enters (hq : (sessGet s ix).state = .queued) (hin : ix ∈ s.grd.queue) (hfree : coresFree s (sessGet s ix) = true)
    (hfirst : ∀ x ∈ s.grd.queue.takeWhile (fun x => x ≠ ix), ∀ c ∈ (sessGet s x).cores, c ∉ (sessGet s ix).cores) :
    dequeue s ix = enterLoading (grdMod s (fun g => { g with queue := g.queue.filter (fun x => x ≠ ix) })) ix := by
  unfold dequeue
  refine if_pos ⟨hq, hin, hfree, ?_⟩
  simpa using hfirst

theorem dequeue_notQueued (hq : (sessGet s ix).state ≠ .queued) : dequeue s ix = s := by
  unfold dequeue
  exact if_neg fun h => hq h.1

/-! ### Loads -/

/-- The reads of a load end well at `u`, with the object's bytes (log 26). -/
def ObjectRead (s : State) (k : KSess) (u : State) (bs : List Byte) : Prop :=
  ∃ h hd, objRead s k.pitch.toNat k.object 256 = (h, .inr hd) ∧ objRead h k.pitch.toNat k.object (objTotal hd) = (u, .inr bs)

/-- The record of a session whose load ended well, with its routes. -/
def runningSess (k : KSess) (rs : List Route) : KSess :=
  { k with state := .running, windows := k.pendingWindows, pendingWindows := [], routes := rs, req := none }

/-- RUNNING (R292 step 3): windows, record, and every core at its code, HOLD and registers. -/
def sessionStarted (u : State) (ix : Nat) (k : KSess) (bs : List Byte) (rs : List Route) : State :=
  bump ((k.cores.zip (upto k.cores.length)).foldl (fun v e => corePut v e.1 (coreInit k bs e.2))
    (setSessWindows (sessPut (clearStageWindows u k) ix (runningSess k rs)) (runningSess k rs) (runningSess k rs).windows))
    .grdLaunch 0 0 k.pitch.toNat

section
variable (hl : (sessGet s ix).state = .loading)
include hl

theorem loadDone_unread {h : State} {st : Nat}
    (hr : objRead s (sessGet s ix).pitch.toNat (sessGet s ix).object 256 = (h, .inl st)) : loadDone s ix = dropLaunch h ix st := by
  unfold loadDone
  simp only [hl, hr, ne_eq, not_true_eq_false, if_false]

theorem loadFail_unread {h : State} {st : Nat}
    (hr : objRead s (sessGet s ix).pitch.toNat (sessGet s ix).object 256 = (h, .inl st)) : loadFail s ix = dropLaunch h ix st := by
  unfold loadFail
  simp only [hl, hr, ne_eq, not_true_eq_false, if_false]

section
variable {u : State} {bs : List Byte} (ho : ObjectRead s (sessGet s ix) u bs)
include ho

theorem loadDone_notAllowed (ha : allowOk u (sessGet s ix).pitch.toNat bs = false) :
    loadDone s ix = dropLaunch (bump u .fumAllowRefused 0 0 (sessGet s ix).pitch.toNat) ix stDenied := by
  obtain ⟨h, hd, hr, hr'⟩ := ho
  unfold loadDone
  simp only [hl, hr, hr', ha, ne_eq, not_true_eq_false, Bool.not_false, if_true, if_false]

theorem loadDone_runs {rs : List Route} {r : Req} (ha : allowOk u (sessGet s ix).pitch.toNat bs = true) (hh : objHeadOk u bs = true)
    (hw : leAt bs 8 1 = (sessGet s ix).width) (hv : leAt bs 9 1 = (sessGet s ix).height)
    (hsec : objSectionsOk bs ((sessGet s ix).width * (sessGet s ix).height) = true)
    (hrs : objRoutes bs (sessGet s ix).width (sessGet s ix).height = some rs) (hreq : (sessGet s ix).req = some r) :
    loadDone s ix = answer (sessionStarted u ix (sessGet s ix) bs rs) r stOk (beBytes 2 (sessGet s ix).number ++ [0, 0]) := by
  obtain ⟨h, hd, hr, hr'⟩ := ho
  unfold loadDone
  simp only [hl, hr, hr', ha, hh, hw, hv, hsec, hrs, hreq, ne_eq, not_true_eq_false, Bool.not_true, Bool.false_eq_true, or_self, if_false]
  rfl

end

end

/-! ### Ends -/

/-- Has a stage command of the session not completed? -/
def stageBusy (u : State) (k : KSess) : Bool :=
  (sessQuads k).any (fun q => (quadGet u q).queue.any (fun c => decide (c.session = k.number)))

/-- A session whose cores have all halted, with nothing left to issue or complete, is DONE. -/
theorem sessDone_ends {u : State} (hu : openGates (issueStage s ix) ix = u) (hr : (sessGet u ix).state = .running)
    (hc : ∀ c ∈ (sessGet u ix).cores, (coreGet u c).halted.isSome = true ∧ (coreGet u c).gate = none)
    (hi : (sessGet u ix).issuing = []) (hb : stageBusy u (sessGet u ix) = false) :
    sessDone s ix = endSess (sessPut u ix { sessGet u ix with
      cycles := (sessGet u ix).cycles + b2n (sessGet u ix).inCycle, inCycle := false }) ix 0 none 0 := by
  have hall : (sessGet u ix).cores.all (fun c => (coreGet u c).halted.isSome && (coreGet u c).gate.isNone) = true := by
    refine List.all_eq_true.2 fun c h => ?_
    obtain ⟨hhalt, hgate⟩ := hc c h
    rw [hhalt, hgate]
    rfl
  unfold stageBusy at hb
  unfold sessDone
  simp only [hu, hr, hall, hi, hb, List.isEmpty_nil, Bool.not_false, and_self, if_true]

theorem sessDeadline_waiting {at_ : Nat} (hd : (sessGet s ix).deadline = some at_)
    (hw : (sessGet s ix).state = .queued ∨ (sessGet s ix).state = .loading) :
    sessDeadline s ix = dropLaunch (nowTo s at_) ix stSessFailed := by
  unfold sessDeadline
  rcases hw with hw | hw <;> simp only [hd, hw]

theorem sessDeadline_running {at_ : Nat} (hd : (sessGet s ix).deadline = some at_) (hr : (sessGet s ix).state = .running) :
    sessDeadline s ix = endSess (nowTo s at_) ix 1 none 0 := by
  unfold sessDeadline
  simp only [hd, hr]

theorem sessCleared_clears (he : (sessGet s ix).state = .done ∨ (sessGet s ix).state = .failed) (hc : (sessGet s ix).cleared = false) :
    sessCleared s ix = clearSess s ix := by
  unfold sessCleared
  exact if_pos ⟨he, by rw [hc]; rfl⟩

theorem sessCleared_again (hc : (sessGet s ix).cleared = true) : sessCleared s ix = s := by
  unfold sessCleared
  exact if_neg (by simp only [hc, Bool.not_true, Bool.false_eq_true, and_false, not_false_eq_true])

theorem sessExpire_frees (he : (sessGet s ix).state = .done ∨ (sessGet s ix).state = .failed) (hc : (sessGet s ix).cleared = true) :
    sessExpire s ix = grdMod (nowTo s ((sessGet s ix).ended + 1000000000)) (fun g => { g with sess := tdel g.sess ix }) := by
  unfold sessExpire
  rw [sessCleared_again hc]
  exact if_pos he

end

/-- Settles O25: a launch by the orders of R290 and by what becomes of its record, a message by the session that it names, and each
event by the case of its function that the session's state selects. An object is read at its launch and again at the end of its load
(log 26). -/
theorem kernelSessions : Obligations.KernelSessions := by
  unfold Obligations.KernelSessions
  refine ⟨⟨?_, ?_⟩, ?_⟩
  · intro s t f r h0 hmis hperm hl hw hpitch n object args quads lf refused flagsFit aligned
    have g : LaunchRequest s t f r := ⟨h0, hmis, hperm, hl, hw, hpitch⟩
    refine ⟨fun hf => congrArg _ (g.badFlags hf), fun hf ha => congrArg _ (g.misaligned hf ha), ?_⟩
    intro aps rc h hd0 h1 hd a ab k hf ha hhead haps hrc hplace hr0 htotal hr1 hab hk ix hix num u
    have hmapped : bitOf object 63 = true ∨ ∃ hp, masterRange t n (bitsOf object 0 57) 256 = .inr hp := by
      cases hlib : object.getLsbD 63 with
      | true => exact Or.inl hlib
      | false => exact Or.inr (hhead hlib)
    have b : LaunchReads t r rc h1 a hd ab := ⟨hmapped, hrc, hplace, ⟨h, hd0, hr0, htotal, hr1⟩, aps, haps, hab⟩
    have run : ∀ {w : State}, launchExec t r = w → exec (.kernelLaunch f) s = .next (ackNow w r.flow) :=
      fun e => e ▸ congrArg _ (g.runs hf ha)
    refine ⟨fun hfree => run ?_, fun hheld hq hroom => run ?_, fun hheld hno => run ?_⟩
    · exact (b.recorded hk hix).trans ((if_neg (by simp [hfree])).trans (if_pos hfree))
    · refine (b.recorded hk hix).trans ((if_neg ?_).trans (if_neg (by simp [hheld])))
      rintro ⟨-, hn | hn⟩
      · exact absurd (hq.symm.trans hn) (by decide)
      · exact absurd hroom (Nat.not_lt.2 hn)
    · exact (b.recorded hk hix).trans (if_pos ⟨hheld, hno⟩)
  · intro s t op f r h0 hc hl hw number done
    refine ⟨fun ix hs hp hn => ?_, fun hs => ?_⟩
    · have hnamed := namedSession_own hs hp hn
      constructor <;> rintro rfl
      · rw [exec_kernelQuery h0 hc hl hw, sessionReport, hnamed]
      · rw [exec_kernelAbort h0 hc hl hw, sessionAborted, hnamed]
    · have hnamed := namedSession_none hs
      constructor <;> rintro rfl
      · rw [exec_kernelQuery h0 hc hl hw, sessionReport, hnamed]
      · rw [exec_kernelAbort h0 hc hl hw, sessionAborted, hnamed]
  · intro s session ix hs h0 k n earlier mine
    have run : ∀ {g : State → Nat → State} {w : State}, g s ix = w →
        Host.Outcome.next (φ := Fault) (ρ := Refusal) (onSess s session g) = .next w :=
      fun e => congrArg _ ((onSess_runs hs h0 _).trans e)
    refine ⟨fun hq hin hfree hfirst => run (dequeue_enters hq hin hfree hfirst), fun hq => run (dequeue_notQueued hq), ?_, ?_, ?_, ?_, ?_,
      fun he hc => run (sessCleared_clears he hc), fun he hc => run (sessExpire_frees he hc)⟩
    · intro h hd u bs rs r hl hr hr' ha hh hw hv hsec hrs hreq k1 w
      exact run (loadDone_runs hl ⟨h, hd, hr, hr'⟩ ha hh hw hv hsec hrs hreq)
    · intro h hd u bs hl hr hr' ha
      exact run (loadDone_notAllowed hl ⟨h, hd, hr, hr'⟩ ha)
    · exact fun h st hl hr => ⟨run (loadFail_unread hl hr), run (loadDone_unread hl hr)⟩
    · exact fun u hu hr hc hi hb => run (sessDone_ends hu hr hc hi hb)
    · exact fun at_ hd => ⟨fun hw => run (sessDeadline_waiting hd hw), fun hr => run (sessDeadline_running hd hr)⟩

end Sys2Proof.Machine
end

section
/-! PROOFS. Attestation, key delivery, cocoons and the extension of MR5 (R201, R202, R204, R205, R208, R211, R212). -/
namespace Sys2Proof.Machine

/-! ## Trust requests that meet their checks -/

/-- A trust request of `len` bytes that meets checks 1 to 13 (R63). -/
structure TrustRequest (s t : State) (op : Byte) (f : RxFrame) (r : Req) (len : Nat) : Prop where
  received : receive s op f = .go t r
  flagsFit : flagMisuse t r = false
  allowed : permitted t r = true
  serving : pitchCheck t r = none
  length : r.length.toNat = len
  whole : r.payload.length = len

theorem TrustRequest.runs {s t : State} {op : Byte} {f : RxFrame} {r : Req} {len : Nat} (g : TrustRequest s t op f r len)
    (ho : opKnown op = true) (body : State → Req → State) : trust s op f len body = ackNow (body t r) r.flow :=
  trust_runs g.received g.flagsFit g.allowed g.serving g.length g.whole ho

section
variable {s t : State} {f : RxFrame} {r : Req}

theorem exec_attestQuote (g : TrustRequest s t 0x78 f r 64) :
    exec (.attestQuote f) s = .next (ackNow (quoteStart t r) r.flow) :=
  congrArg Host.Outcome.next (g.runs (by decide) quoteStart)

theorem exec_keyDeliver (g : TrustRequest s t 0x79 f r 1024) :
    exec (.keyDeliver f) s = .next (ackNow (keyDeliver t r) r.flow) :=
  congrArg Host.Outcome.next (g.runs (by decide) keyDeliver)

theorem exec_cocoonLoad (g : TrustRequest s t 0x7A f r 48) :
    exec (.cocoonLoad f) s = .next (ackNow (cocoonStart t r) r.flow) :=
  congrArg Host.Outcome.next (g.runs (by decide) cocoonStart)

theorem exec_certGet (g : TrustRequest s t 0x7B f r 4) : exec (.certGet f) s = .next (ackNow (certGet t r) r.flow) :=
  congrArg Host.Outcome.next (g.runs (by decide) certGet)

end

/-! ## Quotes (R204 to R206) -/

/-- The quote of a request waits for its signature, with the ephemeral key that it binds. -/
def quoteQueued (t : State) (r : Req) (e : Option (BitVec 32 × Nat)) : State :=
  fumMod (markWindow t r) (fun x => { x with quotes := x.quotes ++ [{ req := r, eph := e }] })

/-- The pitch takes the first key of the pool, `e`, and leaves the rest. -/
def ephTaken (t : State) (n : Nat) (e : BitVec 32 × Nat) (rest : List (BitVec 32 × Nat)) : State :=
  pkPut (fumMod t (fun x => { x with ephPool := rest })) n { pkGet t n with eph := some e }

section
variable {t : State} {r : Req}

theorem quoteStart_smallSegs (hs : smallSegs t r = true) : quoteStart t r = answer t r stDenied [] := by
  unfold quoteStart
  exact if_pos hs

section
variable (hs : smallSegs t r = false)
include hs

theorem quoteStart_noCocoon (hc : pCocoon t r.pitch.toNat = false) : quoteStart t r = quoteQueued t r none := by
  unfold quoteStart
  simp only [hs, hc, Bool.false_eq_true, Bool.not_false, if_true, if_false]
  rfl

section
variable (hc : pCocoon t r.pitch.toNat = true)
include hc

theorem quoteStart_bound {e : BitVec 32 × Nat} (he : (pkGet t r.pitch.toNat).eph = some e) :
    quoteStart t r = quoteQueued t r (some e) := by
  unfold quoteStart
  simp only [hs, hc, he, Bool.false_eq_true, Bool.not_true, if_false]
  rfl

theorem quoteStart_binds {e : BitVec 32 × Nat} {rest : List (BitVec 32 × Nat)} (he : (pkGet t r.pitch.toNat).eph = none)
    (hp : t.fum.ephPool = e :: rest) : quoteStart t r = quoteQueued (ephTaken t r.pitch.toNat e rest) r (some e) := by
  unfold quoteStart
  simp only [hs, hc, he, hp, Bool.false_eq_true, Bool.not_true, if_false]
  rfl

theorem quoteStart_poolEmpty (he : (pkGet t r.pitch.toNat).eph = none) (hp : t.fum.ephPool = []) :
    quoteStart t r = answer (bump t .fumEphEmpty 0 0 r.pitch.toNat) r stRetry [] := by
  unfold quoteStart
  simp only [hs, hc, he, hp, Bool.false_eq_true, Bool.not_true, if_false]

end

end

end

/-- Is a quote that of a request: of its flow, with its number? -/
def quoteOf (flow : FlowId) (seq : BitVec 24) (q : Quote) : Bool := decide (q.req.flow = flow) && decide (q.req.seq = seq)

/-- The quote of a request no longer waits. -/
def quoteTaken (s : State) (flow : FlowId) (seq : BitVec 24) : State :=
  fumMod s (fun x => { x with quotes := x.quotes.filter (fun q => !quoteOf flow seq q) })

@[simp] theorem trkFind_quoteTaken (s : State) (a : FlowId) (b : BitVec 24) (flow : FlowId) (seq : BitVec 24) :
    trkFind (quoteTaken s a b) flow seq = trkFind s flow seq := rfl

section
variable {s : State} {flow : FlowId} {seq : BitVec 24} {q : Quote} (hq : s.fum.quotes.find? (quoteOf flow seq) = some q)
include hq

theorem quoteSigned_found : quoteSigned s flow seq =
    if (trkFind (quoteTaken s flow seq) flow seq).isNone then quoteTaken s flow seq
    else
      let b := quoteBytes (quoteTaken s flow seq) q
      respond (bump (quoteTaken s flow seq) .fumQuote 0 0 q.req.pitch.toNat) q.req stOk (b ++ beBytes 512 (Config.rsaSign b).toNat) := by
  unfold quoteOf at hq
  unfold quoteSigned
  simp only [hq]
  rfl

theorem quoteSigned_untracked (ht : trkFind s flow seq = none) : quoteSigned s flow seq = quoteTaken s flow seq := by
  rw [quoteSigned_found hq, trkFind_quoteTaken, ht]
  rfl

theorem quoteSigned_tracked {x : Tracker} (ht : trkFind s flow seq = some x) :
    let u := quoteTaken s flow seq
    quoteSigned s flow seq = respond (bump u .fumQuote 0 0 q.req.pitch.toNat) q.req stOk
      (quoteBytes u q ++ beBytes 512 (Config.rsaSign (quoteBytes u q)).toNat) := by
  rw [quoteSigned_found hq, trkFind_quoteTaken, ht]
  rfl

end

theorem ephGenerated_joins {s : State} (h : s.fum.ephPool.length < 4) : ephGenerated s =
    fumMod { s with freeCtr := s.freeCtr + 1 } (fun x =>
      { x with ephPool := x.ephPool ++ [(x.ephNext, s.freeCtr)], ephNext := x.ephNext + 1 }) := if_neg (Nat.not_le.2 h)

theorem ephGenerated_full {s : State} (h : 4 ≤ s.fum.ephPool.length) : ephGenerated s = s := if_pos h

/-! ## KEY_DELIVER (R208) -/

/-- A delivery that is refused leaves the ephemeral key unconsumed, and counts. -/
def keyRefused (t : State) (r : Req) : State := answer (bump t .fumUnwrapFail 0 0 r.pitch.toNat) r stDenied []

section
variable {t : State} {r : Req}

theorem keyDeliver_noKey (he : (pkGet t r.pitch.toNat).eph = none) : keyDeliver t r = keyRefused t r := by
  unfold keyDeliver
  simp only [he]
  rfl

section
variable {e : BitVec 32 × Nat} (he : (pkGet t r.pitch.toNat).eph = some e)
include he

theorem keyDeliver_noCocoon (hc : pCocoon t r.pitch.toNat = false) : keyDeliver t r = keyRefused t r := by
  unfold keyDeliver
  simp only [he, hc, Bool.not_false, true_or, if_true]
  rfl

theorem keyDeliver_notUnwrapped (hu : unwrapKey r.pitch.toNat e 1 (r.payload.take 512) = none) : keyDeliver t r = keyRefused t r := by
  unfold keyDeliver
  simp only [he, hu]
  exact ite_self _

theorem keyDeliver_replaces {c x : BitVec 256} (hc : pCocoon t r.pitch.toNat = true) (hl : (pGet t r.pitch.toNat).life = .up)
    (hn : ∀ y ∈ (pkGet t r.pitch.toNat).cocoons, y.state ≠ .loading)
    (h1 : unwrapKey r.pitch.toNat e 1 (r.payload.take 512) = some c) (h2 : unwrapKey r.pitch.toNat e 2 (r.payload.drop 512) = some x) :
    keyDeliver t r = answer (pkPut t r.pitch.toNat { pkGet t r.pitch.toNat with
      eph := none, content := some c, session := some x, owner := r.context, sealExec := 0 }) r stOk [] := by
  have hidle : (pkGet t r.pitch.toNat).cocoons.any (fun y => decide (y.state = .loading)) = false :=
    List.any_eq_false.2 fun y hy => by simp only [hn y hy, decide_false, Bool.false_eq_true, not_false_eq_true]
  unfold keyDeliver
  simp only [he, hc, hl, hidle, h1, h2, Bool.not_true, Bool.false_eq_true, ne_eq, not_true_eq_false, or_self, if_false]

end

end

/-! ## COCOON_LOAD (R211, R212) -/

section
variable {t : State} {r : Req}

theorem cocoonStart_refused {st : Nat} (h : cocoonCheck t r (readDesc r.payload 0) (readDesc r.payload 24) = .inl st) :
    cocoonStart t r = answer t r st [] := by
  unfold cocoonStart
  simp only [h]

/-- The cocoon that an accepted load of `plain` bytes leaves LOADING, with the digests that the header `h` allows. -/
def cocoonLoading (r : Req) (plain : Nat) (h : List Byte) : Cocoon :=
  { base := (readDesc r.payload 24).base, len := plain, state := .loading, blob := (readDesc r.payload 0).base, req := r
    allow := (upto (min 4 (beAt h 24 1))).map (fun i => BitVec.ofNat 512 (beAt h (64 + 64 * i) 64)) }

theorem cocoonStart_loads {plain : Nat} {h : List Byte}
    (hc : cocoonCheck t r (readDesc r.payload 0) (readDesc r.payload 24) = .inr plain)
    (hh : blobHeader t r.pitch.toNat (readDesc r.payload 0).base = some h) :
    let n := r.pitch.toNat
    let c := readDesc r.payload 24
    let kept := (pkGet t n).cocoons.filter (fun x =>
      !(decide (x.state = .failed) && decide (x.base = c.base) && decide (x.len = plain)))
    let u := fumWindows (pkPut (markWindow t r) n { pkGet t n with cocoons := kept ++ [cocoonLoading r plain h] })
    cocoonStart t r = ptChanged (setPageAttrs u n c.base plain true true false) n c.base plain := by
  unfold cocoonStart
  simp only [hc, hh, Option.getD_some]
  rfl

end

/-- The running load of a pitch has ended. -/
def loadEnded (s : State) (n : Nat) (st : CocoonState) : State :=
  fumWindows (pkPut s n { pkGet s n with
    cocoons := (pkGet s n).cocoons.map (fun x => if x.state = .loading then { x with state := st } else x) })

/-- A load that fails, answered with its status. -/
def loadFailed (s : State) (n : Nat) (c : Cocoon) (status : Nat) : State :=
  respond (bump (loadEnded s n .failed) .fumCocoonFail 0 0 n) c.req status []

section
variable {s : State} {n : Nat} {c : Cocoon} {key : BitVec 256}
  (hc : (pkGet s n).cocoons.find? (fun c => c.state = .loading) = some c) (hk : (pkGet s n).content = some key)
include hc hk

theorem cocoonDone_notMapped (hm : mapped s n c.blob (384 + c.len) = none ∨ mapped s n c.base c.len = none) :
    cocoonDone s n = loadFailed s n c stNotMapped := by
  unfold cocoonDone
  rcases hm with hm | hm
  · simp only [hc, hk, hm, loadFailed, loadEnded]
  · cases hb : mapped s n c.blob (384 + c.len) <;> simp only [hc, hk, hb, hm, loadFailed, loadEnded]

section
variable {bp cp : List Piece} (hb : mapped s n c.blob (384 + c.len) = some bp) (hp : mapped s n c.base c.len = some cp)
include hb hp

theorem cocoonDone_sick {l : Nat} {v : LineVerdict} (hs : firstSick s bp = some (l, v)) :
    cocoonDone s n = loadFailed (badLine s l n v) n c (verdictStatus v) := by
  unfold cocoonDone
  simp only [hc, hk, hb, hp, hs]
  rfl

/-- With every line good, the plaintext is written and the tag decides how the load ends. -/
theorem cocoonDone_writes (hs : firstSick s bp = none) :
    let blob := piecesBytes s bp
    let ct := (blob.drop 320).take c.len
    let w := writePieces s n (pkGet s n).owner cp ((Config.gcmPlain key (blob.take 12) ct ++ zeros c.len).take c.len)
    cocoonDone s n = if Config.gcmOk key (blob.take 12) (blob.take 320) ct ((blob.drop (320 + c.len)).take 16) = true
      then respond (bump (loadEnded w n .ready) .fumCocoonOk 0 0 n) c.req stOk (beBytes 8 c.len)
      else loadFailed w n c stIntegrity := by
  unfold cocoonDone
  simp only [hc, hk, hb, hp, hs]
  rfl

end

end

/-! ## Measurement registers (R202) -/

section
variable {s : State} {n : Nat} (d : List Byte)

theorem mrGet_mrExtend_same (h : n < s.fum.mr.length) :
    mrGet (mrExtend s n d) n = Config.sha512 (beBytes 64 (mrGet s n).toNat ++ d) := by
  change ((lset s.fum.mr n _)[n]?).getD 0 = _
  rw [lset_getElem, if_pos ⟨rfl, h⟩]
  rfl

theorem mrGet_mrExtend_other {m : Nat} (h : m ≠ n) : mrGet (mrExtend s n d) m = mrGet s m := by
  change ((lset s.fum.mr n _)[m]?).getD 0 = _
  rw [lset_getElem, if_neg fun e => h e.1]
  rfl

end

/-- The bytes of FUM_MR5_DATA. -/
abbrev mr5Bytes (s : State) : List Byte := s.fum.mr5data.flatMap (fun w => leBytes 4 w.toNat)

theorem mrGet_mr5Go (s : State) (n : Nat) : mrGet (mr5Go s) n = mrGet (mrExtend s 5 (mr5Bytes s)) n := rfl

/-- Settles O33: a quote, a delivery and a load by what their own checks find, the end of a load by its ranges, lines and tag, and
MR5 by `mrExtend`. NOT_MAPPED and a bad line at the end of a load rest on log 56, the oldest key of the pool on log 57. -/
theorem trustOperations : Obligations.TrustOperations := by
  unfold Obligations.TrustOperations
  refine ⟨⟨?_, ?_, fun s => ⟨fun h => congrArg _ (ephGenerated_joins h), fun h => congrArg _ (ephGenerated_full h)⟩, ?_⟩, ?_⟩
  · intro s t op f r len h0 hf ha hs hl hw n k done quoted
    refine ⟨?_, ?_, ?_, ?_⟩
    · rintro rfl rfl
      rw [exec_attestQuote ⟨h0, hf, ha, hs, hl, hw⟩]
      exact ⟨fun h => congrArg done (quoteStart_smallSegs h), fun h hc => congrArg done (quoteStart_noCocoon h hc),
        fun e h hc he => congrArg done (quoteStart_bound h hc he),
        fun e es h hc he hp => congrArg done (quoteStart_binds h hc he hp),
        fun h hc he hp => congrArg done (quoteStart_poolEmpty h hc he hp)⟩
    · rintro rfl rfl
      rw [exec_keyDeliver ⟨h0, hf, ha, hs, hl, hw⟩]
      refine ⟨fun e c x he hc hup hn h1 h2 => congrArg done (keyDeliver_replaces he hc hup hn h1 h2), fun h => congrArg done ?_⟩
      rcases h with he | hc | ⟨e, he, hu⟩
      · exact keyDeliver_noKey he
      · cases he : k.eph with
        | none => exact keyDeliver_noKey he
        | some e => exact keyDeliver_noCocoon he hc
      · exact keyDeliver_notUnwrapped he hu
    · rintro rfl rfl
      rw [exec_cocoonLoad ⟨h0, hf, ha, hs, hl, hw⟩]
      exact ⟨fun st h => congrArg done (cocoonStart_refused h), fun plain h hc hh => congrArg done (cocoonStart_loads hc hh)⟩
    · rintro rfl rfl
      exact exec_certGet ⟨h0, hf, ha, hs, hl, hw⟩
  · intro s flow seq q hq u
    exact ⟨fun ht => congrArg _ (quoteSigned_untracked hq ht), fun x ht => congrArg _ (quoteSigned_tracked hq ht)⟩
  · intro s pitch c key hc hk n ended fails
    refine ⟨fun hm => congrArg _ (cocoonDone_notMapped hc hk hm), ?_⟩
    intro bp cp hb hp blob ct w good
    refine ⟨?_, ?_, ?_⟩
    · exact fun l v hs => congrArg _ (cocoonDone_sick hc hk hb hp hs)
    · exact fun hs hg => congrArg _ ((cocoonDone_writes hc hk hb hp hs).trans (if_pos hg))
    · exact fun hs hg => congrArg _ ((cocoonDone_writes hc hk hb hp hs).trans (if_neg (Bool.eq_false_iff.1 hg)))
  · intro s src
    refine ⟨fun h => congrArg _ (asOperator_scoped h), fun h ho hb hl =>
      ⟨mr5Go s, congrArg _ (asOperator_open h ho hb), ?_, ?_, rfl, rfl⟩⟩
    · exact (mrGet_mr5Go s 5).trans (mrGet_mrExtend_same _ (by rw [hl]; decide))
    · exact fun n hn => (mrGet_mr5Go s n).trans (mrGet_mrExtend_other _ hn)

end Sys2Proof.Machine
end

section
/-! PROOFS. The exact accumulator of a collective (R265). -/
namespace Sys2Proof.Machine

theorem accAdd_right_comm (a b c : ExAcc) : accAdd (accAdd a b) c = accAdd (accAdd a c) b := by
  rw [accAdd_assoc, accAdd_comm b c, accAdd_assoc]

/-- The encodings of an accumulator from here on are those of the special values and of negative sums. -/
abbrev accHalf (t : Nat) : Nat := 2 ^ (8 * accBytes t - 1)

theorem accBytes_pos (t : Nat) : 0 < accBytes t := by
  unfold accBytes
  split <;> decide

theorem two_pow_accWidth (t : Nat) : (2 : Int) ^ (8 * accBytes t) = 2 * accHalf t := by
  have hw : 8 * accBytes t = 8 * accBytes t - 1 + 1 := by
    have := accBytes_pos t
    omega
  rw [hw, pow_succ, mul_comm, Nat.cast_pow, Nat.cast_ofNat]

theorem accOfBits_below {t x : Nat} (h : x < accHalf t) : accOfBits t x = .fin x := by
  unfold accOfBits
  simp only [if_neg (show x ≠ accHalf t + 1 by omega), if_neg (show x ≠ accHalf t + 2 by omega),
    if_neg (show x ≠ accHalf t + 3 by omega), if_neg (Nat.not_le.2 h)]

theorem accOfBits_above {t x : Nat} (h : accHalf t + 3 < x) : accOfBits t x = .fin (x - 2 * accHalf t) := by
  unfold accOfBits
  simp only [if_neg (show x ≠ accHalf t + 1 by omega), if_neg (show x ≠ accHalf t + 2 by omega),
    if_neg (show x ≠ accHalf t + 3 by omega), if_pos (show accHalf t ≤ x by omega), two_pow_accWidth]

theorem accBits_fin (t : Nat) (v : Int) : accBits t (.fin v) = (v % (2 * accHalf t)).toNat := by
  rw [← two_pow_accWidth]
  rfl

/-- Sums that the encoding holds: beside the most negative values, which stand for the special ones. -/
theorem accOfBits_accBits_fin {t : Nat} {v : Int} (hl : -(accHalf t : Int) + 3 < v) (hu : v < accHalf t) :
    accOfBits t (accBits t (.fin v)) = .fin v := by
  rw [accBits_fin]
  rcases Int.lt_or_le v 0 with hv | hv
  · have hm : v % (2 * accHalf t) = v + 2 * accHalf t := by
      rw [← Int.add_emod_right, Int.emod_eq_of_lt] <;> omega
    rw [hm, accOfBits_above (by omega)]
    congr
    omega
  · rw [Int.emod_eq_of_lt hv (by omega), accOfBits_below (by omega), Int.toNat_of_nonneg hv]

theorem accOfBits_accBits_inf (t : Nat) (neg : Bool) : accOfBits t (accBits t (.inf neg)) = .inf neg := by
  cases neg <;> simp [accBits, accOfBits]

theorem accOfBits_accBits_nan (t : Nat) : accOfBits t (accBits t .nan) = .nan := by
  simp [accBits, accOfBits]

/-- Settles O23: accumulation is commutative and associative, and an encoding of the upper half stands for a special value or
a negative sum. -/
theorem exactSumOrderFree : Obligations.ExactSumOrderFree := by
  unfold Obligations.ExactSumOrderFree
  refine ⟨fun a xs ys h => ?_, fun t v hl hu => ?_, accOfBits_accBits_inf, accOfBits_accBits_nan⟩
  · exact h.foldl_eq' (fun x _ y _ z => accAdd_right_comm z x y) a
  · exact accOfBits_accBits_fin (by exact_mod_cast hl) (by exact_mod_cast hu)

end Sys2Proof.Machine
end

section
/-! PROOFS. The events of a collective's record (R260, R266, R271, R273, R274). -/
namespace Sys2Proof.Machine

theorem collOpen_iff (r : CollRec) : collOpen r = true ↔ r.state = .waiting ∨ r.state = .running := decide_eq_true_iff

theorem collOpen_ended {r : CollRec} (h : r.state = .done ∨ r.state = .failed) : collOpen r = false := by
  unfold collOpen
  rcases h with h | h <;> rw [h] <;> rfl

theorem onRec_runs {s : State} {pitch : BitVec 8} {id : BitVec 24} {ix : Nat} (h : recFind s pitch.toNat id.toNat = some ix)
    (g : State → Nat → State) : onRec s pitch id g = g s ix := by
  unfold onRec
  rw [h]

section
variable {s : State} {ix : Nat} {r : CollRec} (hr : tfind s.clx.recs ix = some r)
include hr

/-! ## START and the slots of the pace (R260, R271) -/

theorem collStart_runs {at_ : Nat} (hw : r.state = .waiting) (hs : r.desc.start = some at_) :
    collStart s ix = stepAll (recPut (cd10To s at_) ix { r with state := .running }) ix := by
  unfold collStart
  simp only [hr, hw, hs]

theorem collStart_idle (h : r.state ≠ .waiting ∨ r.desc.start = none) : collStart s ix = s := by
  unfold collStart
  simp only [hr]
  split
  · next hw hs => exact h.elim (absurd hw) fun hn => by rw [hn] at hs; cases hs
  · rfl

theorem collPace_steps {at_ : Nat} (k : Nat) (hrun : r.state = .running) (hs : r.desc.start = some at_) :
    collPace s ix k = chunkStep (cd10To s (at_ + k * r.desc.period)) ix k := by
  unfold collPace
  simp only [hr, hrun, hs]

/-! ## Finished chunks (R266) -/

/-- The record once its chunk `k` is counted. -/
def chunkCounted (r : CollRec) (k : Nat) : CollRec :=
  { r with done := r.done + 1, chunks := tins r.chunks k { chunkGet r k with finished := true } }

/-- A running record holds a chunk that is finished and not counted yet. -/
structure ChunkFinishes (r : CollRec) (k : Nat) : Prop where
  running : r.state = .running
  inRange : k < chunkCount r.desc
  uncounted : (chunkGet r k).finished = false
  finished : chunkDone r.desc (chunkGet r k) = true

theorem collFinished_counts {k : Nat} (h : ChunkFinishes r k) :
    let u := bump (recPut s ix (chunkCounted r k)) .clxChunks 0 0 r.pitch.toNat
    let ended := { chunkCounted r k with state := .done, ended := s.now }
    collFinished s ix k = if r.done + 1 = chunkCount r.desc then
      answerCloses (traceColl (bump (recPut u ix ended) .clxDone 0 0 r.pitch.toNat) ended) ix else u := by
  obtain ⟨hrun, hk, hnew, hdone⟩ := h
  unfold collFinished
  simp only [hr]
  exact if_pos ⟨hrun, hk, by rw [hnew]; rfl, hdone⟩

/-! ## Deadline and expiry (R260, R271, R273, R274) -/

/-- The instant of a record's deadline: from its START, or from its acceptance where it has none. -/
def deadlineReached (s : State) (r : CollRec) (dl : Nat) : State :=
  match r.desc.start with
  | some at_ => cd10To s (at_ + dl)
  | none => nowTo s (r.accepted + dl)

theorem collDeadline_fails {dl : Nat} (hd : r.desc.deadline = some dl) (ho : collOpen r = true) :
    collDeadline s ix = failRec ((upto (chunkCount r.desc)).foldl (fun w k => collFinished w ix k) (deadlineReached s r dl)) ix 1 none := by
  unfold collDeadline
  simp only [hr, hd, ho, Bool.not_true, Bool.false_eq_true, if_false]
  rfl

theorem collExpire_frees (ho : collOpen r = false) : collExpire s ix = freeRec (nowTo s (r.ended + 100000000)) ix := by
  unfold collExpire
  simp only [hr, ho, Bool.false_eq_true, if_false]

end

theorem collForgetId_forgets {s : State} {n : BitVec 8} {id : Nat} {a : BitVec 8 × Nat × Nat}
    (h : s.clx.aborted.find? (fun a => decide (a.1 = n) && decide (a.2.1 = id)) = some a) :
    collForgetId s n id = clxMod (nowTo s (a.2.2 + 1000000000)) (fun c =>
      { c with aborted := c.aborted.filter (fun x => !(decide (x.1 = n) && decide (x.2.1 = id))) }) := by
  unfold collForgetId
  rw [h]

/-- Settles O24: each event runs on the record that its pitch and ID name, and each clause is one case of its function. -/
theorem collectiveEvents : Obligations.CollectiveEvents := by
  unfold Obligations.CollectiveEvents
  intro s pitch id chunk ix r hf hr
  have runs : ∀ {g : State → Nat → State} {w : State}, g s ix = w → onRec s pitch id g = w := fun hw => (onRec_runs hf _).trans hw
  refine ⟨?_, ?_, ?_, ?_, ?_, ?_, ?_⟩
  · exact fun at_ hw hs => congrArg Host.Outcome.next (runs (collStart_runs hr hw hs))
  · exact fun h => congrArg Host.Outcome.next (runs (collStart_idle hr h))
  · exact fun at_ hrun hs => congrArg Host.Outcome.next (runs (collPace_steps hr chunk.toNat hrun hs))
  · intro t q ht hq hrun hk hnew hdone counted u ended
    have step := collFinished_counts hq ⟨hrun, hk, hnew, hdone⟩
    have ends : ∀ {w : State}, collFinished t ix chunk.toNat = w → exec (.collChunkFinished pitch id chunk) s = .next (settle w) :=
      fun hw => congrArg (fun w => Host.Outcome.next (settle w)) (runs ((congrArg (collFinished · ix chunk.toNat) ht).trans hw))
    exact ⟨fun hl => ends (step.trans (if_pos hl)), fun hl => ends (step.trans (if_neg hl))⟩
  · exact fun dl hd ho => congrArg (fun w => Host.Outcome.next (settle w)) (runs (collDeadline_fails hr hd ((collOpen_iff r).2 ho)))
  · exact fun h => congrArg Host.Outcome.next (runs (collExpire_frees hr (collOpen_ended h)))
  · exact fun a ha => congrArg Host.Outcome.next (collForgetId_forgets ha)

end Sys2Proof.Machine
end

section
/-! PROOFS. COLL_OPEN, COLL_QUERY, COLL_CLOSE and the data frames of a collective (R247, R256, R259 to R262, R264 to R266,
R273). -/
namespace Sys2Proof.Machine

/-! ## COLL_OPEN (R259) -/

/-- A COLL_OPEN that passes orders 1 to 4 of R259. -/
structure OpenRequest (s t : State) (f : RxFrame) (r : Req) : Prop where
  received : receive s 0x50 f = .go t r
  flagsFit : flagMisuse t r = false
  allowed : permitted t r = true
  whole : 104 ≤ r.payload.length
  flawless : (openFlaws r.payload).find? (·.2) = none
  length : openLen r (readColl r.payload) = none
  workAligned : (readColl r.payload).exact = true ∨ (readColl r.payload).workBase % 65536 = 0
  destAligned : (readColl r.payload).destBase % 64 = 0
  serving : pitchCheck t r = none

section
variable {s t : State} {f : RxFrame} {r : Req} (g : OpenRequest s t f r)
include g

/-- Orders 5 to 10 decide: accepted where none fails, denied by the first that does. -/
theorem OpenRequest.judged : collOpenReq s 0x50 f = ackNow
    ((openRefusal t r (readColl r.payload)).elim (openAccept t r (readColl r.payload)) (fun e =>
      openDeny t r e.1 e.2 (if e.1 = stDclass then beBytes 8 t.clx.dclass.toNat else []))) r.flow := by
  have hwork : ¬ ((!(readColl r.payload).exact) = true ∧ (readColl r.payload).workBase % 65536 ≠ 0) := by
    rintro ⟨hx, hb⟩
    exact g.workAligned.elim (fun h => by rw [h] at hx; cases hx) hb
  unfold collOpenReq
  rw [withRequest_go g.received]
  simp only [g.flagsFit, g.allowed, Nat.not_lt.2 g.whole, g.flawless, g.length, hwork, g.destAligned, g.serving, Bool.not_true,
    Bool.false_eq_true, ne_eq, not_true_eq_false, if_false]
  cases openRefusal t r (readColl r.payload) <;> rfl

theorem OpenRequest.accepted (h : openRefusal t r (readColl r.payload) = none) :
    collOpenReq s 0x50 f = ackNow (openAccept t r (readColl r.payload)) r.flow := by
  rw [g.judged, h, Option.elim_none]

/-- A refusal tells its FIELD, or the chip's determinism class. -/
theorem OpenRequest.refused {st field : Nat} (h : openRefusal t r (readColl r.payload) = some (st, field)) :
    collOpenReq s 0x50 f = ackNow (answer (bump t .clxOpenRefused 0 0 r.pitch.toNat) r st
      (if st = stDclass then beBytes 8 t.clx.dclass.toNat else beBytes 4 field)) r.flow := by
  rw [g.judged, h, Option.elim_some]
  unfold openDeny
  by_cases hd : st = stDclass
  · simp only [if_pos hd, if_neg (show ¬ (beBytes 8 t.clx.dclass.toNat).isEmpty = true by simp [beBytes, leBytes])]
  · simp only [if_neg hd, List.isEmpty_nil, if_true]

end

/-! ## The other requests: what runs (R63, R264) -/

section
variable {s t : State} {op : Byte} {f : RxFrame} {r : Req} (h0 : receive s op f = .go t r) (hc : Checked t r) (hl : collLenOk r = true)
include h0 hc hl

theorem exec_collQuery (ho : op = 0x55) : exec (.collQuery f) s = .next (settle (ackNow (collQuery t r) r.flow)) := by
  subst ho
  exact congrArg (fun w => Host.Outcome.next (settle w)) (collective_runs h0 hc hl (by decide))

theorem exec_collClose (ho : op = 0x54) : exec (.collClose f) s = .next (settle (ackNow (collClose t r) r.flow)) := by
  subst ho
  exact congrArg (fun w => Host.Outcome.next (settle w)) (collective_runs h0 hc hl (by decide))

/-- The three commands of data frames run one function. -/
theorem exec_collFrame {c : Instr} {o : Byte} (ho : op = o) (hd : opKnown o = true ∧ o ≠ 0x54 ∧ o ≠ 0x55)
    (hx : exec c s = .next (settle (collRequest s o f))) : exec c s = .next (settle (ackNow (collFrame t r) r.flow)) := by
  subst ho
  obtain ⟨hk, hclose, hquery⟩ := hd
  rw [hx, collective_runs h0 hc hl hk, if_neg hclose, if_neg hquery]

end

section
variable {t : State} {r : Req} {ix : Nat}

/-! ## COLL_QUERY and COLL_CLOSE (R260, R261, R273) -/

/-- The record that COLL_QUERY or COLL_CLOSE asks for. -/
abbrev askedRec (t : State) (r : Req) : Option Nat := recFind t r.pitch.toNat (beAt r.payload 0 4 % 2 ^ 24)

theorem collQuery_absent (h : askedRec t r = none) : collQuery t r = answer t r stOk (zeros 8) := by
  unfold collQuery
  simp only [h]

theorem collQuery_found (h : askedRec t r = some ix) : collQuery t r = answer t r stOk
    (beBytes 4 (collCode (recGet t ix).state + (recGet t ix).cause * 256) ++ beBytes 4 (recGet t ix).done) := by
  unfold collQuery
  simp only [h]

theorem collClose_absent (h : askedRec t r = none) (ha : beAt r.payload 0 4 < 2 ^ 31) : collClose t r = answer t r stSessFailed [] := by
  unfold collClose
  simp only [h, Nat.not_le.2 ha, decide_false, Bool.false_eq_true, if_false]

theorem collClose_held (h : askedRec t r = some ix) (ha : beAt r.payload 0 4 < 2 ^ 31) (ho : collOpen (recGet t ix) = true)
    (hn : (recGet t ix).closes.length < 64) :
    collClose t r = markWindow (recPut t ix { recGet t ix with closes := (recGet t ix).closes ++ [r] }) r := by
  unfold collClose
  simp only [h, Nat.not_le.2 ha, ho, Nat.not_le.2 hn, decide_false, Bool.false_eq_true, if_false, if_true]

theorem collClose_done (h : askedRec t r = some ix) (ha : beAt r.payload 0 4 < 2 ^ 31) (hd : (recGet t ix).state = .done)
    (ho : (recGet t ix).opener = r.endpoint) : collClose t r = freeRec (answer t r stOk []) ix := by
  have hshut : collOpen (recGet t ix) = false := collOpen_ended (Or.inl hd)
  unfold collClose
  simp only [h, Nat.not_le.2 ha, hshut, hd, ho, decide_false, Bool.false_eq_true, if_false, if_true]

theorem collClose_abort (h : askedRec t r = some ix) (ha : 2 ^ 31 ≤ beAt r.payload 0 4)
    (hn : (recGet t ix).desc.neigh.any (fun g => decide (g.endpoint = r.endpoint)) = false) :
    collClose t r = answer (failRec t ix 3 none) r stOk [] := by
  unfold collClose
  simp only [h, ha, hn, decide_true, Bool.false_eq_true, if_false, if_true]

/-! ## Data frames that name no record, or a failed one (R264, R273) -/

/-- The record that a data frame names in ADDRESS (R74). -/
abbrev frameRec (t : State) (r : Req) : Option Nat := recFind t r.pitch.toNat (r.address.toNat / 2 ^ 40)

/-- The contributor or child chip that ADDRESS names, and the first unit. -/
abbrev frameWho (r : Req) : Nat := r.address.toNat / 2 ^ 24 % 65536
abbrev frameFirst (r : Req) : Nat := r.address.toNat % 2 ^ 24

theorem collFrame_early (h : frameRec t r = none) :
    collFrame t r = answer (bump t .clxEarly 0 0 r.pitch.toNat) r stRetry [] := by
  unfold collFrame
  simp only [h]

theorem collFrame_failed (h : frameRec t r = some ix) (hf : (recGet t ix).state = .failed) :
    collFrame t r = answer t r stSessFailed [] := by
  unfold collFrame
  simp only [h, hf, if_true]

/-! ## Data frames that are taken (R256, R262, R264 to R266) -/

/-- A data frame of whole units within the size of a record that has not failed. -/
structure DataFits (t : State) (r : Req) (ix : Nat) : Prop where
  found : frameRec t r = some ix
  alive : (recGet t ix).state ≠ .failed
  unit : 0 < unitBytes (recGet t ix).desc r.op.toNat
  whole : r.payload.length % unitBytes (recGet t ix).desc r.op.toNat = 0
  within : frameFirst r + r.payload.length / unitBytes (recGet t ix).desc r.op.toNat ≤ unitCount (recGet t ix).desc

/-- The units of a frame for a record: number and bytes of each. -/
def frameUnits (t : State) (r : Req) (ix : Nat) : List (Nat × List Byte) :=
  let ub := unitBytes (recGet t ix).desc r.op.toNat
  (upto (r.payload.length / ub)).map (fun i => (frameFirst r + i, (r.payload.drop (i * ub)).take ub))

/-- The chunks that a frame's units touch advance, in ascending order. -/
def stepTouched (t : State) (r : Req) (ix : Nat) (w : State) : State :=
  ((frameUnits t r ix).foldl (fun acc u => insertNat (u.1 / 256) acc) []).foldl (fun v k => chunkStep v ix k) w

/-- The frame is answered OK and its operands are taken, of a child chip or of a local rank. -/
def takeOperands (t : State) (r : Req) (ix : Nat) (child : Bool) : State :=
  (frameUnits t r ix).foldl (fun v u => takeUnit v ix child (frameWho r) r.op.toNat u)
    (bumpN (answer t r stOk []) .clxBytesIn 0 0 r.pitch.toNat r.payload.length)

/-- The result of one unit is kept, unless the chunk has it already. -/
def keepResult (ix : Nat) (v : State) (u : Nat × List Byte) : State :=
  let c := chunkGet (recGet v ix) (u.1 / 256)
  if c.resulted = true ∨ (tfind c.result u.1).isSome = true then v
  else chunkPut v ix (u.1 / 256) { c with result := tins c.result u.1 u.2 }

/-- Does the frame come from the sender that its opcode asks for (R264)? -/
def senderFits (d : CollDesc) (r : Req) : Bool :=
  if r.op.toNat = 0x51 then
    decide (firstRank d ≤ frameWho r) && decide (frameWho r < firstRank d + localRanks d) &&
      decide (d.contrib[frameWho r - firstRank d]? = some r.endpoint)
  else if r.op.toNat = 0x52 then
    decide (frameWho r ∈ childChips d d.position) && (neighAt d (frameWho r)).any (fun g => decide (g.endpoint = r.endpoint))
  else decide (d.position ≠ 0) && (neighAt d (parentOf d d.position)).any (fun g => decide (g.endpoint = r.endpoint))

theorem senderFits_contrib {d : CollDesc} (hop : r.op = 0x51) (hlo : firstRank d ≤ frameWho r)
    (hhi : frameWho r < firstRank d + localRanks d) (hs : d.contrib[frameWho r - firstRank d]? = some r.endpoint) :
    senderFits d r = true := by
  unfold senderFits
  rw [hop, if_pos (by rfl), decide_eq_true hlo, decide_eq_true hhi, decide_eq_true hs]
  rfl

theorem senderFits_partial {d : CollDesc} {g : CollNeigh} (hop : r.op = 0x52) (hc : frameWho r ∈ childChips d d.position)
    (hg : neighAt d (frameWho r) = some g) (hs : g.endpoint = r.endpoint) : senderFits d r = true := by
  unfold senderFits
  rw [hop, if_neg (by decide), if_pos (by rfl), decide_eq_true hc, hg, Option.any_some, decide_eq_true hs]
  rfl

theorem senderFits_result {d : CollDesc} {g : CollNeigh} (hop : r.op = 0x53) (hp : d.position ≠ 0)
    (hg : neighAt d (parentOf d d.position) = some g) (hs : g.endpoint = r.endpoint) : senderFits d r = true := by
  unfold senderFits
  rw [hop, if_neg (by decide), if_neg (by decide), decide_eq_true hp, hg, Option.any_some, decide_eq_true hs]
  rfl

/-- Does the chunk of a unit take no operands: not opened yet, or closed? -/
def unitShut (t : State) (ix u : Nat) : Bool :=
  decide ((recGet t ix).openTo ≤ u / 256) || (chunkGet (recGet t ix) (u / 256)).closed

/-- Has the record this unit of the frame's sender already? -/
def unitHeld (t : State) (r : Req) (ix u : Nat) : Bool :=
  let c := chunkGet (recGet t ix) (u / 256)
  if r.op.toNat = 0x53 then c.resulted || (tfind c.result u).isSome
  else decide ((u, decide (r.op.toNat = 0x52), frameWho r) ∈ c.seen)

theorem unitShut_eq_false {u : Nat} (h : ¬ ((recGet t ix).openTo ≤ u / 256 ∨ (chunkGet (recGet t ix) (u / 256)).closed = true)) :
    unitShut t ix u = false := by
  obtain ⟨hopened, hclosed⟩ := not_or.1 h
  unfold unitShut
  rw [decide_eq_false hopened, Bool.eq_false_of_not_eq_true hclosed]
  rfl

theorem unitHeld_operand {child : Bool} {u : Nat} (hop : r.op.toNat ≠ 0x53) (hchild : decide (r.op.toNat = 0x52) = child)
    (h : (u, child, frameWho r) ∉ (chunkGet (recGet t ix) (u / 256)).seen) : unitHeld t r ix u = false := by
  unfold unitHeld
  rw [if_neg hop, hchild, decide_eq_false h]

theorem unitHeld_result {u : Nat} (hop : r.op.toNat = 0x53) (hr : (chunkGet (recGet t ix) (u / 256)).resulted = false)
    (hn : tfind (chunkGet (recGet t ix) (u / 256)).result u = none) : unitHeld t r ix u = false := by
  unfold unitHeld
  rw [if_pos hop, hr, hn]
  rfl

section
variable (h : DataFits t r ix) (hs : senderFits (recGet t ix).desc r = true)
include h hs

/-- What becomes of a frame that fits and comes from its sender: a duplicate, one for chunks that are not open, results, or
operands. -/
theorem DataFits.judged : collFrame t r =
    if unitHeld t r ix (frameFirst r) = true then answer (bump t .clxDup 0 0 r.pitch.toNat) r stOk []
    else if r.op.toNat ≠ 0x53 ∧ (frameUnits t r ix).any (fun u => unitShut t ix u.1 && !unitHeld t r ix u.1) = true then
      answer (bump t .clxNotOpen 0 0 r.pitch.toNat) r stRetry []
    else if r.op.toNat = 0x53 then stepTouched t r ix ((frameUnits t r ix).foldl (keepResult ix) (answer t r stOk []))
    else stepTouched t r ix (takeOperands t r ix (decide (r.op.toNat = 0x52))) := by
  obtain ⟨hf, ha, hu, hw, hin⟩ := h
  unfold senderFits at hs
  unfold collFrame
  simp only [hf, ha, hs, hw, Nat.max_eq_right hu, Nat.ne_of_gt hu, Nat.not_lt.2 hin, Bool.not_true, Bool.false_eq_true, ne_eq,
    not_true_eq_false, or_self, if_false]
  rfl

theorem DataFits.operands {child : Bool} (hop : r.op.toNat ≠ 0x53) (hchild : decide (r.op.toNat = 0x52) = child)
    (hnew : (frameFirst r, child, frameWho r) ∉ (chunkGet (recGet t ix) (frameFirst r / 256)).seen)
    (ho : ∀ u ∈ frameUnits t r ix, unitShut t ix u.1 = false) :
    collFrame t r = stepTouched t r ix (takeOperands t r ix child) := by
  have hopen : (frameUnits t r ix).any (fun u => unitShut t ix u.1 && !unitHeld t r ix u.1) = false :=
    List.any_eq_false.2 fun u hu => by simp [ho u hu]
  rw [h.judged hs, unitHeld_operand hop hchild hnew, hopen, hchild, if_neg Bool.false_ne_true, if_neg (by simp), if_neg hop]

theorem DataFits.results (hop : r.op.toNat = 0x53) (hr : (chunkGet (recGet t ix) (frameFirst r / 256)).resulted = false)
    (hn : tfind (chunkGet (recGet t ix) (frameFirst r / 256)).result (frameFirst r) = none) :
    collFrame t r = stepTouched t r ix ((frameUnits t r ix).foldl (keepResult ix) (answer t r stOk [])) := by
  rw [h.judged hs, unitHeld_result hop hr hn, if_neg Bool.false_ne_true, if_neg fun e => e.1 hop, if_pos hop]

end

end

/-- Settles O22: a COLL_OPEN by its orders 5 to 10, and each clause about another request one case of what runs once its checks
pass. -/
theorem collectives : Obligations.Collectives := by
  unfold Obligations.Collectives
  refine ⟨⟨?_, ?_⟩, ?_⟩
  · intro s t f r h0 hmis hperm hlen hflaw d done hopen hwork hdest hpitch slot waits made
    have g : OpenRequest s t f r := ⟨h0, hmis, hperm, hlen, hflaw, hopen, hwork, hdest, hpitch⟩
    exact ⟨fun h => congrArg Host.Outcome.next (g.accepted h), fun st field h => congrArg Host.Outcome.next (g.refused h)⟩
  · intro s t op f r h0 hc hl n done arg asked named
    have leaves : ∀ {c : Instr} {v w : State}, exec c s = done v → v = w → exec c s = done w := fun hx e => e ▸ hx
    have frames : ∀ {w : State}, collFrame t r = w → (op = 0x51 → exec (.collContrib f) s = done w) ∧
        (op = 0x52 → exec (.collPartial f) s = done w) ∧ (op = 0x53 → exec (.collResult f) s = done w) := fun e =>
      ⟨fun ho => leaves (exec_collFrame h0 hc hl ho (by decide) rfl) e, fun ho => leaves (exec_collFrame h0 hc hl ho (by decide) rfl) e,
        fun ho => leaves (exec_collFrame h0 hc hl ho (by decide) rfl) e⟩
    refine ⟨?_, ?_, ?_, ?_, ?_, ?_, ?_, ?_⟩
    · exact fun ho ha => leaves (exec_collQuery h0 hc hl ho) (collQuery_absent ha)
    · exact fun ix ho ha => leaves (exec_collQuery h0 hc hl ho) (collQuery_found ha)
    · exact fun ho ha hv => leaves (exec_collClose h0 hc hl ho) (collClose_absent ha hv)
    · exact fun ix ho ha hv hst hn => leaves (exec_collClose h0 hc hl ho) (collClose_held ha hv ((collOpen_iff _).2 hst) hn)
    · exact fun ix ho ha hv hst he => leaves (exec_collClose h0 hc hl ho) (collClose_done ha hv hst he)
    · exact fun ix ho ha hv hn => leaves (exec_collClose h0 hc hl ho) (collClose_abort ha hv hn)
    · exact fun hn => frames (collFrame_early hn)
    · exact fun ix hn hst => frames (collFrame_failed hn hst)
  · intro s t op f r ix h0 hc hl n rc d who off ub cnt us ks hf ha hu hw hin steps shut operands
    obtain rfl := receive_anyOpcode h0
    have fits : DataFits t r ix := ⟨hf, ha, hu, hw, hin⟩
    have opened (h : ∀ u ∈ us, ¬ shut u.1) : ∀ u ∈ frameUnits t r ix, unitShut t ix u.1 = false :=
      fun u hu => unitShut_eq_false (h u hu)
    have leaves : ∀ {c : Instr} {v w : State}, exec c s = .next (settle (ackNow v r.flow)) → v = stepTouched t r ix w →
        exec c s = steps w := fun hx e => hx.trans (congrArg (fun v => Host.Outcome.next (settle (ackNow v r.flow))) e)
    refine ⟨fun ho hlo hhi hcon hnew hopen => ?_, fun g ho hkid hg he hnew hopen => ?_, fun g ho hp hg he hr hn => ?_⟩
    · exact leaves (exec_collFrame h0 hc hl ho (by decide) rfl) (fits.operands (senderFits_contrib ho hlo hhi hcon) (by rw [ho]; decide)
        (by rw [ho]; rfl) hnew (opened hopen))
    · exact leaves (exec_collFrame h0 hc hl ho (by decide) rfl) (fits.operands (senderFits_partial ho hkid hg he) (by rw [ho]; decide)
        (by rw [ho]; rfl) hnew (opened hopen))
    · exact leaves (exec_collFrame h0 hc hl ho (by decide) rfl) (fits.results (senderFits_result ho hp hg he) (by rw [ho]; rfl) hr hn)

end Sys2Proof.Machine
end

section
/-! PROOFS. Loads and stores of a core's hold and transfers on the grid net (R298, R332, R333, R335, R342). -/
namespace Sys2Proof.Machine

/-- R298, R332: the row of a vector access lies OFF · 128 bytes from the base, as a signed offset. -/
theorem vAddr_eq (s : State) (c : Nat) (sa : BitVec 5) (off : BitVec 13) :
    vAddr s c sa off = (sReg s c sa + BitVec.ofInt 64 (128 * off.toInt)).toNat / 128 * 128 := by
  have hoff : off.signExtend 64 * 128 = BitVec.ofInt 64 (128 * off.toInt) := by
    rw [Int.mul_comm, BitVec.ofInt_mul]
    rfl
  unfold vAddr
  rw [hoff]

/-- Settles O3: an access within the hold runs, one at or above its end is counted, as `holdOp` says of both. -/
theorem coreHoldAccess : Obligations.HoldAccess := by
  unfold Obligations.HoldAccess
  intro s core ix r sa pg imm off h c k sc vec ends counted
  have hv : vec = vAddr s c sa off := (vAddr_eq s c sa off).symm
  clear_value vec
  subst hv
  have slot {i : Instr} {b : State → Nat → Nat → State} {v : State} (w : wellFormed i = true) (e : b s ix c = v) :
      slotOp s core i b = v := (slotOp_runs h w).trans e
  refine ⟨fun hin hp => ?_, fun hout => ?_, fun hin hp => ?_, fun hout => ?_⟩
  · have free {wr : Bool} : hazard k (quadOf c) (coreIn c) sc 8 wr = false := noHazard_of_all hp
    exact ⟨congrArg ends (slot rfl (holdOp_within hin free)), congrArg ends (slot rfl (holdOp_within hin free))⟩
  · exact ⟨congrArg ends (slot rfl (holdOp_beyond hout)), congrArg ends (slot rfl (holdOp_beyond hout))⟩
  · have free {wr : Bool} : hazard k (quadOf c) (coreIn c) (vAddr s c sa off) 128 wr = false := noHazard_of_all hp
    exact ⟨congrArg ends (slot rfl (holdOp_within hin free)), congrArg ends (slot rfl (holdOp_within hin free))⟩
  · exact ⟨congrArg ends (slot rfl (holdOp_beyond hout)), congrArg ends (slot rfl (holdOp_beyond hout))⟩

section
variable {s : State} {core : BitVec 6} {ix : Nat} {i : Instr} {r : BitVec 5} {q dir : BitVec 2} {route : BitVec 12}
  (h : coreSess s core.toNat = some ix) (w : wellFormed i = true)
include h w

/-- R335: a SEND on a route of its session puts its quarter on the net where the route starts at its core, and is ILLEGAL elsewhere. -/
theorem sendOp_route {x : Route} (hx : (sessGet s ix).routes[route.toNat]? = some x) :
    sendOp s core i r q route =
      if x.src ≠ (sessGet s ix).cores.idxOf core.toNat then endSess s ix 8 (some core.toNat) 0
      else bump (sessPut s ix { sessGet s ix with flits := (sessGet s ix).flits ++
        [{ at_ := core.toNat, hops := x.hops, data := BitVec.ofNat 256 ((vReg s core.toNat r).toNat / 2 ^ (256 * q.toNat)) }] })
          .grdNetFlits 0 0 (sessGet s ix).pitch.toNat := by
  simp only [sendOp, slotOp_runs h w, hx, quarter, Nat.shiftRight_eq_div_pow]
  rfl

theorem sendOp_noRoute (hx : (sessGet s ix).routes[route.toNat]? = none) :
    sendOp s core i r q route = endSess s ix 8 (some core.toNat) 0 := by
  simp only [sendOp, slotOp_runs h w, hx]
  rfl

theorem recvOp_flit {d : BitVec 256} (hd : tfind (coreGet s core.toNat).rx dir.toNat = some d) :
    recvOp s core i r q dir =
      landIn (corePut s core.toNat { coreGet s core.toNat with taken := dir.toNat :: (coreGet s core.toNat).taken }) ix core.toNat 1
        (.vreg r.toNat (quarterMask q.toNat) (BitVec.ofNat 1024 (d.toNat <<< (256 * q.toNat)))) := by
  simp only [recvOp, slotOp_runs h w, hd]

theorem recvOp_empty (hd : tfind (coreGet s core.toNat).rx dir.toNat = none) :
    recvOp s core i r q dir = endSess s ix 4 (some core.toNat) 0 := by
  simp only [recvOp, slotOp_runs h w, hd]
  rfl

end

/-- R335: a received flit lies in the quarter that Q selects, and that quarter alone is written. -/
theorem elAt_quarter (d : BitVec 256) (q : BitVec 2) (e : Nat) :
    (e = q.toNat → elAt (BitVec.ofNat 1024 (d.toNat <<< (256 * q.toNat))) 256 e = d.toNat ∧
      elAt (quarterMask q.toNat) 256 e = 2 ^ 256 - 1) ∧
    (e ≠ q.toNat → elAt (quarterMask q.toNat) 256 e = 0) := by
  have hk : 1 * 256 * 4 = 1024 := rfl
  have hq : q.toNat < 4 := q.isLt
  have hd : d.toNat < 2 ^ (1 * 256) := d.isLt
  have mask : quarterMask q.toNat = partMask (1 * 256) q.toNat := by
    rw [Nat.one_mul]
    rfl
  rw [mask]
  constructor
  · rintro rfl
    have flit := elAt_shiftedPart (e := 0) hk hq hd
    have ones := elAt_partMask_inside (e := 0) hk hq Nat.one_pos
    rw [Nat.mul_zero, Nat.shiftRight_zero, Nat.mod_eq_of_lt d.isLt] at flit
    simp only [Nat.one_mul, Nat.add_zero] at flit ones ⊢
    exact ⟨flit, ones⟩
  · exact fun he => elAt_partMask_outside Nat.one_pos hk hq (by rwa [Nat.div_one])

/-- Settles O8: a SEND by its route, a RECV by its receive slot. -/
theorem netTransfers : Obligations.NetTransfers := by
  unfold Obligations.NetTransfers
  intro s core ix r q dir route h c k ends
  refine ⟨fun x hx hsrc => ?_, fun x hx hsrc => ?_, fun hx => ?_, fun d hd => ?_, fun hd => ?_⟩
  · exact congrArg ends ((sendOp_route h rfl hx).trans (if_neg (not_not.2 hsrc)))
  · exact congrArg ends ((sendOp_route h rfl hx).trans (if_pos hsrc))
  · exact congrArg ends (sendOp_noRoute h rfl hx)
  · exact ⟨_, _, congrArg ends (recvOp_flit h rfl hd), fun e _ => elAt_quarter d q e⟩
  · exact congrArg ends (recvOp_empty h rfl hd)

end Sys2Proof.Machine
end

section
/-! PROOFS. Stage commands and gates as their instructions issue them (R295, R296, R298, R339, R340). -/
namespace Sys2Proof.Machine

theorem bitsOf_eq {w : Nat} (x : BitVec w) (lo n : Nat) : bitsOf x lo n = x.toNat / 2 ^ lo % 2 ^ n := by
  rw [bitsOf, Nat.shiftRight_eq_div_pow]

theorem bitsOf_top_eq_zero {lo n : Nat} (x : DWord) (h : lo + n = 64) : bitsOf x lo n = 0 ↔ x.toNat < 2 ^ lo := by
  have hlt : x.toNat / 2 ^ lo < 2 ^ n := Nat.div_lt_of_lt_mul (by rw [← Nat.pow_add, h]; exact x.isLt)
  rw [bitsOf_eq, Nat.mod_eq_of_lt hlt, Nat.div_eq_zero_iff_lt (Nat.two_pow_pos lo)]

/-! ## Stage commands -/

/-- Register `i` of the four that describe a stage command. -/
abbrev stageReg (s : State) (c : Nat) (sn : BitVec 5) (i : Nat) : Nat := (sReg s c (sn + BitVec.ofNat 5 i)).toNat

/-- R339: no reserved bit of the description is set. -/
abbrev StageClean (s : State) (c : Nat) (sn : BitVec 5) : Prop :=
  stageReg s c sn 0 < 2 ^ 57 ∧ stageReg s c sn 3 < 2 ^ 32 ∧ stageReg s c sn 3 / 2 ^ 22 % 4 = 0 ∧ stageReg s c sn 3 / 2 ^ 27 % 2 = 0

/-- R339: the command that the four registers describe. -/
abbrev stageFields (s : State) (c : Nat) (sn : BitVec 5) (out : Bool) : StageCmd :=
  { quad := quadOf c, out := out, base := stageReg s c sn 0, rowLen := stageReg s c sn 1 % 2 ^ 32, rows := stageReg s c sn 1 / 2 ^ 32,
    stride := stageReg s c sn 2, target := stageReg s c sn 3 / 2 ^ 24 % 8, loc := stageReg s c sn 3 % 2 ^ 22,
    tag := stageReg s c sn 3 / 2 ^ 28 % 16 }

theorem stageReserved_iff (s : State) (c : Nat) (sn : BitVec 5) :
    (bitsOf (sReg s c sn) 57 7 ≠ 0 ∨ bitsOf (sReg s c (sn + 3)) 22 2 ≠ 0 ∨ bitsOf (sReg s c (sn + 3)) 27 1 ≠ 0 ∨
      bitsOf (sReg s c (sn + 3)) 32 32 ≠ 0) ↔ ¬ StageClean s c sn := by
  have h0 : stageReg s c sn 0 = (sReg s c sn).toNat := by simp [stageReg]
  rw [StageClean, h0, ← bitsOf_top_eq_zero (n := 7) _ rfl, ← bitsOf_top_eq_zero (n := 32) _ rfl, bitsOf_eq _ 22, bitsOf_eq _ 27]
  tauto

theorem stageDesc_eq (s : State) (c : Nat) (sn : BitVec 5) (out : Bool) :
    stageDesc s c sn out = if StageClean s c sn then some (stageFields s c sn out) else none := by
  have hrows : bitsOf (sReg s c (sn + 1)) 32 32 = stageReg s c sn 1 / 2 ^ 32 := by
    rw [bitsOf_eq]
    exact Nat.mod_eq_of_lt (Nat.div_lt_of_lt_mul (sReg s c (sn + 1)).isLt)
  have h0 : sReg s c sn = sReg s c (sn + BitVec.ofNat 5 0) := by simp
  unfold stageDesc
  simp only [stageReserved_iff, ite_not, hrows]
  simp only [bitsOf_eq, Nat.pow_zero, Nat.div_one]
  rw [h0]
  rfl

section
variable {s : State} {core : BitVec 6} {ix : Nat} {i : Instr} {sn : BitVec 5} {out : Bool}
  (h : coreSess s core.toNat = some ix) (w : wellFormed i = true)
include h w

/-- R295: a clean command is issued where its local fields are in range and a window holds its memory. -/
theorem stageOp_clean (hc : StageClean s core.toNat sn) :
    stageOp s core i sn out =
      if !stageLocalOk (sessGet s ix) (stageFields s core.toNat sn out) then endSess s ix 8 (some core.toNat) 0
      else if !stageWindowOk (sessGet s ix) (stageFields s core.toNat sn out) then endSess s ix 7 (some core.toNat) stDenied
      else sessPut s ix { sessGet s ix with
        issuing := (sessGet s ix).issuing ++ [{ stageFields s core.toNat sn out with session := (sessGet s ix).number }] } := by
  simp only [stageOp, slotOp_runs h w, stageDesc_eq, if_pos hc]
  rfl

theorem stageOp_reserved (hc : ¬ StageClean s core.toNat sn) : stageOp s core i sn out = endSess s ix 8 (some core.toNat) 0 := by
  simp only [stageOp, slotOp_runs h w, stageDesc_eq, if_neg hc]
  rfl

end

/-- STG.OUT or STG.IN, by the direction. -/
abbrev stageInstr (core : BitVec 6) (sn : BitVec 5) (out : Bool) : Instr := if out then .stgOut core sn else .stgIn core sn

theorem exec_stageInstr (core : BitVec 6) (sn : BitVec 5) (out : Bool) (s : State) :
    exec (stageInstr core sn out) s = .next (stageOp s core (stageInstr core sn out) sn out) := by
  cases out <;> rfl

theorem wellFormed_stageInstr {core : BitVec 6} {sn : BitVec 5} (out : Bool) (h : sn.toNat ≤ 28) :
    wellFormed (stageInstr core sn out) = true := by
  cases out <;> exact decide_eq_true h

/-! ## Gates -/

/-- R296: the counts that GATE.T asks for, those its tags have now. -/
abbrev gateNeeds (k : KSess) (mask : BitVec 16) : List (Nat × Nat) :=
  ((upto 16).filter (fun t => mask.getLsbD t)).map (fun t => (t, tget 0 k.issued t))

theorem mem_gateNeeds {k : KSess} {mask : BitVec 16} {e : Nat × Nat} :
    e ∈ gateNeeds k mask ↔ (e.1 < 16 ∧ mask.getLsbD e.1 = true) ∧ tget 0 k.issued e.1 = e.2 := by
  simp only [gateNeeds, upto, List.mem_map, List.mem_filter, List.mem_range]
  constructor
  · rintro ⟨t, ht, rfl⟩
    exact ⟨ht, rfl⟩
  · exact fun ⟨ht, he⟩ => ⟨e.1, ht, Prod.ext rfl he⟩

theorem gateOpen_tags_iff (s : State) (k : KSess) (mask : BitVec 16) :
    gateOpen s k (.tags (gateNeeds k mask)) = true ↔
      ∀ t, t < 16 ∧ mask.getLsbD t = true → tget 0 k.issued t ≤ tget 0 k.completed t := by
  simp only [gateOpen, List.all_eq_true, decide_eq_true_eq]
  constructor
  · exact fun h t ht => h (t, tget 0 k.issued t) (mem_gateNeeds.2 ⟨ht, rfl⟩)
  · intro h e he
    obtain ⟨ht, he⟩ := mem_gateNeeds.1 he
    exact he ▸ h e.1 ht

/-- R298: the pending ranges that a passing GATE.T leaves. -/
theorem mem_gateClears_pend {k : KSess} {mask : BitVec 16} {p : Pend} :
    p ∈ (gateClears k (.tags (gateNeeds k mask))).pend ↔
      p ∈ k.pend ∧ ¬((p.tag < 16 ∧ mask.getLsbD p.tag = true) ∧ p.num < tget 0 k.issued p.tag) := by
  simp only [gateClears, List.mem_filter, Bool.not_eq_true', List.any_eq_false, Bool.and_eq_true, decide_eq_true_eq]
  refine and_congr_right fun _ => ⟨fun h hn => ?_, fun h e he hn => h ?_⟩
  · exact h (p.tag, tget 0 k.issued p.tag) (mem_gateNeeds.2 ⟨hn.1, rfl⟩) ⟨rfl, hn.2⟩
  · obtain ⟨ht, he⟩ := mem_gateNeeds.1 he
    obtain ⟨htag, hnum⟩ := hn
    rw [← htag]
    exact ⟨ht, he ▸ hnum⟩

theorem gateOpen_coll_iff (s : State) (k : KSess) (id n : Nat) :
    gateOpen s k (.coll id n) = true ↔ ∃ j, recFind s k.pitch.toNat id = some j ∧ (recGet s j).desc.toKernel = true ∧
      (recGet s j).desc.ksession = k.number ∧ (recGet s j).state ≠ .failed ∧ n ≤ (recGet s j).posted := by
  cases hf : recFind s k.pitch.toNat id with
  | none => simp [gateOpen, hf]
  | some j => simp [gateOpen, hf, and_assoc]

theorem gateOp_open {s : State} {ix c : Nat} {g : Gate} (h : gateOpen s (sessGet s ix) g = true) :
    gateOp s ix c g = sessPut s ix (gateClears (sessGet s ix) g) := if_pos h

theorem gateOp_shut {s : State} {ix c : Nat} {g : Gate} (h : ¬ gateOpen s (sessGet s ix) g = true) :
    gateOp s ix c g = corePut s c { coreGet s c with gate := some g } := if_neg h

section
variable {s : State} {core : BitVec 6} {ix : Nat} (h : coreSess s core.toNat = some ix)
include h

theorem exec_gateT (mask : BitVec 16) :
    exec (.gateT core mask) s = .next (gateOp s ix core.toNat (.tags (gateNeeds (sessGet s ix) mask))) :=
  congrArg Host.Outcome.next (slotOp_runs h rfl)

/-- R340: a collective number beyond 24 bits is ILLEGAL. -/
theorem exec_gateC_wide {sa sb : BitVec 5} (ha : 2 ^ 24 ≤ (sReg s core.toNat sa).toNat) :
    exec (.gateC core sa sb) s = .next (endSess s ix 8 (some core.toNat) 0) :=
  congrArg Host.Outcome.next ((slotOp_runs h rfl).trans
    (if_pos fun e => Nat.not_lt.2 ha ((bitsOf_top_eq_zero _ rfl).1 e)))

theorem exec_gateC {sa sb : BitVec 5} (ha : (sReg s core.toNat sa).toNat < 2 ^ 24) :
    exec (.gateC core sa sb) s =
      .next (gateOp s ix core.toNat (.coll (sReg s core.toNat sa).toNat (sReg s core.toNat sb).toNat)) := by
  have hid : bitsOf (sReg s core.toNat sa) 0 24 = (sReg s core.toNat sa).toNat := by
    rw [bitsOf_eq, Nat.pow_zero, Nat.div_one, Nat.mod_eq_of_lt ha]
  rw [← hid]
  exact congrArg Host.Outcome.next ((slotOp_runs h rfl).trans (if_neg (not_not.2 ((bitsOf_top_eq_zero _ rfl).2 ha))))

end

/-- Settles O9: a stage command by its description and the two checks of R295, a gate by whether its condition holds. -/
theorem stageAndGateIssue : Obligations.StageAndGateIssue := by
  unfold Obligations.StageAndGateIssue
  refine ⟨?_, ?_⟩
  · intro s core ix sn out h hsn c k reg i clean d
    have issues {t : State} (e : stageOp s core (stageInstr core sn out) sn out = t) : exec i s = .next t :=
      (exec_stageInstr core sn out s).trans (congrArg Host.Outcome.next e)
    have w : wellFormed (stageInstr core sn out) = true := wellFormed_stageInstr out hsn
    refine ⟨fun hc hl hw => issues ?_, fun hc hl hw => issues ?_, fun hc hl => issues ?_, fun hc => issues ?_⟩
    · rw [stageOp_clean h w hc, hl, hw]
      rfl
    · rw [stageOp_clean h w hc, hl, hw]
      rfl
    · rw [stageOp_clean h w hc, hl]
      rfl
    · exact stageOp_reserved h w hc
  · intro s core ix mask sa sb h c k named due A ends
    refine ⟨fun hall => ?_, fun t ht hlt => ?_, fun ha => exec_gateC_wide h ha, ?_⟩
    · refine ⟨(gateClears k (.tags (gateNeeds k mask))).pend, ?_, fun p => mem_gateClears_pend⟩
      exact (exec_gateT h mask).trans (congrArg ends (gateOp_open ((gateOpen_tags_iff s k mask).2 hall)))
    · have shut : ¬ gateOpen s k (.tags (gateNeeds k mask)) = true := fun e =>
        Nat.not_le.2 hlt ((gateOpen_tags_iff s k mask).1 e t ht)
      exact (exec_gateT h mask).trans (congrArg ends (gateOp_shut shut))
    · refine ⟨fun ha hp => ?_, fun ha hp => ?_⟩
      · exact (exec_gateC h ha).trans (congrArg ends (gateOp_open ((gateOpen_coll_iff ..).2 hp)))
      · exact (exec_gateC h ha).trans (congrArg ends (gateOp_shut fun e => hp ((gateOpen_coll_iff ..).1 e)))

end Sys2Proof.Machine
end

section
/-! PROOFS. The matrix engine (R282, R283, R314, R337, R338). -/
namespace Sys2Proof.Machine

/-! ## Instructions of the matrix class -/

/-- R337: the command that MX.MUL adds to its engine. -/
abbrev mxCommand (s : State) (ix c ad ty : Nat) (z : Bool) (sa sb sk : BitVec 5) : MxCmd :=
  { acc := ad, ty := ty, zero := z, a := (sReg s c sa).toNat / 64 * 64 % 2 ^ 22, b := (sReg s c sb).toNat / 64 * 64 % 2 ^ 22,
    k := if (sReg s c sk).toNat % 256 = 0 then 16384 else 64 * ((sReg s c sk).toNat % 256), issued := (sessGet s ix).cycles }

theorem accFirst_eq (an : BitVec 3) (row : DWord) (h : Bool) :
    accFirst an row h = 4096 * an.toNat + 64 * (row.toNat % 64) + (if h then 32 else 0) := by
  cases h <;> rfl

section
variable {s : State} {core : BitVec 6} {ix : Nat} {i : Instr} (h : coreSess s core.toNat = some ix) (w : wellFormed i = true)
include h w

theorem mxOp_engine {b : State → Nat → Nat → State} (he : quadOf core.toNat ∈ (sessGet s ix).engines) :
    mxOp s core i b = b s ix core.toNat := by
  rw [matrixOp_runs h w, if_pos he]

/-- R314: without the matrix engine the instruction is ILLEGAL. -/
theorem mxOp_noEngine {b : State → Nat → Nat → State} (he : quadOf core.toNat ∉ (sessGet s ix).engines) :
    mxOp s core i b = endSess s ix 8 (some core.toNat) 0 := by
  rw [matrixOp_runs h w, if_neg he]

theorem mxMulOp_engine {ad ty : Nat} {z : Bool} {sa sb sk : BitVec 5} (he : quadOf core.toNat ∈ (sessGet s ix).engines) :
    mxMulOp s core i ad ty z sa sb sk =
      if mxHazard (sessGet s ix) (quadOf core.toNat) (mxCommand s ix core.toNat ad ty z sa sb sk) then endSess s ix 9 (some core.toNat) 0
      else quadPut s (quadOf core.toNat) { quadGet s (quadOf core.toNat) with
        mx := (quadGet s (quadOf core.toNat)).mx ++ [mxCommand s ix core.toNat ad ty z sa sb sk] } := by
  have hk : (if (sReg s core.toNat sk).toNat % 256 = 0 then 16384 else 64 * ((sReg s core.toNat sk).toNat % 256)) =
      64 * (if (sReg s core.toNat sk).toNat % 256 = 0 then 256 else (sReg s core.toNat sk).toNat % 256) := by
    rw [mul_ite]
  rw [mxMulOp, mxOp_engine h w he, mxCommand, hk]
  rfl

end

/-! ## The result of a command -/

theorem mxResult_rows (q : Quad) (m : MxCmd) :
    mxResult q m = (upto 64).flatMap fun i => (upto 64).map fun j => BitVec.ofNat 32
      (mxElement m.ty (mxRow q m m.a i) (mxRow q m m.b j) (if m.zero then 0 else (tget 0 q.acc (4096 * m.acc + 64 * i + j)).toNat)) := by
  have zips (f : Nat → List Num) (l : List Nat) : (l.map f).zip l = l.map fun j => (f j, j) := by
    conv_lhs => rw [← List.map_id l, List.map_map]
    rw [List.zip_map']
    rfl
  simp only [mxResult, zips, List.map_map]
  rfl

theorem mxResult_length (q : Quad) (m : MxCmd) : (mxResult q m).length = 4096 := by
  simp [mxResult_rows, upto, List.length_flatMap]

theorem mxResult_get (q : Quad) (m : MxCmd) {i j : Nat} (hi : i < 64) (hj : j < 64) :
    (mxResult q m)[64 * i + j]? = some (BitVec.ofNat 32 (mxElement m.ty (mxRow q m m.a i) (mxRow q m m.b j)
      (if m.zero then 0 else (tget 0 q.acc (4096 * m.acc + 64 * i + j)).toNat))) := by
  rw [mxResult_rows, flatMap_getElem 64 _ (by simp [upto]) 64 i j hi hj]
  simp [upto, hj]

/-! ## Start and end of a command (R338) -/

/-- Has a command run, and its 40 cycles passed? -/
def mxDue (now : Nat) (m : MxCmd) : Bool := m.start.any fun t => decide (t + mxCycles m + 40 ≤ now)

/-- The accumulators with a command's result written. -/
def accWritten (t : Tab Word) (m : MxCmd) : Tab Word :=
  (m.result.zip (upto 4096)).foldl (fun t e => tset 0 t (4096 * m.acc + e.2) e.1) t

theorem accWritten_get {t : Tab Word} {m : MxCmd} (hl : m.result.length = 4096) :
    (∀ e, e < 4096 → tget 0 (accWritten t m) (4096 * m.acc + e) = (m.result[e]?).getD 0) ∧
    (∀ x, x < 4096 * m.acc ∨ 4096 * m.acc + 4096 ≤ x → tget 0 (accWritten t m) x = tget 0 t x) := by
  have words := accPut_words (4096 * m.acc) m.result 0 t
  rw [hl, ← List.range_eq_range'] at words
  exact words

theorem mxDue_waiting {m : MxCmd} (now : Nat) (h : m.start.isNone = true) : mxDue now m = false := by
  rw [mxDue, Option.isNone_iff_eq_none.1 h]
  rfl

section
variable {s : State} {quad ix : Nat} {m : MxCmd} {rest : List MxCmd} (he : engineSess s quad = some ix)
  (hq : (quadGet s quad).mx = m :: rest)
include he

theorem mxDone_engine :
    mxDone s quad = quadPut s quad { quadGet s quad with
      acc := ((quadGet s quad).mx.filter (mxDue (sessGet s ix).cycles)).foldl accWritten (quadGet s quad).acc
      mx := (quadGet s quad).mx.filter fun m => !mxDue (sessGet s ix).cycles m } := by
  have due : (fun m : MxCmd => match m.start with
      | some t => decide (t + mxCycles m + 40 ≤ (sessGet s ix).cycles)
      | none => false) = mxDue (sessGet s ix).cycles := by
    funext m
    unfold mxDue
    cases m.start <;> rfl
  simp only [mxDone, he]
  rw [← due]
  rfl

include hq

/-- R338: the first waiting command starts, and its result is computed from what its engine then holds. -/
theorem mxStart_front (hs : m.start = none) (hi : m.issued + 1 ≤ (sessGet s ix).cycles)
    (hb : (quadGet s quad).busyTo ≤ (sessGet s ix).cycles) (hz : mxHazard (sessGet s ix) quad m = false) :
    mxStart s quad = quadPut s quad { quadGet s quad with
      mx := { m with start := some (sessGet s ix).cycles, result := mxResult (quadGet s quad) m } :: rest
      busyTo := (sessGet s ix).cycles + mxCycles m } := by
  simp [mxStart, he, hq, firstIdx, hs, hz, lset, max_le hi hb]

section
variable (hrest : rest.all (fun x => x.start.isNone) = true)
include hrest

/-- A command that has not ended leaves its engine as it is. -/
theorem mxDone_early (hd : mxDue (sessGet s ix).cycles m = false) : mxDone s quad = quadPut s quad (quadGet s quad) := by
  have none_due : ∀ x ∈ (quadGet s quad).mx, mxDue (sessGet s ix).cycles x = false := by
    rw [hq]
    exact List.forall_mem_cons.2 ⟨hd, fun x hx => mxDue_waiting _ (List.all_eq_true.1 hrest x hx)⟩
  rw [mxDone_engine he, List.filter_eq_nil_iff.2 fun x hx => Bool.not_eq_true _ ▸ none_due x hx,
    List.filter_eq_self.2 fun x hx => by rw [none_due x hx, Bool.not_false]]
  rfl

theorem mxDone_due (hd : mxDue (sessGet s ix).cycles m = true) :
    mxDone s quad = quadPut s quad { quadGet s quad with mx := rest, acc := accWritten (quadGet s quad).acc m } := by
  have waiting : ∀ x ∈ rest, mxDue (sessGet s ix).cycles x = false := fun x hx => mxDue_waiting _ (List.all_eq_true.1 hrest x hx)
  rw [mxDone_engine he, hq, List.filter_cons_of_pos hd, List.filter_cons_of_neg (by rw [hd]; decide),
    List.filter_eq_nil_iff.2 fun x hx => Bool.not_eq_true _ ▸ waiting x hx,
    List.filter_eq_self.2 fun x hx => by rw [waiting x hx, Bool.not_false]]
  rfl

end

end

/-- Settles O10: an instruction by whether its session holds the engine, a start by what the engine holds at it, an end by
whether the command is due. -/
theorem matrixEngine : Obligations.MatrixEngine := by
  unfold Obligations.MatrixEngine
  refine ⟨?_, ?_⟩
  · intro s core ix ad an ty z hh v sr sa sb sk h hty c k q n m first ends illegal
    have hmul : wellFormed (.mxMul core ad ty z sa sb sk) = true := decide_eq_true hty
    have hfirst : first = accFirst an (sReg s c sr) hh := (accFirst_eq ..).symm
    clear_value first
    subst hfirst
    refine ⟨fun he hz => ?_, fun he hz => ?_, fun he => ⟨?_, ?_, ?_⟩, fun he => ⟨?_, ?_, ?_, ?_⟩⟩
    · exact congrArg ends ((mxMulOp_engine h hmul he).trans (if_neg (Bool.not_eq_true _ ▸ hz)))
    · exact congrArg ends ((mxMulOp_engine h hmul he).trans (if_pos hz))
    · refine ⟨_, congrArg ends (mxOp_engine h rfl he), fun e hlt => ?_⟩
      rw [elAt_vecOf (by decide) hlt]
      exact Nat.mod_eq_of_lt (BitVec.isLt _)
    · refine ⟨_, congrArg ends (mxOp_engine h rfl he), ?_, fun e hlt => ?_⟩
      · simp [elList, elCount, upto]
      · have get : (upto (1024 / 32))[e]? = some e := by simp [upto, hlt]
        rw [elList_map, List.getElem?_map, get]
        exact Nat.mod_eq_of_lt (elAt_lt _ _ _)
    · exact congrArg ends (mxOp_engine h rfl he)
    · exact congrArg ends (mxOp_noEngine h hmul he)
    · exact congrArg ends (mxOp_noEngine h rfl he)
    · exact congrArg ends (mxOp_noEngine h rfl he)
    · exact congrArg ends (mxOp_noEngine h rfl he)
  · intro s quad ix he q k
    refine ⟨fun m rest hq hs hi hb hz => ?_, fun m rest t hq hrest hs hl => ⟨fun hlt => ?_, fun hle => ?_⟩⟩
    · exact ⟨mxResult q m, congrArg Host.Outcome.next (mxStart_front he hq hs hi hb hz), mxResult_length q m,
        fun i j hi hj => mxResult_get q m hi hj⟩
    · have hd : mxDue k.cycles m = false := by simp [mxDue, hs, hlt]
      exact congrArg Host.Outcome.next (mxDone_early he hq hrest hd)
    · have hd : mxDue k.cycles m = true := by simp [mxDue, hs, hle]
      exact ⟨accWritten q.acc m, congrArg Host.Outcome.next (mxDone_due he hq hrest hd), accWritten_get hl⟩

end Sys2Proof.Machine
end

section
/-! PROOFS. Decisions, steps and PLLs of the grid clock (R304, R498, R499, R504). -/
namespace Sys2Proof.Machine

/-! ## The target of a decision (R498) -/

/-- R498: the decision that a state takes at an instant, by the target before its bounds. Its inputs rest on nothing that the
passing of a period changes. -/
theorem clockChoice_periodic (s : State) (e p : Nat) :
    clockChoice (periodic s e p) =
      { throttle := decide (regField s brdAgent 0x118 0 8 * 8 < hottest s)
        floor := decide (preTarget s (periodic s e p).now < (regField s brdAgent 0x114 8 5 : Nat))
        quiet := quietN s
        target := (max (preTarget s (periodic s e p).now) (regField s brdAgent 0x114 8 5 : Nat)).toNat } := rfl

/-- R498: `preTarget` in the rule's own words, `now` the instant of the decision. -/
theorem preTarget_spec (s : State) (now : Nat) :
    let f : Int := (gridFreq s : Int)
    let limit : Int := (regField s brdAgent 0x110 0 12 : Nat) * 10
    let stepW : Int := (regField s brdAgent 0x110 12 6 : Nat) * 10
    let hold := regField s brdAgent 0x110 24 8
    let fmax : Int := ((min gradeMax (regField s brdAgent 0x114 16 5) : Nat) : Int)
    let n : Int := (powerSum s).2
    let p := (powerSum s).1
    let power : Prop := powerB s now = true
    let hot : Prop := regField s brdAgent 0x118 0 8 * 8 < hottest s
    let g := preTarget s now
    (¬ power → ¬ hot → (g = f ∨ g = fmax ∨ g = f + 1)) ∧
    (∀ d : Nat, power → ¬ hot → f ≤ fmax → 0 < stepW → ((d : Int) - 1) * (stepW * n) < p - limit * n → p - limit * n ≤ (d : Int) * (stepW * n) → g = f - d) ∧
    (hot → g ≤ f - 1) ∧ (¬ power → hot → f ≤ fmax + 1 → g = f - 1) ∧
    (g = f + 1 → ¬ hot ∧ hold ≤ quietN s ∧ f < fmax) ∧
    (¬ power → ¬ hot → f < fmax → hold ≤ quietN s → g = f + 1) ∧ (¬ power → ¬ hot → f ≤ fmax → quietN s < hold → g = f) ∧
    (fmax < f → g ≤ fmax) ∧ g ≤ f + 1 := by
  intro f limit stepW hold fmax n p power hot g
  have hg : g = preForm f fmax (stepsN s : Nat) hold (quietN s) (powerB s now) (decide hot) := pre_form s now
  have := pre_arith f fmax (stepsN s : Nat) (Int.natCast_nonneg _) hold (quietN s) (powerB s now) (decide hot)
  dsimp only at this
  rw [← hg] at this
  simp only [decide_eq_true_eq, decide_eq_false_iff_not] at this
  obtain ⟨idle, lowered, cooled, cooledOne, risen, rises, stays, capped, bounded⟩ := this
  have off (hp : ¬ power) : powerB s now = false := Bool.not_eq_true _ ▸ hp
  refine ⟨fun hp => idle (off hp), fun d hp hh hf hw hlo hhi => ?_, cooled, fun hp => cooledOne (off hp), risen,
    fun hp => rises (off hp), fun hp => stays (off hp), capped, bounded⟩
  obtain ⟨hd, hpos⟩ := steps_eq s now d hp hw hlo hhi
  rw [hd] at lowered
  exact lowered hp hh hf (by exact_mod_cast hpos)

/-- R499, R505: when a decision is skipped. -/
theorem clockSkips_iff {s : State} {e p : Nat} :
    ((periodic s e p).crg.stepping = true ∨ (periodic s e p).svc.restarting = true ∨ (periodic s e p).boot.step < 5 ∨
      recovering (periodic s e p) = true) ↔
    (s.crg.stepping = true ∨ s.svc.restarting = true ∨ s.boot.step < 5 ∨ s.boot.step = 15) := by
  obtain ⟨-, -, hboot, hcrg, hsvc, -⟩ := periodic_rest s e p
  rw [recovering, decide_eq_true_eq, hboot, hcrg, hsvc]

/-- R498, R499: what a decision leaves, by the target before its bounds. -/
theorem clockBody_facts {s : State} (e p : Nat)
    (h : ¬ (s.crg.stepping = true ∨ s.svc.restarting = true ∨ s.boot.step < 5 ∨ s.boot.step = 15)) :
    let u := periodic s e p
    let t := ClockBody u
    let fmin : Int := (regField s brdAgent 0x114 8 5 : Nat)
    let g := preTarget s u.now
    t.brd.throttling = decide (regField s brdAgent 0x118 0 8 * 8 < hottest s) ∧ t.brd.capFloor = decide (g < fmin) ∧
    (max g fmin = (gridFreq s : Int) → t.crg = s.crg ∧ t.brd.quiet = quietN s ∧ t.brd.stepAt = s.brd.stepAt) ∧
    (max g fmin ≠ (gridFreq s : Int) → t.crg = { s.crg with target := some (max g fmin).toNat, stepping := true, lock := s.crg.lock &&& 0xF9 } ∧
      t.brd.quiet = 0 ∧ t.brd.stepAt = some u.now) := by
  intro u t fmin g
  have same : (max g fmin).toNat = gridFreq u ↔ max g fmin = (gridFreq s : Int) := by
    have hu : gridFreq u = gridFreq s := rfl
    have hmin : 0 ≤ fmin := Int.natCast_nonneg _
    rw [hu]
    omega
  obtain ⟨throttles, floors, keeps, steps⟩ := cap_facts u (mt clockSkips_iff.1 h)
  rw [show clockChoice u = _ from clockChoice_periodic s e p] at throttles floors keeps steps
  exact ⟨throttles, floors, fun ht => keeps (same.2 ht), fun ht => steps fun e => ht (same.1 e)⟩

/-! ## Relock of a step (R304, R499) -/

theorem bump0_cnt (s : State) (c : Cnt) : bump0 s c = { s with cnt := (bump0 s c).cnt } := by
  simp [bump0, bump, bumpN]

/-- R304: a RUNNING session counts a clock step. -/
def sessStepped (e : Nat × KSess) : Nat × KSess :=
  (e.1, if e.2.state = .running then { e.2 with clkSteps := min 0xFF (e.2.clkSteps + 1) } else e.2)

theorem stepRelock_runs {s : State} {dest : Nat} (h : s.crg.stepping = true) (ht : s.crg.target = some dest) :
    stepRelock s = { s with
      crg := { s.crg with freq := some dest, steps := min 0xFFFF (s.crg.steps + 1), stepping := false, lock := s.crg.lock ||| 6 }
      cnt := (bump0 s (if dest < gridFreq s then .brdStepDown else .brdStepUp)).cnt
      grd := { s.grd with sess := s.grd.sess.map sessStepped } } := by
  have stepped : (fun e : Nat × KSess => if e.2.state = .running then (e.1, { e.2 with clkSteps := satAdd 0xFF e.2.clkSteps 1 }) else e) =
      sessStepped := by
    funext e
    unfold sessStepped
    split <;> rfl
  have hdest : s.crg.target.getD gradeMax = dest := by rw [ht, Option.getD_some]
  rw [stepRelock, if_neg (by rw [h]; decide), hdest, stepped]
  dsimp only
  rw [bump0_cnt s]
  rfl

/-! ## PLLs (R504) -/

theorem getLsbD_setBits_clear (x : BitVec 8) (p k : Nat) (hk : k < 8) :
    (setBits x p 1 0).getLsbD k = (x.getLsbD k && decide (k ≠ p)) := by
  rw [setBits_one x p 0 k (by decide) hk]
  by_cases h : k = p <;> simp [h]

theorem getLsbD_setBits_set (x : BitVec 8) (p k : Nat) (hk : k < 8) :
    (setBits x p 1 1).getLsbD k = (x.getLsbD k || decide (k = p)) := by
  rw [setBits_one x p 1 k (by decide) hk]
  by_cases h : k = p <;> simp [h]

/-- Settles O50: a decision by the target of R498 and by whether it differs from the present frequency, a relock and the PLLs by
what their functions write. -/
theorem clockDecisionsAndSteps : Obligations.ClockDecisionsAndSteps := by
  unfold Obligations.ClockDecisionsAndSteps
  refine ⟨?_, ?_, ?_⟩
  · intro s u
    refine ⟨fun hskip => ?_, fun hstep hsvc hboot hrec => ?_⟩
    · exact (clockDecision_exec s).trans (congrArg Host.Outcome.next (if_pos (clockSkips_iff.2 hskip)))
    · have runs : ¬ (s.crg.stepping = true ∨ s.svc.restarting = true ∨ s.boot.step < 5 ∨ s.boot.step = 15) := by
        simp [hstep, hsvc, hrec, hboot]
      refine ⟨ClockBody u, clockDecision_exec s, ?_⟩
      intro f limit stepW hyst hold fmin fmax heat n p rested power hot calm quiet
      have hquiet : quiet = quietN s := if_congr (calm_iff s).symm rfl rfl
      have hpower : power = (powerB s u.now = true) := propext (power_iff s u.now).symm
      clear_value quiet power
      subst hquiet hpower
      obtain ⟨idle, lowered, cooled, cooledOne, risen, rises, stays, capped, bounded⟩ := preTarget_spec s u.now
      obtain ⟨throttles, floors, keeps, steps⟩ := clockBody_facts 6 1000000 runs
      exact ⟨preTarget s u.now, idle, lowered, cooled, cooledOne, risen, rises, stays, capped, bounded, throttles, floors, keeps, steps⟩
  · intro s
    refine ⟨fun hs => congrArg Host.Outcome.next (if_pos (by rw [hs]; rfl)), fun hs dest ht => ?_⟩
    refine ⟨_, congrArg Host.Outcome.next (stepRelock_runs hs ht), rfl, fun hlt => ?_, fun hle => ?_, fun n x hx => ?_, ?_, rfl⟩
    · rw [if_pos hlt]
    · rw [if_neg (Nat.not_lt.2 hle)]
    · exact List.mem_map.2 ⟨(n, x), hx, rfl⟩
    · exact List.map_map.trans rfl
  · intro s p
    refine ⟨fun hl => ?_, fun hl => ?_, fun hs => congrArg Host.Outcome.next (if_pos hs), fun hs => ?_⟩
    · exact congrArg Host.Outcome.next (if_pos (by rw [hl]; rfl))
    · refine ⟨_, congrArg Host.Outcome.next (if_neg (by rw [hl]; decide)), ?_, fun k hk => ?_⟩
      · rw [bump0_cnt]
        rfl
      · rw [bump0_cnt]
        exact getLsbD_setBits_clear _ _ _ hk
    · exact ⟨_, congrArg Host.Outcome.next (if_neg hs), rfl, fun k hk => getLsbD_setBits_set _ _ _ hk⟩

end Sys2Proof.Machine
end

section
/-! PROOFS. NOP, HALT and the branches (R313, R314, R318, R321, R322). -/
namespace Sys2Proof.Machine

/-- R314, R318: a branch has a bundle of the program to go to. -/
abbrev BranchWithin (s : State) (c : Nat) (off : BitVec 16) : Prop :=
  0 ≤ ((coreGet s c).pc : Int) + off.toInt ∧ ((coreGet s c).pc : Int) + off.toInt ≤ 16383

theorem branchOut_iff {s : State} {c : Nat} {off : BitVec 16} : branchOut s c off = true ↔ ¬ BranchWithin s c off := by
  simp only [branchOut, Bool.or_eq_true, decide_eq_true_eq, not_and_or, not_le]

section
variable {s : State} {core : BitVec 6} {ix : Nat} {i : Instr} {off : BitVec 16} {taken : Nat → Bool}
  {also : State → Nat → Nat → State} (h : coreSess s core.toNat = some ix) (w : wellFormed i = true)
include h w

theorem branchOp_outside (hd : ¬ BranchWithin s core.toNat off) :
    branchOp s core i off taken also = endSess s ix 8 (some core.toNat) 0 :=
  (slotOp_runs h w).trans (if_pos (branchOut_iff.2 hd))

theorem branchOp_within (hd : BranchWithin s core.toNat off) :
    branchOp s core i off taken also =
      if taken core.toNat then branchTo (also s ix core.toNat) core.toNat off else also s ix core.toNat :=
  (slotOp_runs h w).trans (if_neg fun e => branchOut_iff.1 e hd)

end

theorem decremented_eq_zero_iff (x : DWord) : x - 1 = 0 ↔ x = 1 := by
  bv_omega

/-- Settles O2: a branch by whether its target lies in the program, and by whether it is taken. -/
theorem branchesAndHalt : Obligations.BranchesAndHalt := by
  unfold Obligations.BranchesAndHalt
  intro s core ix sa off h c A dest ends jump less
  refine ⟨congrArg ends (slotOp_runs h rfl), congrArg ends (slotOp_runs h rfl), fun hin => ⟨?_, ?_, ?_, ?_⟩, fun hout => ?_⟩
  · exact congrArg ends ((branchOp_within h rfl hin).trans (if_pos rfl))
  · refine (congrArg ends (branchOp_within h rfl hin)).trans (congrArg ends ?_)
    exact if_congr decide_eq_true_iff rfl rfl
  · refine (congrArg ends (branchOp_within h rfl hin)).trans (congrArg ends ?_)
    exact (if_congr decide_eq_true_iff rfl rfl).trans (ite_not ..)
  · refine (congrArg ends (branchOp_within h rfl hin)).trans (congrArg ends ?_)
    exact (if_congr (decide_eq_true_iff.trans (not_congr (decremented_eq_zero_iff A))) rfl rfl).trans (ite_not ..)
  · have outside : ¬ BranchWithin s c off := fun hin => hout.elim (not_lt.2 hin.1) (not_lt.2 hin.2)
    exact ⟨congrArg ends (branchOp_outside h rfl outside), congrArg ends (branchOp_outside h rfl outside),
      congrArg ends (branchOp_outside h rfl outside), congrArg ends (branchOp_outside h rfl outside)⟩

end Sys2Proof.Machine
end

section
/-! PROOFS. The scalar instructions of slots S and X (R316, R319, R321, R322). -/
namespace Sys2Proof.Machine

/-! ## What the results are as numbers -/

theorem dword_shl_ofNat (a b : DWord) : a <<< shAmount b = BitVec.ofNat 64 (a.toNat * 2 ^ (b.toNat % 64)) := by
  rw [← Nat.shiftLeft_eq]
  rfl

theorem dword_shr_ofNat (a b : DWord) : a >>> shAmount b = BitVec.ofNat 64 (a.toNat / 2 ^ (b.toNat % 64)) := by
  apply BitVec.eq_of_toNat_eq
  rw [BitVec.toNat_ushiftRight, Nat.shiftRight_eq_div_pow, BitVec.toNat_ofNat]
  exact (Nat.mod_eq_of_lt (Nat.lt_of_le_of_lt (Nat.div_le_self _ _) a.isLt)).symm

theorem map_ite_lt_eq_min {α β : Type} [LinearOrder β] (f : α → β) (a b : α) :
    f (if f a < f b then a else b) = min (f a) (f b) :=
  (apply_ite f ..).trans (min_def_lt ..).symm

theorem map_ite_lt_eq_max {α β : Type} [LinearOrder β] (f : α → β) (a b : α) :
    f (if f a < f b then b else a) = max (f a) (f b) :=
  (apply_ite f ..).trans (max_def_lt ..).symm

theorem boolD_decide {p : Prop} [Decidable p] : boolD (decide p) = if p then 1 else 0 :=
  if_congr decide_eq_true_iff rfl rfl

theorem boolD_decide_of_iff_not {p q : Prop} [Decidable p] [Decidable q] (h : p ↔ ¬ q) : boolD (decide p) = if q then 0 else 1 :=
  (if_congr (decide_eq_true_iff.trans h) rfl rfl).trans (ite_not ..)

theorem mul_ofInt (a b : DWord) : a * b = BitVec.ofInt 64 (a.toInt * b.toInt) := by
  rw [BitVec.ofInt_mul, BitVec.ofInt_toInt, BitVec.ofInt_toInt]

/-- R321: MULH gives what the low 64 bits leave of the signed product. -/
theorem mulh_toInt (a b : DWord) :
    (BitVec.ofInt 64 ((a.toInt * b.toInt).fdiv (2 ^ 64))).toInt * 2 ^ 64 + ((a * b).toNat : Int) = a.toInt * b.toInt := by
  have low : ((a * b).toNat : Int) = a.toInt * b.toInt % 2 ^ 64 := by
    rw [mul_ofInt, BitVec.toNat_ofInt]
    exact Int.toNat_of_nonneg (Int.emod_nonneg _ (by decide))
  have hlo : -2 ^ 126 ≤ a.toInt * b.toInt := BitVec.le_toInt_mul_toInt
  have hhi : a.toInt * b.toInt ≤ 2 ^ 126 := BitVec.toInt_mul_toInt_le
  rw [low, Int.fdiv_eq_ediv_of_nonneg _ (by decide), BitVec.toInt_ofInt_eq_self (by decide) (by omega) (by omega)]
  exact Int.ediv_mul_add_emod ..

theorem mulhu_toNat (a b : DWord) :
    (BitVec.ofNat 64 (a.toNat * b.toNat / 2 ^ 64)).toNat * 2 ^ 64 + (a * b).toNat = a.toNat * b.toNat := by
  have high : a.toNat * b.toNat / 2 ^ 64 < 2 ^ 64 := Nat.div_lt_of_lt_mul (Nat.mul_lt_mul'' a.isLt b.isLt)
  rw [BitVec.toNat_ofNat, Nat.mod_eq_of_lt high, BitVec.toNat_mul]
  exact Nat.div_add_mod' ..

theorem lui_ofInt (up : BitVec 21) : (up.signExtend 64) <<< 16 = BitVec.ofInt 64 (up.toInt * 2 ^ 16) := by
  rw [BitVec.ofInt_mul, BitVec.shiftLeft_eq_mul_twoPow]
  rfl

/-- R316: a scalar instruction that ends in this step lands its result. -/
theorem sOp_next {s : State} {core : BitVec 6} {ix lat : Nat} {i : Instr} {sd : BitVec 5} {v : Nat → DWord} {x : DWord}
    (h : coreSess s core.toNat = some ix) (w : wellFormed i = true) (e : v core.toNat = x) :
    Host.Outcome.next (φ := Fault) (ρ := Refusal) (sOp s core i lat sd v) =
      .next (landIn s ix core.toNat lat (.sreg sd.toNat x)) :=
  congrArg Host.Outcome.next ((scalarOp_lands h w).trans (e ▸ rfl))

/-- Settles O1: each instruction lands the value of its function, by what that value is as a number. -/
theorem scalarResults : Obligations.ScalarResults := by
  unfold Obligations.ScalarResults
  refine ⟨?_, ?_⟩
  · intro s core ix sd sa sb imm up h A B lands
    have zext : imm.zeroExtend 64 = BitVec.ofNat 64 imm.toNat := (BitVec.ofNat_toNat ..).symm
    exact ⟨sOp_next h rfl rfl, sOp_next h rfl rfl, sOp_next h rfl rfl, sOp_next h rfl rfl, sOp_next h rfl rfl,
      sOp_next h rfl (dword_shl_ofNat A B), sOp_next h rfl (dword_shr_ofNat A B),
      ⟨_, sOp_next h rfl rfl, BitVec.toInt_sshiftRight⟩,
      ⟨_, sOp_next h rfl rfl, map_ite_lt_eq_min BitVec.toInt A B⟩,
      ⟨_, sOp_next h rfl rfl, map_ite_lt_eq_max BitVec.toInt A B⟩,
      ⟨_, sOp_next h rfl rfl, map_ite_lt_eq_min BitVec.toNat A B⟩,
      ⟨_, sOp_next h rfl rfl, map_ite_lt_eq_max BitVec.toNat A B⟩,
      sOp_next h rfl boolD_decide, sOp_next h rfl (boolD_decide_of_iff_not Iff.rfl),
      sOp_next h rfl boolD_decide, sOp_next h rfl boolD_decide,
      sOp_next h rfl (boolD_decide_of_iff_not not_lt.symm), sOp_next h rfl (boolD_decide_of_iff_not not_lt.symm),
      sOp_next h rfl rfl, ⟨_, sOp_next h rfl rfl, mulh_toInt A B⟩, ⟨_, sOp_next h rfl rfl, mulhu_toNat A B⟩,
      sOp_next h rfl rfl, sOp_next h rfl (congrArg (A &&& ·) zext), sOp_next h rfl (congrArg (A ||| ·) zext),
      sOp_next h rfl (congrArg (A ^^^ ·) zext), sOp_next h rfl (lui_ofInt up)⟩
  · intro s core ix sd sa sb h A B lands single
    have f2i : BitVec.ofInt 64 (numToInt 64 1 (decodeF fp32 A)) = _ := congrArg (BitVec.ofInt 64) (f2i_saturates _)
    exact ⟨sOp_next h rfl rfl, sOp_next h rfl rfl, sOp_next h rfl rfl, sOp_next h rfl rfl, sOp_next h rfl rfl,
      sOp_next h rfl rfl, sOp_next h rfl rfl, sOp_next h rfl rfl, sOp_next h rfl f2i⟩

end Sys2Proof.Machine
end

section
/-! PROOFS. Vector instructions, element by element, and the pairwise sum (R311, R319, R323 to R325). -/
namespace Sys2Proof.Machine

/-! ## Elements of a type -/

theorem tyBytes_float {t : Nat} (ht : t ≤ 2) : tyBytes t = if t = 0 then 4 else 2 := by
  unfold tyBytes
  rw [if_neg (show t ≠ 5 by omega)]
  exact if_congr (by omega) rfl rfl

theorem tyBytes_fills (t : Nat) : tyBytes t * (128 / tyBytes t) = 128 := by
  unfold tyBytes
  split_ifs <;> rfl

/-- Settles O4: each element-wise instruction is a `vOp` of its function. -/
theorem vectorFloatResults : Obligations.VectorFloatResults := by
  unfold Obligations.VectorFloatResults
  refine ⟨?_, ?_⟩
  · intro s core ix vd va vb pg ty h hty c p w f el gives
    have hw : tyBytes ty.toNat = w := tyBytes_float hty
    clear_value w
    subst hw
    have wf : decide (ty.toNat ≤ 2) = true := decide_eq_true hty
    have fills := tyBytes_fills ty.toNat
    exact ⟨vOp_lands h wf fills, vOp_lands h wf fills, vOp_lands h wf fills, vOp_lands h wf fills, vOp_lands h wf fills,
      vOp_lands h wf fills, vOp_lands h wf fills, vOp_lands h wf fills, vOp_lands h wf fills, vOp_lands h rfl rfl,
      vOp_lands h rfl rfl⟩
  · intro s core ix vd va pg ty h hty c w leaf leaves total
    have hw : tyBytes ty.toNat = w := tyBytes_float hty
    clear_value w
    subst hw
    exact congrArg Host.Outcome.next (slotOp_runs h (decide_eq_true hty))

/-! ## Integers, compares and selects -/

theorem elCount_tyBytes (t : Nat) : elCount (8 * tyBytes t) = 128 / tyBytes t :=
  Nat.mul_div_mul_left (m := 8) 128 _ (by decide)

theorem sshiftRight_ofNat_toNat (w a n : Nat) :
    ((BitVec.ofNat w a).sshiftRight n).toNat = ((signedOf w a >>> n) % 2 ^ w).toNat := by
  have bits (x : BitVec w) : x.toNat = (x.toInt % 2 ^ w).toNat := by
    conv_lhs => rw [← BitVec.ofInt_toInt (x := x), BitVec.toNat_ofInt]
    rw [Nat.cast_pow, Nat.cast_ofNat]
  rw [bits, BitVec.toInt_sshiftRight]
  rfl

/-- Element `e` of a register, in the width of a type. -/
abbrev vElem (s : State) (c t : Nat) (r : BitVec 5) (e : Nat) : Nat := elAt (vReg s c r) (8 * tyBytes t) e

/-- How element `e` of va compares to that of vb (R323): by their difference as signed integers or their order as numbers, not at
all where one is a NaN. -/
def elemOrder (s : State) (c t : Nat) (va vb : BitVec 5) (e : Nat) : Option Int :=
  if 3 ≤ t then some (signedOf (8 * tyBytes t) (vElem s c t va e) - signedOf (8 * tyBytes t) (vElem s c t vb e))
  else if isNanF (tyFmt t) (vElem s c t va e) ∨ isNanF (tyFmt t) (vElem s c t vb e) then none
  else some (cmpNum (decodeF (tyFmt t) (vElem s c t va e)) (decodeF (tyFmt t) (vElem s c t vb e)))

/-- Is element `e` governed, and does its order pass the test? -/
abbrev elemPasses (s : State) (c t : Nat) (pg : BitVec 3) (va vb : BitVec 5) (test : Option Int → Bool) (e : Nat) : Bool :=
  governed (pReg s c pg) (tyBytes t) e && test (elemOrder s c t va vb e)

section
variable {s : State} {core : BitVec 6} {ix : Nat} {i : Instr} {pd pg ty : BitVec 3} {vd va vb : BitVec 5}
  {f : Nat → Nat → Nat → Nat} {g : Nat → Nat} {test : Option Int → Bool} {P : Option Int → Prop}
  (h : coreSess s core.toNat = some ix) (w : wellFormed i = true)
include h w

/-- R311, R323: an integer instruction lands `f` of the elements of its operands. -/
theorem vInt2_lands
    (hfg : ∀ e, f (8 * tyBytes ty.toNat) (vElem s core.toNat ty.toNat va e) (vElem s core.toNat ty.toNat vb e) %
      2 ^ (8 * tyBytes ty.toNat) = g e % 2 ^ (8 * tyBytes ty.toNat)) :
    landsElements (.next (vInt2 s core i vd va vb pg ty f)) s ix core.toNat 1 vd.toNat (pReg s core.toNat pg)
      (tyBytes ty.toNat) g :=
  landsElements_congr (fun e _ => hfg e) (vOp_lands h w (tyBytes_fills _))

theorem vCmp_eq :
    vCmp s core i pd va vb pg ty test = landIn s ix core.toNat 1 (.pred pd.toNat (BitVec.ofNat 128 (vecOf (tyBytes ty.toNat)
      ((upto (128 / tyBytes ty.toNat)).map fun e =>
        if elemPasses s core.toNat ty.toNat pg va vb test e then 2 ^ tyBytes ty.toNat - 1 else 0)))) := by
  have order {x y : Option Int} : (if ty.toNat ≤ 2 then x else y) = if 3 ≤ ty.toNat then y else x :=
    (ite_not ..).symm.trans (if_congr Nat.not_le rfl rfl)
  simp only [vCmp, slotOp_runs h w, order, elemPasses, elemOrder, vElem, Bool.and_eq_true]

/-- R311, R323: a compare writes its outcome to all predicate bits of a governed element and 0 to those of the others. -/
theorem vCmp_lands (hP : ∀ x, test x = true ↔ P x) :
    ∃ v, Host.Outcome.next (φ := Fault) (ρ := Refusal) (vCmp s core i pd va vb pg ty test) =
        .next (landIn s ix core.toNat 1 (.pred pd.toNat v)) ∧
      ∀ e, e < 128 / tyBytes ty.toNat → ∀ b, b < tyBytes ty.toNat →
        (v.getLsbD (tyBytes ty.toNat * e + b) = true ↔ (pReg s core.toNat pg).getLsbD (tyBytes ty.toNat * e) = true ∧
          P (elemOrder s core.toNat ty.toNat va vb e)) := by
  refine ⟨_, congrArg Host.Outcome.next (vCmp_eq h w), fun e he b hb => ?_⟩
  rw [predBits_spec (elemPasses s core.toNat ty.toNat pg va vb test) (tyBytes_fills _) he hb, Bool.and_eq_true, hP]
  rfl

end

/-- Settles O5: integer instructions by `vInt2_lands`, compares by `vCmp_lands`, and VSEL bit by bit under the mask of its
predicate. -/
theorem vectorIntegerAndSelectResults : Obligations.VectorIntegerAndSelectResults := by
  unfold Obligations.VectorIntegerAndSelectResults
  refine ⟨?_, ?_⟩
  · intro s core ix vd va vb pg ty h hty c p w el num gives
    refine ⟨landsElements_congr (fun e _ => Nat.mod_mod _ _) (vOp_lands h (decide_eq_true hty) (tyBytes_fills ty.toNat)),
      fun hint => ?_⟩
    have wf : decide (3 ≤ ty.toNat ∧ ty.toNat ≤ 5) = true := decide_eq_true ⟨hint, hty⟩
    refine ⟨vInt2_lands h wf fun e => Nat.mod_mod _ _, vInt2_lands h wf fun e => Nat.mod_mod _ _, vInt2_lands h wf fun e => rfl,
      vInt2_lands h wf fun e => rfl, vInt2_lands h wf fun e => rfl, vInt2_lands h wf fun e => ?_, vInt2_lands h wf fun e => ?_,
      vInt2_lands h wf fun e => ?_, vInt2_lands h wf fun e => rfl, vInt2_lands h wf fun e => rfl⟩
    · rw [Nat.mod_mod, Nat.shiftLeft_eq]
      rfl
    · rw [Nat.shiftRight_eq_div_pow]
      rfl
    · rw [sshiftRight_ofNat_toNat]
      rfl
  · intro s core ix vd va vb pd pa pb pg ty h hty c w f el diff holds lands
    have wf : decide (ty.toNat ≤ 5) = true := decide_eq_true hty
    have some_any (p : Int → Prop) [DecidablePred p] (x : Option Int) :
        x.any (fun d => decide (p d)) = true ↔ ∃ d, x = some d ∧ p d := by
      simp only [Option.any_eq_true, decide_eq_true_iff]
    refine ⟨vCmp_lands (P := fun x => x = some 0) h wf fun x => decide_eq_true_iff,
      vCmp_lands (P := fun x => x ≠ some 0) h wf fun x => decide_eq_true_iff,
      vCmp_lands (P := fun x => ∃ d, x = some d ∧ d < 0) h wf (some_any (· < 0)),
      vCmp_lands (P := fun x => ∃ d, x = some d ∧ d ≤ 0) h wf (some_any (· ≤ 0)), ?_, ?_⟩
    · exact ⟨_, congrArg Host.Outcome.next (slotOp_runs h wf), fun e he => elAt_vsel (tyBytes_fills _) _ _ _ he⟩
    · refine ⟨congrArg Host.Outcome.next (slotOp_runs h rfl), congrArg Host.Outcome.next (slotOp_runs h rfl),
        congrArg Host.Outcome.next (slotOp_runs h rfl), congrArg Host.Outcome.next (slotOp_runs h rfl), ?_⟩
      have w : wellFormed (.vext core vd va vb ty) = true := wf
      refine congrArg Host.Outcome.next ((scalarOp_lands h w).trans ?_)
      dsimp only
      rw [elCount_tyBytes]
      rfl

end Sys2Proof.Machine
end

section
/-! PROOFS. Stochastic conversion and MX blocks (R327 to R329). -/
namespace Sys2Proof.Machine

/-! ## Stochastic VCVT -/

/-- R328: the narrow elements of a vector fill a whole number of parts. -/
theorem srParts_fill {b : Nat} (hb : b = 16 ∨ b = 8) : 0 < 32 / b ∧ 32 * b * (32 / b) = 1024 ∧ 1024 / (32 / b) = 32 * b := by
  rcases hb with rfl | rfl <;> decide

/-- R327, R328: element `e` of va, rounded with its own random value. -/
abbrev srElem (s : State) (ix c dst : Nat) (sat : Bool) (va : BitVec 5) (e : Nat) : Nat :=
  roundSr dst sat (elAt (vReg s c va) 32 e)
    (srValue (sessGet s ix).seed ((sessGet s ix).cores.idxOf c) (coreGet s c).srctr e)

/-- R328: the state once the four blocks of a stochastic VCVT are taken and counted. -/
abbrev srTaken (s : State) (ix c : Nat) : State :=
  bumpN (corePut s c { coreGet s c with srctr := (coreGet s c).srctr + 4 }) .grdSrBlocks 0 0 (sessGet s ix).pitch.toNat 4

theorem cvtSrOp_lands {s : State} {core : BitVec 6} {ix : Nat} {i : Instr} {vd va : BitVec 5} {dst part : Nat} {sat : Bool}
    (h : coreSess s core.toNat = some ix) (w : wellFormed i = true) (hb : typeBits dst = 16 ∨ typeBits dst = 8) :
    cvtSrOp s core i vd va dst sat part =
      landIn (srTaken s ix core.toNat) ix core.toNat 4 (.vreg vd.toNat (partMask (32 * typeBits dst) (part % (32 / typeBits dst)))
        (BitVec.ofNat 1024 (vecOf (typeBits dst) ((upto 32).map (srElem s ix core.toNat dst sat va)) <<<
          (32 * typeBits dst * (part % (32 / typeBits dst)))))) := by
  obtain ⟨_, _, hbits⟩ := srParts_fill hb
  rw [cvtSrOp, slotOp_runs h w]
  simp only [hbits]
  rfl

/-- R327: a finite value between two neighbours of its type, by its fraction of the way to the one away from zero. -/
theorem roundSr_between {t x r m k : Nat} {sat neg : Bool} {e u : Int} (hx : decodeF fp32 x = .fin neg m e) (hm : m ≠ 0)
    (hu : ulpExp (typeFmt t) m e = u) (hk : (u - e).toNat = k) (hlt : e < u) :
    roundSr t sat x r = (roundT t 0 sat (.fin neg
      (if m % 2 ^ k ≠ 0 ∧ 2 ^ k * 65536 ≤ m % 2 ^ k * 65536 + r * 2 ^ k then m / 2 ^ k + 1 else m / 2 ^ k) u)).1 := by
  have inexact : ¬ u - e ≤ 0 := by omega
  simp only [roundSr, hx, if_neg hm, hu, hk, if_neg inexact, Bool.and_eq_true, decide_eq_true_eq]

/-! ## VMX -/

/-- R329: the parts of a vector that the elements of a block fill, and a well-formed VMX names one of them. -/
theorem mxParts_fill {core : BitVec 6} {vd va sd : BitVec 5} {elt : BitVec 4} {part : BitVec 3}
    (w : wellFormed (.vmx core vd va elt part sd) = true) :
    0 < (if elt.toNat = 5 then 16 else 32) ∧ (if elt.toNat = 5 then 16 else 32) * 8 * (if elt.toNat = 5 then 8 else 4) = 1024 ∧
      part.toNat < if elt.toNat = 5 then 8 else 4 := by
  simp only [wellFormed, Bool.and_eq_true, Bool.or_eq_true, decide_eq_true_eq] at w
  obtain ⟨_, hpart⟩ := w
  by_cases ht : elt.toNat = 5
  · simp only [if_pos ht]
    exact ⟨by decide, by decide, part.isLt⟩
  · simp only [if_neg ht]
    exact ⟨by decide, by decide, hpart.resolve_left ht⟩

theorem mxBlock_length (t : Nat) (vs : List Num) : (mxBlock t vs).2.length = vs.length := by
  unfold mxBlock
  split <;> simp

theorem leNat_ofNat_map (n : Nat) (g : Nat → Nat) :
    leNat ((upto n).map fun e => BitVec.ofNat 8 (g e)) = vecOf 8 ((upto n).map fun e => g e % 256) := by
  rw [leNat_lt_vec, List.map_map]
  rfl

/-- R250, R329: bytes of the elements of a block: two E2M1 elements, or one of another type. -/
theorem packEls_bytes {t : Nat} {l : List Nat} (hl : l.length = 32) :
    packEls t l = (upto (if t = 5 then 16 else 32)).map fun e => BitVec.ofNat 8
      (if t = 5 then l.getD (2 * e) 0 + 16 * l.getD (2 * e + 1) 0 else l.getD e 0) := by
  by_cases ht : t = 5
  · subst ht
    exact packPairs_get 16 l hl
  · simp only [if_neg ht]
    rw [packPairs_other ht]
    refine List.ext_getElem (by simp [upto, hl]) fun n h1 h2 => ?_
    rw [List.length_map] at h1
    simp [upto, h1]

/-- R329: the scale byte and the elements of the block that a register holds. -/
abbrev vmxBlock (s : State) (c elt : Nat) (va : BitVec 5) : Nat × List Nat :=
  mxBlock elt ((upto 32).map fun e => decodeF fp32 (elAt (vReg s c va) 32 e))

theorem vmxOp_lands {s : State} {core : BitVec 6} {ix : Nat} {i : Instr} {vd va sd : BitVec 5} {elt part : Nat}
    (h : coreSess s core.toNat = some ix) (w : wellFormed i = true) :
    vmxOp s core i vd va elt part sd =
      landIn (landIn s ix core.toNat 6 (.vreg vd.toNat (partMask ((if elt = 5 then 16 else 32) * 8) part) (BitVec.ofNat 1024
          (leNat (packEls elt (vmxBlock s core.toNat elt va).2) <<< ((if elt = 5 then 16 else 32) * 8 * part)))))
        ix core.toNat 6 (.sreg sd.toNat (BitVec.ofNat 64 (vmxBlock s core.toNat elt va).1)) := by
  have bits : (if elt = 5 then 128 else 256) = (if elt = 5 then 16 else 32) * 8 := by
    rw [ite_mul]
  rw [vmxOp, slotOp_runs h w]
  simp only [elList_map, bits]

/-- Settles O7: a stochastic VCVT and a VMX by what they land and the part it goes to, the rounding by `roundSr_between`. -/
theorem stochasticAndMxResults : Obligations.StochasticAndMxResults := by
  unfold Obligations.StochasticAndMxResults
  refine ⟨?_, ?_, ?_⟩
  · intro s core ix vd va dstT sat part h hdst c k cr b rank word r
    have hb : b = 16 ∨ b = 8 := typeBits_dst hdst
    obtain ⟨hpos, hfill, _⟩ := srParts_fill hb
    refine ⟨_, _, congrArg Host.Outcome.next (cvtSrOp_lands h (decide_eq_true hdst) hb), fun e he => ?_⟩
    exact partOf_cases (by decide) hfill (Nat.mod_lt _ hpos) he
  · intro t sat x r neg m e hx hm u k hu away
    have rounded := roundSr_between (r := r) (sat := sat) hx hm rfl rfl hu
    exact ⟨fun ha => rounded.trans (by rw [if_pos ha]), fun ha => rounded.trans (by rw [if_neg ha])⟩
  · intro s core ix vd va elt part sd h w c block el n
    have hl : block.2.length = 32 := (mxBlock_length ..).trans (by simp [upto])
    obtain ⟨hpos, hfill, hpart⟩ := mxParts_fill w
    refine ⟨_, _, congrArg Host.Outcome.next (vmxOp_lands h w), fun e he => ?_⟩
    rw [packEls_bytes hl, leNat_ofNat_map]
    obtain ⟨inside, outside⟩ := partOf_cases (b := 8) hpos hfill hpart he
    exact ⟨fun hp => ⟨(inside hp).2, (inside hp).1.trans (Nat.mod_mod _ _)⟩, outside⟩

end Sys2Proof.Machine
end

section
/-! PROOFS. Lane faults and the lane-map exchange (R349, R350, R352 to R355). -/
namespace Sys2Proof.Machine

/-! ## Lane faults -/

/-- R352: the exchange that this side asks for when lane `l` of a port that carried `x`'s map has failed. -/
abbrev laneSwapRequest (s : State) (l : Nat) (x : Prt) : LmapSwap :=
  { asker := true, lane := l, phys := l, map := setBits x.map (4 * l) 4 8, epoch := x.epoch + 1, since := s.now }

/-- R355: a fault of a lane leaves no way to go on once the port runs two links, has lost a lane or swaps one. -/
theorem laneSwap_eq (s : State) (p l : Nat) (x : Prt) (cause : Nat) :
    laneSwap s p l x cause =
      if portSplit s p = true ∨ x.failed ≠ [] ∨ x.swap ≠ none then retirePort s p cause
      else if l = 8 then degradeUnit s (uPort p) cause
      else if spareUsable s p = true then
        sendLmap (prtMod s p (fun z => { z with swap := some (laneSwapRequest s l x) })) p 1 (laneSwapRequest s l x)
      else retirePort s p cause :=
  if_congr (by simp [Option.isSome_iff_ne_none]) rfl rfl

theorem softFault_eq (s : State) (p l n : Nat) :
    softFault s p l n =
      if serving (uAct (bumpN s .prtFecSym p l 0 n) (uPort p)) = false ∨ l ∈ (prtGet (bumpN s .prtFecSym p l 0 n) p).failed then
        bumpN s .prtFecSym p l 0 n
      else laneSwap (laneFail (bumpN s .prtFecSym p l 0 n) p l 0x30) p l (prtGet (bumpN s .prtFecSym p l 0 n) p) 0x30 :=
  if_congr (by rw [Bool.not_eq_true']) rfl rfl

theorem hardFault_eq (s : State) (p l : Nat) :
    hardFault s p l =
      if serving (uAct s (uPort p)) = false ∨ l ∈ (prtGet s p).failed then s
      else if portSplit s p = true ∨ (prtGet s p).failed ≠ [] ∨ (l < 8 ∧ spareUsable s p = false) then
        retirePort (laneFail s p l 0x31) p 0x31
      else portDown (laneFail s p l 0x31) p :=
  if_congr (by rw [Bool.not_eq_true']) rfl (if_congr (by simp) rfl rfl)

theorem not_faultIgnored {s : State} {p l : Nat} {x : Prt} (hs : serving (uAct s (uPort p)) = true) (hl : l ∉ x.failed) :
    ¬ (serving (uAct s (uPort p)) = false ∨ l ∈ x.failed) :=
  fun h => h.elim (fun e => Bool.noConfusion (hs.symm.trans e)) hl

/-- R354: the peer is absent where every lane of the port is dark. -/
theorem dark_length_iff (dark : BitVec 9) : ((upto 9).filter (fun i => dark.getLsbD i)).length = 9 ↔ dark = 0x1FF := by
  have full : ((upto 9).filter (fun i => dark.getLsbD i)).length = 9 ↔ ∀ i, i < 9 → dark.getLsbD i = true := by
    simpa [upto] using List.length_filter_eq_length_iff (p := fun i => dark.getLsbD i) (l := List.range 9)
  refine full.trans ⟨fun h => ?_, fun h i hi => ?_⟩
  · refine (BitVec.eq_of_getLsbD_eq fun i hi => ?_).trans (show BitVec.allOnes 9 = 0x1FF by decide)
    rw [h i hi, BitVec.getLsbD_allOnes, decide_eq_true hi]
  · rw [h, show (0x1FF : BitVec 9) = BitVec.allOnes 9 by decide, BitVec.getLsbD_allOnes, decide_eq_true hi]

/-- The state in which the lanes that stayed dark have failed (R354 step 3). -/
abbrev darkFailed (s : State) (p : Nat) (dark : BitVec 9) : State :=
  ((upto 9).filter (fun i => dark.getLsbD i)).foldl (fun w i => laneFail w p i 0x31) (nowTo s ((prtGet s p).since + 200000000))

theorem bringUpTimeout_eq {s : State} {p : Nat} {dark : BitVec 9} (ht : uAct s (uPort p) = .training) (hd : dark ≠ 0) :
    bringUpTimeout s p dark =
      if dark = 0x1FF then prtMod (nowTo s ((prtGet s p).since + 200000000)) p (fun z => { z with absent := true })
      else if lanesLost (darkFailed s p dark) p = true then retirePort (darkFailed s p dark) p 0x31
      else darkFailed s p dark :=
  (if_neg (not_or.2 ⟨not_not_intro ht, hd⟩)).trans (if_congr (dark_length_iff dark) rfl rfl)

/-! ## Frames of the lane-map exchange -/

/-- R361: an LMAP frame that passes its checks, on a port of one link whose link is UP, is handed to its function. -/
theorem lmapRx_runs {s : State} {op : Nat} {rx : KlrRx} {k : State → Nat → LmapSwap → State}
    (hup : (klrGet s rx.link.val).state = .up) (hmin : 64 ≤ rx.bytes) (hmax : rx.bytes ≤ 9216)
    (hcrc : crc32c (klrHdrBytes rx.hdr) = rx.hdr.hcrc) (hver : rx.hdr.ver = 1) (htyp : rx.hdr.typ = 3)
    (hlen : 16 ≤ rx.body.length) (hbcrc : (crc32c (rx.body.take 12)).toNat = beAt rx.body 12 4)
    (hone : portSplit s (rx.link.val / 2) = false) (hop : (byteAt rx.body 0).toNat = op) :
    lmapRx s op rx k = k (klrFields s rx.link.val rx.hdr) (rx.link.val / 2) (lmapOf s.now rx.body) := by
  refine (klrBody_runs (.inl hup) hmin hmax hcrc hver (by rw [htyp]; rfl) (by decide) hlen hbcrc).trans (if_neg ?_)
  simp [hup, hop, hone]

theorem lmapSame_of_eq {a b : LmapSwap} (he : a.epoch = b.epoch) (hp : a.phys = b.phys) : lmapSame a b = true := by
  simp [lmapSame, he, hp]

section NoExchange
variable {s : State} {p : Nat} {w : LmapSwap} (h : (prtGet s p).swap = none)
include h

theorem lmapReq_idle :
    lmapReq s p w =
      if (prtGet s p).failed ≠ [] ∨ spareOn s p = false ∨ 7 < w.phys then
        retirePort (laneFail (sendLmap s p 5 w) p w.phys 0x30) p 0x30
      else sendSwitch (sendLmap (laneFail s p w.phys 0x30) p 2 w) p w := by
  simp only [lmapReq, h]
  exact if_congr (by simp) rfl rfl

theorem lmapAck_idle : lmapAck s p w = s := by rw [lmapAck, h]
theorem lmapSwitch_idle : lmapSwitch s p w = s := by rw [lmapSwitch, h]
theorem lmapDone_idle : lmapDone s p w = s := by rw [lmapDone, h]
theorem lmapRefuse_idle : lmapRefuse s p w = s := by rw [lmapRefuse, h]
theorem lmapPoint_idle : lmapPoint s p = s := by rw [lmapPoint, h]
theorem lmapTimeout_idle : lmapTimeout s p = s := by rw [lmapTimeout, h]

end NoExchange

section Exchange
variable {s : State} {p : Nat} {o w : LmapSwap} (h : (prtGet s p).swap = some o)
include h

/-- R353: a REQ that crosses this side's own for the same lane and epoch counts as its ACK; another retires the port. -/
theorem lmapReq_crossed :
    lmapReq s p w =
      if o.asker = true ∧ o.sentSwitch = false ∧ o.phys = w.phys ∧ o.epoch = w.epoch then sendSwitch s p o
      else retirePort (laneFail s p w.phys 0x30) p 0x30 := by
  simp only [lmapReq, h, Bool.not_eq_true']

theorem lmapAck_answers (ha : o.asker = true) (hs : o.sentSwitch = false) (hw : lmapSame o w = true) :
    lmapAck s p w = sendSwitch s p o := by
  rw [lmapAck, h]
  exact if_pos ⟨ha, by rw [hs]; rfl, hw⟩

theorem lmapSwitch_notes (hw : lmapSame o w = true) :
    lmapSwitch s p w = prtMod s p (fun z => { z with swap := some { o with gotSwitch := true } }) := by
  rw [lmapSwitch, h]
  exact if_pos hw

theorem lmapDone_notes (hw : lmapSame o w = true) :
    lmapDone s p w = lmapFinish (prtMod s p (fun z => { z with swap := some { o with gotDone := true } })) p := by
  rw [lmapDone, h]
  exact if_pos hw

theorem lmapRefuse_retires (ha : o.asker = true) : lmapRefuse s p w = retirePort s p 0x30 := by
  rw [lmapRefuse, h]
  exact if_pos ha

theorem lmapTimeout_takesDown : lmapTimeout s p = portDown (nowTo s (o.since + 50000)) p := by rw [lmapTimeout, h]

theorem lmapPoint_eq :
    lmapPoint s p =
      if o.gotSwitch = true ∧ o.sentSwitch = true ∧ o.sentDone = false then
        lmapFinish (sendLmap (prtMod s p (fun z => { z with map := o.map, epoch := o.epoch, swap := some { o with sentDone := true } })) p 4 o) p
      else s := by
  rw [lmapPoint, h]
  exact if_congr (by rw [Bool.not_eq_true']) rfl rfl

theorem lmapFinish_ends (hs : o.sentDone = true) (hg : o.gotDone = true) :
    lmapFinish s p =
      degradeUnit (bump (prtMod s p (fun z => { z with swap := none, spareUsed := true })) .prtSwap p 0 0) (uPort p) 0x30 := by
  rw [lmapFinish, h]
  exact if_pos ⟨hs, hg⟩

end Exchange

/-- Settles O40: lane faults by the branches of R355, LMAP frames by whether an exchange runs and is the frame's own. -/
theorem laneFaultsAndSpares : Obligations.LaneFaultsAndSpares := by
  unfold Obligations.LaneFaultsAndSpares
  refine ⟨?_, ?_, ?_⟩
  · intro s port lane symbols dark p l t x lanes
    have soft : exec (.laneSoftFault port lane symbols) s = .next _ := congrArg Host.Outcome.next (softFault_eq s p l symbols.toNat)
    have hard : exec (.laneHardFault port lane) s = .next _ := congrArg Host.Outcome.next (hardFault_eq s p l)
    refine ⟨fun hi => soft.trans (congrArg _ (if_pos hi)), fun hserve hl => ?_,
      fun hi => hard.trans (congrArg _ (if_pos hi)), fun hserve hl => ?_, fun ht hd => ?_, fun ht => ?_, fun ht ha => ?_⟩
    · intro y u
      have swaps := soft.trans (congrArg _ ((if_neg (not_faultIgnored hserve hl)).trans (laneSwap_eq u p l y 0x30)))
      refine ⟨fun hlost => swaps.trans (congrArg _ (if_pos hlost)), fun hone hf hs => ?_⟩
      have whole : ¬ (portSplit u p = true ∨ y.failed ≠ [] ∨ y.swap ≠ none) := by simp [hone, hf, hs]
      have spares := swaps.trans (congrArg _ (if_neg whole))
      refine ⟨fun h8 => spares.trans (congrArg _ (if_pos h8)), fun h8 hu => ?_, fun h8 hu => ?_⟩
      · exact spares.trans (congrArg _ ((if_neg (Nat.ne_of_lt h8)).trans (if_neg (by rw [hu]; decide))))
      · exact spares.trans (congrArg _ ((if_neg (Nat.ne_of_lt h8)).trans (if_pos hu)))
    · have falls := hard.trans (congrArg _ (if_neg (not_faultIgnored hserve hl)))
      exact ⟨fun hlost => falls.trans (congrArg _ (if_pos hlost)), fun hgood => falls.trans (congrArg _ (if_neg hgood))⟩
    · have ends : exec (.laneBringupTimeout port dark) s = .next _ := congrArg Host.Outcome.next (bringUpTimeout_eq ht hd)
      refine ⟨fun hall => ends.trans (congrArg _ (if_pos hall)), fun hall hlost => ?_, fun hall hgood => ?_⟩
      · exact ends.trans (congrArg _ ((if_neg hall).trans (if_pos hlost)))
      · exact ends.trans (congrArg _ ((if_neg hall).trans (if_neg (by rw [hgood]; decide))))
    · exact ⟨congrArg Host.Outcome.next (if_pos (.inl ht)), congrArg Host.Outcome.next (if_neg fun h => ht h.2)⟩
    · exact congrArg Host.Outcome.next (if_pos ⟨ha, ht⟩)
  · intro s rx l p hup hmin hmax hcrc hver htyp hlen hbcrc hone op t w x failed
    have runs {n : Nat} (k : State → Nat → LmapSwap → State) (hop : op = n) : lmapRx s n rx k = k t p w :=
      lmapRx_runs hup hmin hmax hcrc hver htyp hlen hbcrc hone hop
    have req (hop : op = 1) : exec (.lmapReq rx) s = .next (lmapReq t p w) := congrArg Host.Outcome.next (runs lmapReq hop)
    have ack (hop : op = 2) : exec (.lmapAck rx) s = .next (lmapAck t p w) := congrArg Host.Outcome.next (runs lmapAck hop)
    have switch (hop : op = 3) : exec (.lmapSwitch rx) s = .next (lmapSwitch t p w) :=
      congrArg Host.Outcome.next (runs lmapSwitch hop)
    have done (hop : op = 4) : exec (.lmapDone rx) s = .next (lmapDone t p w) := congrArg Host.Outcome.next (runs lmapDone hop)
    have refuse (hop : op = 5) : exec (.lmapRefuse rx) s = .next (lmapRefuse t p w) :=
      congrArg Host.Outcome.next (runs lmapRefuse hop)
    refine ⟨fun hop hx hf hon hw => ?_, fun hop hx hbad => ?_, fun o hop hx => ⟨fun hsame => ?_, fun hdiff => ?_⟩,
      fun o hop hx ha hs he hp => ?_, fun o hop hx he hp => ?_, fun o hop hx he hp => ?_, fun o hop hx ha => ?_,
      fun hx => ⟨fun hop => ?_, fun hop => ?_, fun hop => ?_, fun hop => ?_⟩⟩
    · have fit : ¬ (x.failed ≠ [] ∨ spareOn t p = false ∨ 7 < w.phys) := by
        rw [hf, hon]
        simpa using Nat.le_of_lt_succ hw
      exact (req hop).trans (congrArg _ ((lmapReq_idle hx).trans (if_neg fit)))
    · exact (req hop).trans (congrArg _ ((lmapReq_idle hx).trans (if_pos hbad)))
    · exact (req hop).trans (congrArg _ ((lmapReq_crossed hx).trans (if_pos hsame)))
    · exact (req hop).trans (congrArg _ ((lmapReq_crossed hx).trans (if_neg hdiff)))
    · exact (ack hop).trans (congrArg _ (lmapAck_answers hx ha hs (lmapSame_of_eq he hp)))
    · exact (switch hop).trans (congrArg _ (lmapSwitch_notes hx (lmapSame_of_eq he hp)))
    · exact (done hop).trans (congrArg _ (lmapDone_notes hx (lmapSame_of_eq he hp)))
    · exact (refuse hop).trans (congrArg _ (lmapRefuse_retires hx ha))
    · exact (ack hop).trans (congrArg _ (lmapAck_idle hx))
    · exact (switch hop).trans (congrArg _ (lmapSwitch_idle hx))
    · exact (done hop).trans (congrArg _ (lmapDone_idle hx))
    · exact (refuse hop).trans (congrArg _ (lmapRefuse_idle hx))
  · intro s port p
    refine ⟨fun hx => ⟨congrArg Host.Outcome.next (lmapPoint_idle hx), congrArg Host.Outcome.next (lmapTimeout_idle hx)⟩,
      fun o hx => ⟨congrArg Host.Outcome.next (lmapTimeout_takesDown hx), fun hg hs hd => ?_, fun hnot => ?_⟩,
      fun o hx hs hg => lmapFinish_ends hx hs hg⟩
    · exact congrArg Host.Outcome.next ((lmapPoint_eq hx).trans (if_pos ⟨hg, hs, hd⟩))
    · refine congrArg Host.Outcome.next ((lmapPoint_eq hx).trans (if_neg fun ⟨hg, hs, hd⟩ => ?_))
      simp [hg, hs, hd] at hnot

end Sys2Proof.Machine
end

section
/-! PROOFS. Frames outside KPP and the PTP engine (R344, R347, R357, R358, R473). -/
namespace Sys2Proof.Machine

/-! ## Frames that the MAC drops, and neighbours -/

/-- R344: the counters of a frame that is dropped, in the order of its checks. -/
theorem macReject_eq (s : State) (v : RxVia) (e : Encap) (ok : Bool) (uncorr : BitVec 16) :
    macReject s v e ok uncorr.toNat =
      (let t := if uncorr = 0 then s else bumpN s .prtFecUncorr (viaPort v) 0 0 uncorr.toNat
       if e.bytes < 64 then bump t .prtRunt (viaPort v) 0 0
       else if 9216 < e.bytes then bump t .prtOversize (viaPort v) 0 0
       else if ok = false then bump t .prtFcs (viaPort v) 0 0
       else if 1 < e.vlanTags then bump t .prtVlan (viaPort v) 0 0
       else if e.ipOpt = true then bump t .prtIpOpt (viaPort v) 0 0
       else t) := by
  have zero : uncorr.toNat = 0 ↔ uncorr = 0 := BitVec.toNat_inj (y := 0)
  simp only [macReject, zero, Bool.not_eq_true']

/-- R347: outside ROM recovery, an open link answers for the chip's own addresses. -/
theorem neighbourRx_serving {s : State} {l : Nat} {nd : Bool} {a : BitVec 128} (hb : s.boot.step ≠ 15) :
    neighbourRx s l nd a =
      if linkOpen s l = true ∧ (l < 8 ∨ serving (uAct s (uPort 4)) = true) ∧ isOwnAddr s l a = true then
        enqueue s l { tc := 6, raw := some (.neighbour nd a (linkMac l)) }
      else s :=
  if_neg fun h => hb (of_decide_eq_true h)

/-- R455: in ROM recovery, MP's link alone answers a solicitation for its link-local address. -/
theorem neighbourRx_recovery {s : State} {l : Nat} {nd : Bool} {a : BitVec 128} (hb : s.boot.step = 15) :
    neighbourRx s l nd a =
      if l = 8 ∧ nd = true ∧ a.toNat = linkLocal (linkMac 8) then putWire s (.raw 8 (.neighbour nd a (linkMac l))) else s :=
  if_pos (decide_eq_true hb)

/-! ## Messages of the PTP engine -/

/-- R358: the state in which an event message has its timestamp. -/
abbrev ptpStamped (s : State) (l : Nat) (m : PtpMsg) : State :=
  if isEvent m = true then bump s .prtPtpTs (l / 2) 0 0 else s

section Received
variable {s t : State} {l : Nat} {m : PtpMsg} (ho : linkOpen s l = true)
include ho

theorem ptpRx_dropped (hm : meter s 0 7 (l / 2) 0 (rawLen (byteAt s.img.net 101).toNat (.ptp m)) 0 = (t, none)) :
    ptpRx s l m = t := by
  simp only [ptpRx, ho, hm]
  rfl

theorem ptpRx_passed {g : Bool} (hm : meter s 0 7 (l / 2) 0 (rawLen (byteAt s.img.net 101).toNat (.ptp m)) 0 = (t, some g)) :
    ptpRx s l m =
      if (ptpStamped t l m).ptp.on = true ∧ (ptpStamped t l m).svc.restarting = false ∧ ptpLink (ptpStamped t l m) l = true ∧
          (ptpGet (ptpStamped t l m) l).state ≠ .disabled ∧ m.domain = byteAt (ptpStamped t l m).img.net 98 then
        ptpHandle (ptpStamped t l m) l m (cd10Total (ptpStamped t l m))
      else ptpStamped t l m := by
  simp only [ptpRx, ho, hm, Bool.not_eq_true']
  rfl

end Received

theorem ptpInterval_idle {s : State} {l : Nat} {kind : PtpKind} (h : s.ptp.on = false ∨ ptpLink s l = false) :
    ptpInterval s l kind = s := by
  refine if_pos ?_
  rcases h with h | h <;> simp [h]

section Sent
variable {s : State} {l : Nat} (hon : s.ptp.on = true) (hsvc : s.svc.restarting = false) (hl : ptpLink s l = true)
include hon hsvc hl

theorem ptp_sends (hp : (ptpGet s l).state ≠ .disabled) :
    ¬ ((!s.ptp.on) = true ∨ s.svc.restarting = true ∨ (!ptpLink s l) = true ∨ (ptpGet s l).state = .disabled) := by
  simp [hon, hsvc, hl, hp]

theorem ptpInterval_sync (hm : (ptpGet s l).state = .master) : ptpInterval s l .sync = ptpSync s l :=
  (if_neg (ptp_sends hon hsvc hl (by rw [hm]; decide))).trans (if_pos hm)

theorem ptpInterval_announce (hm : (ptpGet s l).state = .master) :
    ptpInterval s l .announce =
      ptpSend (ptpMod s (fun x => { x with annSeq := s.ptp.annSeq + 1 })) l { ownAnnounce s l with seq := s.ptp.annSeq + 1 } :=
  (if_neg (ptp_sends hon hsvc hl (by rw [hm]; decide))).trans (if_pos hm)

theorem ptpInterval_delayReq (he : ptpP2p s l = false) (hm : (ptpGet s l).state = .slave) :
    ptpInterval s l .delayReq = ptpDelayReq s l .delayReq :=
  (if_neg (ptp_sends hon hsvc hl (by rw [hm]; decide))).trans (if_pos ⟨by rw [he]; rfl, .inl hm⟩)

theorem ptpInterval_pdelayReq (hp2p : ptpP2p s l = true) (hm : (ptpGet s l).state ≠ .disabled) :
    ptpInterval s l .pdelayReq = ptpDelayReq s l .pdelayReq :=
  (if_neg (ptp_sends hon hsvc hl hm)).trans (if_pos hp2p)

end Sent

/-- Settles O42: a dropped frame by the first of its checks that fails, a request by whether the chip answers on its link, a PTP
message by its metering and by whether the engine takes it. -/
theorem plainFrames : Obligations.PlainFrames := by
  unfold Obligations.PlainFrames
  refine ⟨?_, ?_, ?_, ?_, ?_⟩
  · intro s via e ok uncorr p t drops
    have rejects : exec (.macFrameReject via e ok uncorr) s = .next _ := congrArg Host.Outcome.next (macReject_eq s via e ok uncorr)
    refine ⟨rfl, fun hrunt => rejects.trans (congrArg _ (if_pos hrunt)), fun hbig => ?_, fun hmin hmax => ?_⟩
    · exact rejects.trans (congrArg _ ((if_neg (by omega)).trans (if_pos hbig)))
    · have sized := rejects.trans (congrArg _ ((if_neg (Nat.not_lt.2 hmin)).trans (if_neg (Nat.not_lt.2 hmax))))
      refine ⟨fun hok => sized.trans (congrArg _ (if_pos hok)), fun hok hv => ?_, fun hok hv hopt => ?_⟩
      · exact sized.trans (congrArg _ ((if_neg (by rw [hok]; decide)).trans (if_pos hv)))
      · exact sized.trans (congrArg _ ((if_neg (by rw [hok]; decide)).trans ((if_neg (Nat.not_lt.2 hv)).trans (if_pos hopt))))
  · intro s link nd target l ans
    have serves (hb : s.boot.step ≠ 15) : exec (.arpNdRequest link nd target) s = .next _ :=
      congrArg Host.Outcome.next (neighbourRx_serving hb)
    have recovers (hb : s.boot.step = 15) : exec (.arpNdRequest link nd target) s = .next _ :=
      congrArg Host.Outcome.next (neighbourRx_recovery hb)
    refine ⟨fun hb ho hmp hown => ?_, fun hb hown => ?_, fun hb hl hnd ht => ?_, fun hb hnd => ?_⟩
    · have answers : l < 8 ∨ serving (uAct s (uPort 4)) = true := (Nat.lt_succ_iff_lt_or_eq.1 link.isLt).imp_right hmp
      exact (serves hb).trans (congrArg _ (if_pos ⟨ho, answers, hown⟩))
    · refine (serves hb).trans (congrArg _ (if_neg fun ⟨_, _, own⟩ => ?_))
      exact Bool.noConfusion (own.symm.trans hown)
    · exact (recovers hb).trans (congrArg _ (if_pos ⟨hl, hnd, ht⟩))
    · refine (recovers hb).trans (congrArg _ (if_neg fun ⟨_, nds, _⟩ => ?_))
      exact Bool.noConfusion (nds.symm.trans hnd)
  · intro s link m l
    refine ⟨fun ho => ?_, fun ho t => ⟨fun hm => congrArg Host.Outcome.next (ptpRx_dropped ho hm), fun g hm => ?_⟩⟩
    · exact congrArg Host.Outcome.next (if_pos (by rw [ho]; rfl))
    · intro u
      have passes : exec (.ptpFrameRx link m) s = .next _ := congrArg Host.Outcome.next (ptpRx_passed ho hm)
      refine ⟨fun hon hsvc hl hp hd => passes.trans (congrArg _ (if_pos ⟨hon, hsvc, hl, hp, hd⟩)), fun hnot => ?_⟩
      refine passes.trans (congrArg _ (if_neg fun ⟨hon, _, hl, _, hd⟩ => ?_))
      rcases hnot with h | h | h
      · exact Bool.noConfusion (hon.symm.trans h)
      · exact Bool.noConfusion (hl.symm.trans h)
      · exact h hd
  · intro s
    exact ⟨fun hon => congrArg Host.Outcome.next (if_pos hon), fun hoff => congrArg Host.Outcome.next (if_neg (by rw [hoff]; decide))⟩
  · intro s link kind l p
    refine ⟨fun hidle => congrArg Host.Outcome.next (ptpInterval_idle hidle), fun hon hsvc hl => ⟨?_, ?_, ?_, ?_⟩⟩
    · rintro rfl hm
      exact congrArg Host.Outcome.next (ptpInterval_sync hon hsvc hl hm)
    · rintro rfl hm
      exact congrArg Host.Outcome.next (ptpInterval_announce hon hsvc hl hm)
    · rintro rfl he hm
      exact congrArg Host.Outcome.next (ptpInterval_delayReq hon hsvc hl he hm)
    · rintro rfl hp2p hm
      exact congrArg Host.Outcome.next (ptpInterval_pdelayReq hon hsvc hl hp2p hm)

end Sys2Proof.Machine
end

section
/-! PROOFS. Sound states, the SVN fuses, and what a step runs (R448, R450, R455; log 1). -/
namespace Sys2Proof.Machine

/-- Settles O54: every step is a `Moves`, which keeps the form of the tables and a legal BOOT_STATUS. -/
theorem soundStatesStaySound : Obligations.SoundStatesStaySound := by
  unfold Obligations.SoundStatesStaySound
  intro s t ht hl h
  have moves := step_moves hl h
  exact ⟨moves.tables ht, moves.legal hl⟩

/-- Settles O56: every step is a `Moves`, under which the fuses do not fall. -/
theorem svnNeverFalls : Obligations.SvnNeverFalls := by
  unfold Obligations.SvnNeverFalls
  intro s t hl h
  exact (step_moves hl h).svn

/-! ## What a step runs -/

theorem step_front {s : State} {c : Instr} {rest : List Instr} (h : s.pending = c :: rest) :
    step s = exec c { s with pending := rest } := by
  unfold step
  rw [h]

theorem step_idle {s : State} (h : s.pending = []) : step s = .next (tick s) := by
  unfold step
  rw [h]

/-- Settles O51: a step looks at the queue alone to choose between its front and a tick. -/
theorem stepRunsFront : Obligations.StepRunsFront := by
  unfold Obligations.StepRunsFront
  exact ⟨fun _ _ _ => step_front, fun _ => step_idle⟩

/-- The meaning of every command is a next state, whatever its operands and the state. -/
theorem exec_answers (c : Instr) (s : State) : ∃ t, exec c s = .next t := by
  cases c <;> exact ⟨_, rfl⟩

/-- Settles O52: a step is a command at the front of the queue, which answers, or a tick. -/
theorem everyCommandAnswers : Obligations.EveryCommandAnswers := by
  unfold Obligations.EveryCommandAnswers
  refine ⟨exec_answers, fun s => ?_⟩
  cases h : s.pending with
  | nil => exact ⟨_, step_idle h⟩
  | cons c rest =>
    rw [step_front h]
    exact exec_answers c _

end Sys2Proof.Machine
end

section
/-! PROOFS. The tick of the meters (R378, R381, R386). -/
namespace Sys2Proof.Machine

/-! ## The tick of the meters (R378, R381, R386) -/

/-- What a bucket of a pitch holds after a tick, from what it held. -/
def bucketGain (s : State) (n c : Nat) (b : Bucket) : Bucket :=
  { c := min (bucketDepth (pRate s n c).1 (burstOf s c)) (b.c + (pRate s n c).1)
    p := min (bucketDepth (pRate s n c).2 (burstOf s c)) (b.p + (pRate s n c).2) }

def refillBucket (n : Nat) (s : State) (c : Nat) : State := bucketPut s n c (bucketGain s n c (bucketGet s n c))

/-- The gain of a pitch's seven buckets. -/
def refillPitch (s : State) (n : Nat) : State := foldN 7 (refillBucket n) s

/-- The pitches whose buckets a tick refills. -/
def metered (s : State) : List Nat := (upto 256).filter (fun n => decide (n ≠ 0) && decide ((pGet s n).life ≠ .empty))

/-- The gain of one of the single-rate meters of a port. -/
def refillPriv (rate : Nat → Nat) (s : State) (k : Nat) : State :=
  let d := bucketDepth (rate k) (burstOf s (if k < 8 then 6 else 7))
  tmgMod s (fun t => { t with privs := tset 0 t.privs k (min d (tget 0 t.privs k + rate k)) })

/-- What a class shaper holds after a tick, from what it held. -/
def shaperGain (s : State) (k held : Nat) : Nat :=
  let off := 0x400 + 0x20 * (k / 8) + 4 * (k % 8)
  min (regField s tmgAgent off 16 16 * 256 * 8) (held + 100 * regField s tmgAgent off 0 16)

def refillShaper (s : State) (k : Nat) : State :=
  tmgMod s (fun t => { t with shapers := tset 0 t.shapers k (shaperGain s k (tget 0 t.shapers k)) })

theorem refillTick_eq (s : State) : refillTick s =
    let u := foldS (metered (periodicCd10 s 7 125)) (periodicCd10 s 7 125) refillPitch
    let rate (k : Nat) : Nat := regField u tmgAgent 0x128 (if k < 8 then 0 else 16) 16
    foldN 64 refillShaper (foldS [0, 1, 2, 3, 4, 8, 9, 10, 11, 12] u (refillPriv rate)) := rfl

/-! ### What each gain leaves alone -/

theorem refillKeeps_pitch (s : State) (n : Nat) : RefillKeeps (refillPitch s n) = RefillKeeps s :=
  foldl_keep RefillKeeps (refillBucket n) (fun _ _ => rfl) _ s

theorem shapers_pitch (s : State) (n : Nat) : (refillPitch s n).tmg.shapers = s.tmg.shapers :=
  foldl_keep (fun t => t.tmg.shapers) (refillBucket n) (fun _ _ => rfl) _ s

theorem refillKeeps_tick (s : State) : RefillKeeps (refillTick s) = RefillKeeps s := by
  rw [refillTick_eq]
  exact (foldl_keep RefillKeeps refillShaper (fun _ _ => rfl) _ _).trans
    ((foldl_keep RefillKeeps (refillPriv _) (fun _ _ => rfl) _ _).trans
      ((foldl_keep RefillKeeps refillPitch refillKeeps_pitch _ _).trans (refillKeeps_periodic s 7 125)))

/-! ### What each gain adds -/

theorem bucketGet_bucketPut_self (s : State) (n c : Nat) (b : Bucket) : bucketGet (bucketPut s n c b) n c = b :=
  congrArg (·.getD {}) (aget_aput_self s.tmg.policers (n, c) b)

theorem bucketGet_bucketPut_other (s : State) {n c m d : Nat} (b : Bucket) (h : (m, d) ≠ (n, c)) :
    bucketGet (bucketPut s n c b) m d = bucketGet s m d :=
  congrArg (·.getD {}) (aget_aput_other s.tmg.policers (n, c) (m, d) b h)

theorem bucketGain_refillKeeps {s t : State} (h : RefillKeeps s = RefillKeeps t) : bucketGain s = bucketGain t := by
  funext n c b
  unfold bucketGain
  rw [pRate_refillKeeps h, burst_refillKeeps h]

theorem bucketGet_refillPitch (s : State) (n : Nat) {c : Nat} (hc : c < 7) :
    bucketGet (refillPitch s n) n c = bucketGain s n c (bucketGet s n c) := by
  have e := foldl_each (fun t c => bucketGet t n c) (fun t => RefillKeeps t = RefillKeeps s) (refillBucket n)
    (bucketGain s n) (fun _ _ h => h)
    (fun t c h => by rw [← bucketGain_refillKeeps h]; exact bucketGet_bucketPut_self ..)
    (fun t c d _ h => bucketGet_bucketPut_other _ _ (by simp [h])) (List.range 7) List.nodup_range s rfl c
  rwa [if_pos (List.mem_range.2 hc)] at e

theorem bucketGet_refillPitch_other (s : State) {n m : Nat} (c : Nat) (h : m ≠ n) :
    bucketGet (refillPitch s n) m c = bucketGet s m c :=
  foldl_keep (fun t => bucketGet t m c) (refillBucket n) (fun _ _ => bucketGet_bucketPut_other _ _ (by simp [h])) _ s

theorem bucketGet_refillTick {s : State} {n c : Nat} (hn : n ∈ metered (periodicCd10 s 7 125)) (hc : c < 7) :
    bucketGet (refillTick s) n c = bucketGain s n c (bucketGet s n c) := by
  have e := foldl_each (fun t n => bucketGet t n c) (fun t => RefillKeeps t = RefillKeeps s) refillPitch
    (fun n => bucketGain s n c) (fun t n h => (refillKeeps_pitch t n).trans h)
    (fun t n h => by rw [← bucketGain_refillKeeps h]; exact bucketGet_refillPitch t n hc)
    (fun t n m _ h => bucketGet_refillPitch_other t c h) (metered (periodicCd10 s 7 125))
    (List.nodup_range.filter _) (periodicCd10 s 7 125) (refillKeeps_periodic s 7 125) n
  have before : bucketGet (periodicCd10 s 7 125) n c = bucketGet s n c := by
    unfold bucketGet
    rw [policers_periodic]
  rw [if_pos hn, before] at e
  rw [refillTick_eq]
  exact (foldl_keep (fun t => bucketGet t n c) refillShaper (fun _ _ => rfl) _ _).trans
    ((foldl_keep (fun t => bucketGet t n c) (refillPriv _) (fun _ _ => rfl) _ _).trans e)

theorem shaperGain_refillKeeps {s t : State} (h : RefillKeeps s = RefillKeeps t) : shaperGain s = shaperGain t := by
  funext k held
  unfold shaperGain
  simp only [regField_refillKeeps h]

theorem shapers_refillTick (s : State) {k : Nat} (hk : k < 64) :
    tget 0 (refillTick s).tmg.shapers k = shaperGain s k (tget 0 s.tmg.shapers k) := by
  rw [refillTick_eq]
  dsimp only
  generalize hv : foldS [0, 1, 2, 3, 4, 8, 9, 10, 11, 12] _ _ = v
  have keeps : RefillKeeps v = RefillKeeps s := hv ▸ (foldl_keep RefillKeeps (refillPriv _) (fun _ _ => rfl) _ _).trans
    ((foldl_keep RefillKeeps refillPitch refillKeeps_pitch _ _).trans (refillKeeps_periodic s 7 125))
  have shapers : v.tmg.shapers = s.tmg.shapers := hv ▸ (foldl_keep (fun t => t.tmg.shapers) (refillPriv _) (fun _ _ => rfl) _ _).trans
    ((foldl_keep (fun t => t.tmg.shapers) refillPitch shapers_pitch _ _).trans (shapers_periodic s 7 125))
  have e := foldl_each (fun t k => tget 0 t.tmg.shapers k) (fun t => RefillKeeps t = RefillKeeps s) refillShaper
    (shaperGain s) (fun _ _ h => h)
    (fun t k h => by rw [← shaperGain_refillKeeps h]; exact tget_tset_self ..)
    (fun t k j _ h => tget_tset_other _ _ _ _ _ h) (List.range 64) List.nodup_range v keeps k
  rwa [if_pos (List.mem_range.2 hk), shapers] at e

/-- Settles O37: the buckets by `bucketGet_refillTick`, the shapers by `shapers_refillTick`, the rest by what no refill touches. -/
theorem bucketsRefill : Obligations.BucketsRefill := by
  unfold Obligations.BucketsRefill
  intro s
  have keeps := refillKeeps_tick s
  simp only [RefillKeeps, Prod.mk.injEq] at keeps
  obtain ⟨-, pitches, csr, lists, queues, dmc⟩ := keeps
  refine ⟨refillTick s, rfl, fun n c h0 h256 hl hc => ?_, fun k hk => shapers_refillTick s hk, lists, queues, pitches, csr, dmc⟩
  refine bucketGet_refillTick (List.mem_filter.2 ⟨List.mem_range.2 h256, ?_⟩) hc
  rw [life_periodic]
  simp [h0, hl]

end Sys2Proof.Machine
end

section
/-! PROOFS. Routing tables, epochs, starved injectors and reflected packets (R399, R401, R403 to R406). -/
namespace Sys2Proof.Machine

section
variable {s : State} {src : MgmtSource} {n d : Nat} (bank plane : Nat) (v : Word) (hn : n < 48) (hd : d < 48)
  (hs : scopeOf s src = none) (hi : src ≠ .image)
include hn hd hs hi

theorem rtWrite_source : rtWrite s src n bank plane d v =
    if bank ≠ b2n s.fab.current ∧ s.fab.oldDrained = true ∧ s.fab.pending = false then rtPut s n bank plane d v
    else bump s .fabRtRefused n 0 0 := by
  unfold rtWrite
  simp [Nat.not_le.2 hn, Nat.not_le.2 hd, hs, hi]

end

/-- T of the epoch switch that FAB_EPOCH_GO asks for. -/
def epochAsked (s : State) : Nat := (regGet s (fabAgent 0) 0x104).toNat + (regGet s (fabAgent 0) 0x108).toNat * 2 ^ 32

theorem epochGo_eq (s : State) : epochGo s =
    if epochAsked s < fabTime s + 1024 then fabMod s (fun f => { f with status := 2 })
    else if s.fab.oldDrained = false ∨ s.fab.pending = true then fabMod s (fun f => { f with status := 3 })
    else if bankOk s (1 - b2n s.fab.current) = false then fabMod s (fun f => { f with status := 4 })
    else fabMod s (fun f => { f with status := 1, pending := true, switchAt := epochAsked s }) := by
  unfold epochGo
  simp only [Bool.not_eq_true']
  rfl

theorem epochSwitch_idle {s : State} (h : s.fab.pending = false) : epochSwitch s = s := if_pos (by simp [h])

theorem epochSwitch_pending {s : State} (h : s.fab.pending = true) : epochSwitch s =
    trace (fabMod (nowTo s ((s.fab.switchAt * 5 + 10) / 11))
        (fun f => { f with current := !f.current, pending := false, oldDrained := false }))
      5 0 (fabAgent 0) 0 [BitVec.ofNat 8 (b2n (!s.fab.current))] := if_neg (by simp [h])

theorem drainCheck_equal {s : State} (h : s.fab.oldDrained = false)
    (e : fabSum s .fabInjE (1 - b2n s.fab.current) = fabSum s .fabEjE (1 - b2n s.fab.current)) :
    drainCheck s = fabMod s (fun f => { f with oldDrained := true }) := if_pos ⟨by simp [h], e⟩

theorem drainCheck_stays {s : State} (h : s.fab.oldDrained = true ∨
    fabSum s .fabInjE (1 - b2n s.fab.current) ≠ fabSum s .fabEjE (1 - b2n s.fab.current)) : drainCheck s = s := by
  refine if_neg ?_
  rintro ⟨ho, e⟩
  rcases h with h | h
  · simp [h] at ho
  · exact h e

theorem fabStarve_waiting {s : State} {n plane : Nat} {w : FabPkt} (h : s.fab.waiting = [w]) (hr : w.router = n)
    (hp : w.plane = plane) (hs : w.starve = false) : fabStarve s n plane =
      bump (fabMod s (fun f => { f with waiting := [{ w with starve := true, wait := max 128 w.wait }] })) .fabStarve n 0 0 := by
  unfold fabStarve fabMod
  simp [h, hr, hp, hs]

section
variable {s : State} {h : BitVec 128} (hs : hSrc h < 48) (hd : hDst h < 48) (hv : bitsOf h 0 1 = 1) (hr : bitsOf h 3 1 = 0)
  (hf : ∀ p ∈ s.fab.flight, hSrc p.hdr ≠ hSrc h ∨ hSrcEp p.hdr ≠ hSrcEp h ∨ hTag p.hdr ≠ hTag h)
include hs hd hv hr hf

/-- A packet that the mesh does not hold: it counts as injected, ejected and reflected, then its source takes it again. -/
theorem reflectReinject_elsewhere (payload : BitVec 512) (plane fails : Nat) : reflectReinject s h payload plane fails =
    let t := bump (bump (bump s .fabInjE (hSrc h) (hEpoch h) 0) .fabEjE (hDst h) (hEpoch h) 0) .fabReflect (hDst h) 0 0
    let u := bumpN t .fabParityReplay (hSrc h) 0 0 (min 2 fails)
    if 3 ≤ fails then chipStopBy u (fabAgent (hSrc h)) 0x10
    else
      let back := aged (reinjected (reflected h) (b2n u.fab.current)) (regField u (fabAgent 0) 0x118 0 8 + fails)
      fabMod u (fun f => { f with waiting := f.waiting ++ [{ router := hSrc h, plane := plane % 2, hdr := back, payload := payload }] }) := by
  have away : s.fab.flight.any (fun p => decide (hSrc p.hdr = hSrc h) && decide (hSrcEp p.hdr = hSrcEp h) &&
      decide (hTag p.hdr = hTag h)) = false := by
    simp only [List.any_eq_false, Bool.and_eq_true, decide_eq_true_iff]
    rintro p hp ⟨⟨h1, h2⟩, h3⟩
    exact (hf p hp).elim (· h1) (Or.elim · (· h2) (· h3))
  unfold reflectReinject
  rw [if_neg (by simp [hv, hr, Nat.not_le.2 hs, Nat.not_le.2 hd])]
  simp only [away, Bool.false_eq_true, if_false]

end

/-- Settles O39: each command by the lemma of the branch that its hypotheses select. -/
theorem fabricCommands : Obligations.FabricCommands := by
  unfold Obligations.FabricCommands
  refine ⟨fun s src router bank plane dest value ho hb hs hi hn hd => ?_, fun s src ho hb hs => ?_, fun s => ?_,
    fun s router plane w hw hr hp hs => ?_, fun s hdr payload plane fails hs hd hv hr hf => ?_⟩
  · have e : exec (.fabRtWrite src router bank plane dest value) s = .next _ :=
      congrArg Host.Outcome.next ((fromSource_open ho hb).trans (rtWrite_source bank.toNat plane.toNat value hn hd hs hi))
    rw [e]
    exact ⟨fun h => by rw [if_pos h], fun h => by rw [if_neg h]⟩
  · have e : exec (.fabEpochGo src) s = .next _ := congrArg Host.Outcome.next ((asOperator_open hs ho hb).trans (epochGo_eq s))
    change (epochAsked s < _ → _) ∧ (_ ≤ epochAsked s → _) ∧ (_ ≤ epochAsked s → _) ∧ (_ ≤ epochAsked s → _)
    rw [e]
    refine ⟨fun ht => ?_, fun ht h => ?_, fun ht hd hp h => ?_, fun ht hd hp h => ?_⟩
    · rw [if_pos ht]
    · rw [if_neg (Nat.not_lt.2 ht), if_pos h]
    · rw [if_neg (Nat.not_lt.2 ht), if_neg (by simp [hd, hp]), if_pos h]
    · rw [if_neg (Nat.not_lt.2 ht), if_neg (by simp [hd, hp]), if_neg (by simp [h])]
      rfl
  · exact ⟨fun h => congrArg _ (epochSwitch_idle h), fun h => congrArg _ (epochSwitch_pending h),
      fun ho e => congrArg _ (drainCheck_equal ho e), fun h => congrArg _ (drainCheck_stays h)⟩
  · exact congrArg _ (fabStarve_waiting hw hr hp hs)
  · have e := reflectReinject_elsewhere hs hd hv hr hf payload plane.toNat
    dsimp only at e ⊢
    refine ⟨?_, fun h3 => ?_⟩
    · rintro rfl
      exact congrArg _ (e 3)
    · refine congrArg _ ((e fails.toNat).trans ?_)
      rw [if_neg (by omega), Nat.min_eq_right (by omega), Nat.mod_eq_of_lt plane.isLt]
end Sys2Proof.Machine
end

section
/-! PROOFS. The chip's own events of a mirrored pitch (R420, R425, R426, R428, R429, R432). -/
namespace Sys2Proof.Machine

/-! ## Heartbeats (R425, R426) -/

/-- The payload of the next beat of a guy line. -/
def beatPayload (t : State) (k : Nat) (p : Peer) (mp : Bool) : List Byte :=
  beBytes 8 Config.serial.toNat ++ beBytes 8 ((p.txBeat[b2n mp]?).getD 0 + 1) ++ beBytes 6 t.cd10Sec.toNat ++ beBytes 4 t.cd10Ns ++
    [BitVec.ofNat 8 (if mp then 1 else if p.direct.isSome then 2 else 0), 0] ++ (activeBits t k).reverse

/-- The next beat of a guy line. -/
def beatFrame (t : State) (k : Nat) (p : Peer) (mp : Bool) : TxFrame :=
  { opcode := 0x7E, typ := 2, flags := 0x4000, endpoint := BitVec.ofNat 12 p.remoteBase, tc := 7, length := 60,
    payload := beatPayload t k p mp, stream := .ep (BitVec.ofNat 12 p.localBase) 7,
    dstAddr := if mp then p.mpAddr else p.addr, dstPort := p.port,
    flow := some (FlowId.ep (BitVec.ofNat 12 p.localBase) 0 7), isReq := true }

/-- The beat of a guy line is numbered and counted. -/
def beatCounted (t : State) (k : Nat) (p : Peer) (mp : Bool) : State :=
  bump (peerSet t k { p with txBeat := lset p.txBeat (b2n mp) ((p.txBeat[b2n mp]?).getD 0 + 1) }) .mirHbTx 0 0 0

/-- The instant of the next beat of a guy line. -/
def beatInstant (s : State) (mp : Bool) : Nat := nextMultiple s (hbPeriodNs s) (if mp then hbPeriodNs s / 2 else 0)

section
variable {s : State} {k : Nat} {p : Peer} (hp : tfind s.mir.peers k = some p)
include hp

section
variable (ha : s.tpt.admitting = true) (hf : s.flt.stopped = false)
include ha hf

/-- Which way a beat leaves. -/
theorem heartbeatTx_sends (mp : Bool) : heartbeatTx s k mp =
    let t := cd10To s (beatInstant s mp)
    if mp then enqueue (beatCounted t k p mp) 8 (beatFrame t k p mp)
    else match p.direct with
      | some l => enqueue (beatCounted t k p mp) l (beatFrame t k p mp)
      | none => sendFrame (beatCounted t k p mp) (.ep (BitVec.ofNat 12 p.localBase) 0 7) (beatFrame t k p mp) := by
  unfold heartbeatTx
  simp only [hp, ha, hf, Bool.not_true, Bool.false_eq_true, or_self, if_false]
  rfl

end

theorem guyLost_alive {mp : Bool} (hl : lineAlive p (b2n mp) = true) : guyLost s k mp =
    faultRec (bump (peerSet (nowTo s (((p.lastAt[b2n mp]?).getD none).getD 0 + 5 * hbPeriodNs s)) k
        { p with alive := lset p.alive (b2n mp) false }) .mirGuyLost 0 0 0)
      { agent := mirAgent, cause := 0x60, cls := clsAlarm, lo := p.serial.toNat % 2 ^ 32, hi := p.serial.toNat / 2 ^ 32 } := by
  unfold guyLost
  simp only [hp, hl, Bool.not_true, Bool.false_eq_true, if_false]
  rfl

theorem guyLost_lost {mp : Bool} (hl : lineAlive p (b2n mp) = false) : guyLost s k mp = s := by
  unfold guyLost
  simp only [hp, hl, Bool.not_false, if_true]

end

theorem heartbeatTx_idle {s : State} {k : Nat} (mp : Bool)
    (h : s.tpt.admitting = false ∨ s.flt.stopped = true ∨ tfind s.mir.peers k = none) : heartbeatTx s k mp = s := by
  unfold heartbeatTx
  cases hp : tfind s.mir.peers k with
  | none => rfl
  | some p => exact if_pos (by simpa [hp] using h)

/-! ## Both lines lost (R428, R429) -/

theorem bothLost_iff (p : Peer) : bothLost p = true ↔ lineAlive p 0 = false ∧ lineAlive p 1 = false := by
  simp [bothLost]

section
variable {s : State} {n : Nat}

theorem mirrorSelfFence_fences (hf : hasFly s n = true) (hl : (pGet s n).life = .up)
    (hb : bothLost (peerGet s (mirGet s n).peer) = true) : mirrorSelfFence s n =
      selfFence (nowTo s (lastBeatAt (peerGet s (mirGet s n).peer) + 5 * hbPeriodNs s)) n true := if_pos ⟨hf, hl, hb⟩

theorem mirrorSelfFence_idle (h : ¬ (hasFly s n = true ∧ (pGet s n).life = .up ∧ bothLost (peerGet s (mirGet s n).peer) = true)) :
    mirrorSelfFence s n = s := if_neg h

theorem mirrorTakeover_takes (hr : (mirGet s n).role = .standby) (hc : (mirGet s n).confirmed = true)
    (hb : bothLost (peerGet s (mirGet s n).peer) = true) : mirrorTakeover s n =
      takeover (nowTo s (lastBeatAt (peerGet s (mirGet s n).peer) + 7 * hbPeriodNs s)) n := if_pos ⟨hr, hc, hb⟩

theorem mirrorTakeover_idle (h : ¬ ((mirGet s n).role = .standby ∧ (mirGet s n).confirmed = true ∧
    bothLost (peerGet s (mirGet s n).peer) = true)) : mirrorTakeover s n = s := if_neg h

/-! ## Probes and resynchronisation (R420, R432) -/

theorem probeTimer_probes (h : (mirGet s n).probing = true) : probeTimer s n = ctlSend s (mirFlow s n 3) (mirFrame s n 3 0
    (mirRecord s 1 true n 0 none (cfgDigest s n ++ beBytes 4 (mirGet s n).acceptNs)) (zeros 8)) (.probe (BitVec.ofNat 8 n)) := if_pos h

theorem probeTimer_idle (h : (mirGet s n).probing = false) : probeTimer s n = s := if_neg (by simp [h])

theorem resyncDone_confirms (hr : (mirGet s n).resync = true) (ho : resyncOut s n = false) :
    resyncDone s n = mirSet s n { mirGet s n with resync := false, confirmed := true } := if_pos ⟨hr, by simp [ho]⟩

theorem resyncDone_idle (h : (mirGet s n).resync = false ∨ resyncOut s n = true) : resyncDone s n = s := by
  refine if_neg ?_
  rintro ⟨hr, ho⟩
  simp [hr] at h
  simp [h] at ho

end

/-- Settles O27: a beat by the way it leaves, a line by whether it is alive, each event of a pitch by whether its case holds. -/
theorem mirrorEvents : Obligations.MirrorEvents := by
  unfold Obligations.MirrorEvents
  refine ⟨fun s peer mp p hp ha hf => ?_, fun s peer mp h => congrArg _ (heartbeatTx_idle mp h),
    fun s peer mp p hp => ?_, fun s pitch => ?_⟩
  · refine congrArg Host.Outcome.next ((heartbeatTx_sends hp ha hf mp).trans ?_)
    cases mp with
    | true => rfl
    | false =>
      unfold beatFrame beatPayload beatCounted beatInstant
      cases p.direct <;> rfl
  · exact ⟨fun h => congrArg Host.Outcome.next (guyLost_alive hp h), fun h => congrArg Host.Outcome.next (guyLost_lost hp h)⟩
  · dsimp only
    simp only [← bothLost_iff]
    refine ⟨fun hf hl hb => congrArg _ (mirrorSelfFence_fences hf hl hb), fun h => congrArg _ (mirrorSelfFence_idle ?_),
      fun hr hc hb => congrArg _ (mirrorTakeover_takes hr hc hb), fun h => congrArg _ (mirrorTakeover_idle ?_), fun h => ?_,
      fun h => congrArg _ (probeTimer_idle h), fun hr ho => congrArg _ (resyncDone_confirms hr ho), fun h => congrArg _ (resyncDone_idle h)⟩
    · rintro ⟨hf, hl, hb⟩
      simp [hf, hl, hb] at h
    · rintro ⟨hr, hc, hb⟩
      simp [hr, hc, hb] at h
    · refine congrArg _ ((probeTimer_probes h).trans ?_)
      rw [BitVec.ofNat_toNat, BitVec.setWidth_eq]
end Sys2Proof.Machine
end

section
/-! PROOFS. When a bank of the routing tables is valid (R405). -/
namespace Sys2Proof.Machine

/-- An output of a router leads nearer to a destination (R405). -/
def leadsNearer (n d dir : Nat) : Bool :=
  match neighbour n dir with
  | some m => decide (meshDist m d < meshDist n d)
  | none => false

theorem rtEntryOk_iff (n d : Nat) (e : BitVec 6) : rtEntryOk n d e = true ↔ (e.getLsbD 5 = true ↔ d = n) ∧
    (d ≠ n → leadsNearer n d (bitsOf e 0 2) = true ∧ (e.getLsbD 4 = true → leadsNearer n d (bitsOf e 2 2) = true)) := by
  have unfolded : rtEntryOk n d e = if d = n then e.getLsbD 5 else
      !e.getLsbD 5 && leadsNearer n d (bitsOf e 0 2) && (!e.getLsbD 4 || leadsNearer n d (bitsOf e 2 2)) := rfl
  rw [unfolded]
  by_cases h : d = n
  · simp [h]
  · cases hs : e.getLsbD 4 <;> simp [h, and_assoc]

theorem bankOk_iff (s : State) (bank : Nat) : bankOk s bank = true ↔
    ∀ n plane d, n < 48 → plane < 4 → d < 48 → rtEntryOk n d (rtGet s n bank plane d) = true := by
  unfold bankOk
  simp only [all_upto_iff]
  exact ⟨fun h n p d hn hp hd => h n hn p hp d hd, fun h n hn p hp d hd => h n p d hn hp hd⟩

/-- Settles O58: an entry by `rtEntryOk_iff`, and an output that leads nearer by the coordinates of `nearer_iff`. -/
theorem routingBankValid : Obligations.RoutingBankValid := by
  unfold Obligations.RoutingBankValid
  intro s bank
  dsimp only
  rw [bankOk_iff]
  refine forall_congr' fun n => forall_congr' fun plane => forall_congr' fun d =>
    forall_congr' fun hn => forall_congr' fun _ => forall_congr' fun _ => ?_
  have nearer : ∀ lo, _ := fun lo => nearer_iff n d (bitsOf (rtGet s n bank plane d) lo 2) hn (Nat.mod_lt _ (by decide))
  rw [rtEntryOk_iff, ← nearer 0, ← nearer 2]
  rfl
end Sys2Proof.Machine
end

section
/-! PROOFS. Flash commands and the chip-level resets (R445, R454, R457, R458, R505, R512). -/
namespace Sys2Proof.Machine

/-! ## Flash commands (R454) -/

/-- A flash command runs: its address is taken, ERROR clears and a running check aborts. -/
def flashStarted (s : State) (op : Nat) : State :=
  bootMod s (fun b => { b with
    flashOp := some (op, bitsOf (regGet s bootAgent 0x200) 0 29), flashError := false, check := if b.check = 1 then 4 else b.check })

theorem flashStart_idle {s : State} (h : s.boot.flashOp = none) (op : Nat) : flashStart s op = flashStarted s op :=
  if_neg (by simp [h])

theorem flashStart_busy {s : State} (h : s.boot.flashOp ≠ none) (op : Nat) : flashStart s op = bump0 s .bootFlashRefused :=
  if_pos (Option.isSome_iff_ne_none.2 h)

/-- A flash command has ended: BUSY clears. -/
def flashEnded (t : State) (bad : Bool) : State :=
  bootMod t (fun b => { b with flashOp := none, flashError := bad, resetKind := none })

/-- What a flash command that ends well leaves, before BUSY clears. -/
def flashWorked (s : State) (op a : Nat) : State :=
  if op = 1 then bootMod s (fun b => { b with flashBuf := flashBytes s (a / 256 * 256) 256 })
  else if op = 2 then bootMod s (fun b => { b with flash := flashPut b.flash (a / 256 * 256) b.flashBuf })
  else bootMod s (fun b => { b with flash := flashPut b.flash (a / 65536 * 65536) (List.replicate 65536 0xFF) })

/-- What a flash command that fails leaves open. -/
def flashFailed (s : State) (op : Nat) : State :=
  if op = 1 then bootMod (drawBytes 4 s).2 (fun b => { b with flashBuf := (drawBytes 4 s).1 }) else flashSpoil s

/-- A reset that waited for the flash takes effect. -/
def resetWaited (s t : State) : State :=
  match s.boot.resetKind with
  | some k => chipReset t k
  | none => t

section
variable {s : State} {op a : Nat} (ho : s.boot.flashOp = some (op, a))
include ho

theorem flashDone_works (ha : a < Config.flashBytes) :
    flashDone s true = resetWaited s (flashEnded (flashWorked s op a) false) := by
  unfold flashDone
  simp only [ho, decide_eq_false (Nat.not_le.2 ha), Bool.not_true, Bool.or_self, Bool.false_eq_true, if_false]
  rfl

theorem flashDone_fails (ha : a < Config.flashBytes) :
    flashDone s false = resetWaited s (bump0 (flashEnded (flashFailed s op) true) .bootFlashError) := by
  unfold flashDone
  simp only [ho, decide_eq_false (Nat.not_le.2 ha), Bool.not_false, Bool.or_false, Bool.false_eq_true, if_false, if_true]
  rfl

theorem flashDone_beyond (ha : Config.flashBytes ≤ a) :
    flashDone s true = resetWaited s (bump0 (flashEnded s true) .bootFlashError) := by
  unfold flashDone
  simp only [ho, decide_eq_true ha, Bool.or_true, if_true]
  rfl

end

theorem resetWaited_none {s : State} (h : s.boot.resetKind = none) (t : State) : resetWaited s t = t := by
  unfold resetWaited
  rw [h]

theorem resetWaited_some {s : State} {k : Nat} (h : s.boot.resetKind = some k) (t : State) : resetWaited s t = chipReset t k := by
  unfold resetWaited
  rw [h]

/-! ## The image check (R454) -/

theorem checkDone_passes {s : State} {ok : Bool} {bad : Nat} (hc : s.boot.check = 1) (h : imageCheck s ok bad = none) :
    checkDone s ok bad = bump0 (bootMod s (fun b => { b with check := 2, checkFail := {} })) .bootCheckPass := by
  unfold checkDone
  rw [if_neg (by simp [hc]), h]

theorem checkDone_fails {s : State} {ok : Bool} {bad : Nat} {f : BootFail} (hc : s.boot.check = 1)
    (h : imageCheck s ok bad = some f) :
    checkDone s ok bad = bump0 (bootMod s (fun b => { b with check := 3, checkFail := f })) .bootCheckFail := by
  unfold checkDone
  rw [if_neg (by simp [hc]), h]

/-! ## Resets (R449, R457, R458, R505, R512) -/

theorem askReset_idle {s : State} (h : s.boot.flashOp = none) (kind : Nat) : askReset s kind = chipReset s kind :=
  if_neg (by simp [h])

theorem askReset_busy {s : State} (h : s.boot.flashOp ≠ none) (kind : Nat) : askReset s kind =
    bootMod s (fun b => { b with resetKind := some kind, check := if b.check = 1 then 4 else b.check }) :=
  if_pos (Option.isSome_iff_ne_none.2 h)

theorem toNat_append_16 (key low : BitVec 16) : (key ++ low).toNat = key.toNat * 65536 + low.toNat := by
  rw [BitVec.toNat_append, ← Nat.shiftLeft_add_eq_or_of_lt low.isLt, Nat.shiftLeft_eq]

theorem bitsOf_append_key (key low : BitVec 16) : bitsOf (key ++ low) 16 16 = key.toNat := by
  rw [bitsOf_eq, toNat_append_16]
  omega

theorem bitsOf_append_kind (key low : BitVec 16) : bitsOf (key ++ low) 0 2 = low.toNat % 4 := by
  rw [bitsOf_eq, toNat_append_16]
  omega

theorem resetWrite_noKey (s : State) {key : BitVec 16} (low : BitVec 16) (h : key ≠ 0x9416) : resetWrite s (key ++ low) = s := by
  refine if_pos ?_
  rw [bitsOf_append_key]
  bv_omega

/-- KIND 01b asks for a chip reset, KIND 10b for a recovery reset. -/
theorem resetWrite_key (s : State) : resetWrite s ((0x9416 : BitVec 16) ++ (1 : BitVec 16)) = askReset s 2 ∧
    resetWrite s ((0x9416 : BitVec 16) ++ (2 : BitVec 16)) = askReset s 3 := by
  unfold resetWrite
  simp only [bitsOf_append_key, bitsOf_append_kind]
  exact ⟨rfl, rfl⟩

theorem resetPin_long {s : State} {ns : Nat} (h : 1000 ≤ ns) : resetPin s ns = askReset s 1 := if_pos h

theorem resetPin_short {s : State} {ns : Nat} (h : ns < 100) : resetPin s ns = s := by
  unfold resetPin
  rw [if_neg (by omega), if_pos h]

theorem powerDown_short {s : State} {ns : Nat} (h : ns < 100) : powerDown s ns = s := if_pos h

theorem powerDown_long {s : State} {ns : Nat} (h : 100 ≤ ns) :
    powerDown s ns = bootMod (powerOn (flashSpoil s)) (fun b => { b with powered := false }) := if_neg (by omega)

theorem flashSpoil_idle {s : State} (h : s.boot.flashOp = none) : flashSpoil s = s := by
  unfold flashSpoil
  rw [h]

/-- Spoiling the flash leaves the fuses alone. -/
theorem svn_flashSpoil (s : State) : (flashSpoil s).boot.svn = s.boot.svn := by
  unfold flashSpoil
  split
  · rfl
  · split
    · rfl
    · show (drawBytes _ s).2.boot.svn = _
      rw [boot_drawBytes]

theorem svnBurn_burns {s : State} (hs : s.boot.serving = true) (hb : s.img.burn = true) (hm : minSvn s < s.img.svn) :
    svnBurn s = bootMod s (fun b => { b with svn := s.img.svn }) := if_pos ⟨hs, hb, hm⟩

theorem svnBurn_stays {s : State} (h : s.boot.serving = false ∨ s.img.burn = false ∨ s.img.svn ≤ minSvn s) : svnBurn s = s := by
  refine if_neg ?_
  rintro ⟨hs, hb, hm⟩
  simp [hs, hb, Nat.not_le.2 hm] at h

/-- Settles O44: a command of BOOT by `asBoot_open`, the end of a flash command by how it went, a reset by whether the flash is
busy. -/
theorem flashAndResets : Obligations.FlashAndResets := by
  unfold Obligations.FlashAndResets
  refine ⟨⟨fun s src hs ho => ?_, fun s ok bad hc => ?_, fun s op a ho hk => ?_, fun s k a ho hk ha => ?_⟩,
    fun s => rfl, fun s kind => ⟨_, rfl, rfl, rfl, rfl, rfl, rfl, rfl, rfl⟩, fun s src key hs ho => ?_, fun s ns => ?_, fun s => ?_⟩
  · have boot : ∀ t, Host.Outcome.next (asBoot s src t) = (.next t : Host.Outcome State Fault Refusal) :=
      fun t => congrArg _ (asBoot_open hs ho)
    have starts : s.boot.flashOp = none → ∀ op, Host.Outcome.next (asBoot s src (flashStart s op)) =
        (.next (flashStarted s op) : Host.Outcome State Fault Refusal) :=
      fun h op => (boot _).trans (congrArg _ (flashStart_idle h op))
    have refused : s.boot.flashOp ≠ none → ∀ op, Host.Outcome.next (asBoot s src (flashStart s op)) =
        (.next (bump0 s .bootFlashRefused) : Host.Outcome State Fault Refusal) :=
      fun h op => (boot _).trans (congrArg _ (flashStart_busy h op))
    exact ⟨fun h => ⟨starts h 1, starts h 2, starts h 3⟩, fun h => ⟨refused h 1, refused h 2, refused h 3⟩, boot _⟩
  · exact ⟨fun h => congrArg _ (checkDone_passes hc h), fun f h => congrArg _ (checkDone_fails hc h)⟩
  · refine ⟨fun ha => ?_, fun ha => congrArg _ ((flashDone_beyond ho ha).trans (resetWaited_none hk _))⟩
    have works : exec (.flashCmdDone true) s = .next (flashEnded (flashWorked s op a) false) :=
      congrArg Host.Outcome.next ((flashDone_works ho ha).trans (resetWaited_none hk _))
    have fails : exec (.flashCmdDone false) s = .next (bump0 (flashEnded (flashFailed s op) true) .bootFlashError) :=
      congrArg Host.Outcome.next ((flashDone_fails ho ha).trans (resetWaited_none hk _))
    rw [works, fails]
    refine ⟨?_, ?_, ?_, ?_, fun h => ?_⟩
    · rintro rfl
      rfl
    · rintro rfl
      rfl
    · rintro rfl
      rfl
    · rintro rfl
      rfl
    · rw [flashFailed, if_neg h]
      rfl
  · refine ⟨_, congrArg Host.Outcome.next ((flashDone_works ho ha).trans (resetWaited_some hk _)), rfl, rfl, rfl, rfl, rfl⟩
  · have boot : ∀ t, Host.Outcome.next (asBoot s src t) = (.next t : Host.Outcome State Fault Refusal) :=
      fun t => congrArg _ (asBoot_open hs ho)
    obtain ⟨chip, recovery⟩ := resetWrite_key s
    refine ⟨?_, ?_, fun h => ⟨(boot _).trans (congrArg _ (resetWrite_noKey s _ h)), (boot _).trans (congrArg _ (resetWrite_noKey s _ h))⟩⟩
    · rintro rfl h
      exact ⟨(boot _).trans (congrArg _ (chip.trans (askReset_idle h 2))), (boot _).trans (congrArg _ (recovery.trans (askReset_idle h 3)))⟩
    · rintro rfl h
      exact ⟨(boot _).trans (congrArg _ (chip.trans (askReset_busy h 2))), (boot _).trans (congrArg _ (recovery.trans (askReset_busy h 3)))⟩
  · refine ⟨fun h hf => congrArg _ ((resetPin_long h).trans (askReset_idle hf 1)),
      fun h => ⟨congrArg _ (resetPin_short h), congrArg _ (powerDown_short h)⟩,
      fun h => ⟨_, congrArg Host.Outcome.next (powerDown_long h), rfl, svn_flashSpoil s, rfl, rfl, fun hf => ?_⟩⟩
    rw [flashSpoil_idle hf]
    rfl
  · exact ⟨fun hs hb hm => congrArg _ (svnBurn_burns hs hb hm), fun h => congrArg _ (svnBurn_stays h)⟩

end Sys2Proof.Machine
end

section
/-! PROOFS. The service complex: check-value units, watchdog, restarts, parity of caches (R413, R474 to R479). -/
namespace Sys2Proof.Machine

/-! ## Check-value units (R474 to R476) -/

theorem scRuns_iff (s : State) (k : Nat) : scRuns s k = true ↔ uAct s (uSc k) = .up ∧ s.svc.restarting = false := by
  simp [scRuns]

theorem cvuMod_runs {s : State} {k : Nat} (h : scRuns s k = true) (f : Cvu → Cvu) :
    cvuMod s k f = { s with cvus := lset s.cvus k (f (cvuGet s k)) } := if_pos h

theorem cvuMod_idle {s : State} {k : Nat} (h : ¬ scRuns s k = true) (f : Cvu → Cvu) : cvuMod s k f = s := if_neg h

theorem wdogKick_runs {s : State} {k : Nat} (h : scRuns s k = true) :
    wdogKick s k = svcMod s (fun v => { v with kicks := lset v.kicks k s.now }) := if_pos h

theorem wdogKick_idle {s : State} {k : Nat} (h : ¬ scRuns s k = true) : wdogKick s k = s := if_neg h

theorem leBytes_one (b : Byte) : leBytes 1 b.toNat = [b] := by
  show [BitVec.ofNat 8 _] = _
  simp

theorem toNat_zeroExtend_32 {w : Nat} (x : BitVec w) (h : w ≤ 32) : (x.zeroExtend 32).toNat = x.toNat :=
  BitVec.toNat_setWidth_of_le h

theorem cvuFeedN_byte (b : Byte) (c : Cvu) : cvuFeedN 1 (b.zeroExtend 32) c = { c with value := [b].foldl (cvuFeed c.poly) c.value } := by
  unfold cvuFeedN
  rw [toNat_zeroExtend_32 b (by decide), leBytes_one]

theorem cvuFeedN_half (h : BitVec 16) (c : Cvu) :
    cvuFeedN 2 (h.zeroExtend 32) c = { c with value := (leBytes 2 h.toNat).foldl (cvuFeed c.poly) c.value } := by
  unfold cvuFeedN
  rw [toNat_zeroExtend_32 h (by decide)]

/-! ## Watchdog and restart (R413, R477 to R479) -/

theorem restartBegin_running {s : State} (h : s.svc.restarting = true) : restartBegin s = s := if_pos h

theorem restartBegin_third {s : State} (h : s.svc.restarting = false) (hl : 2 ≤ (recentRestarts s).length) :
    restartBegin s = chipStop s 0x41 := by
  unfold restartBegin
  rw [if_neg (by simp [h]), if_pos hl]

/-- What a restart of the service complex starts with. -/
theorem restartBegin_begins {s : State} (h : s.svc.restarting = false) (hl : (recentRestarts s).length < 2) :
    let t := restartBegin s
    t.svc = { s.svc with restarting := true, restarts := satAdd 0xFF s.svc.restarts 1, restartTimes := recentRestarts s ++ [s.now] } ∧
      t.ptp.locked = false ∧ t.cvus = List.replicate 4 {} ∧ t.pitches = s.pitches ∧ t.boot = s.boot := by
  dsimp only
  obtain ⟨svc, pitches, boot⟩ := faultRec_rest s { agent := svcAgent, cause := 0x41, cls := clsTransient } rfl
  unfold restartBegin
  rw [if_neg (by simp [h]), if_neg (by omega)]
  refine ⟨?_, rfl, rfl, ?_, ?_⟩
  · show (trace (svcMod (faultRec s _) _) _ _ _ _ _).svc = _
    rw [(trace_rest _ _ _ _ _ _).1, svcMod_svc, svc]
  · show (trace (svcMod (faultRec s _) _) _ _ _ _ _).pitches = _
    rw [(trace_rest _ _ _ _ _ _).2.1, svcMod_pitches, pitches]
  · show (trace (svcMod (faultRec s _) _) _ _ _ _ _).boot = _
    rw [(trace_rest _ _ _ _ _ _).2.2, svcMod_boot, boot]

theorem wdogExpire_missed {s : State} {x : Nat}
    (h : (((upto 4).filter (fun k => scRuns s k)).map (fun k => (s.svc.kicks[k]?).getD 0 + wdogNs s)).min? = some x) :
    wdogExpire s false = restartBegin (nowTo s x) := by
  unfold wdogExpire
  simp only [h, Bool.false_eq_true, if_false]

theorem restartDone_idle {s : State} (ok : Bool) (h : s.svc.restarting = false) : restartDone s ok = s := if_pos (by simp [h])

theorem restartDone_noFirmware {s : State} (h : s.svc.restarting = true) : restartDone s false = chipStop s 0x41 := by
  unfold restartDone
  rw [if_neg (by simp [h]), if_pos (by rfl)]

theorem restartDone_resumes {s : State} (h : s.svc.restarting = true) : restartDone s true =
    let t := svcMod s (fun v => { v with restarting := false, lateRecalls := [], lateGranules := [], kicks := [s.now, s.now, s.now, s.now] })
    let u := s.svc.lateRecalls.foldl (fun x r => revokeAll x r.1 r.2) ((t.pitches.map (·.1)).foldl resumeWork t)
    ptpStart (s.svc.lateGranules.foldl (fun x g => granuleReturned x g false) u) := by
  unfold restartDone
  rw [if_neg (by simp [h]), if_neg (by decide)]
  rfl

/-! ## Parity of a cache (R413) -/

/-- The error is noted with its time. -/
def cacheErrNoted (s : State) (k : Nat) : State := svcMod s (fun v => { v with cacheErr := tins v.cacheErr k s.now })

theorem scParity_refetched (s : State) (k : Nat) : scParity s k false = s := rfl

theorem scParity_first {s : State} {k : Nat} (hf : s.flt.stopped = false)
    (h : ∀ x, tfind s.svc.cacheErr k = some x → x + 86400000000000 ≤ s.now) :
    scParity s k true = restartBegin (cacheErrNoted s k) := by
  unfold scParity cacheErrNoted
  cases hx : tfind s.svc.cacheErr k with
  | none => simp [hf]
  | some x => simp [Nat.not_lt.2 (h x hx), hf]

theorem scParity_second {s : State} {k x : Nat} (hx : tfind s.svc.cacheErr k = some x) (h : s.now < x + 86400000000000)
    (hr : uAct s (uSc k) ≠ .retired) : scParity s k true =
      let u := chiefAgain (retireUnit (cacheErrNoted s k) (uSc k) 0x40 0 0)
      if u.flt.stopped then u else restartBegin u := by
  have hr' : uAct (cacheErrNoted s k) (uSc k) ≠ .retired := hr
  unfold cacheErrNoted at *
  unfold scParity
  rw [if_neg (by decide)]
  simp only [hx, decide_eq_true h, true_and, if_pos hr']

/-- Settles O45: a service core that runs by `cvuMod_runs`, a restart by `restartBegin_begins`, an error of a cache by whether it is
the second in 24 hours. -/
theorem serviceComplex : Obligations.ServiceComplex := by
  unfold Obligations.ServiceComplex
  refine ⟨fun s sc poly b h w => ?_, fun s => ?_, fun s => ?_, fun s sc => ?_⟩
  · refine ⟨fun hu hr => ?_, fun hn => ?_⟩
    · have runs : scRuns s sc.val = true := (scRuns_iff s _).2 ⟨hu, hr⟩
      refine ⟨fun hp => ⟨?_, ?_⟩, ?_, ?_, ?_, ?_, ?_, ?_⟩
      · refine congrArg _ ((cvuMod_runs runs _).trans ?_)
        rw [cvuInit, if_neg hp]
      · refine congrArg _ ((cvuMod_runs runs _).trans ?_)
        rw [cvuPoly, if_neg hp]
      · rintro rfl
        exact ⟨congrArg _ (cvuMod_runs runs _), congrArg _ (cvuMod_runs runs _)⟩
      · refine congrArg _ ((cvuMod_runs runs _).trans ?_)
        rw [cvuFeedN_byte]
      · refine congrArg _ ((cvuMod_runs runs _).trans ?_)
        rw [cvuFeedN_half]
      · exact congrArg _ (cvuMod_runs runs _)
      · exact congrArg _ (cvuMod_runs runs _)
      · exact congrArg _ (wdogKick_runs runs)
    · have idle : ¬ scRuns s sc.val = true := by
        rw [scRuns_iff]
        rintro ⟨hu, hr⟩
        simp [hu, hr] at hn
      exact ⟨congrArg _ (cvuMod_idle idle _), congrArg _ (wdogKick_idle idle)⟩
  · refine ⟨fun h => congrArg _ (restartBegin_running h), fun h => ⟨fun hl => congrArg _ (restartBegin_third h hl), fun hl => ?_⟩,
      fun x hx => congrArg _ (wdogExpire_missed hx)⟩
    obtain ⟨svc, locked, cvus, pitches, boot⟩ := restartBegin_begins h hl
    refine ⟨restartBegin s, rfl, ?_, ?_, locked, cvus, ?_, pitches, boot⟩ <;> rw [svc]
    rfl
  · exact ⟨fun h ok => congrArg _ (restartDone_idle ok h),
      fun h => ⟨congrArg _ (restartDone_noFirmware h), congrArg _ (restartDone_resumes h)⟩⟩
  · refine ⟨congrArg _ (scParity_refetched s sc.val), fun hf => ⟨fun h => congrArg _ (scParity_first hf h), ?_⟩⟩
    rintro x u hx hlt hr rfl
    have e : exec (.scCacheParity sc true) s = .next _ := congrArg Host.Outcome.next (scParity_second hx hlt hr)
    rw [e]
    exact ⟨fun h => congrArg _ (if_neg (Bool.not_eq_true _ ▸ h)), fun h => congrArg _ (if_pos h)⟩
end Sys2Proof.Machine
end

section
/-! PROOFS. What a check-value unit computes (R475). -/
namespace Sys2Proof.Machine

/-- Division of a byte into a remainder, most significant bit first (R475). -/
def crcDivide {w : Nat} (poly c b : BitVec w) : BitVec w :=
  (List.range 8).foldl (fun (a : BitVec w) _ => if a.msb = true then (a <<< 1) ^^^ poly else a <<< 1) (c ^^^ b)

/-- A reflected CRC is the division of the reversed bytes, reversed. -/
theorem crcFeed_divides (p c : BitVec 32) (bs : List Byte) : bs.foldl (crcFeed p) c =
    (bs.foldl (fun (c : BitVec 32) (b : Byte) => crcDivide p.reverse c (b.reverse.zeroExtend 32 <<< 24)) c.reverse).reverse := by
  rw [← reverse_reverse32 (bs.foldl (crcFeed p) c), crc_reversed_feed]
  rfl

theorem poly32c_reverse : poly32c.reverse = 0x1EDC6F41 := by decide +kernel

theorem poly32_reverse : poly32.reverse = 0x04C11DB7 := by decide +kernel

theorem allOnes32_reverse : (0xFFFFFFFF : BitVec 32).reverse = 0xFFFFFFFF := by decide +kernel

theorem crc8Feed_divides : crc8Feed = crcDivide (0x07 : Byte) := rfl

theorem zeroExtend_and_mask (c : Byte) : c.zeroExtend 32 &&& 0xFF = c.zeroExtend 32 := by
  apply BitVec.eq_of_toNat_eq
  rw [BitVec.toNat_and, show (0xFF : BitVec 32).toNat = 2 ^ 8 - 1 from rfl, Nat.and_two_pow_sub_one_eq_mod]
  refine Nat.mod_eq_of_lt ?_
  rw [BitVec.toNat_setWidth]
  exact lt_of_le_of_lt (Nat.mod_le _ _) c.isLt

theorem cvuFeed_crc8 (bs : List Byte) (c : Byte) :
    bs.foldl (cvuFeed 2) (c.zeroExtend 32) = (bs.foldl crc8Feed c).zeroExtend 32 := by
  induction bs generalizing c with
  | nil => rfl
  | cons b bs ih =>
    have h : cvuFeed 2 (c.zeroExtend 32) b = (crc8Feed c b).zeroExtend 32 := by
      show (crc8Feed ((c.zeroExtend 32).truncate 8) b).zeroExtend 32 = _
      rw [BitVec.truncate, BitVec.zeroExtend, BitVec.setWidth_setWidth_of_le _ (by decide), BitVec.setWidth_eq]
    rw [List.foldl_cons, List.foldl_cons, h, ih]

/-- Settles O59: the two reflected polynomials by `crcFeed_divides`, CRC-8 by `crc8Feed_divides`, the values of the table by computing
them. -/
theorem checkValueComputations : Obligations.CheckValueComputations := by
  unfold Obligations.CheckValueComputations
  refine ⟨fun bs => ?_, fun bs => ?_, fun bs => ?_, by decide +kernel, by decide +kernel, by decide +kernel⟩
  · show bs.foldl (crcFeed poly32c) 0xFFFFFFFF ^^^ 0xFFFFFFFF = _
    rw [crcFeed_divides, poly32c_reverse, allOnes32_reverse]
    rfl
  · show bs.foldl (crcFeed poly32) 0xFFFFFFFF ^^^ 0xFFFFFFFF = _
    rw [crcFeed_divides, poly32_reverse, allOnes32_reverse]
    rfl
  · show bs.foldl (cvuFeed 2) ((0 : Byte).zeroExtend 32) &&& 0xFF = _
    rw [cvuFeed_crc8, zeroExtend_and_mask, crc8Feed_divides]
    rfl
end Sys2Proof.Machine
end

section
/-! PROOFS. Instance 3Fh of a block (R462). -/
namespace Sys2Proof.Machine

theorem instancesOf_broadcast {agent : Nat} (h : agentInst agent = 63)
    (hn : 1 < blockCount (agentDomain agent) (agentBlock agent)) :
    instancesOf agent = (upto (blockCount (agentDomain agent) (agentBlock agent))).map (fun i => agent - 63 + i) := by
  unfold instancesOf
  rw [if_pos h, if_pos hn]

theorem instancesOf_broadcast_single {agent : Nat} (h : agentInst agent = 63)
    (hn : blockCount (agentDomain agent) (agentBlock agent) ≤ 1) : instancesOf agent = [] := by
  unfold instancesOf
  rw [if_pos h, if_neg (Nat.not_lt.2 hn)]

theorem blockCount_le (d b : Nat) : blockCount d b ≤ 48 := by
  unfold blockCount
  split_ifs <;> decide

/-- A member of the block that a broadcast address names is not the broadcast. -/
theorem agentInst_instance {agent i : Nat} (h : agentInst agent = 63) (hi : i < 48) : agentInst (agent - 63 + i) ≠ 63 := by
  unfold agentInst at *
  omega

theorem regRead_broadcast {s : State} {src : MgmtSource} {agent off : Nat} (ho : off < 65536) (h : agentInst agent = 63)
    (hn : 1 < blockCount (agentDomain agent) (agentBlock agent)) :
    regRead s src (regAddr agent off) = regRead s src (regAddr (agent - 63) off) := by
  have first : agentInst (agent - 63) ≠ 63 := agentInst_instance (i := 0) h (by decide)
  obtain ⟨k, hk⟩ : ∃ k, blockCount (agentDomain agent) (agentBlock agent) = k + 1 := ⟨_, (Nat.succ_pred (by omega)).symm⟩
  rw [regRead_one ho first]
  unfold regRead
  rw [regAddr_div ho, instancesOf_broadcast h hn, regAddr_mod ho, hk, upto, List.range_succ_eq_map, List.map_cons]
  rfl

/-- A write that reaches several instances writes each in turn. -/
theorem regWrite_instances (s : State) (src : MgmtSource) (a : Nat) (v : Word) : (regWrite s src a v).1 =
    (instancesOf (a / 65536)).foldl (fun x g => agentWrite x src g (a % 65536) v) (captureEnd s src) := by
  unfold regWrite
  cases instancesOf (a / 65536) <;> rfl

theorem regWrite_broadcast {s : State} {src : MgmtSource} {agent off : Nat} (v : Word) (ho : off < 65536)
    (h : agentInst agent = 63) (hn : 1 < blockCount (agentDomain agent) (agentBlock agent)) :
    (regWrite s src (regAddr agent off) v).1 = (List.range (blockCount (agentDomain agent) (agentBlock agent))).foldl
      (fun x i => agentWrite x src (agent - 63 + i) off v) (captureEnd s src) := by
  rw [regWrite_instances, regAddr_div ho, regAddr_mod ho, instancesOf_broadcast h hn, List.foldl_map]
  rfl

theorem regRead_none {s : State} {src : MgmtSource} {a : Nat} (h : instancesOf (a / 65536) = []) :
    regRead s src a = (captureEnd s src, none) := by
  unfold regRead
  rw [h]

theorem regWrite_none {s : State} {src : MgmtSource} {a : Nat} (v : Word) (h : instancesOf (a / 65536) = []) :
    regWrite s src a v = (captureEnd s src, none) := by
  unfold regWrite
  rw [h]

theorem entryAccess_none {s u : State} {src : MgmtSource} {reach : Nat → Bool} {p : List Byte}
    (hr : reach (beAt p 4 4) = true) (ho : byteAt p 0 = 1 ∨ byteAt p 0 = 2)
    (h : (if byteAt p 0 = 1 then regRead s src (beAt p 4 4)
      else regWrite s src (beAt p 4 4) (BitVec.ofNat 32 (beAt p 8 4))) = (u, none)) :
    entryAccess s src reach p = ((draw u).2, beBytes 4 (draw u).1.toNat ++ [0x0A] ++ zeros 3) := by
  unfold entryAccess
  have hop : ¬ (byteAt p 0 ≠ 1 ∧ byteAt p 0 ≠ 2) := by tauto
  simp only [hop, hr, h, Bool.not_true, Bool.false_eq_true, if_false]
  rfl

/-- Settles O60: a broadcast by the instances that its address reaches, an entry that no register answers by `entryAccess_none`. -/
theorem broadcastInstance : Obligations.BroadcastInstance := by
  unfold Obligations.BroadcastInstance
  refine ⟨fun s src agent off v ho h63 => ?_, fun s src p u hop hread hwrite => ?_⟩
  · dsimp only
    refine ⟨fun hn => ⟨regRead_broadcast ho h63 hn, regWrite_broadcast v ho h63 hn, fun i hi => ?_⟩, fun hn => ?_⟩
    · have hi48 := lt_of_lt_of_le hi (blockCount_le _ _)
      exact regWrite_one v ho (agentInst_instance h63 hi48)
    · have none := instancesOf_broadcast_single h63 hn
      rw [← regAddr_div (agent := agent) ho] at none
      exact ⟨congrArg Prod.snd (regRead_none none), regWrite_none v none⟩
  · refine ⟨(draw u).1, ?_⟩
    rw [entryAccess_none rfl hop (u := u), List.append_assoc]
    · rfl
    · rcases hop with h | h
      · rw [if_pos h, hread h]
      · rw [if_neg (by rw [h]; decide), hwrite h]
end Sys2Proof.Machine
end

section
/-! PROOFS. Frames of conversions and the power feeds (R418, R449, R486 to R491). -/
namespace Sys2Proof.Machine

/-! ## A frame of conversions (R486 to R488, R491) -/

theorem adcInput_feedA {j : Nat} : adcInput (8 * j) = 0 := if_pos (by omega)

theorem adcInput_feedB {j : Nat} : adcInput (8 * j + 4) = 1 := by
  unfold adcInput
  rw [if_neg (by omega), if_pos (by omega)]

/-- The slot of a frame whose conversion gives an input its VALUE and CODE. -/
def adcSlot (k : Nat) : Nat := if k = 0 then 24 else if k = 1 then 28 else (k - 2) + (k - 2) / 3 + 1

theorem adcSlot_last {k : Nat} (h : k < 24) :
    ((upto 32).filter (fun x => adcInput x = k)).getLast?.getD 0 = adcSlot k ∧ adcInput (adcSlot k) = k := by
  revert k
  decide

/-- The last slot of a frame that converts an input. -/
def lastSlot (k : Nat) : Nat := ((upto 32).filter (fun x => adcInput x = k)).getLast?.getD 0

/-- The code of a slot. -/
def adcCode (codes : List (BitVec 12)) (j : Nat) : Nat := ((codes[j]?).getD 0).toNat

/-- Ground or reference is out of its bounds: the frame leaves the VALUEs as they are. -/
def adcKept (codes : List (BitVec 12)) : Bool :=
  decide (8 < adcCode codes 30) || decide (3429 < adcCode codes 31) || decide (adcCode codes 31 < 3397)

/-- The VALUE that a frame gives input k by its slot j. -/
def frameValue (s : State) (codes : List (BitVec 12)) (k j : Nat) : Int :=
  if adcKept codes = true then ainValue s k else adcValue s k (adcCode codes j)

/-- The inputs and the power of a frame. -/
def frameTaken (s : State) (codes : List (BitVec 12)) : State :=
  let u := periodic s 1 16000
  let value := frameValue s codes
  let t := brdMod u (fun b => { b with
    ain := (upto 24).map (fun k => (value k (adcSlot k), adcCode codes (adcSlot k)))
    powers := b.powers.filter (fun p => u.now < p.1 + regField s brdAgent 0x114 0 6 * 1000000) ++
      [(u.now, value 0 24 * value 2 1 / 10000 + value 1 28 * value 3 2 / 10000)] })
  if adcKept codes = true then bump0 t .brdAdcCal else t

theorem adcFrame_eq (s : State) (codes : List (BitVec 12)) : adcFrame s codes =
    (List.range 4).foldl (fun x j => if halted x = true ∧ halted (frameTaken s codes) = false then x
      else feedPair x (frameValue s codes 0 (8 * j)) (frameValue s codes 1 (8 * j + 4)) ((periodic s 1 16000).now - 16000 + 4000 * j))
      (frameTaken s codes) := by
  have outOfBounds : (decide (8 < adcCode codes 30) || decide (3413 + 16 < adcCode codes 31) ||
      decide (adcCode codes 31 + 16 < 3413)) = adcKept codes := by
    unfold adcKept
    congr 1
    rw [decide_eq_decide]
    omega
  have slots : (upto 24).map (fun k =>
      (frameValue s codes (adcInput (lastSlot k)) (lastSlot k), adcCode codes (lastSlot k))) =
      (upto 24).map (fun k => (frameValue s codes k (adcSlot k), adcCode codes (adcSlot k))) := by
    refine map_upto_congr 24 _ _ fun k hk => ?_
    obtain ⟨last, input⟩ := adcSlot_last hk
    rw [lastSlot, last, input]
  have body : adcFrame s codes = adcFrame_body (periodic s 1 16000) (adcCode codes) (adcKept codes)
      (fun j => frameValue s codes (adcInput j) j)
      ((upto 24).map (fun k => (frameValue s codes (adcInput (lastSlot k)) (lastSlot k), adcCode codes (lastSlot k))))
      (regField s brdAgent 0x114 0 6 * 1000000)
      (frameValue s codes 0 24 * frameValue s codes 2 1 / 10000 + frameValue s codes 1 28 * frameValue s codes 3 2 / 10000) := by
    unfold frameValue
    generalize adcKept codes = bad at *
    unfold adcCode at *
    unfold adcFrame
    simp only [outOfBounds]
    cases bad <;> rfl
  rw [body, slots]
  unfold adcFrame_body frameTaken
  simp only [adcInput_feedA, adcInput_feedB, Bool.not_eq_true']
  cases adcKept codes <;> rfl

/-! ## The pair of samples of the feeds (R418, R449, R490) -/

section
variable {s : State} {va vb : Int} {t : Nat}

/-- Feed A, or B, falls at a sample. -/
def feedALost (s : State) (va : Int) (t : Nat) : Bool := feedFalls (feedSample s s.brd.feedA va t)
def feedBLost (s : State) (vb : Int) (t : Nat) : Bool := feedFalls (feedSample s s.brd.feedB vb (t + 2000))

/-- The feeds after a pair of samples. -/
def feedsSampled (s : State) (va vb : Int) (t : Nat) (la lb : Bool) : State :=
  let a := feedSample s s.brd.feedA va t
  let b := feedSample s s.brd.feedB vb (t + 2000)
  brdMod s (fun x => { x with feedA := if la then { a with present := false } else a, feedB := if lb then { b with present := false } else b })

theorem feedPair_none (ha : feedALost s va t = false) (hb : feedBLost s vb t = false) :
    feedPair s va vb t = feedsSampled s va vb t false false := by
  unfold feedALost feedBLost at *
  unfold feedPair feedsSampled
  simp only [ha, hb, Bool.not_false, and_self, if_true, Bool.false_eq_true, if_false]

theorem feedPair_lossA (ha : feedALost s va t = true) (hb : feedBLost s vb t = false) : feedPair s va vb t =
    let u := bump0 (feedsSampled s va vb t true false) .brdFeedLossA
    if s.brd.feedB.present = true then faultRec u { agent := brdAgent, cause := 0x50, cls := clsAlarm }
    else if booting s then haltBoot u false else chipStopBy u brdAgent 0x51 := by
  unfold feedALost feedBLost at *
  unfold feedPair feedsSampled
  simp only [ha, hb, Bool.not_false, Bool.not_true, Bool.false_eq_true, false_and, if_true, if_false, false_or]
  rfl

theorem feedPair_lossB (ha : feedALost s va t = false) (hb : feedBLost s vb t = true) : feedPair s va vb t =
    let u := bump0 (feedsSampled s va vb t false true) .brdFeedLossB
    if s.brd.feedA.present = true then faultRec u { agent := brdAgent, cause := 0x50, cls := clsAlarm }
    else if booting s then haltBoot u false else chipStopBy u brdAgent 0x51 := by
  unfold feedALost feedBLost at *
  unfold feedPair feedsSampled
  simp only [ha, hb, Bool.not_false, Bool.not_true, Bool.false_eq_true, and_false, if_true, if_false, or_false]
  rfl

theorem feedPair_lossBoth (ha : feedALost s va t = true) (hb : feedBLost s vb t = true) : feedPair s va vb t =
    let u := bump0 (bump0 (feedsSampled s va vb t true true) .brdFeedLossA) .brdFeedLossB
    if booting s then haltBoot u false else chipStopBy u brdAgent 0x51 := by
  unfold feedALost feedBLost at *
  unfold feedPair feedsSampled
  simp only [ha, hb, Bool.not_true, Bool.false_eq_true, and_false, if_true, if_false, or_false]
  rfl

end

/-! ## A feed that returns, and feeds turned off (R489, R490) -/

/-- The feed that a command names. -/
def feedOf (s : State) (isB : Bool) : Feed := if isB = true then s.brd.feedB else s.brd.feedA

theorem nowTo_rest (s : State) (x : Nat) : (nowTo s x).brd = s.brd ∧ (nowTo s x).boot = s.boot := ⟨rfl, rfl⟩

theorem feedReturn_idle {s : State} {isB : Bool}
    (h : (feedOf s isB).okSince = none ∨ (feedOf s isB).present = true ∨ (feedOf s isB).on = false) : feedReturn s isB = s := by
  unfold feedReturn
  unfold feedOf at h
  dsimp only
  split
  · rfl
  · rename_i hx
    exact if_pos (by simpa [hx] using h)

theorem feedReturn_returns {s : State} {isB : Bool} {x : Nat} (hx : (feedOf s isB).okSince = some x)
    (hp : (feedOf s isB).present = false) (ho : (feedOf s isB).on = true) : feedReturn s isB =
      bootMod (brdMod (nowTo s (x + 1000000)) (fun b =>
        if isB then { b with feedB := { feedOf s isB with present := true, lowRun := 0 } }
        else { b with feedA := { feedOf s isB with present := true, lowRun := 0 } })) (fun b => { b with haltFeeds := false }) := by
  unfold feedReturn
  unfold feedOf at *
  simp only [hx, hp, ho, Bool.false_eq_true, Bool.not_true, or_self, if_false]

/-- A feed as BRD_FEED_CTRL leaves it. -/
def feedSwitched (f : Feed) (off : Bool) : Feed :=
  if off = true then { f with on := false, present := false, lowRun := 0 } else { f with on := true }

/-- A feed that is present stays on under a write of BRD_FEED_CTRL. -/
def feedLeft (s : State) (v : Word) : Prop :=
  (s.brd.feedA.present = true ∧ v.getLsbD 0 = false) ∨ (s.brd.feedB.present = true ∧ v.getLsbD 1 = false)

theorem feedLeft_iff (s : State) (v : Word) : feedLeft s v ↔
    ((s.brd.feedA.present && !v.getLsbD 0) || (s.brd.feedB.present && !v.getLsbD 1)) = true := by
  simp [feedLeft]

theorem feedCtrl_switches {s : State} {v : Word} (h : feedLeft s v) : feedCtrl s v =
    brdMod (regSet s brdAgent 0x104 (v &&& 3)) (fun b =>
      { b with feedA := feedSwitched b.feedA (v.getLsbD 0), feedB := feedSwitched b.feedB (v.getLsbD 1) }) := by
  unfold feedCtrl feedSwitched
  rw [if_neg (by rw [(feedLeft_iff s v).1 h]; decide)]
  simp only [feed_of_put]

theorem feedCtrl_refused {s : State} {v : Word} (h : ¬ feedLeft s v) : feedCtrl s v = bump0 s .brdFeedRefused := by
  rw [feedLeft_iff, Bool.not_eq_true] at h
  exact if_pos (by rw [h]; rfl)

/-- Settles O48: a frame by `adcFrame_eq`, a pair of samples by which feeds fall, a return and a write by what the feed allows. -/
theorem adcFramesAndFeeds : Obligations.AdcFramesAndFeeds := by
  unfold Obligations.AdcFramesAndFeeds
  refine ⟨fun s codes => ?_, fun s va vb at_ => ?_, fun s isB => ?_, fun s src v hs ho hb => ?_⟩
  · refine (congrArg Host.Outcome.next (adcFrame_eq s codes)).trans ?_
    rfl
  · have falls : ∀ {f v t}, f.present = true ∧ v < feedUv s ∧ 2 ≤ f.lowRun → feedFalls (feedSample s f v t) = true :=
      (feed_falls_iff s _ _ _).2
    have stands : ∀ {f v t}, ¬ (f.present = true ∧ v < feedUv s ∧ 2 ≤ f.lowRun) → feedFalls (feedSample s f v t) = false :=
      fun h => Bool.not_eq_true _ ▸ mt (feed_falls_iff s _ _ _).1 h
    refine ⟨fun ha hb => feedPair_none (stands ha) (stands hb), fun ha hb => ?_, fun ha hb => ?_, fun ha hb => ?_⟩
    · have e := feedPair_lossA (t := at_) (falls ha) (stands hb)
      exact ⟨fun hp => e.trans (if_pos hp), fun hp hs => e.trans ((if_neg (by simp [hp])).trans (if_neg (by simp [hs]))),
        fun hp hs => e.trans ((if_neg (by simp [hp])).trans (if_pos hs))⟩
    · have e := feedPair_lossB (t := at_) (stands ha) (falls hb)
      exact ⟨fun hp => e.trans (if_pos hp), fun hp hs => e.trans ((if_neg (by simp [hp])).trans (if_neg (by simp [hs])))⟩
    · have e := feedPair_lossBoth (t := at_) (falls ha) (falls hb)
      exact ⟨fun hs => e.trans (if_neg (by simp [hs])), fun hs => e.trans (if_pos hs)⟩
  · refine ⟨fun h => congrArg _ (feedReturn_idle h), fun x hx hp ho => ⟨_, congrArg Host.Outcome.next (feedReturn_returns hx hp ho), ?_, ?_⟩⟩
    · exact now_nowTo s (x + 1000000)
    · obtain ⟨brd, boot⟩ := nowTo_rest s (x + 1000000)
      generalize nowTo s (x + 1000000) = u at *
      rw [bootMod_brd, bootMod_boot, brdMod_brd, brdMod_boot, brd, boot]
      cases isB <;> exact ⟨rfl, rfl, rfl⟩
  · have e : exec (.feedOffWrite src v) s = .next (feedCtrl s v) := congrArg Host.Outcome.next (asOperator_open hs ho hb)
    rw [e]
    exact ⟨fun h => congrArg _ (feedCtrl_switches h), fun h => congrArg _ (feedCtrl_refused h)⟩
end Sys2Proof.Machine
end

section
/-! PROOFS. Temperatures and fans (R449, R453, R492 to R497). -/
namespace Sys2Proof.Machine

/-! ## Die sensors (R449, R492, R494) -/

/-- The sensors as a reading leaves them. -/
def dieTaken (s : State) (temps : List (BitVec 11)) : State :=
  brdMod (periodic s 3 10000) (fun b => { b with die := (upto 32).map (fun k => ((temps[k]?).getD 0).toNat) })

/-- A sensor reads above TRIP_DIE. -/
def dieHot (s : State) (temps : List (BitVec 11)) : Prop :=
  ∃ k, k < 32 ∧ regField s brdAgent 0x118 8 8 * 8 < ((temps[k]?).getD 0).toNat

theorem dieHot_iff (s : State) (temps : List (BitVec 11)) :
    regField (periodic s 3 10000) brdAgent 0x118 8 8 * 8 < hottest (dieTaken s temps) ↔ dieHot s temps := by
  rw [regField_periodic, lt_hottest]
  simp [dieTaken, dieHot, upto]

/-- What a reading does once it has been taken: a hot one counts, and the second in a row trips. -/
theorem dieRead_eq (s : State) (temps : List (BitVec 11)) : dieRead s temps =
    if regField (periodic s 3 10000) brdAgent 0x118 8 8 * 8 < hottest (dieTaken s temps) then
      (let u := brdMod (dieTaken s temps) (fun b => { b with dieOver := b.dieOver + 1 })
       if 2 ≤ u.brd.dieOver then thermalTrip u else u)
    else bootMod (brdMod (dieTaken s temps) (fun b => { b with dieOver := 0 })) (fun b => { b with haltHeat := false }) := rfl

theorem dieTaken_rest (s : State) (temps : List (BitVec 11)) : (dieTaken s temps).brd.dieOver = s.brd.dieOver ∧
    (dieTaken s temps).brd.tripped = s.brd.tripped ∧ (dieTaken s temps).boot = s.boot := ⟨rfl, rfl, rfl⟩

theorem dieRead_cool {s : State} {temps : List (BitVec 11)} (h : ¬ dieHot s temps) : dieRead s temps =
    bootMod (brdMod (dieTaken s temps) (fun b => { b with dieOver := 0 })) (fun b => { b with haltHeat := false }) := by
  rw [dieRead_eq, if_neg (mt (dieHot_iff s temps).1 h)]

/-- A hot reading is counted. -/
def dieOverCounted (s : State) : State := brdMod s (fun b => { b with dieOver := b.dieOver + 1 })

theorem dieRead_hotFirst {s : State} {temps : List (BitVec 11)} (h : dieHot s temps) (h0 : s.brd.dieOver = 0) :
    dieRead s temps = brdMod (dieTaken s temps) (fun b => { b with dieOver := 1 }) := by
  have first : (dieTaken s temps).brd.dieOver = 0 := (dieTaken_rest s temps).1.trans h0
  rw [dieRead_eq, if_pos ((dieHot_iff s temps).2 h)]
  simp only [brdMod, first]
  rfl

theorem dieRead_hotAgain {s : State} {temps : List (BitVec 11)} (h : dieHot s temps) (h1 : 1 ≤ s.brd.dieOver) :
    dieRead s temps = thermalTrip (dieOverCounted (dieTaken s temps)) := by
  have again : 2 ≤ (dieOverCounted (dieTaken s temps)).brd.dieOver := by
    show 2 ≤ (dieTaken s temps).brd.dieOver + 1
    rw [(dieTaken_rest s temps).1]
    omega
  rw [dieRead_eq, if_pos ((dieHot_iff s temps).2 h)]
  exact if_pos again

/-- Every fan at 100 %. -/
def fansAtFull (s : State) : State := brdMod s (fun b => { b with fans := b.fans.map (fun f => { f with duty := 100 }) })

theorem thermalTrip_first {s : State} (h : s.brd.tripped = false) : thermalTrip s =
    let t := fansAtFull (brdMod s (fun b => { b with tripped := true }))
    if booting s then haltBoot t true else chipStopBy t brdAgent 0x52 := by
  unfold thermalTrip fansAtFull
  rw [if_neg (by simp [h])]
  dsimp only
  rw [fanForce_tripped _ rfl]
  rfl

theorem thermalTrip_counted {s : State} (h : s.brd.tripped = false) : thermalTrip (dieOverCounted s) =
    let t := fansAtFull (brdMod s (fun b => { b with dieOver := b.dieOver + 1, tripped := true }))
    if booting s then haltBoot t true else chipStopBy t brdAgent 0x52 := thermalTrip_first h

theorem dieRead_trips {s : State} {temps : List (BitVec 11)} (h : dieHot s temps) (h1 : 1 ≤ s.brd.dieOver)
    (ht : s.brd.tripped = false) : dieRead s temps =
      let t := fansAtFull (brdMod (dieTaken s temps) (fun b => { b with dieOver := b.dieOver + 1, tripped := true }))
      if booting s then haltBoot t true else chipStopBy t brdAgent 0x52 := by
  obtain ⟨-, tripped, boot⟩ := dieTaken_rest s temps
  rw [dieRead_hotAgain h h1, thermalTrip_counted (tripped.trans ht), booting_rest s _ boot]

/-! ## Modules (R493, R495) -/

/-- The modules that are present. -/
def modulesPresent (s : State) : List Module := (s.brd.mods.filter (·.2.present)).map (·.2)

/-- The refresh interval follows the modules' temperatures, and the fans follow what is unknown. -/
def pollTaken (s : State) : State :=
  fanForce (dmcMod s (fun d => { d with
    hotNext := d.hotNext || (modulesPresent s).any (fun m => m.unknown || decide ((340 : Int) < m.temp))
    coolSince := if (modulesPresent s).all (fun m => !m.unknown && decide (m.temp ≤ (328 : Int))) = true
      then some (d.coolSince.getD s.now) else none }))

theorem poll_end_eq (s : State) : poll_end s = tripWhen ((modulesPresent s).any (fun m => decide (2 ≤ m.excess))) (pollTaken s) := rfl

theorem poll_end_noTrip {s : State} (h : ∀ m ∈ modulesPresent s, m.excess < 2) : poll_end s = pollTaken s := by
  have none : (modulesPresent s).any (fun m => decide (2 ≤ m.excess)) = false := by
    simpa only [List.any_eq_false, decide_eq_true_eq, Nat.not_le] using h
  rw [poll_end_eq, none]
  rfl

theorem poll_end_trip {s : State} (h : ∃ m ∈ modulesPresent s, 2 ≤ m.excess) : poll_end s = thermalTrip (pollTaken s) := by
  have some : (modulesPresent s).any (fun m => decide (2 ≤ m.excess)) = true := by
    simpa only [List.any_eq_true, decide_eq_true_eq] using h
  rw [poll_end_eq, some]
  rfl

/-- A module as a poll that reads it leaves it. -/
def moduleRead (s : State) (m : Module) (t : BitVec 12) (p : BitVec 16) : Module :=
  { m with temp := t.toInt, power := p.toNat, fails := 0, unknown := false,
           excess := if ((regField s brdAgent 0x118 16 8 * 4 : Nat) : Int) < t.toInt then m.excess + 1 else 0 }

/-- A module as a failed poll leaves it. -/
def moduleMissed (m : Module) : Module :=
  { m with fails := m.fails + 1, unknown := m.unknown || decide (3 ≤ m.fails + 1), excess := 0 }

def modulePut (s : State) (k : Nat) (m : Module) : State := brdMod s (fun b => { b with mods := tset {} b.mods k m })

theorem modulePolled_absent {s : State} {k : Nat} (h : (tget {} s.brd.mods k).present = false)
    (r : Option (BitVec 12 × BitVec 16)) : modulePolled s k r = s := if_pos (by simp [h])

section
variable {s : State} {k : Nat} (h : (tget {} s.brd.mods k).present = true)
include h

theorem modulePolled_read (t : BitVec 12) (p : BitVec 16) :
    modulePolled s k (some (t, p)) = modulePut s k (moduleRead s (tget {} s.brd.mods k) t p) := by
  unfold modulePolled moduleRead
  rw [if_neg (by simp [h])]
  simp only [decide_eq_true_eq]
  rfl

theorem modulePolled_missed :
    modulePolled s k none = bump0 (modulePut s k (moduleMissed (tget {} s.brd.mods k))) .brdI3cFail := by
  have third : ∀ n : Nat, decide (2 ≤ n) = decide (3 ≤ n + 1) := fun n => decide_eq_decide.2 (by omega)
  unfold modulePolled moduleMissed
  rw [if_neg (by simp [h])]
  simp only [third]
  rfl

end

theorem modules_modulePut (s : State) (k : Nat) (m : Module) : (modulePut s k m).brd.mods = tset {} s.brd.mods k m := rfl

/-! ## Fans (R453, R496, R497) -/

/-- The fans as every 100 ms sets them, before what asks for full duty. -/
def fansSet (s : State) : State :=
  brdMod (periodic s 4 100000000) (fun b => { b with fans := (upto 8).map (fun n =>
    { (b.fans[n]?).getD {} with duty := if fanEnabled s n then fanDuty s (fanTemp s) else 100 }) })

theorem fanEnabled_iff (s : State) (n : Nat) : fanEnabled s n = true ↔ ¬ regField s brdAgent (0x510 + 4 * n) 0 1 = 0 := by
  have bit : regField s brdAgent (0x510 + 4 * n) 0 1 < 2 := Nat.mod_lt _ (by decide)
  unfold fanEnabled
  rw [decide_eq_true_iff]
  omega

/-- Forcing the duties decides nothing about them. -/
theorem fansFull_fansAtFull (s : State) : fansFull (fansAtFull s) = fansFull s := by
  have low : ∀ n : Nat, (((fansAtFull s).brd.fans[n]?).getD ({} : Fan)).low = ((s.brd.fans[n]?).getD ({} : Fan)).low := by
    intro n
    unfold fansAtFull
    rw [brdMod_brd, List.getElem?_map]
    cases s.brd.fans[n]? <;> rfl
  unfold fansFull
  simp only [low]
  rfl

theorem fanForce_eq (s : State) : fanForce s = if fansFull s = true then fansAtFull s else s := rfl

theorem fansFull_fanForce (s : State) : fansFull (fanForce s) = fansFull s := by
  rw [fanForce_eq]
  split
  · exact fansFull_fansAtFull s
  · rfl

/-- A fan after duties have been forced. -/
theorem fans_fanForce (s : State) (n : Nat) : (fanForce s).brd.fans[n]? =
    (s.brd.fans[n]?).map (fun f => { f with duty := if fansFull s = true then 100 else f.duty }) := by
  rw [fanForce_eq]
  split
  · exact List.getElem?_map
  · simp

theorem fanForce_brd (s : State) : fanForce s = { s with brd := { s.brd with fans := (fanForce s).brd.fans } } := by
  rw [fanForce_eq]
  split <;> rfl

theorem fansSet_fan (s : State) {n : Nat} (h : n < 8) : (fansSet s).brd.fans[n]? =
    some { (s.brd.fans[n]?).getD {} with duty := if fanEnabled s n then fanDuty s (fanTemp s) else 100 } := by
  unfold fansSet
  rw [brdMod_brd]
  dsimp only
  rw [(periodic_rest s 4 100000000).2.1, List.getElem?_map, upto, List.getElem?_range h, Option.map_some]


theorem length_fanForce (s : State) : (fanForce s).brd.fans.length = s.brd.fans.length := by
  rw [fanForce_eq]
  split
  · exact List.length_map _
  · rfl

theorem length_fansSet (s : State) : (fansSet s).brd.fans.length = 8 := by
  unfold fansSet
  rw [brdMod_brd]
  simp [upto]

/-- The duty of a fan every 100 ms. -/
theorem fanForce_fansSet_fan (s : State) {n : Nat} (h : n < 8) : ∃ f, (fanForce (fansSet s)).brd.fans[n]? = some f ∧
    f = { (s.brd.fans[n]?).getD {} with duty := f.duty } ∧
    f.duty = if fansFull (fanForce (fansSet s)) = true ∨ regField s brdAgent (0x510 + 4 * n) 0 1 = 0 then 100
      else fanDuty s (fanTemp s) := by
  rw [fans_fanForce, fansSet_fan s h, Option.map_some, fansFull_fanForce]
  refine ⟨_, rfl, rfl, ?_⟩
  dsimp only
  simp only [fanEnabled_iff]
  by_cases full : fansFull (fansSet s) = true
  · rw [if_pos full, if_pos (Or.inl full)]
  · rw [if_neg full]
    by_cases off : regField s brdAgent (0x510 + 4 * n) 0 1 = 0
    · rw [if_neg (not_not.2 off), if_pos (Or.inr off)]
    · rw [if_pos off, if_neg (not_or.2 ⟨full, off⟩)]

theorem fanForce_fansSet (s : State) : fanForce (fansSet s) =
    { periodic s 4 100000000 with brd := { s.brd with fans := (fanForce (fansSet s)).brd.fans } } := by
  conv_lhs => rw [fanForce_brd]
  unfold fansSet
  rw [brdMod_brd, (periodic_rest s 4 100000000).2.1]
  generalize periodic s 4 100000000 = u
  rfl

/-- Settles O49: a reading of the die by whether a sensor is hot, a poll by `poll_end_noTrip` and `poll_end_trip`, the fans by
`fanForce_fansSet_fan`, a second of the tachometers fan by fan. -/
theorem temperaturesAndFans : Obligations.TemperaturesAndFans := by
  unfold Obligations.TemperaturesAndFans
  refine ⟨⟨fun s temps => ?_, fun s reads => ?_, fun s k t p => ?_⟩, fun s => ?_, fan_temp, fan_duty, fun s pulses => ?_⟩
  · have e : exec (.dieTempRead temps) s = .next (dieRead s temps) := rfl
    rw [e]
    change (¬ dieHot s temps → _) ∧ (dieHot s temps → _) ∧ (dieHot s temps → _)
    refine ⟨fun h => ?_, fun h h0 => ?_, fun h h1 ht => ?_⟩
    · rw [dieRead_cool h]
      rfl
    · rw [dieRead_hotFirst h h0]
      rfl
    · rw [dieRead_trips h h1 ht]
      refine ⟨fun hs => ?_, fun hs => ?_⟩
      · rw [hs]
        rfl
      · rw [hs]
        rfl
  · dsimp only
    rw [poll_exec]
    generalize (List.range 32).foldl (fun x k => modulePolled x k ((reads[k]?).getD none)) (periodic s 9 8000000) = u
    exact ⟨fun h => congrArg Host.Outcome.next (poll_end_noTrip h), fun h => congrArg Host.Outcome.next (poll_end_trip h)⟩
  · refine ⟨fun h r => modulePolled_absent h r, fun h => ?_⟩
    dsimp only
    rw [modulePolled_read h, modulePolled_missed h]
    exact ⟨tget_tset_self _ _ _ _, fun j hj => tget_tset_other _ _ _ _ _ hj, rfl, tget_tset_self _ _ _ _,
      fun j hj => tget_tset_other _ _ _ _ _ hj, rfl⟩
  · refine ⟨fanForce (fansSet s), congrArg Host.Outcome.next (fan_general s), ?_, fanForce_fansSet s, fun n hn => ?_⟩
    · rw [length_fanForce, length_fansSet]
    · obtain ⟨f, hf, frame, duty⟩ := fanForce_fansSet_fan s hn
      exact ⟨f, hf, frame, duty, (periodic_rest s 4 100000000).1⟩
  · refine (tach_exec s pulses).trans ?_
    rw [show fanOne pulses = _ from funext fun x => funext fun n => tach_one pulses x n]
    rfl
end Sys2Proof.Machine
end
